-- ==== Sys2Proof/Word.lean ====
section
/-!
DEFINITION. Word.lean: the plain word types of the SY3240-MQ model, the type of a sparse table, and the types of command operands.
-/
namespace Sys2Proof

/-- One byte (R4: the module is little-endian, so byte 0 of a word is its least significant byte). -/
abbrev Byte := BitVec 8
/-- A control-space register word (R7). -/
abbrev Word := BitVec 32
/-- A packet-core or control-core general register (R113). -/
abbrev DWord := BitVec 64
/-- A sparse table: key and value pairs with strictly rising keys; an unlisted key reads a default that the reader names. -/
abbrev Map (β : Type) := List (Nat × β)

/-! ### Operands of commands -/

/-- A hardware thread: thread t of physical core k of station n (R144), or a control core (R139). -/
inductive Hart where
  | pkt (n : Fin 16) (k : Fin 10) (t : Fin 8)
  | ctl (c : Fin 4)
  deriving DecidableEq, Repr

/-- Who makes an access to memory or control space (R296 names the owner ids). -/
inductive Requester where
  | hart (h : Hart)
  | session (i : Fin 16)
  | dma (k : Fin 64)
  | image
  deriving DecidableEq, Repr

/-- An 802.1Q tag: TPID and TCI. -/
structure Tag where
  tpid : BitVec 16
  tci  : BitVec 16
  deriving DecidableEq, Repr

/-- What a search slot meets (R192, R236): for the scrubbers a difference or a shadow error, for a request an uncorrectable word. -/
inductive SlotErr where
  | clean | soft | shadowCorr | shadowUncorr | uncorr
  deriving DecidableEq, Repr

/-- What an ingress port first has of a frame (R38, R89): the lane of the port that its timestamp symbol passes, and its head window. -/
structure FrameHead where
  lane : Fin 8
  bytes : List Byte
  deriving DecidableEq, Repr

/-- What the training of a link finds (R89, R400): the lanes whose receive polarity it corrected, and each lane's skew to the port's
    first. -/
structure Training where
  inverted : List Nat
  skews : List Int
  deriving DecidableEq, Repr

/-- What a MAC tells of a frame when its verdict becomes final (R48): the link was lost, its MACsec ICV was wrong, the FCS it received,
    a symbol error, or an error in the sequence of its fragments (R225). -/
structure Verdict where
  linkLost : Bool := false
  icvBad   : Bool := false
  fcs      : BitVec 32 := 0
  symbol   : Bool := false
  fragment : Bool := false
  deriving DecidableEq, Repr

/-- A raise that reaches the fault collector from a condition of the module that no command of this table brings about (R356): its
    source, its context words (R359) and the unit it concerns (0: none). -/
structure Raised where
  src  : BitVec 8
  ctx  : List (BitVec 32) := []
  unit : BitVec 16 := 0
  /-- For COACH_ECC: the SEQ of the coach in error (R42). -/
  coach : Option (BitVec 32) := none
  deriving DecidableEq, Repr

/-- A JTAG instruction (R397); `other` is any that R397 does not list. -/
inductive Jtag where
  | bypass | idcode | samplePreload | extest | other
  deriving DecidableEq, Repr

/-- How a carrier-bus transaction ends (R396): with the bytes read, without an acknowledge of the address after 3 retries, or with
    SDA still low after the 9 clock pulses. -/
inductive BusEnd where
  | ok (bytes : List (BitVec 8)) | nack | stuck
  deriving DecidableEq, Repr

/-- What BIST reports (Table 15.7): parts that failed self-test, as UNIT numbers; DRAM channels that failed training; whether the OTP
    was read; the read of the carrier EEPROM; the outcome of the row repairs, in journal order. -/
structure Bist where
  failed    : List (BitVec 16) := []
  untrained : List (Fin 16) := []
  otpOk     : Bool := true
  eeprom    : BusEnd := .nack
  repairs   : List Bool := []
  deriving DecidableEq, Repr

end Sys2Proof
end

