-- ==== Sys2Proof/Syntax.lean ====
section
/-!
DEFINITION. Syntax.lean: the commands of the SY3240-MQ block, one constructor per row of spec/opcode_table.json, with the
operands the row's rule gives it. Times `t` are CI0 instants in units of 2^-48 ns (R58). A command that the block's own clocks
bring about carries no time: its meaning computes the instant.
-/
namespace Sys2Proof

/-- The commands, in the order of spec/opcode_table.json; each constructor names the row's rule. -/
inductive Instr where
  /-- REGISTER_WRITE (R10). -/
  | registerWrite (r : Requester) (a : BitVec 40) (v : Word)
  /-- POWER_UP (R350). -/
  | powerUp
  /-- RAILS_SEQUENCED (R390). -/
  | railsSequenced
  /-- REF_STABLE (R350). -/
  | refStable
  /-- ROOT_PLL_LOCK (R60). -/
  | rootPllLock (lead : Nat)
  /-- BIST_DONE (R350). -/
  | bistDone (r : Bist)
  /-- IMAGE_SELECT (R348). -/
  | imageSelect (failA failB : Bool)
  /-- IMAGE_LOAD_DONE (R340). -/
  | imageLoadDone (norFail : Bool)
  /-- PACKET_PATH_START (R15). -/
  | packetPathStart
  /-- EPOCH_BOUNDARY (R15). -/
  | epochBoundary
  /-- MIGRATION_PREP_DONE (R25). -/
  | migrationPrepDone (n : Fin 16) (ok : Bool)
  /-- MIGRATION_DONE (R25). -/
  | migrationDone (n : Fin 16)
  /-- FRAME_RECEIVE (R38). -/
  | frameReceive (p : Fin 34) (t len : Nat) (head : FrameHead)
  /-- LENS_SCAN_DONE (R173). -/
  | lensScanDone (q : BitVec 32)
  /-- BODY_CELL_ARRIVAL (R240). -/
  | bodyCellArrival (p : Fin 34) (bytes : List Byte)
  /-- VERDICT_FINAL (R48). -/
  | verdictFinal (p : Fin 34) (t : Nat) (v : Verdict)
  /-- ENTRY_SEARCH (R182). -/
  | entrySearch (q : BitVec 32)
  /-- INGRESS_STREAM_SEARCH (R207). -/
  | ingressStreamSearch (q : BitVec 32)
  /-- COACH_ENTER_S0 (R43). -/
  | coachEnterS0 (q : BitVec 32)
  /-- COUPLER_RELEASE (R30). -/
  | couplerRelease (n : Fin 16)
  /-- DISPATCH (R159). -/
  | dispatch (n : Fin 16)
  /-- DISPATCH_STALL (R33). -/
  | dispatchStall (n : Fin 16)
  /-- EGRESS_SELECTION (R226). -/
  | egressSelection (q : Fin 34)
  /-- COPY_TRANSMIT_END (R53). -/
  | copyTransmitEnd (q : Fin 34) (headParity bodyParity : Bool)
  /-- STN_MON_CLEAR (R28). -/
  | stnMonClear (n : Fin 16) (v : Word)
  /-- STN_EPOCH_LO_READ (R37). -/
  | stnEpochLoRead (path : Bool)
  /-- TIME_INCR_LO_WRITE (R62). -/
  | timeIncrLoWrite (n : Fin 9) (v : Word)
  /-- TIME_INCR_COMMIT (R62). -/
  | timeIncrCommit (n : Fin 9) (v : Word)
  /-- SLEW_START (R63). -/
  | slewStart (n : Fin 9) (v : Word)
  /-- SLEW_END (R63). -/
  | slewEnd (n : Fin 9)
  /-- STEP_ARM (R64). -/
  | stepArm (n : Fin 9) (v : Word)
  /-- STEP_APPLY (R64). -/
  | stepApply (n : Fin 9)
  /-- TIME_SEC_HI_READ (R67). -/
  | timeSecHiRead (n : Fin 9)
  /-- TIME_SNAP_TAKE (R67). -/
  | timeSnapTake
  /-- TIME_SNAP_RELEASE (R67). -/
  | timeSnapRelease
  /-- TIME_CONV_GO (R69). -/
  | timeConvGo (v : Word)
  /-- TIME_CONV_DONE (R69). -/
  | timeConvDone
  /-- TIME_OFS_WRITE (R70). -/
  | timeOfsWrite (n : Fin 9) (v : Word)
  /-- TIME_REF_SRC_CLEAR (R71). -/
  | timeRefSrcClear (n : Fin 9) (v : Word)
  /-- REF_TIMEOUT (R70). -/
  | refTimeout (n : Fin 9)
  /-- HOLD_INCR_UPDATE (R72). -/
  | holdIncrUpdate (n : Fin 9)
  /-- HOLDOVER_TCOMP (R72). -/
  | holdoverTcomp (n : Fin 9)
  /-- HOLDOVER_ELAPSED_TICK (R73). -/
  | holdoverElapsedTick (n : Fin 9)
  /-- WARM_SET (R75). -/
  | warmSet
  /-- OSC_MEASURE (R76). -/
  | oscMeasure
  /-- TIME_PARITY_ERROR (R77). -/
  | timeParityError (n : Fin 9)
  /-- TXTS_POP (R85). -/
  | txtsPop
  /-- DRIFT_MEASURE (R93). -/
  | driftMeasure (l : Fin 35) (d : BitVec 16)
  /-- TRIG_ENABLE (R97). -/
  | trigEnable (n : Fin 24) (v : Word)
  /-- TRIG_DISABLE (R98). -/
  | trigDisable (n : Fin 24) (v : Word)
  /-- TRIG_ENTRY_READ (R97). -/
  | trigEntryRead (n : Fin 24)
  /-- TRIG_ENTRY_WRITE (R98). -/
  | trigEntryWrite (n : Fin 24) (e : Fin 64) (w : Fin 8) (v : Word)
  /-- TRIG_EDGE_COMMIT (R96). -/
  | trigEdgeCommit (n : Fin 24)
  /-- TRIG_EDGE_DRIVE (R96). -/
  | trigEdgeDrive (i : Fin 28)
  /-- PPSO_PULSE (R105). -/
  | ppsoPulse (k : Fin 4)
  /-- EVT_EDGE (R100). -/
  | evtEdge (i : Fin 16) (t : Nat) (falling : Bool)
  /-- EVTQ_POP (R101). -/
  | evtqPop
  /-- PPS_IN_EDGE (R103). -/
  | ppsInEdge (k : Fin 2) (t : Nat) (falling : Bool)
  /-- PPS_IN_LOST (R103). -/
  | ppsInLost (k : Fin 2)
  /-- PPSI_SEC_HI_READ (R104). -/
  | ppsiSecHiRead (k : Fin 2)
  /-- DRIVER_SHORT_GND (R108). -/
  | driverShortGnd (c : Fin 28)
  /-- DRIVER_SHORT_NET (R108). -/
  | driverShortNet (c : Fin 28)
  /-- DRIVER_THERMAL (R108). -/
  | driverThermal (c : Fin 28)
  /-- DRIVER_OPEN_TEST (R108). -/
  | driverOpenTest (c : Fin 28) (exceeds : Bool)
  /-- DIAG_CLEAR (R108). -/
  | diagClear (i : Fin 28) (v : Word)
  /-- POLARITY_INVERT (R109). -/
  | polarityInvert (i : Fin 18)
  /-- INPUT_OVERVOLTAGE (R107). -/
  | inputOvervoltage (i : Fin 18)
  /-- TIO_RESUME (R111). -/
  | tioResume
  /-- ADD (R117). -/
  | add (h : Hart) (rd ra rb : BitVec 5)
  /-- SUB (R117). -/
  | sub (h : Hart) (rd ra rb : BitVec 5)
  /-- AND (R117). -/
  | and (h : Hart) (rd ra rb : BitVec 5)
  /-- OR (R117). -/
  | or (h : Hart) (rd ra rb : BitVec 5)
  /-- XOR (R117). -/
  | xor (h : Hart) (rd ra rb : BitVec 5)
  /-- ANDN (R117). -/
  | andn (h : Hart) (rd ra rb : BitVec 5)
  /-- SLL (R117). -/
  | sll (h : Hart) (rd ra rb : BitVec 5)
  /-- SRL (R117). -/
  | srl (h : Hart) (rd ra rb : BitVec 5)
  /-- SRA (R117). -/
  | sra (h : Hart) (rd ra rb : BitVec 5)
  /-- SLT (R117). -/
  | slt (h : Hart) (rd ra rb : BitVec 5)
  /-- SLTU (R117). -/
  | sltu (h : Hart) (rd ra rb : BitVec 5)
  /-- MIN (R117). -/
  | min (h : Hart) (rd ra rb : BitVec 5)
  /-- MAX (R117). -/
  | max (h : Hart) (rd ra rb : BitVec 5)
  /-- MINU (R117). -/
  | minu (h : Hart) (rd ra rb : BitVec 5)
  /-- MAXU (R117). -/
  | maxu (h : Hart) (rd ra rb : BitVec 5)
  /-- MUL (R118). -/
  | mul (h : Hart) (rd ra rb : BitVec 5)
  /-- MULH (R118). -/
  | mulh (h : Hart) (rd ra rb : BitVec 5)
  /-- MULHU (R118). -/
  | mulhu (h : Hart) (rd ra rb : BitVec 5)
  /-- REVH (R117). -/
  | revh (h : Hart) (rd ra : BitVec 5)
  /-- REVW (R117). -/
  | revw (h : Hart) (rd ra : BitVec 5)
  /-- REVD (R117). -/
  | revd (h : Hart) (rd ra : BitVec 5)
  /-- CLZ (R117). -/
  | clz (h : Hart) (rd ra : BitVec 5)
  /-- CTZ (R117). -/
  | ctz (h : Hart) (rd ra : BitVec 5)
  /-- POPC (R117). -/
  | popc (h : Hart) (rd ra : BitVec 5)
  /-- ADDI (R117). -/
  | addi (h : Hart) (rd ra : BitVec 5) (imm : BitVec 16)
  /-- ANDI (R117). -/
  | andi (h : Hart) (rd ra : BitVec 5) (imm : BitVec 16)
  /-- ORI (R117). -/
  | ori (h : Hart) (rd ra : BitVec 5) (imm : BitVec 16)
  /-- XORI (R117). -/
  | xori (h : Hart) (rd ra : BitVec 5) (imm : BitVec 16)
  /-- SLLI (R117). -/
  | slli (h : Hart) (rd ra : BitVec 5) (n : BitVec 6)
  /-- SRLI (R117). -/
  | srli (h : Hart) (rd ra : BitVec 5) (n : BitVec 6)
  /-- SRAI (R117). -/
  | srai (h : Hart) (rd ra : BitVec 5) (n : BitVec 6)
  /-- SLTI (R117). -/
  | slti (h : Hart) (rd ra : BitVec 5) (imm : BitVec 16)
  /-- SLTIU (R117). -/
  | sltiu (h : Hart) (rd ra : BitVec 5) (imm : BitVec 16)
  /-- LUI (R117). -/
  | lui (h : Hart) (rd : BitVec 5) (imm : BitVec 16)
  /-- INS16 (R117). -/
  | ins16 (h : Hart) (rd : BitVec 5) (k : BitVec 2) (imm : BitVec 16)
  /-- BFX (R117). -/
  | bfx (h : Hart) (rd ra : BitVec 5) (lsb wm1 : BitVec 6) (signed : Bool)
  /-- BFI (R117). -/
  | bfi (h : Hart) (rd ra : BitVec 5) (lsb wm1 : BitVec 6)
  /-- LB (R123). -/
  | lb (h : Hart) (rd ra : BitVec 5) (imm : BitVec 16)
  /-- LBU (R123). -/
  | lbu (h : Hart) (rd ra : BitVec 5) (imm : BitVec 16)
  /-- LH (R123). -/
  | lh (h : Hart) (rd ra : BitVec 5) (imm : BitVec 16)
  /-- LHU (R123). -/
  | lhu (h : Hart) (rd ra : BitVec 5) (imm : BitVec 16)
  /-- LW (R123). -/
  | lw (h : Hart) (rd ra : BitVec 5) (imm : BitVec 16)
  /-- LWU (R123). -/
  | lwu (h : Hart) (rd ra : BitVec 5) (imm : BitVec 16)
  /-- LD (R124). -/
  | ld (h : Hart) (rd ra : BitVec 5) (imm : BitVec 16)
  /-- SB (R123). -/
  | sb (h : Hart) (rs ra : BitVec 5) (imm : BitVec 16)
  /-- SH (R123). -/
  | sh (h : Hart) (rs ra : BitVec 5) (imm : BitVec 16)
  /-- SW (R123). -/
  | sw (h : Hart) (rs ra : BitVec 5) (imm : BitVec 16)
  /-- SD (R123). -/
  | sd (h : Hart) (rs ra : BitVec 5) (imm : BitVec 16)
  /-- BEQ (R127). -/
  | beq (h : Hart) (ra rb : BitVec 5) (off : BitVec 16)
  /-- BNE (R127). -/
  | bne (h : Hart) (ra rb : BitVec 5) (off : BitVec 16)
  /-- BLT (R127). -/
  | blt (h : Hart) (ra rb : BitVec 5) (off : BitVec 16)
  /-- BGE (R127). -/
  | bge (h : Hart) (ra rb : BitVec 5) (off : BitVec 16)
  /-- BLTU (R127). -/
  | bltu (h : Hart) (ra rb : BitVec 5) (off : BitVec 16)
  /-- BGEU (R127). -/
  | bgeu (h : Hart) (ra rb : BitVec 5) (off : BitVec 16)
  /-- DBNZ (R127). -/
  | dbnz (h : Hart) (ra : BitVec 5) (off : BitVec 16)
  /-- JAL (R127). -/
  | jal (h : Hart) (off : BitVec 26)
  /-- JR (R127). -/
  | jr (h : Hart) (ra : BitVec 5)
  /-- JALR (R127). -/
  | jalr (h : Hart) (ra : BitVec 5)
  /-- RET (R127). -/
  | ret (h : Hart)
  /-- MFLK (R127). -/
  | mflk (h : Hart) (rd : BitVec 5)
  /-- MTLK (R127). -/
  | mtlk (h : Hart) (ra : BitVec 5)
  /-- CHRD (R154). -/
  | chrd (h : Hart) (rd : BitVec 5) (ch : BitVec 4)
  /-- CHRD_RESUME (R154). -/
  | chrdResume (n : Fin 16) (k : Fin 10) (t : Fin 8)
  /-- CHWR (R154). -/
  | chwr (h : Hart) (ra : BitVec 5) (ch : BitVec 4) (last : Bool)
  /-- CHWR_RESUME (R154). -/
  | chwrResume (n : Fin 16) (k : Fin 10) (t : Fin 8)
  /-- CHPOLL (R154). -/
  | chpoll (h : Hart) (rd : BitVec 5) (ch : BitVec 4)
  /-- CHFLUSH (R157). -/
  | chflush (h : Hart) (ch : BitVec 4)
  /-- FORK (R149). -/
  | fork (h : Hart) (rd ra rb : BitVec 5)
  /-- JOIN (R150). -/
  | join (h : Hart) (rd ra : BitVec 5)
  /-- JOIN_RESUME (R150). -/
  | joinResume (n : Fin 16) (k : Fin 10) (t : Fin 8)
  /-- QUIT (R150). -/
  | quit (h : Hart)
  /-- NOW (R161). -/
  | tauNow (h : Hart) (xs : BitVec 3) (ra rb : BitVec 5)
  /-- CONV (R161). -/
  | tauConv (h : Hart) (xs : BitVec 3) (ra rb : BitVec 5)
  /-- ADDNS (R161). -/
  | tauAddns (h : Hart) (xs : BitVec 3) (ra rb : BitVec 5)
  /-- DIFF (R161). -/
  | tauDiff (h : Hart) (xs : BitVec 3) (ra rb : BitVec 5)
  /-- RESID (R161). -/
  | tauResid (h : Hart) (xs : BitVec 3) (ra rb : BitVec 5)
  /-- CRC32C (R164). -/
  | hshCrc32c (h : Hart) (xs : BitVec 3) (ra rb : BitVec 5)
  /-- CRC32 (R164). -/
  | hshCrc32 (h : Hart) (xs : BitVec 3) (ra rb : BitVec 5)
  /-- CRC0 (R164). -/
  | hshCrc0 (h : Hart) (xs : BitVec 3) (ra rb : BitVec 5)
  /-- HASH (R164). -/
  | hshHash (h : Hart) (xs : BitVec 3) (ra rb : BitVec 5)
  /-- ACQ (R165). -/
  | cryAcq (h : Hart) (xs : BitVec 3) (ra rb : BitVec 5)
  /-- REL (R165). -/
  | cryRel (h : Hart) (xs : BitVec 3) (ra rb : BitVec 5)
  /-- TAG (R166). -/
  | cryTag (h : Hart) (xs : BitVec 3) (ra rb : BitVec 5)
  /-- VERIFY (R166). -/
  | cryVerify (h : Hart) (xs : BitVec 3) (ra rb : BitVec 5)
  /-- SYNC (R166). -/
  | crySync (h : Hart) (xs : BitVec 3) (ra rb : BitVec 5)
  /-- XOP_RESUME (R161). -/
  | xopResume (n : Fin 16) (k : Fin 10) (t : Fin 8)
  /-- XOP_RESULT (R161). -/
  | xopResult (n : Fin 16) (k : Fin 10) (t xs : Fin 8)
  /-- XOP_LATE_ERROR (R163). -/
  | xopLateError (n : Fin 16) (k : Fin 10) (t xs : Fin 8)
  /-- CRY_LOCK_GRANT (R165). -/
  | cryLockGrant (n : Fin 16)
  /-- XGET (R161). -/
  | xget (h : Hart) (rd : BitVec 5) (xs : BitVec 3) (word : BitVec 2)
  /-- XGET_RESUME (R161). -/
  | xgetResume (n : Fin 16) (k : Fin 10) (t : Fin 8)
  /-- SRQ_CLAUSE (R183). -/
  | srqClause (h : Hart) (port : BitVec 2) (ra rb : BitVec 5)
  /-- SRQ_FDB (R197). -/
  | srqFdb (h : Hart) (port : BitVec 2) (ra rb : BitVec 5)
  /-- SRQ_LPM (R204). -/
  | srqLpm (h : Hart) (port : BitVec 2) (ra rb : BitVec 5)
  /-- SRQ_STREAM (R206). -/
  | srqStream (h : Hart) (port : BitVec 2) (ra rb : BitVec 5)
  /-- SRQ_TREAD (R197). -/
  | srqTread (h : Hart) (port : BitVec 2) (ra rb : BitVec 5)
  /-- SRQ_RESUME (R156). -/
  | srqResume (n : Fin 16) (k : Fin 10) (t : Fin 8)
  /-- FENCE (R141). -/
  | fence (h : Hart)
  /-- TRAP (R133). -/
  | trap (h : Hart) (imm : BitVec 16)
  /-- TRES (R136). -/
  | tres (h : Hart) (rd ra : BitVec 5) (t : BitVec 3)
  /-- TENT (R136). -/
  | tent (h : Hart) (rd : BitVec 5) (t : BitVec 3)
  /-- TRDW (R136). -/
  | trdw (h : Hart) (rd k : BitVec 5) (t : BitVec 3)
  /-- TWRW (R136). -/
  | twrw (h : Hart) (k ra : BitVec 5) (t : BitVec 3)
  /-- TSTAT (R136). -/
  | tstat (h : Hart) (rd : BitVec 5) (t : BitVec 3)
  /-- TRAP_ITEM_DEFERRED_SEND (R134). -/
  | trapItemDeferredSend (n : Fin 16) (k : Fin 10)
  /-- ERET (R140). -/
  | eret (h : Hart)
  /-- MFSR (R141). -/
  | mfsr (h : Hart) (rd : BitVec 5) (sr : BitVec 8)
  /-- MTSR (R141). -/
  | mtsr (h : Hart) (sr : BitVec 8) (ra : BitVec 5)
  /-- WFI (R141). -/
  | wfi (h : Hart)
  /-- TLBI (R141). -/
  | tlbi (h : Hart) (ra : BitVec 5)
  /-- TLBIA (R141). -/
  | tlbia (h : Hart)
  /-- DCWB (R141). -/
  | dcwb (h : Hart) (ra : BitVec 5)
  /-- DCINV (R141). -/
  | dcinv (h : Hart) (ra : BitVec 5)
  /-- ICINV (R141). -/
  | icinv (h : Hart) (ra : BitVec 5)
  /-- L2_EVICT_ACK (R280). -/
  | l2EvictAck (c : Fin 4)
  /-- CTL_INTERRUPT (R292). -/
  | ctlInterrupt (c : Fin 4)
  /-- STANDSTILL (R160). -/
  | standstill (n : Fin 16) (k : Fin 10)
  /-- RAW_ENABLE (R176). -/
  | rawEnable (j : Fin 8) (v : Word)
  /-- RAW_DISABLE (R177). -/
  | rawDisable (j : Fin 8) (v : Word)
  /-- RAW_HUNT_MATCH (R176). -/
  | rawHuntMatch (j : Fin 8) (l : List Byte)
  /-- RAW_CONFIRM_CHECK (R176). -/
  | rawConfirmCheck (j : Fin 8) (l : List Byte)
  /-- RAW_FRAME_DELIVER (R177). -/
  | rawFrameDeliver (j : Fin 8) (t : Nat) (l : List Byte)
  /-- SEARCH_SLOT_SERVE (R181). -/
  | searchSlotServe (eng : Fin 5) (e : SlotErr) (margins : List (BitVec 8 × BitVec 16))
  /-- SEARCH_RESULT (R181). -/
  | searchResult (eng : Fin 5)
  /-- LEARN_ITEM_RUN (R201). -/
  | learnItemRun
  /-- CLAUSE_INSERT (R185). -/
  | clauseInsert (g : Fin 32)
  /-- CLAUSE_DELETE (R185). -/
  | clauseDelete (g : Fin 32)
  /-- PRIV_WRITE (R186). -/
  | privWrite (g : Fin 32)
  /-- PRIV_CLEAR (R185). -/
  | privClear (g : Fin 32)
  /-- CLAUSE_READ (R185). -/
  | clauseRead (g : Fin 32)
  /-- CLAUSE_UPDATE_DONE (R185). -/
  | clauseUpdateDone
  /-- CLAUSE_UPDATE_STALL (R187). -/
  | clauseUpdateStall
  /-- CLAUSE_TENSE_COMMIT (R188). -/
  | clauseTenseCommit
  /-- CLAUSE_TENSE_ABORT (R190). -/
  | clauseTenseAbort
  /-- CLAUSE_TENSE_VOID (R190). -/
  | clauseTenseVoid
  /-- TENSE_COMMIT_EFFECT (R188). -/
  | tenseCommitEffect
  /-- TENSE_ABORT_DONE (R190). -/
  | tenseAbortDone
  /-- SETTLE_PASS_START (R189). -/
  | settlePassStart
  /-- SETTLE_PASS_DONE (R189). -/
  | settlePassDone
  /-- TENSE_DRAIN_CHECK (R189). -/
  | tenseDrainCheck
  /-- CLAUSE_BLOCK_COPY_DONE (R193). -/
  | clauseBlockCopyDone
  /-- AGE_TICK (R203). -/
  | ageTick
  /-- AGE_TICK_WRITE (R203). -/
  | ageTickWrite (v : Word)
  /-- FRER_LATENT_CHECK (R211). -/
  | frerLatentCheck
  /-- FDB_WRITE (R213). -/
  | fdbWrite
  /-- FDB_DELETE (R213). -/
  | fdbDelete
  /-- FDB_FLUSH (R213). -/
  | fdbFlush
  /-- LPM_ADD (R205). -/
  | lpmAdd
  /-- LPM_DELETE (R205). -/
  | lpmDelete
  /-- STR_INSERT (R213). -/
  | strInsert
  /-- STR_DELETE (R213). -/
  | strDelete
  /-- PARAM_WRITE (R209). -/
  | paramWrite
  /-- FRER_RESET (R210). -/
  | frerReset
  /-- FWD_READ (R213). -/
  | fwdRead
  /-- FWD_UPDATE_DONE (R213). -/
  | fwdUpdateDone
  /-- FWD_PORT_SKIND_WRITE (R207). -/
  | fwdPortSkindWrite (p : Fin 34) (v : Word)
  /-- EGR_QUOTA_WRITE (R217). -/
  | egrQuotaWrite (q : Fin 34) (c : Fin 8) (v : Word)
  /-- GCL_ARM (R221). -/
  | gclArm (q : Fin 32) (v : Word)
  /-- GCL_BANK_SWITCH (R221). -/
  | gclBankSwitch (q : Fin 32)
  /-- GATE_BOUNDARY (R220). -/
  | gateBoundary (q : Fin 32)
  /-- PREEMPT_VERIFY_SEND (R225). -/
  | preemptVerifySend (q : Fin 32)
  /-- PREEMPT_VERIFY_RESPONSE (R225). -/
  | preemptVerifyResponse (q : Fin 32)
  /-- PREEMPT_VERIFY_FAIL (R225). -/
  | preemptVerifyFail (q : Fin 32)
  /-- QUEUE_FLUSH (R229). -/
  | queueFlush (q : Fin 34) (c : Fin 8)
  /-- REFUSAL_NOTICE (R233). -/
  | refusalNotice
  /-- YARD_SCRUB_STEP (R236). -/
  | yardScrubStep (e : SlotErr) (margins : List (BitVec 8 × BitVec 16))
  /-- POOL_GET (R241). -/
  | poolGet (r : Requester) (k : Fin 5)
  /-- POOL_PUT (R242). -/
  | poolPut (r : Requester) (v : Word)
  /-- POOL_GIVE (R242). -/
  | poolGive (r : Requester) (c : Fin 5) (v : Word)
  /-- POOL_MIN_CLEAR (R244). -/
  | poolMinClear (k : Fin 5) (v : Word)
  /-- AUDIT_SEL_WRITE (R246). -/
  | auditSelWrite (v : Word)
  /-- AUDIT_PASS_END (R246). -/
  | auditPassEnd (t : Nat)
  /-- REWIND_RECORD_WRITE (R249). -/
  | rewindRecordWrite
  /-- REW_CTL_ENABLE (R251). -/
  | rewCtlEnable
  /-- REW_CTL_DISABLE (R251). -/
  | rewCtlDisable
  /-- REW_CTL_FREEZE (R251). -/
  | rewCtlFreeze
  /-- REWIND_POST_END (R251). -/
  | rewindPostEnd
  /-- REWIND_FROZEN_ENTRY (R251). -/
  | rewindFrozenEntry
  /-- REW_CTL_RESUME (R252). -/
  | rewCtlResume
  /-- REW_CTL_DRAIN (R253). -/
  | rewCtlDrain
  /-- REW_CTL_ABORT (R253). -/
  | rewCtlAbort
  /-- DRAIN_FRAME_SEND (R254). -/
  | drainFrameSend
  /-- DRAIN_COMPLETE (R253). -/
  | drainComplete
  /-- DRAIN_PACE_CONTINUE (R255). -/
  | drainPaceContinue
  /-- DRAIN_STALL (R255). -/
  | drainStall
  /-- REW_LO_READ (R258). -/
  | rewLoRead (i : Fin 4)
  /-- DRAM_SLOT_SERVE (R262). -/
  | dramSlotServe (ch : Fin 16) (e : SlotErr)
  /-- REFRESH_ISSUE (R263). -/
  | refreshIssue (ch : Fin 16) (issued : Bool)
  /-- MR4_READ (R265). -/
  | mr4Read (rates : Word)
  /-- EXTRA_REFRESH (R265). -/
  | extraRefresh (ch : Fin 16)
  /-- SELF_REFRESH_ENTRY (R269). -/
  | selfRefreshEntry (ch : Fin 16)
  /-- SELF_REFRESH_EXIT (R269). -/
  | selfRefreshExit (ch : Fin 16)
  /-- SMC_FREQ_GO (R270). -/
  | smcFreqGo (v : Word)
  /-- DPHY_PLL_LOCK (R270). -/
  | dphyPllLock (t : Nat)
  /-- FREQ_CHANGE_COMPLETE (R270). -/
  | freqChangeComplete
  /-- FREQ_CHANGE_FAIL (R271). -/
  | freqChangeFail
  /-- SMC_RETIRE_GO (R274). -/
  | smcRetireGo (v : Word)
  /-- RETIRE_COPY_DONE (R275). -/
  | retireCopyDone
  /-- IOTLB_INVALIDATE (R286). -/
  | iotlbInvalidate (v : Word)
  /-- IOTLB_INVALIDATE_DONE (R286). -/
  | iotlbInvalidateDone
  /-- TASK_ALLOC (R289). -/
  | taskAlloc
  /-- TASK_POST (R289). -/
  | taskPost (t : Fin 1024)
  /-- TASK_TAKE (R289). -/
  | taskTake (c : Fin 4)
  /-- TASK_YIELD (R289). -/
  | taskYield (c : Fin 4) (t : Fin 1024)
  /-- TASK_PREEMPT (R289). -/
  | taskPreempt (c : Fin 4) (t : Fin 1024)
  /-- TASK_DONE (R289). -/
  | taskDone (c : Fin 4) (t : Fin 1024)
  /-- TASK_FREE (R289). -/
  | taskFree (t : Fin 1024)
  /-- TASK_SLOT_CFG_WRITE (R289). -/
  | taskSlotCfgWrite (t : Fin 1024) (v : Word)
  /-- WATCHDOG_KICK (R295). -/
  | watchdogKick (c : Fin 4) (v : Word)
  /-- WATCHDOG_HALF (R295). -/
  | watchdogHalf (c : Fin 4)
  /-- WATCHDOG_EXPIRE (R295). -/
  | watchdogExpire (c : Fin 4)
  /-- LOCK_ACQUIRE (R298). -/
  | lockAcquire (r : Requester) (a : BitVec 39)
  /-- LOCK_ALIAS_STORE (R300). -/
  | lockAliasStore (r : Requester) (a : BitVec 39) (v : Word)
  /-- LEASE_TICK (R301). -/
  | leaseTick
  /-- STUCK_LOCK_CHECK (R302). -/
  | stuckLockCheck
  /-- LOCK_BREAK_GO (R302). -/
  | lockBreakGo
  /-- DMA_ENABLE (R308). -/
  | dmaEnable (k : Fin 64) (v : Word)
  /-- DMA_KICK (R309). -/
  | dmaKick (k : Fin 64)
  /-- DMA_DESCRIPTOR_START (R306). -/
  | dmaDescriptorStart (e : Fin 4)
  /-- DMA_TX_CONTINUE (R317). -/
  | dmaTxContinue (k : Fin 64)
  /-- DMA_DESCRIPTOR_COMPLETE (R312). -/
  | dmaDescriptorComplete (e : Fin 4) (upTo : Nat)
  /-- DMA_RESUME (R313). -/
  | dmaResume (k : Fin 64)
  /-- DMA_SKIP (R313). -/
  | dmaSkip (k : Fin 64)
  /-- DMA_ABORT (R313). -/
  | dmaAbort (k : Fin 64)
  /-- RX_RING_WRITE (R318). -/
  | rxRingWrite (headParity bodyParity : Bool)
  /-- RING_SEEN_WRITE (R315). -/
  | ringSeenWrite (k : Fin 64) (v : Word)
  /-- JEN_FRAME_RECEIVE (R320). -/
  | jenFrameReceive (p : Fin 34) (t : Nat) (f : List Byte)
  /-- PING (R329). -/
  | ping
  /-- READ (R329). -/
  | read
  /-- WRITE (R329). -/
  | write
  /-- READ_BLOCK (R329). -/
  | readBlock
  /-- TABLE_WRITE (R329). -/
  | tableWrite
  /-- TENSE_COMMIT (R329). -/
  | tenseCommit
  /-- TENSE_COMMIT_ABORT (R329). -/
  | tenseCommitAbort
  /-- TENSE_COMMIT_VOID (R329). -/
  | tenseCommitVoid
  /-- STATE_QUERY (R329). -/
  | stateQuery
  /-- UNIT_RESET (R374). -/
  | unitReset
  /-- UNIT_FENCE (R373). -/
  | unitFence
  /-- UNIT_UNFENCE (R374). -/
  | unitUnfence
  /-- UNIT_RESET_DONE (R374). -/
  | unitResetDone (u : BitVec 16)
  /-- UNIT_RESET_TIMEOUT (R374). -/
  | unitResetTimeout (u : BitVec 16)
  /-- LOCK_BREAK (R302). -/
  | lockBreak
  /-- AUDIT_READ (R329). -/
  | auditRead
  /-- FAULT_CLEAR (R364). -/
  | faultClear
  /-- JOURNAL_READ (R329). -/
  | journalRead
  /-- IMAGE_WRITE (R329). -/
  | imageWrite
  /-- IMAGE_WRITE_DONE (R330). -/
  | imageWriteDone
  /-- IMAGE_ACTIVATE_NEXT (R353). -/
  | imageActivateNext
  /-- IMAGE_ACTIVATE_NOW (R353). -/
  | imageActivateNow
  /-- IMAGE_ACTIVATE_RESTART (R353). -/
  | imageActivateRestart
  /-- TIME_SET (R329). -/
  | timeSet
  /-- TIME_ADJUST_INCR (R62). -/
  | timeAdjustIncr
  /-- TIME_ADJUST_SLEW (R63). -/
  | timeAdjustSlew
  /-- REWIND_FREEZE (R251). -/
  | rewindFreeze
  /-- REWIND_FREEZE_RESUME (R252). -/
  | rewindFreezeResume
  /-- REWIND_DRAIN_START (R253). -/
  | rewindDrainStart
  /-- REWIND_DRAIN_ABORT (R253). -/
  | rewindDrainAbort
  /-- PLACEMENT_READ (R329). -/
  | placementRead
  /-- SPARE_RETIRE (R329). -/
  | spareRetire
  /-- NOTICE_CONFIG (R333). -/
  | noticeConfig
  /-- SESSION_OPEN (R323). -/
  | sessionOpen
  /-- SESSION_CLOSE (R324). -/
  | sessionClose
  /-- SESSION_IDLE_CLOSE (R324). -/
  | sessionIdleClose (i : Fin 16)
  /-- JEN_ACK (R335). -/
  | jenAck (p : Fin 34) (t : Nat) (f : List Byte)
  /-- NOTICE_RESEND (R334). -/
  | noticeResend
  /-- MODULE_RESET (R355). -/
  | moduleReset (v : Word)
  /-- RESET_N_ASSERT (R394). -/
  | resetNAssert
  /-- RESET_N_RELEASE (R394). -/
  | resetNRelease
  /-- FAULT_LATCH (R356). -/
  | faultLatch (n : Nat) (others : List Raised)
  /-- HALT_RESET (R361). -/
  | haltReset
  /-- COLLECTOR_PARITY_ERROR (R363). -/
  | collectorParityError (t : Nat) (place : Fin 3) (w : BitVec 8)
  /-- FAULT_PEND_CLEAR (R364). -/
  | faultPendClear (w : Fin 8) (v : Word)
  /-- FLT_REARM (R365). -/
  | fltRearm (v : Word)
  /-- JOURNAL_WRITE_DONE (R368). -/
  | journalWriteDone
  /-- JOURNAL_MEM_FAIL (R370). -/
  | journalMemFail (on : Bool)
  /-- AVAIL_RECORD (R381). -/
  | availRecord
  /-- CORE_ROTATION (R376). -/
  | coreRotation (n : Fin 16)
  /-- ROTATION_TEST_DONE (R376). -/
  | rotationTestDone (n : Fin 16) (pass : Bool) (age : BitVec 16)
  /-- BLOCK_ROTATION (R377). -/
  | blockRotation
  /-- LANE_AGING_MEASURE (R378). -/
  | laneAgingMeasure (margins : List (BitVec 16))
  /-- LINK_UP (R400). -/
  | linkUp (p : Fin 33) (t : Nat) (training : Training)
  /-- LINK_DOWN (R400). -/
  | linkDown (p : Fin 33) (t : Nat) (lanes : List Nat) (partner cut : Bool)
  /-- CDC_PULSE_MERGE (R384). -/
  | cdcPulseMerge (x : BitVec 8)
  /-- REF_LOST (R385). -/
  | refLost (on : Bool)
  /-- CLK_MONITOR (R385). -/
  | clkMonitor (on : Bool)
  /-- PWR_OSC (R385). -/
  | pwrOsc (on : Bool)
  /-- LANE_PLL_LOSS (R385). -/
  | lanePllLoss (p : Fin 2) (on : Bool)
  /-- ROOT_UNLOCK (R77). -/
  | rootUnlock
  /-- VIN_OVER (R387). -/
  | vinOver (vin : BitVec 16)
  /-- VIN_UNDER (R387). -/
  | vinUnder (vin : BitVec 16)
  /-- VIN_REVERSED (R387). -/
  | vinReversed (vin : BitVec 16)
  /-- VIN_CLAMP (R387). -/
  | vinClamp
  /-- INPUT_DISCONNECT (R386). -/
  | inputDisconnect (t : Nat) (vin : BitVec 16)
  /-- INPUT_LOSS (R388). -/
  | inputLoss (t : Nat) (vin : BitVec 16)
  /-- LOSS_CONFIRM (R388). -/
  | lossConfirm
  /-- RAILS_OFF (R388). -/
  | railsOff (t : Nat)
  /-- CONV_FAULT (R387). -/
  | convFault (r : Fin 6) (on : Bool)
  /-- THERMAL_MEASURE (R392). -/
  | thermalMeasure (temps : Vector (BitVec 8) 8)
  /-- WAKE_DROP (R387). -/
  | wakeDrop (t : Nat)
  /-- LOW_POWER_ENTER (R391). -/
  | lowPowerEnter
  /-- PWR_CTL_ENTER (R391). -/
  | pwrCtlEnter (v : Word)
  /-- PWR_CTL_HOLD (R391). -/
  | pwrCtlHold (v : Word)
  /-- WAKE_ASSERT (R391). -/
  | wakeAssert (t : Nat)
  /-- HOLDUP_TEST (R389). -/
  | holdupTest (energy : BitVec 16)
  /-- CBUS_TRANSACTION (R396). -/
  | cbusTransaction (v : Word)
  /-- CBUS_DONE (R396). -/
  | cbusDone (e : BusEnd)
  /-- MDIO_ADDRESS (R396). -/
  | mdioAddress (m : Fin 2) (v : Word)
  /-- MDIO_WRITE (R396). -/
  | mdioWrite (m : Fin 2) (v : Word)
  /-- MDIO_READ (R396). -/
  | mdioRead (m : Fin 2) (v : Word)
  /-- MDIO_READ_INC (R396). -/
  | mdioReadInc (m : Fin 2) (v : Word)
  /-- MDIO_DONE (R396). -/
  | mdioDone (m : Fin 2) (data : BitVec 16)
  /-- JTAG_INSTRUCTION (R397). -/
  | jtagInstruction (i : Jtag)
  /-- PIN_COMMIT (R399). -/
  | pinCommit (v : Word)
  /-- PIN_DRIVE_START (R399). -/
  | pinDriveStart (c : Fin 28)
  /-- HOLDUP_READY (R389). -/
  | holdupReady
  /-- INPUT_RECONNECT (R386). -/
  | inputReconnect (t : Nat) (vin : BitVec 16)
  /-- DIP_END (R388). -/
  | dipEnd (t : Nat) (vin : BitVec 16)
  /-- IMAGE_VERIFY_DONE (R330). -/
  | imageVerifyDone
  /-- YARD_BANK_COPY_DONE (R237). -/
  | yardBankCopyDone
  /-- CLAUSE_BLOCK_TEST_DONE (R377). -/
  | clauseBlockTestDone (ok : Bool)
  /-- WFI_WAKE (R141). -/
  | wfiWake (c : Fin 4)
  deriving DecidableEq, Repr

end Sys2Proof
end

