-- ==== Sys2Proof/WellFormed.lean ====
section
/-!
DEFINITION. WellFormed.lean: the operands a command can carry beyond what their types say. A meaning is total: `exec` does not ask for
this.
-/
namespace Sys2Proof

/-- A carrier-bus read returns at most 16 bytes (Table 17.16). -/
def readFits : BusEnd → Bool
  | .ok l => decide (l.length ≤ 16)
  | .nack => true
  | .stuck => true

/-- A frame whose head window is its first 192 body bytes (R38); a yard cell of at most 256 bytes (R240); lanes,
clause blocks and yard banks that exist (R6, R178, R235); a part of a class with spares (Table 14.3); an address of control space (R7). -/
def wellFormed (i : Instr) : Bool :=
  match i with
  | .registerWrite _ a _ => decide (a.toNat < 2 ^ 39)
  | .bistDone r => r.failed.all (fun u => [2, 4, 7, 9].contains (u.toNat / 256)) && readFits r.eeprom
  | .frameReceive _ _ len head => decide (head.bytes.length = min len 192)
  | .bodyCellArrival _ bytes => decide (0 < bytes.length) && decide (bytes.length ≤ 256)
  | .searchSlotServe _ _ margins => margins.all (fun e => decide (e.1.toNat < 48))
  | .yardScrubStep _ margins => margins.all (fun e => decide (e.1.toNat < 192))
  | .jenFrameReceive _ _ f => decide (f.length ≤ 9212)
  | .jenAck _ _ f => decide (f.length ≤ 9212)
  | .laneAgingMeasure margins => decide (margins.length ≤ 34)
  | .linkUp _ _ tr => tr.inverted.all (fun l => decide (l < 32)) && decide (tr.skews.length ≤ 8)
  | .linkDown _ _ lanes _ _ => lanes.all (fun l => decide (l < 32))
  | .cbusDone e => readFits e
  | .powerUp | .railsSequenced | .refStable | .rootPllLock .. | .imageSelect .. | .imageLoadDone .. | .packetPathStart
  | .epochBoundary | .migrationPrepDone .. | .migrationDone .. | .lensScanDone .. | .verdictFinal .. | .entrySearch ..
  | .ingressStreamSearch .. | .coachEnterS0 .. | .couplerRelease .. | .dispatch .. | .dispatchStall ..
  | .egressSelection .. | .copyTransmitEnd .. | .stnMonClear .. | .stnEpochLoRead .. | .timeIncrLoWrite ..
  | .timeIncrCommit .. | .slewStart .. | .slewEnd .. | .stepArm .. | .stepApply .. | .timeSecHiRead .. | .timeSnapTake
  | .timeSnapRelease | .timeConvGo .. | .timeConvDone | .timeOfsWrite .. | .timeRefSrcClear .. | .refTimeout ..
  | .holdIncrUpdate .. | .holdoverTcomp .. | .holdoverElapsedTick .. | .warmSet | .oscMeasure | .timeParityError ..
  | .txtsPop | .driftMeasure .. | .trigEnable .. | .trigDisable .. | .trigEntryRead .. | .trigEntryWrite ..
  | .trigEdgeCommit .. | .trigEdgeDrive .. | .ppsoPulse .. | .evtEdge .. | .evtqPop | .ppsInEdge .. | .ppsInLost ..
  | .ppsiSecHiRead .. | .driverShortGnd .. | .driverShortNet .. | .driverThermal .. | .driverOpenTest ..
  | .diagClear .. | .polarityInvert .. | .inputOvervoltage .. | .tioResume | .add .. | .sub .. | .and .. | .or ..
  | .xor .. | .andn .. | .sll .. | .srl .. | .sra .. | .slt .. | .sltu .. | .min .. | .max .. | .minu .. | .maxu ..
  | .mul .. | .mulh .. | .mulhu .. | .revh .. | .revw .. | .revd .. | .clz .. | .ctz .. | .popc .. | .addi ..
  | .andi .. | .ori .. | .xori .. | .slli .. | .srli .. | .srai .. | .slti .. | .sltiu .. | .lui .. | .ins16 ..
  | .bfx .. | .bfi .. | .lb .. | .lbu .. | .lh .. | .lhu .. | .lw .. | .lwu .. | .ld .. | .sb .. | .sh .. | .sw ..
  | .sd .. | .beq .. | .bne .. | .blt .. | .bge .. | .bltu .. | .bgeu .. | .dbnz .. | .jal .. | .jr .. | .jalr ..
  | .ret .. | .mflk .. | .mtlk .. | .chrd .. | .chrdResume .. | .chwr .. | .chwrResume .. | .chpoll .. | .chflush ..
  | .fork .. | .join .. | .joinResume .. | .quit .. | .tauNow .. | .tauConv .. | .tauAddns .. | .tauDiff ..
  | .tauResid .. | .hshCrc32c .. | .hshCrc32 .. | .hshCrc0 .. | .hshHash .. | .cryAcq .. | .cryRel .. | .cryTag ..
  | .cryVerify .. | .crySync .. | .xopResume .. | .xopResult .. | .xopLateError .. | .cryLockGrant .. | .xget ..
  | .xgetResume .. | .srqClause .. | .srqFdb .. | .srqLpm .. | .srqStream .. | .srqTread .. | .srqResume .. | .fence ..
  | .trap .. | .tres .. | .tent .. | .trdw .. | .twrw .. | .tstat .. | .trapItemDeferredSend .. | .eret .. | .mfsr ..
  | .mtsr .. | .wfi .. | .tlbi .. | .tlbia .. | .dcwb .. | .dcinv .. | .icinv .. | .l2EvictAck .. | .ctlInterrupt ..
  | .standstill .. | .rawEnable .. | .rawDisable .. | .rawHuntMatch .. | .rawConfirmCheck .. | .rawFrameDeliver ..
  | .searchResult .. | .learnItemRun | .clauseInsert .. | .clauseDelete .. | .privWrite .. | .privClear ..
  | .clauseRead .. | .clauseUpdateDone | .clauseUpdateStall | .clauseTenseCommit | .clauseTenseAbort | .clauseTenseVoid
  | .tenseCommitEffect | .tenseAbortDone | .settlePassStart | .settlePassDone | .tenseDrainCheck | .clauseBlockCopyDone
  | .ageTick | .ageTickWrite .. | .frerLatentCheck | .fdbWrite | .fdbDelete | .fdbFlush | .lpmAdd | .lpmDelete
  | .strInsert | .strDelete | .paramWrite | .frerReset | .fwdRead | .fwdUpdateDone | .fwdPortSkindWrite ..
  | .egrQuotaWrite .. | .gclArm .. | .gclBankSwitch .. | .gateBoundary .. | .preemptVerifySend ..
  | .preemptVerifyResponse .. | .preemptVerifyFail .. | .queueFlush .. | .refusalNotice | .poolGet .. | .poolPut ..
  | .poolGive .. | .poolMinClear .. | .auditSelWrite .. | .auditPassEnd .. | .rewindRecordWrite | .rewCtlEnable
  | .rewCtlDisable | .rewCtlFreeze | .rewindPostEnd | .rewindFrozenEntry | .rewCtlResume | .rewCtlDrain | .rewCtlAbort
  | .drainFrameSend | .drainComplete | .drainPaceContinue | .drainStall | .rewLoRead .. | .dramSlotServe ..
  | .refreshIssue .. | .mr4Read .. | .extraRefresh .. | .selfRefreshEntry .. | .selfRefreshExit .. | .smcFreqGo ..
  | .dphyPllLock .. | .freqChangeComplete | .freqChangeFail | .smcRetireGo .. | .retireCopyDone | .iotlbInvalidate ..
  | .iotlbInvalidateDone | .taskAlloc | .taskPost .. | .taskTake .. | .taskYield .. | .taskPreempt .. | .taskDone ..
  | .taskFree .. | .taskSlotCfgWrite .. | .watchdogKick .. | .watchdogHalf .. | .watchdogExpire .. | .lockAcquire ..
  | .lockAliasStore .. | .leaseTick | .stuckLockCheck | .lockBreakGo | .dmaEnable .. | .dmaKick ..
  | .dmaDescriptorStart .. | .dmaTxContinue .. | .dmaDescriptorComplete .. | .dmaResume .. | .dmaSkip .. | .dmaAbort ..
  | .rxRingWrite .. | .ringSeenWrite .. | .ping | .read | .write | .readBlock | .tableWrite | .tenseCommit
  | .tenseCommitAbort | .tenseCommitVoid | .stateQuery | .unitReset | .unitFence | .unitUnfence | .unitResetDone ..
  | .unitResetTimeout .. | .lockBreak | .auditRead | .faultClear | .journalRead | .imageWrite | .imageWriteDone
  | .imageActivateNext | .imageActivateNow | .imageActivateRestart | .timeSet | .timeAdjustIncr | .timeAdjustSlew
  | .rewindFreeze | .rewindFreezeResume | .rewindDrainStart | .rewindDrainAbort | .placementRead | .spareRetire
  | .noticeConfig | .sessionOpen | .sessionClose | .sessionIdleClose .. | .noticeResend | .moduleReset ..
  | .resetNAssert | .resetNRelease | .faultLatch .. | .haltReset | .collectorParityError .. | .faultPendClear ..
  | .fltRearm .. | .journalWriteDone | .journalMemFail .. | .availRecord | .coreRotation .. | .rotationTestDone ..
  | .blockRotation | .cdcPulseMerge .. | .refLost .. | .clkMonitor .. | .pwrOsc .. | .lanePllLoss .. | .rootUnlock
  | .vinOver .. | .vinUnder .. | .vinReversed .. | .vinClamp | .inputDisconnect .. | .inputLoss .. | .lossConfirm
  | .railsOff .. | .convFault .. | .thermalMeasure .. | .wakeDrop .. | .lowPowerEnter | .pwrCtlEnter ..
  | .pwrCtlHold .. | .wakeAssert .. | .holdupTest .. | .cbusTransaction .. | .mdioAddress .. | .mdioWrite ..
  | .mdioRead .. | .mdioReadInc .. | .mdioDone .. | .jtagInstruction .. | .pinCommit .. | .pinDriveStart ..
  | .holdupReady | .inputReconnect .. | .dipEnd .. | .imageVerifyDone | .yardBankCopyDone | .clauseBlockTestDone ..
  | .wfiWake .. => true

end Sys2Proof
end

