-- ==== Sys2Proof/Machine/Bits.lean ====
section
/-!
DEFINITION. Machine/Bits.lean: bit fields, byte strings, sign extension and saturating counts, once.
-/
namespace Sys2Proof.Machine

/-- Bits [lo+len-1:lo] of a number. -/
def bitsOf (v lo len : Nat) : Nat := v / 2 ^ lo % 2 ^ len

/-- The field [lo+len-1:lo] of a word, as a number. -/
def getField {n : Nat} (w : BitVec n) (lo len : Nat) : Nat := (w.extractLsb' lo len).toNat

/-- The word with its field [lo+len-1:lo] replaced by the low `len` bits of `v`; every other bit is kept. -/
def putField {n : Nat} (w : BitVec n) (lo len v : Nat) : BitVec n :=
  let mask : BitVec n := BitVec.ofNat n ((2 ^ len - 1) * 2 ^ lo)
  (w &&& ~~~mask) ||| (BitVec.ofNat n (v % 2 ^ len * 2 ^ lo))

/-- A field of a word read as two's complement. -/
def getSigned {n : Nat} (w : BitVec n) (lo len : Nat) : Int := (w.extractLsb' lo len).toInt

/-- `v` limited to the largest value of a `len`-bit count (every count of R10 saturates). -/
def satur (len v : Nat) : Nat := min v (2 ^ len - 1)

/-- The low `len` bits of an integer in two's complement, as a number. -/
def intBits (len : Nat) (v : Int) : Nat := (v % (2 ^ len : Int)).toNat

/-- `n` bytes of a number, least significant first (R4). -/
def bytesLE : Nat → Nat → List Byte
  | 0, _ => []
  | n + 1, v => BitVec.ofNat 8 v :: bytesLE n (v / 256)

/-- `n` bytes of a number, most significant first (network order, R328). -/
def bytesBE (n v : Nat) : List Byte := (bytesLE n v).reverse

/-- The number that little-endian bytes spell. -/
def fromLE : List Byte → Nat
  | [] => 0
  | b :: t => b.toNat + 256 * fromLE t

/-- The number that network-order bytes spell. -/
def fromBE (l : List Byte) : Nat := fromLE l.reverse

/-- `n` bytes from position `i`, with 0 beyond the end. -/
def slice (l : List Byte) (i n : Nat) : List Byte :=
  let t := (l.drop i).take n
  t ++ List.replicate (n - t.length) 0

/-- A little-endian field of a byte string. -/
def le (l : List Byte) (i n : Nat) : Nat := fromLE (slice l i n)

/-- A network-order field of a byte string. -/
def be (l : List Byte) (i n : Nat) : Nat := fromBE (slice l i n)

/-- Bytes of `l` replaced from position `i` by those of `v`; the length stays. -/
def patch (l : List Byte) (i : Nat) (v : List Byte) : List Byte :=
  l.take i ++ v.take (l.length - i) ++ l.drop (i + v.length)

/-- Whether a bit of a number is 1. -/
def bitAt (v i : Nat) : Bool := v.testBit i

/-- The number with bit `i` set. -/
def withBit (v i : Nat) : Nat := v ||| 2 ^ i

/-- The number with bit `i` cleared. -/
def withoutBit (v i : Nat) : Nat := if v.testBit i then v - 2 ^ i else v

/-- How many of the low `n` bits are 1. -/
def popCount : Nat → Nat → Nat
  | 0, _ => 0
  | n + 1, v => v % 2 + popCount n (v / 2)

/-- The positions of the ones among the low `n` bits, lowest first. -/
def onesOf (n v : Nat) : List Nat := (List.range n).filter (fun i => v.testBit i)

/-- Whether a list is strictly rising in its keys. -/
def risingFrom {β : Type} : Nat → Map β → Bool
  | _, [] => true
  | lo, (k, _) :: t => decide (lo ≤ k) && risingFrom (k + 1) t

/-- A read of a sparse table: the listed value, else the default of that key. -/
def aget {β : Type} (d : Nat → β) : Map β → Nat → β
  | [], k => d k
  | (k', v) :: t, k => if k = k' then v else aget d t k

/-- An entry takes its place among rising keys. -/
def ainsert {β : Type} : Map β → Nat → β → Map β
  | [], k, v => [(k, v)]
  | (k', v') :: t, k, v =>
    if k < k' then (k, v) :: (k', v') :: t
    else if k = k' then (k, v) :: t
    else (k', v') :: ainsert t k v

/-- A write of a sparse table that keeps the canonical form: rising keys, no entry equal to the default of its key. -/
def aset {β : Type} [DecidableEq β] (d : Nat → β) (m : Map β) (k : Nat) (v : β) : Map β :=
  if v = d k then m.filter (fun e => e.1 != k) else ainsert m k v

/-- The canonical form of a sparse table: keys strictly rising, no entry equal to what its key reads unlisted. -/
def awf {β : Type} [DecidableEq β] (d : Nat → β) (m : Map β) : Bool :=
  risingFrom 0 m && m.all (fun e => decide (e.2 ≠ d e.1))

end Sys2Proof.Machine
end

