-- ==== Sys2Proof/Machine/Crypto.lean ====
section
/-!
DEFINITION. Machine/Crypto.lean: the checks and tags the spec names by standard: CRC-32C (R39), crc0 (R52), the CRC-32 of IEEE
802.3 (R164), SHA-256 and HMAC-SHA-256 (R322, R340), ECDSA P-256 (R340), AES, GCM, GMAC and CMAC (R166).
-/
namespace Sys2Proof.Machine

/-! ### CRC -/

/-- Eight shifts of a reflected CRC register. -/
def crcShift (poly : Nat) : Nat → Nat → Nat
  | 0, c => c
  | n + 1, c => crcShift poly n (if c % 2 = 1 then (c / 2) ^^^ poly else c / 2)

/-- A reflected CRC over bytes, from register value `c`. -/
def crcRun (poly c : Nat) (l : List Byte) : Nat := l.foldl (fun c b => crcShift poly 8 (c ^^^ b.toNat)) c

/-- CRC-32C (R39): polynomial 0x1EDC6F41 reflected, initial value and final XOR all ones. -/
def crc32c (l : List Byte) : Nat := crcRun 0x82F63B78 0xFFFFFFFF l ^^^ 0xFFFFFFFF

/-- crc0 (R52): CRC-32C with initial value 0 and no final XOR. -/
def crc0 (l : List Byte) : Nat := crcRun 0x82F63B78 0 l

/-- The CRC-32 of IEEE 802.3, the FCS (R164). -/
def crc32 (l : List Byte) : Nat := crcRun 0xEDB88320 0xFFFFFFFF l ^^^ 0xFFFFFFFF

/-! ### SHA-256 (FIPS 180-4) and HMAC -/

/-- The first 64 primes: every composite below 312 has a divisor up to 17. -/
def primes64 : List Nat := (List.range 312).drop 2 |>.filter (fun n => [2, 3, 5, 7, 11, 13, 17].all (fun d => n == d || n % d != 0))

/-- The integer `k`-th root of `n`, a root below 2^b, found bit by bit from the top. -/
def rootBits (k n : Nat) : Nat → Nat → Nat
  | 0, r => r
  | b + 1, r => rootBits k n b (if (r + 2 ^ b) ^ k ≤ n then r + 2 ^ b else r)

/-- The first 32 bits of the fraction of the `k`-th root of `p`. -/
def rootFraction (k p : Nat) : Nat := rootBits k (p * 2 ^ (32 * k)) 37 0 % 2 ^ 32

/-- The round constants, from the cube roots of the first 64 primes (FIPS 180-4, 4.2.2), and the initial hash, from the square roots of
    the first eight (5.3.3). -/
def shaRounds : List Nat := primes64.map (rootFraction 3)
def shaStart : List Nat := (primes64.take 8).map (rootFraction 2)

/-- Rotation right of a 32-bit value. -/
def rotr32 (x n : Nat) : Nat := (x / 2 ^ n) ||| (x * 2 ^ (32 - n) % 2 ^ 32)

/-- The message schedule, newest word first, from the 16 words of a block. -/
def shaExpand : Nat → List Nat → List Nat
  | 0, w => w
  | n + 1, w =>
    let g := fun i => w.getD i 0
    let s0 := rotr32 (g 14) 7 ^^^ rotr32 (g 14) 18 ^^^ (g 14 / 8)
    let s1 := rotr32 (g 1) 17 ^^^ rotr32 (g 1) 19 ^^^ (g 1 / 1024)
    shaExpand n ((g 15 + s0 + g 6 + s1) % 2 ^ 32 :: w)

/-- One round of SHA-256. -/
def shaRound (v : List Nat) (kw : Nat × Nat) : List Nat :=
  match v with
  | [a, b, c, d, e, f, g, h] =>
    let s1 := rotr32 e 6 ^^^ rotr32 e 11 ^^^ rotr32 e 25
    let ch := (e &&& f) ^^^ ((2 ^ 32 - 1 - e) &&& g)
    let t1 := h + s1 + ch + kw.1 + kw.2
    let s0 := rotr32 a 2 ^^^ rotr32 a 13 ^^^ rotr32 a 22
    let mj := (a &&& b) ^^^ (a &&& c) ^^^ (b &&& c)
    [(t1 + s0 + mj) % 2 ^ 32, a, b, c, (d + t1) % 2 ^ 32, e, f, g]
  | v => v

/-- A list cut into pieces of `n`; `fuel` bounds the number of pieces. -/
def chunks {α : Type} (n : Nat) : Nat → List α → List (List α)
  | 0, _ => []
  | _ + 1, [] => []
  | fuel + 1, l => l.take n :: chunks n fuel (l.drop n)

def shaBlock (h : List Nat) (blk : List Byte) : List Nat :=
  let w := (shaExpand 48 ((chunks 4 16 blk).map fromBE).reverse).reverse
  let v := (List.zip shaRounds w).foldl shaRound h
  (h.zip v).map (fun p => (p.1 + p.2) % 2 ^ 32)

/-- SHA-256 of a byte string. -/
def sha256 (m : List Byte) : List Byte :=
  let n := m.length
  let pad := (119 - n % 64) % 64
  let padded := m ++ [0x80#8] ++ List.replicate pad 0 ++ bytesBE 8 (n * 8)
  ((chunks 64 (n / 64 + 2) padded).foldl shaBlock shaStart).flatMap (bytesBE 4)

def xorBytes (a b : List Byte) : List Byte := (a.zip b).map (fun p => p.1 ^^^ p.2)

/-- HMAC-SHA-256 (R322). -/
def hmac (key m : List Byte) : List Byte :=
  let k := (if 64 < key.length then sha256 key else key)
  let k := k ++ List.replicate (64 - k.length) 0
  sha256 (k.map (· ^^^ 0x5c#8) ++ sha256 (k.map (· ^^^ 0x36#8) ++ m))

/-! ### AES (FIPS 197) -/

/-- Multiplication by x in the AES field. -/
def xtime (b : Nat) : Nat := if 128 ≤ b then (b * 2 % 256) ^^^ 0x1b else b * 2

/-- Multiplication in the AES field. -/
def gmul : Nat → Nat → Nat → Nat
  | 0, _, _ => 0
  | n + 1, a, b => (if b % 2 = 1 then a else 0) ^^^ gmul n (xtime a) (b / 2)

/-- The multiplicative inverse in the AES field, a^254. -/
def ginv (a : Nat) : Nat :=
  let m := fun x y => gmul 8 x y
  let a2 := m a a
  let a3 := m a2 a
  let a6 := m a3 a3
  let a12 := m a6 a6
  let a15 := m a12 a3
  let a30 := m a15 a15
  let a60 := m a30 a30
  let a63 := m a60 a3
  let a126 := m a63 a63
  let a127 := m a126 a
  m a127 a127

def rotl8 (x n : Nat) : Nat := (x * 2 ^ n % 256) ||| (x / 2 ^ (8 - n))

/-- The AES S-box. -/
def sbox (b : Nat) : Nat :=
  let i := ginv b
  i ^^^ rotl8 i 1 ^^^ rotl8 i 2 ^^^ rotl8 i 3 ^^^ rotl8 i 4 ^^^ 0x63

/-- The key schedule words after the key itself, newest first; `nk` is 4 or 8. -/
def keyExpand (nk : Nat) : Nat → Nat → Nat → List (List Nat) → List (List Nat)
  | 0, _, _, w => w
  | fuel + 1, i, rcon, w =>
    let t := w.getD 0 []
    let t' :=
      if i % nk = 0 then
        match (t.drop 1 ++ t.take 1).map sbox with
        | a :: r => (a ^^^ rcon) :: r
        | [] => []
      else if nk = 8 ∧ i % 8 = 4 then t.map sbox else t
    let rcon := if i % nk = 0 then xtime rcon else rcon
    keyExpand nk fuel (i + 1) rcon (((w.getD (nk - 1) []).zip t').map (fun p => p.1 ^^^ p.2) :: w)

/-- The round keys, 16 bytes each, of a 16- or 32-byte key. -/
def aesKeys (key : List Byte) : List (List Nat) :=
  let nk := key.length / 4
  let w0 := (chunks 4 8 (key.map (·.toNat))).reverse
  let w := (keyExpand nk ((nk + 7) * 4 - nk) nk 1 w0).reverse
  (chunks 4 15 w).map List.flatten

def mixColumn (c : List Nat) : List Nat :=
  let g := fun i => c.getD (i % 4) 0
  (List.range 4).map (fun i => xtime (g i) ^^^ (xtime (g (i + 1)) ^^^ g (i + 1)) ^^^ g (i + 2) ^^^ g (i + 3))

def shiftRows (s : List Nat) : List Nat := (List.range 16).map (fun i => s.getD ((i + 4 * (i % 4)) % 16) 0)

def xorNats (a b : List Nat) : List Nat := (a.zip b).map (fun p => p.1 ^^^ p.2)

/-- AES encryption of one 16-byte block. -/
def aesBlock (key blk : List Byte) : List Byte :=
  let ks := aesKeys key
  let s := xorNats (blk.map (·.toNat)) (ks.headD [])
  let mid := (ks.drop 1).take (ks.length - 2)
  let s := mid.foldl (fun s k => xorNats ((chunks 4 4 (shiftRows (s.map sbox))).flatMap mixColumn) k) s
  (xorNats (shiftRows (s.map sbox)) (ks.getLastD [])).map (BitVec.ofNat 8)

/-! ### GHASH, GCM and CMAC -/

/-- The product in GF(2^128) of GHASH; both operands have their first bit as bit 127. -/
def gfMul : Nat → Nat → Nat → Nat → Nat
  | 0, _, _, z => z
  | n + 1, x, v, z =>
    gfMul n (x * 2 % 2 ^ 128) (if v % 2 = 1 then (v / 2) ^^^ (0xe1 * 2 ^ 120) else v / 2)
      (if 2 ^ 127 ≤ x then z ^^^ v else z)

/-- Zero padding to a multiple of 16 bytes. -/
def pad16 (l : List Byte) : List Byte := l ++ List.replicate ((16 - l.length % 16) % 16) 0

def ghash (h : Nat) (l : List Byte) : Nat :=
  (chunks 16 (l.length / 16 + 1) l).foldl (fun y b => gfMul 128 (y ^^^ fromBE b) h 0) 0

/-- Counter-mode stream XOR from counter block `c`. -/
def gcmCtr (key : List Byte) (iv : List Byte) (ctr : Nat) (m : List Byte) : List Byte :=
  ((chunks 16 (m.length / 16 + 1) m).zipIdx).flatMap (fun p => xorBytes p.1 (aesBlock key (iv ++ bytesBE 4 (ctr + p.2))))

/-- The GCM tag over associated data and ciphertext, with a 12-byte IV (NIST SP 800-38D). -/
def gcmTag (key iv aad ct : List Byte) : List Byte :=
  let h := fromBE (aesBlock key (List.replicate 16 0))
  let s := ghash h (pad16 aad ++ pad16 ct ++ bytesBE 8 (aad.length * 8) ++ bytesBE 8 (ct.length * 8))
  xorBytes (bytesBE 16 s) (aesBlock key (iv ++ bytesBE 4 1))

/-- Doubling in GF(2^128) for the CMAC subkeys (NIST SP 800-38B). -/
def cmacDbl (k : Nat) : Nat := if 2 ^ 127 ≤ k then (k * 2 % 2 ^ 128) ^^^ 0x87 else k * 2

/-- AES-CMAC. -/
def cmac (key m : List Byte) : List Byte :=
  let k1 := cmacDbl (fromBE (aesBlock key (List.replicate 16 0)))
  let n := (m.length + 15) / 16
  let body := (n - 1) * 16
  let last := m.drop body
  let final := if last.length = 16 then fromBE last ^^^ k1
    else fromBE (slice (last ++ [0x80#8]) 0 16) ^^^ cmacDbl k1
  let x := (chunks 16 n (m.take body)).foldl (fun x b => fromBE (aesBlock key (bytesBE 16 (x ^^^ fromBE b)))) 0
  aesBlock key (bytesBE 16 (x ^^^ final))

/-! ### ECDSA P-256 (FIPS 186-5) -/

def p256P : Nat := 0xffffffff00000001000000000000000000000000ffffffffffffffffffffffff
def p256N : Nat := 0xffffffff00000000ffffffffffffffffbce6faada7179e84f3b9cac2fc632551
def p256B : Nat := 0x5ac635d8aa3a93e7b3ebbd55769886bc651d06b0cc53b0f63bce3c3e27d2604b
def p256G : Nat × Nat × Nat :=
  (0x6b17d1f2e12c4247f8bce6e563a440f277037d812deb33a0f4a13945d898c296,
   0x4fe342e2fe1a7f9b8ee7eb4a7c0f9e162bce33576b315ececbb6406837bf51f5, 1)

/-- Modular power by squaring; `fuel` bounds the bits of the exponent. -/
def powMod (m : Nat) : Nat → Nat → Nat → Nat
  | 0, _, _ => 1
  | fuel + 1, b, e => if e = 0 then 1 else
    let r := powMod m fuel (b * b % m) (e / 2)
    if e % 2 = 1 then r * b % m else r

/-- The inverse modulo a prime. -/
def invMod (m a : Nat) : Nat := powMod m 256 a (m - 2)

def subMod (a b : Nat) : Nat := (a + p256P - b % p256P) % p256P

/-- Doubling in Jacobian coordinates; z = 0 is the point at infinity. -/
def ecDbl (q : Nat × Nat × Nat) : Nat × Nat × Nat :=
  let (x, y, z) := q
  if z = 0 then q else
  let p := p256P
  let s := 4 * x * (y * y % p) % p
  let z2 := z * z % p
  let m := 3 * (subMod x z2) * ((x + z2) % p) % p
  let x' := subMod (m * m % p) (2 * s)
  let y4 := (y * y % p) * (y * y % p) % p
  (x', subMod (m * (subMod s x') % p) (8 * y4), 2 * y * z % p)

/-- Addition in Jacobian coordinates. -/
def ecAdd (a b : Nat × Nat × Nat) : Nat × Nat × Nat :=
  let (x1, y1, z1) := a
  let (x2, y2, z2) := b
  if z1 = 0 then b else if z2 = 0 then a else
  let p := p256P
  let u1 := x1 * (z2 * z2 % p) % p
  let u2 := x2 * (z1 * z1 % p) % p
  let s1 := y1 * (z2 * z2 % p * z2 % p) % p
  let s2 := y2 * (z1 * z1 % p * z1 % p) % p
  if u1 = u2 then (if s1 = s2 then ecDbl a else (1, 1, 0)) else
  let h := subMod u2 u1
  let r := subMod s2 s1
  let h2 := h * h % p
  let h3 := h2 * h % p
  let v := u1 * h2 % p
  let x3 := subMod (subMod (r * r % p) h3) (2 * v)
  (x3, subMod (r * (subMod v x3) % p) (s1 * h3), h * z1 % p * z2 % p)

/-- Scalar multiplication; `fuel` bounds the bits of the scalar. -/
def ecMul : Nat → Nat → Nat × Nat × Nat → Nat × Nat × Nat
  | 0, _, _ => (1, 1, 0)
  | fuel + 1, k, q => if k = 0 then (1, 1, 0) else
    let r := ecMul fuel (k / 2) (ecDbl q)
    if k % 2 = 1 then ecAdd r q else r

/-- ECDSA P-256 verification of a message hash under a public key (x, y), all big-endian 32-byte strings (R340). -/
def ecdsaVerify (x y r s hash : List Byte) : Bool :=
  let qx := fromBE x
  let qy := fromBE y
  let r := fromBE r
  let s := fromBE s
  let onCurve := qx < p256P && qy < p256P && qy * qy % p256P == (qx * qx % p256P * qx + (p256P - 3) * qx + p256B) % p256P
  if !onCurve || r = 0 || s = 0 || p256N ≤ r || p256N ≤ s then false else
  let w := invMod p256N s
  let u1 := fromBE hash * w % p256N
  let u2 := r * w % p256N
  let (px, _, pz) := ecAdd (ecMul 256 u1 p256G) (ecMul 256 u2 (qx, qy, 1))
  if pz = 0 then false else
  let zi := invMod p256P pz
  (px * (zi * zi % p256P) % p256P) % p256N == r

end Sys2Proof.Machine
end

