-- ==== Sys2Proof/Config.lean ====
section
/-!
DEFINITION. Config.lean: the values the spec leaves open. Every constant here is opaque, so no proof sees what it is.
-/
namespace Sys2Proof.Config

/-- A value the spec leaves open, drawn afresh: the argument is the model's own counter `State.freeCtr` (log entry 3). -/
opaque freeValue : (w : Nat) → Nat → BitVec w

/-- The bytes of the boot ROM and its recovery firmware, whose contents the spec does not give (R349; log entry 4). -/
opaque bootRom : Nat → BitVec 8

/-- The MAC address of a port of the module, which the spec names and does not give (R320; log entry 4). -/
opaque portAddr : Nat → BitVec 48

/-- The bank and the row of a physical DRAM burst of a channel, which the spec does not map (R267, R272; log entry 4). -/
opaque dramBank : Nat → Nat
opaque dramRow : Nat → Nat

/-- MACsec protection of a frame on a port that terminates MACsec: the protected frame, and how many bytes it adds. The spec gives
    neither the cipher suite nor the keys (log entry 36). -/
opaque macsecProtect : Nat → List (BitVec 8) → List (BitVec 8)
opaque macsecGrow : Nat → Nat

end Sys2Proof.Config
end

