-- ==== Sys2Proof/Machine/Sources.lean ====
section
/-!
DEFINITION. Machine/Sources.lean: the 256 event sources of Table 16.1 (R358): their numbers, default classes and kinds.
-/
namespace Sys2Proof.Machine.Src

def vinOver : Nat := 0
def vinUnder : Nat := 1
def vinReversed : Nat := 2
def vinClamp : Nat := 3
def vinLost : Nat := 4
def holdupWeak : Nat := 5
/-- CONV_CORE, _SRAM, _DRAM, _IO, _LANE, _AUX for rail r = 0 to 5. -/
def conv (r : Nat) : Nat := 6 + r
def tempZ (z : Nat) : Nat := 12 + z
def thermalTrip : Nat := 20
def wakeDrop : Nat := 21
def pwrOsc : Nat := 22
def agingCore : Nat := 23
def agingSram : Nat := 24
def agingLane : Nat := 25
def otpRead : Nat := 26
/-- NOR_A and NOR_B. -/
def nor (slot : Nat) : Nat := 27 + slot
def journalMem : Nat := 29
def imageFallback : Nat := 30
def carrierId : Nat := 31
def rootUnlock : Nat := 32
def refLost : Nat := 33
def lanePll (p : Nat) : Nat := 34 + p
def dphyPll : Nat := 36
def cdcOverrun : Nat := 37
def clkMonitor : Nat := 38
def holdoverEnter : Nat := 39
def holdoverLimit : Nat := 40
def timeStep : Nat := 41
/-- CIn_ALARM for n = 1 to 8. -/
def ciAlarm (n : Nat) : Nat := 41 + n
def ppsLost (k : Nat) : Nat := 50 + k
def ppsDisagree : Nat := 52
def evtOverrun : Nat := 53
def trigLate : Nat := 54
def tsFifoOverrun : Nat := 55
def oscAging : Nat := 56
def timeParity : Nat := 57
def gateListLate : Nat := 58
def launchLate : Nat := 59
def ptpTrapRate : Nat := 60
def asymCalFail : Nat := 61
def tsCalDrift : Nat := 62
def timeSafeState : Nat := 63
def lane (n : Nat) : Nat := 64 + n
def stnFault (n : Nat) : Nat := 96 + n
def stnBudget (n : Nat) : Nat := 112 + n
def parseErrRate : Nat := 128
def lensOverrun : Nat := 129
def rawAlign (j : Nat) : Nat := 130 + j
def missLimit : Nat := 138
def clauseSoft : Nat := 139
def clauseSpared : Nat := 140
def clauseUpdateStall : Nat := 141
def tenseDrain : Nat := 142
def tenseExhausted : Nat := 143
def learnFail : Nat := 144
def learnMove : Nat := 145
def fdbEcc : Nat := 146
def trieEcc : Nat := 147
def streamEcc : Nat := 148
def frerLatent : Nat := 149
def frerRogue : Nat := 150
def qciGate : Nat := 151
def qciMeterRed : Nat := 152
def ageScanLate : Nat := 153
def replicaPartial : Nat := 154
def couplerFull : Nat := 155
def dispatchStall : Nat := 156
def cryptoAuth : Nat := 157
def cryptoPn : Nat := 158
def hashEcc : Nat := 159
def yardCorr : Nat := 160
def yardUncorr : Nat := 161
def yardSpared : Nat := 162
def poolEmpty (k : Nat) : Nat := 163 + k
def poolDoubleFree : Nat := 168
def poolForeignFree : Nat := 169
def poolLeakAge : Nat := 170
def poolAuditFull : Nat := 171
def dramCorr : Nat := 172
def dramUncorr : Nat := 173
def dramPpr : Nat := 174
def dramRetire : Nat := 175
def dramTrain : Nat := 176
def dramRefresh : Nat := 177
def dramThermal : Nat := 178
def carriageBad : Nat := 179
def headBad : Nat := 180
def fcsRate : Nat := 181
def stompSent : Nat := 182
def sidingHigh : Nat := 183
def sidingFull : Nat := 184
def rewindFrozen : Nat := 185
def rewindDrainStall : Nat := 186
def stnMemEcc : Nat := 187
def scratchEcc : Nat := 188
def coachEcc : Nat := 189
def queueQuota : Nat := 190
def staleDrop : Nat := 191
def ctlExc (c : Nat) : Nat := 192 + c
def l2Ecc : Nat := 196
def walkRegion : Nat := 197
def walkEcc : Nat := 198
def translation : Nat := 199
def dmaErr (e : Nat) : Nat := 200 + e
def ringTrunc : Nat := 204
def taskFull : Nat := 205
def leaseExpired : Nat := 206
def stuckLockAge : Nat := 207
def jenAuth : Nat := 208
def jenNoticeLost : Nat := 209
def jenSession : Nat := 210
def carrierNack : Nat := 211
def carrierStuck : Nat := 212
def ctlWatchdog : Nat := 213
def unitFenced : Nat := 214
def stateStale : Nat := 215
def migrationDone : Nat := 216
def migrationFail : Nat := 217
def spareLow : Nat := 218
def placementDegraded : Nat := 219
def mgtLink : Nat := 220
def snoopEcc : Nat := 221
def bootRomEcc : Nat := 222
def debugAccess : Nat := 223
/-- TRIG0–TRIG23 (i = 0 to 23) and PPSO0–PPSO3 (i = 24 to 27). -/
def output (i : Nat) : Nat := 224 + i
def evtLow : Nat := 252
def evtHigh : Nat := 253
def ppsInFault : Nat := 254
def pinMux : Nat := 255

/-- The default reaction class of Table 16.1: 0 N, 1 C, 2 S, 3 H. -/
def dfltClass (s : Nat) : Nat :=
  if s = 4 ∨ s = 11 ∨ s = 22 ∨ s = 33 ∨ s = 38 ∨ s = 63 ∨ s = 213 then 2
  else if (6 ≤ s ∧ s ≤ 10) ∨ s = 20 ∨ s = 32 then 3
  else if s = 34 ∨ s = 35 ∨ (96 ≤ s ∧ s ≤ 111) then 1
  else 0

/-- Kind L of Table 16.1: the source has a cause that persists. -/
def isLevel (s : Nat) : Bool :=
  s ≤ 2 || s = 4 || s = 5 || (6 ≤ s && s ≤ 22) || s = 29 || s = 31 || (32 ≤ s && s ≤ 35) || s = 38
    || s = 50 || s = 51 || s = 63 || (64 ≤ s && s ≤ 95) || (130 ≤ s && s ≤ 137) || s = 178 || s = 183
    || s = 185 || (218 ≤ s && s ≤ 220) || (224 ≤ s && s ≤ 251)

/-- FLT_SRCs with the defaults of Tables 16.1 and 16.10 (R357). -/
def dfltWord (s : Nat) : Word :=
  let c := dfltClass s
  BitVec.ofNat 32 (1 + 2 * c + (if c = 0 then 0 else 8) + 16 + 32 + 64 + (if isLevel s then 128 else 0))

end Sys2Proof.Machine.Src
end

