-- ==== Sys2Proof/Machine/RegMap.lean ====
section
/-!
DEFINITION. Machine/RegMap.lean: where the registers of the 26 control-space blocks lie (Table 15.9 and the register maps of each
chapter), and the reset values that are not 0 (R9).
-/
namespace Sys2Proof.Machine

/-- The base of control-space block `i` (Table 15.9). -/
def block (i : Nat) : Nat := 0x40000000 + i * 0x100000

def sysB : Nat := block 0
def clkB : Nat := block 1
def pwrB : Nat := block 2
def pinB : Nat := block 3
def timeB : Nat := block 4
def tioB : Nat := block 5
def laneB : Nat := block 6
def portB : Nat := block 7
def parseB : Nat := block 8
def clauseB : Nat := block 9
def fwdB : Nat := block 10
def stnB : Nat := block 11
def egrB : Nat := block 12
def poolB : Nat := block 13
def yardB : Nat := block 14
def smcB : Nat := block 15
def rewB : Nat := block 16
def ctlB : Nat := block 17
def mmuB : Nat := block 18
def taskB : Nat := block 19
def lockB : Nat := block 20
def dmaB : Nat := block 21
def fltB : Nat := block 22
def jenB : Nat := block 23
def bootB : Nat := block 24
def cbusB : Nat := block 25

/-- Register `o` of clock instance n (R86). -/
def ciR (n o : Nat) : Nat := timeB + 0x100 + n * 0x40 + o
/-- Register `o` of trigger output n (Table 4.4). -/
def trigR (n o : Nat) : Nat := tioB + 0x100 + n * 0x10 + o
def ppsoR (k o : Nat) : Nat := tioB + 0x300 + k * 0x10 + o
def clkoR (j o : Nat) : Nat := tioB + 0x380 + j * 0x10 + o
def ppsiR (k o : Nat) : Nat := tioB + 0x400 + k * 0x20 + o
def evtR (i o : Nat) : Nat := tioB + 0x500 + i * 0x10 + o
def lcalR (l o : Nat) : Nat := tioB + 0x800 + l * 0x10 + o
def extR (p o : Nat) : Nat := tioB + 0xC00 + p * 8 + o
/-- Word w of schedule entry e of trigger output n (R94). -/
def schedR (n e w : Nat) : Nat := tioB + 0x4000 + n * 0x800 + e * 0x20 + w * 4
/-- Register `o` of station n (R37). -/
def stnR (n o : Nat) : Nat := stnB + 0x100 + n * 0x20 + o
/-- Second register group of station n (R168). -/
def stn2R (n o : Nat) : Nat := stnB + 0x400 + n * 0x40 + o
def admitR (p o : Nat) : Nat := portB + 0x800 + p * 0x10 + o
def pathR (p o : Nat) : Nat := portB + 0xC00 + p * 0x10 + o
/-- FLT_SRCs (R382). -/
def srcR (s : Nat) : Nat := fltB + 0x1000 + s * 4
def pendR (w : Nat) : Nat := fltB + 0x100 + w * 4

/-- Register `o` of pool k (R256). -/
def poolR (k o : Nat) : Nat := poolB + k * 0x20 + o
/-- Register `o` of egress port q, of queue (q, c), and the drop counter of port p, set, reason (R234). -/
def egrPR (q o : Nat) : Nat := egrB + 0x1000 + q * 0x40 + o
def egrQR (q c o : Nat) : Nat := egrB + 0x2000 + q * 0x100 + c * 0x20 + o
def dropR (p set code : Nat) : Nat := egrB + 0x20000 + p * 0x900 + set * 0x100 + code * 4
def vlanR (v o : Nat) : Nat := egrB + 0x40000 + v * 0x10 + o
def gclR (q bank e w : Nat) : Nat := egrB + 0x80000 + q * 0x4000 + bank * 0x2000 + e * 8 + w * 4
def sessR (i o : Nat) : Nat := jenB + 0x40 + i * 8 + o

/-- Sizes and counts of the yard pools (Table 10.1); P3 and P4 take their counts from the image. -/
def poolSize (k : Nat) : Nat := match k with
  | 0 => 256 | 1 => 2048 | 2 => 16384 | 3 => 65536 | _ => 1048576
def poolCount0 (k : Nat) : Nat := match k with
  | 0 => 327680 | 1 => 4096 | 2 => 512 | _ => 0
def poolBase0 (k : Nat) : Nat := match k with
  | 1 => 0x05000000 | 2 => 0x05800000 | _ => 0

/-- Reset values of the POOL block (Table 10.8). -/
def poolReset (o : Nat) : Nat :=
  if o < 0xA0 then
    let k := o / 0x20
    match o % 0x20 with
    | 0x00 => poolBase0 k
    | 0x08 => poolCount0 k
    | 0x0C => poolCount0 k
    | 0x18 => poolCount0 k
    | _ => 0
  else if o = 0x18C then 34 else 0

/-- Reset values of the PWR, PIN, TIME, CLAUSE, EGR, SMC, TASK, REW and BOOT blocks that are not 0. -/
def miscReset (a : Nat) : Nat :=
  if a = sysB then 0x3240
  else if pwrB + 0x40 ≤ a ∧ a < pwrB + 0x60 ∧ a % 4 = 0 then
    ([125, 125, 125, 125, 125, 105, 135, 115].getD ((a - pwrB - 0x40) / 4) 0) * 0x10000
  else if pinB ≤ a ∧ a < pinB + 0x90 ∧ a % 4 = 0 then
    (if (a - pinB) / 4 ≤ 27 then (a - pinB) / 4 * 0x100 else 0x1F00)
  else if ciR 1 0 ≤ a ∧ a < ciR 9 0 ∧ (a - ciR 1 0) % 0x40 = 0x14 then 0x14000
  else if a = ciR 0 0x14 then 0x14000
  else if a = clauseB then 0x110
  else if a = clauseB + 0x2C then 4
  else if egrPR 0 0x0C ≤ a ∧ a ≤ egrPR 33 0x0C ∧ (a - egrPR 0 0x0C) % 0x40 = 0 then 2
  else if a = yardB + 0x10 then 8
  else if a = smcB + 4 then 16
  else if a = taskB + 0x20 then 0x400
  else if a = rewB + 0x68 ∨ a = rewB + 0x6C then 0xFFFFFFFF
  else if a = bootB + 0x0C ∨ a = bootB + 0x14 then 0x30
  else if a = bootB + 0x20 ∨ a = bootB + 0x24 then 0xFFFF
  else 0

/-- The reset value of a control-space word (R9): 0 but where a field table gives another number. -/
def regReset (a : Nat) : Word :=
  if a < 0x40000000 then 0
  else if srcR 0 ≤ a ∧ a < srcR 256 then (if a % 4 = 0 then Src.dfltWord ((a - srcR 0) / 4) else 0)
  else if poolB ≤ a ∧ a < poolB + 0x1000 then BitVec.ofNat 32 (poolReset (a - poolB))
  else BitVec.ofNat 32 (miscReset a)

end Sys2Proof.Machine
end

