-- ==== Sys2Proof/Machine/State.lean ====
section
/-!
DEFINITION. Machine/State.lean: everything the spec gives the SY3240-MQ, as plain data. A numbered family of things is a sparse
table (`Map`) whose unlisted members read the default beside the structure. Times are CI0 instants in units of 2^-48 ns.
-/
namespace Sys2Proof.Machine

/-- Why the machine stops with a fault. No meaning of this model raises one: every command has an effect (log entry 1). -/
inductive Fault where
  /-- A command that the spec calls undefined as a command. Nobody raises it; stopping would be safe. -/
  | undefinedCommand
  deriving DecidableEq, Repr

/-- Why the machine refuses a command. -/
inductive Refusal where
  /-- A command whose meaning is not modelled yet; raised by `exec` in the arms not written yet (safe: no effect is claimed). -/
  | notModelled (mnemonic : String)
  deriving DecidableEq, Repr

/-! ### Time base (R57–R77) -/

/-- A conversion segment (R68): the TIME cycle it opened in, the value there and the effective increment. -/
structure Segment where
  k    : Nat := 0
  v    : Nat := 0
  incr : Nat := 351843720888320
  deriving DecidableEq, Repr

/-- A slew in progress (R63): the amount left when the newest segment opened, the magnitude asked for, and the signed part in force. -/
structure Slew where
  left : Int
  size : Nat
  part : Int
  deriving DecidableEq, Repr

/-- An armed step (R64), as taken at the ARM write. -/
structure ArmedStep where
  instant : Nat
  absolute : Bool
  sec  : BitVec 48
  ns   : BitVec 32
  deriving DecidableEq, Repr

/-- A clock instance (R58–R77). -/
structure Inst where
  /-- The last 16 segments, newest first (R68). -/
  segs : List Segment := [⟨0, 0, 351843720888320⟩]
  /-- The increment in force without slew (R62). -/
  incr : Nat := 351843720888320
  /-- The INCR_LO word written since the last commit (R62). -/
  heldLo : Option Word := none
  slew : Option Slew := none
  step : Option ArmedStep := none
  /-- The read latch of R67, in units of 2^-16 ns. -/
  latch : Nat := 0
  /-- Consecutive offset updates within LOCK_BOUND (Table 3.2). -/
  run : Nat := 0
  /-- The instant of the last offset update (R70). -/
  lastUpdate : Nat := 0
  /-- HOLD_INCR of R72. -/
  holdIncr : Nat := 351843720888320
  /-- The hardware increment and compensation of R72 are in force. -/
  hwHold : Bool := false
  /-- The oscillator temperature at the entry to holdover, °C (R72). -/
  tempEntry : Int := 0
  /-- The instant of the entry to holdover (R73). -/
  holdSince : Nat := 0
  /-- HOLDOVER_LIMIT has been raised for this holdover (R73). -/
  limitRaised : Bool := false
  /-- A TIME_SET of Jenitor is waiting for the step cycle (R330). -/
  jenWaits : Bool := false
  deriving DecidableEq, Repr

/-- An entry of the transmit timestamp queue (R85). -/
structure TxStamp where
  port : Nat
  msg : Nat
  seqId : Nat
  ci : Nat
  /-- TS_OUT in the port's instance, units of 2^-16 ns. -/
  at16 : Nat
  deriving DecidableEq, Repr

/-- The time base beside its registers. -/
structure TimeSt where
  /-- CI0: units of 2^-48 ns since the TIME domain started (R58, R60). -/
  now : Nat := 0
  insts : Map Inst := []
  txts : List TxStamp := []
  /-- A conversion under way (R69): the TIME_CONV operation waits for its PERI cycle. -/
  convBusy : Bool := false
  /-- The instant from which REF has been stable; 0 where that was before CI0 0 (R75; log entry 9). -/
  refSince : Nat := 0
  /-- CI0 is INVALID (R77). -/
  ci0Invalid : Bool := false
  /-- Trapped PTP messages per 1 ms window (R81): the window's number and its count. -/
  trapWindow : Nat := 0
  trapCount : Nat := 0
  deriving DecidableEq, Repr

/-! ### Timing IO (R87–R112) -/

/-- The level of an output contact. -/
inductive Level where
  | low | high | z
  deriving DecidableEq, Repr

/-- A committed edge (R96): whether it is a leading edge, and the CI0 instant it crosses the contact. -/
structure Edge where
  leading : Bool
  instant : Nat
  deriving DecidableEq, Repr

/-- Where a trigger output stands in its schedule (R97). -/
inductive TrigRun where
  | off | scanning | running | idle
  deriving DecidableEq, Repr

/-- A trigger output beside its registers (R94–R99). -/
structure Trig where
  run : TrigRun := .off
  /-- The eight words of the running entry, read once (R97). -/
  entry : List Word := []
  /-- SEC[47:32] of the start, taken when the pointer reached the entry (R94). -/
  startHi : Nat := 0
  /-- The next pulse whose leading edge is not yet committed. -/
  pulse : Nat := 0
  /-- The pulse whose leading edge is committed and whose trailing edge is not. -/
  open_ : Option Nat := none
  /-- Entries passed over since the last valid one (R97). -/
  passed : Nat := 0
  /-- Committed edges that have not crossed the contact. -/
  edges : List Edge := []
  /-- EN was written 0 while a pulse is committed (R98). -/
  stopping : Bool := false
  /-- EN has been 1: the output has left its safe level (R110). -/
  ran : Bool := false
  /-- The PERI cycle in which the pointer last read an entry (R98). -/
  readAt : Option Nat := none
  deriving DecidableEq, Repr

/-- A PPS output: the last whole second of its instance that gave a pulse (R105). -/
structure Ppso where
  lastSec : Option Nat := none
  edges : List Edge := []
  /-- The pulse whose leading edge is committed and whose trailing edge is not: its instance, and the trailing edge's time there. -/
  open_ : Option (Nat × Nat) := none
  deriving DecidableEq, Repr

/-- An event or PPS input beside its registers (R100, R103). -/
structure EvIn where
  /-- CI0 instant of the last stamped edge, units of 2^-16 ns. -/
  last : Option Nat := none
  /-- The instant of the last valid edge of a PPS input, and whether an interval is open. -/
  lastValid : Option Nat := none
  deriving DecidableEq, Repr

/-- An entry of the event queue (R101). -/
structure Stamp where
  input : Nat
  falling : Bool
  ci : Nat
  status : Nat
  at16 : Nat
  /-- The stamp's CI0 instant, by which the queue is ordered. -/
  at0 : Nat := 0
  deriving DecidableEq, Repr

/-- A clock output (R106): whether it runs, the CI0 instant of its first rising edge, and the instance time of a rising edge within
    the period, units of 2^-16 ns. -/
structure Clko where
  on : Bool := false
  since : Nat := 0
  phase : Nat := 0
  deriving DecidableEq, Repr

structure TioSt where
  trigs : Map Trig := []
  ppsos : Map Ppso := []
  inputs : Map EvIn := []
  evtq : List Stamp := []
  /-- Levels that the drivers of contacts TC0–TC23 (0–23) and PC0–PC3 (24–27) give them; unlisted: high impedance. -/
  contacts : Map Level := []
  /-- CLKO0–1 (R106). -/
  clko : Map Clko := []
  /-- Latched words of PPSIk_SEC_LO, _NS and _FRAC, as a CI0 stamp in 2^-16 ns (R104). -/
  ppsiLatch : Map Nat := []
  /-- The CI0 stamp of the last valid edge, units of 2^-16 ns (R103). -/
  ppsiStamp : Map Nat := []
  /-- The instant of the last open test of a contact (R108). -/
  openTest : Map (Option Nat) := []
  deriving DecidableEq, Repr

/-! ### Fault collector (R356–R382) -/

/-- A raise that has arrived at the collector (R356), with its context words and the unit it concerns (0: none). -/
structure Raise where
  src : Nat
  ctx : List Nat
  unit : Nat
  deriving DecidableEq, Repr

/-- Rate limiting of one source's journal records (R368). -/
structure Suppress where
  last : Option Nat := none
  count : Nat := 0
  deriving DecidableEq, Repr

structure FltSt where
  /-- Raises on their way to the collector, oldest first. -/
  raises : List Raise := []
  /-- The level causes that hold because an outside condition holds (R358), as source numbers. -/
  causes : Map Bool := []
  /-- The end of the latest reaction window (R363). -/
  windowEnd : Nat := 0
  /-- The source and due instant of a halt under way (R361). -/
  halt : Option (Nat × Nat) := none
  suppress : Map Suppress := []
  /-- Journal records waiting for the writer, at most 64, each of 64 bytes (R368). -/
  jqueue : List (List Byte) := []
  /-- The MRAM ring: slot to 64-byte record (R368). -/
  mram : Map (List Byte) := []
  /-- The next slot of the MRAM ring. -/
  mramNext : Nat := 0
  /-- Records in the RAM-only ring of R370. -/
  ramRing : List (List Byte) := []
  /-- Records of the RAM ring overwritten unread (R370). -/
  ramLost : Nat := 0
  /-- Numbers of the records of the RAM ring that JOURNAL_READ has returned. -/
  ramRead : List Nat := []
  /-- The last-gasp cell (R371). -/
  cell : Option (List Byte) := none
  /-- BIST has read the MRAM, so the writer runs (R357). -/
  writerOn : Bool := false
  /-- Starts since manufacture (Table 16.5). -/
  boots : Nat := 0
  /-- FAULT_MAP has been applied (R367). -/
  mapApplied : Bool := false
  /-- Since when the packet path has been down after the first start, and whether it has ever run (R380). -/
  downSince : Option Nat := none
  /-- Downtime of the present interval from before CI0 restarted. -/
  downCarry : Nat := 0
  everRan : Bool := false
  /-- VIN lies outside 18–60 V: what passes is no downtime (R380). -/
  vinOut : Bool := false
  /-- The journal's last steps are done (R371). -/
  gasped : Bool := false
  /-- The latest aging measurement of a unit, 0.1 % (R378). -/
  aging : Map Nat := []
  /-- Units retired for good: the RETIRE pins (R369). -/
  retired : List Nat := []
  /-- DRAM rows flagged for repair, with pins: channel, bank, row (R272). -/
  pprRows : List (Nat × Nat × Nat) := []
  /-- Lane losses: lane to the instants of its last losses, and those not matched by the partner (R379, R400). -/
  losses : Map (List (Nat × Bool)) := []
  deriving DecidableEq, Repr

/-- The state of a unit of Table 14.3 (R331, R373). -/
structure UnitSt where
  state : Nat := 0
  gen : Nat := 0
  epoch : Nat := 0
  /-- The instant of the last fence (R373). -/
  fencedAt : Option Nat := none
  /-- The source whose class C reaction fenced the unit (R366). -/
  fencedBy : Option Nat := none
  deriving DecidableEq, Repr

/-! ### Jenitor (R320–R336) -/

/-- The response kept for a command of a session (R326). -/
structure Stored where
  seq : Nat
  tag : List Byte
  response : Option (List Byte)
  deriving DecidableEq, Repr

/-- A session (R323–R326). -/
structure Session where
  isOpen : Bool := false
  id : Nat := 0
  key : List Byte := []
  role : Nat := 0
  keyId : Nat := 0
  port : Nat := 0
  vlan : Option Nat := none
  mac : List Byte := []
  lastFrame : Nat := 0
  /-- Highest command SEQ accepted and the bitmap of H − 63 to H (R325). -/
  high : Nat := 0
  seen : Nat := 0
  ackHigh : Nat := 0
  ackSeen : Nat := 0
  stored : List Stored := []
  /-- Instants of recent tag failures (R324). -/
  fails : List Nat := []
  /-- The next notice SEQ (R333). -/
  noticeSeq : Nat := 1
  mask : Nat := 0
  /-- OPENS_i of R323. -/
  opens : Nat := 0
  deriving DecidableEq, Repr

/-- One session's copy of a notice (R334). -/
structure NoticeCopy where
  session : Nat
  seq : Nat
  sends : Nat := 0
  parked : Bool := false
  /-- The bytes first sent, kept for every further send. -/
  bytes : List Byte := []
  due : Nat := 0
  deriving DecidableEq, Repr

/-- An entry of the notice queue (R334). -/
structure Notice where
  kind : Nat
  body : List Byte
  copies : List NoticeCopy
  deriving DecidableEq, Repr

/-- Where a frame came from: port, VLAN and source address; and its message. -/
structure JenOrigin where
  port : Nat
  vlan : Option Nat
  mac : List Byte
  msg : List Byte
  deriving DecidableEq, Repr

/-- An accepted command frame whose items are being performed (R327, R330). -/
structure JenCmd where
  session : Nat
  /-- SESSION of the session it belongs to (R323). -/
  id : Nat := 0
  role : Nat := 0
  seq : Nat
  tag : List Byte
  stop : Bool
  /-- Items not yet performed: OP and body. -/
  items : List (Nat × List Byte)
  /-- Response items so far: OP, STATUS and body. -/
  answers : List (Nat × Nat × List Byte)
  /-- The item at the front has been performed and its answer is pending (R330). -/
  waiting : Bool := false
  /-- The session closes once the response is sent (R324). -/
  closing : Bool := false
  /-- A SESSION_OPEN: where it came from, and its message (R323). -/
  origin : Option JenOrigin := none
  deriving DecidableEq, Repr

structure JenSt where
  sessions : Map Session := []
  notices : List Notice := []
  cmds : List JenCmd := []
  /-- Host keys of the JENITOR section: role and 32 bytes (R323). -/
  keys : Map (List Byte) := []
  /-- Instants of the last BAD_AUTH answer of a port (R323). -/
  badAuth : Map (Option Nat) := []
  /-- Per-port frame meter: second window and frames in it (R320). -/
  meter : Map (Nat × Nat) := []
  /-- The IMAGE_WRITE under way: slot, offset and data (R330). -/
  imageWrite : Option (Nat × Nat × List Byte) := none
  /-- The IMAGE_ACTIVATE under way: its slot, its SEQ_NO and its MODE (R330). -/
  activate : Option (Nat × Nat × Nat) := none
  /-- Units whose UNIT_RESET MODE 0 is under way: the instant it was performed (R374). -/
  resets : Map (Option Nat) := []
  deriving DecidableEq, Repr

/-! ### Image, NOR, start-up (R337–R355) -/

/-- A station's record of the timetable (Table 15.5). -/
structure TtStation where
  w : Nat := 0
  l : Nat := 0
  d : Nat := 0
  sn : Nat := 0
  ndisp : Nat := 0
  legEntry : Nat := 0
  supEntry : Nat := 0
  code : List Byte := []
  data : List Byte := []
  linkLo : Nat := 0
  linkHi : Nat := 0
  deriving DecidableEq, Repr

/-- A wheel record of the timetable with its positions (Table 15.5). -/
structure Wheel where
  kind : Nat
  inst : Nat
  freq : Nat
  pos : List Nat
  deriving DecidableEq, Repr

/-- The timetable (Table 1.1). -/
structure Timetable where
  id : Nat := 0
  rate : Nat := 0
  resRate : Nat := 0
  compat : Nat := 0
  portMask : Nat := 0
  planCrc : Nat := 0
  stations : List TtStation := []
  wheels : List Wheel := []
  deriving DecidableEq, Repr

/-- The image running or being loaded. -/
structure ImageSt where
  slot : Nat := 0
  seqNo : Nat := 0
  len : Nat := 0
  keyId : Nat := 0
  /-- An image is in force. -/
  valid : Bool := false
  tt : Timetable := {}
  /-- The 34 PORTS records of 32 bytes (Table 15.6). -/
  ports : List (List Byte) := []
  carrier : Nat := 0
  /-- CALIBRATION pairs: lane × 7 + class to LAT, ASYM and VALID words (R91). -/
  cal : Map (List Nat) := []
  /-- The FLT settings of the FAULT_MAP section, for R363: address to value and mask. -/
  faultMap : List (Nat × Nat × Nat) := []
  /-- The compatible timetable waiting for its epoch boundary (R35): its slot, and the timetable. -/
  next : Option (Nat × Timetable) := none
  deriving DecidableEq, Repr

/-- What is kept without power: the NOR slots, the OTP, the carrier EEPROM code read. -/
structure Store where
  /-- NOR_A and NOR_B (R337); an unlisted byte reads 0xFF, erased. -/
  norA : Map Byte := []
  norB : Map Byte := []
  /-- OTP key slots: SHA-256 of the public key; an absent slot is unfused (R340). -/
  otpKeys : Map (List Byte) := []
  /-- The OTP recovery key (R349). -/
  recoveryKey : Option (List Byte) := none
  /-- DRAM banks whose repair is spent, as channel and bank (R273). -/
  ppr : List (Nat × Nat) := []
  /-- The stepping fused in SYS_ID. -/
  step : Nat := 0
  deriving DecidableEq, Repr

/-- Start-up beside BOOT_STAT (R350). -/
structure BootSt where
  /-- Parts that failed self-test in this start, as UNIT numbers. -/
  failed : List Nat := []
  otpOk : Bool := false
  /-- The carrier code was read with a good CRC (R396). -/
  carrierRead : Bool := false
  /-- NOR devices that failed a read twice (R338): bit s for slot s. -/
  norFail : Nat := 0
  /-- The slot being loaded, and whether the other one has been tried. -/
  loading : Option Nat := none
  triedOther : Bool := false
  /-- All sections are applied; the packet path waits for its instant (R350). -/
  ready : Bool := false
  /-- A warm restart is under way: lanes whose PORTS record is unchanged stay up (R353). -/
  warmPorts : List (List Byte) := []
  /-- RESET_N is held low. -/
  resetHeld : Bool := false
  /-- The CI0 instant at which the PWR domain became alive is this much before CI0 0, units of 2^-48 ns (R351, R389). -/
  pwrLead : Nat := 0
  deriving DecidableEq, Repr

/-! ### Packet path: stations, coaches (R11–R56) -/

/-- Role of a physical packet core in its station (R23, R352). -/
inductive CoreRole where
  | service (slot : Nat) | rotation | testing | preparing | leaving (slot : Nat) | spare | retired | failed
  deriving DecidableEq, Repr

/-- A physical packet core (index station × 10 + k). -/
structure CoreSt where
  role : CoreRole := .spare
  /-- The instant it entered service (R376). -/
  since : Nat := 0
  testPassed : Bool := true
  deriving DecidableEq, Repr

/-- A core migration of a station (Table 1.9). -/
structure Migration where
  incoming : Nat
  outgoing : Nat
  slot : Nat
  /-- The incoming core is prepared (R25). -/
  ready : Bool := false
  /-- The effective boundary has passed; the outgoing core completes its coaches until this instant. -/
  leaveAt : Option Nat := none
  /-- The outgoing core is retired when it leaves. -/
  retire : Bool := false
  deriving DecidableEq, Repr

structure StnSt where
  /-- Coaches in the station's coupler, by SEQ, in entry order (R44). -/
  order : List Nat := []
  /-- The CORE cycle of the last CLEAR of STN_PEAKn: updates of that cycle are lost (Table 1.17). -/
  cleared : Option Nat := none
  /-- The CORE cycle of the last hand-off and how many it has had (R159). -/
  handed : Nat × Nat := (0, 0)
  mig : Option Migration := none
  /-- The last rotation's period number (R376). -/
  rotated : Option Nat := none
  deriving DecidableEq, Repr

/-- The packet path as a whole. -/
structure PathSt where
  /-- The CI0 instant of CORE cycle 0 (R15). -/
  start : Nat := 0
  nextSeq : Nat := 0
  /-- Stations whose 8-core service requires degraded admission, applied from the next epoch boundary (R24). -/
  degradePending : Bool := false
  degraded : Bool := false
  /-- The half of instruction scratch that holds the legs in force, the CI0 instant from which they run, and the leg entries
      of the other half (R35; log entry 14). -/
  legHalf : Nat := 0
  legFrom : Nat := 0
  legOld : List Nat := []
  /-- The last CI0 millisecond counted as downtime (R380). -/
  availMs : Option Nat := none
  deriving DecidableEq, Repr

/-- A token bucket: credit in units of one token / 2^48 ns / 10^9, so that a rate of one per second adds one unit each 2^-48 ns. -/
structure Bucket where
  credit : Int := 0
  last : Nat := 0
  deriving DecidableEq, Repr

/-- Where a coach is (R43, R44). -/
inductive CoachLoc where
  | parser | station (n : Nat) | egress
  deriving DecidableEq, Repr

/-- Header offsets the parser found (R169–R172); 0xFFFF where a header is absent. -/
structure Parsed where
  /-- Offset after the L2 tags, of the EtherType or LLC. -/
  ethType : Nat := 0
  l3 : Nat := 0xFFFF
  l4 : Nat := 0xFFFF
  payload : Nat := 0
  ptp : Nat := 0xFFFF
  macsec : Bool := false
  vlan : Option Nat := none
  /-- Offset of the outer tag. -/
  vlanAt : Nat := 12
  pcp : Nat := 0
  /-- Offset of the R-TAG's EtherType. -/
  rtag : Option Nat := none
  /-- IP version 4 or 6, 0 for neither; a later fragment. -/
  ip : Nat := 0
  frag : Bool := false
  /-- Offset of the UDP header of a PTP message, where it has one. -/
  ptpUdp : Option Nat := none
  deriving DecidableEq, Repr

/-- A coach (R38–R42). -/
structure Coach where
  /-- The 256 bytes: byte i in bits [8i+7:8i]. -/
  raw : BitVec 2048 := 0
  /-- TS_IN in CI0 (R61). -/
  tsIn : Nat := 0
  loc : CoachLoc := .parser
  /-- The CORE edge of its entry into the present station (R44). -/
  tIn : Nat := 0
  /-- P0 buffers: the coach cell and the chain (R240). -/
  cell : Nat := 0
  cells : List Nat := []
  /-- Cells counted as held for a reserved class (R240). -/
  resCells : Nat := 0
  /-- Body bytes stored so far, and those the frame has in all. -/
  got : Nat := 0
  total : Nat := 0
  /-- The MAC's verdict once final: none while pending, some 0 passed, else the drop reason (R48). -/
  verdict : Option Nat := none
  /-- The FAB cycle in which it became final (R48). -/
  verdictAt : Nat := 0
  /-- LENS is final (R173). -/
  lensDone : Bool := true
  /-- CUT_IN and LENS_EN of the ingress port when the first byte arrived (R47, Table 7.8). -/
  cutIn : Bool := false
  lens : Bool := false
  /-- The CORE edge of its S0 entry where the lens has delayed it (R47; log entry 207). -/
  entryAt : Option Nat := none
  /-- The lens patterns as they stood when the scan of the frame began: value, mask and length (R174). -/
  lensPats : List (List Byte × List Byte × Nat) := []
  parsed : Parsed := {}
  /-- The parse vector of Table 7.3. -/
  vector : List Byte := []
  entrySearched : Bool := false
  streamSearched : Bool := false
  /-- TRAIN, DPRI and ATOMIC in effect at this station's dispatcher (Table 2.1). -/
  train : Nat := 0
  dpri : Nat := 0
  atomic : Bool := false
  /-- The serving thread: core and thread, from the CHRD on ch0 (R28). -/
  server : Option (Nat × Nat) := none
  /-- The CHWR with the last mark on ch1 has been accepted (R30). -/
  complete : Bool := false
  /-- The CORE cycle of CI0 in which it was accepted: from the next one on the coach is no longer in service (R30, R158). -/
  completeAt : Nat := 0
  /-- Instructions issued for it in this station (R28), and the points passed (R29). -/
  issued : Nat := 0
  overW : Bool := false
  overB : Bool := false
  /-- Well-formed search requests in this station (R32). -/
  searches : Nat := 0
  stallRaised : Bool := false
  /-- The CORE cycle and rank of the drop reason's writer (R41). -/
  dropBy : Option (Nat × Nat) := none
  /-- The stream search marked the coach for its filter (R207). -/
  stream : Option Nat := none
  /-- Copies not yet sent or discarded (R54). -/
  refs : Nat := 0
  /-- The injection descriptor's transmit flags: TS_INSERT, TS_REPORT (R82, R85). -/
  tsInsert : Bool := false
  tsReport : Bool := false
  /-- An uncorrectable yard error lies in one of its cells (R236). -/
  yardBad : Bool := false
  /-- It has made its LEARN (R200). -/
  learnt : Bool := false
  /-- A trapped PTP message: its VERB and mask stay as the trap set them (R81). -/
  trapped : Bool := false
  /-- It has an uncorrectable error in coach storage (R42). -/
  ecc : Bool := false
  /-- Bytes it holds in the lens store (R173). -/
  lensSize : Nat := 0
  deriving DecidableEq, Repr

/-! ### Egress (R215–R234) -/

/-- A copy in an egress queue or in transmission. -/
structure Copy where
  /-- The coach it is a copy of; none for a frame the module made. -/
  coach : Option Nat := none
  /-- The bytes of a frame the module made, without FCS. -/
  frame : List Byte := []
  port : Nat := 0
  cls : Nat := 0
  mirror : Bool := false
  /-- B of R216 and whether it is final. -/
  size : Nat := 0
  final : Bool := true
  charge : Nat := 0
  /-- The enqueue stage marked it CE (R218). -/
  ce : Bool := false
  /-- The launch instant in the port's own clock, units of 2^-16 ns (R223). -/
  launch : Option Nat := none
  enqueued : Nat := 0
  cut : Bool := false
  /-- The reason for which it will be sent stomped (R50). -/
  stomp : Option Nat := none
  /-- The instant at which the first bit of its preamble crossed the transmit plane (R222), and that of its present fragment. -/
  startedAt : Nat := 0
  fragAt : Nat := 0
  /-- Bytes sent in the fragments before the present one (R225). -/
  done : Nat := 0
  /-- TIME_PORTCI of its port when it started (R61). -/
  ci : Nat := 0
  /-- FRER fields as taken at enqueue: act, sequence number (R210). -/
  frer : Nat × Nat := (0, 0)
  /-- P0 cells that a frame of the drain occupies, and their owner (R253). -/
  cells : List Nat := []
  cellOwner : Nat := 0
  deriving DecidableEq, Repr

/-- A gate list in force or pending (R221): bank, entries, cycle in ns, base in units of 2^-16 ns of the port's instance. -/
structure GateList where
  bank : Nat
  count : Nat
  cycle : Nat
  base16 : Nat
  deriving DecidableEq, Repr

/-- An egress port. -/
structure EgrPort where
  sending : Option Copy := none
  /-- The preemptable copy preempted in transmission (R225). -/
  preempted : Option Copy := none
  /-- The instant from which the port can begin a frame or a fragment: after the gap of the last one (R222, R225). -/
  freeAt : Nat := 0
  gcl : Option GateList := none
  gclNext : Option GateList := none
  bucket : Bucket := {}
  /-- Verify mPackets sent since link-up (R225). -/
  verifySent : Nat := 0
  verifyAt : Nat := 0
  /-- The skew of each lane of the port to its first lane, measured at the last link-up, units of 1/64 TIME cycle (R89). -/
  skews : List Int := []
  deriving DecidableEq, Repr

/-- The last frame a port sent, as it left the transmit plane: the model's record of its output. -/
structure Sent where
  bytes : List Byte := []
  stomped : Bool := false
  /-- TS_OUT in CI0 (R90). -/
  at_ : Nat := 0
  deriving DecidableEq, Repr

structure EgrSt where
  /-- Queues, keyed port × 8 + class, head first. -/
  queues : Map (List Copy) := []
  /-- Shaper buckets of the queues. -/
  buckets : Map Bucket := []
  ports : Map EgrPort := []
  sent : Map Sent := []
  /-- Drop counts of the present REFUSAL period, keyed (port × 9 + set) × 64 + reason (R233). -/
  refused : Map Nat := []
  refusalAt : Nat := 0
  /-- FCS drops in the present ms (Table 9.3): window and count. -/
  fcsWindow : Nat := 0
  fcsCount : Nat := 0
  /-- Ports that terminate MACsec; the spec names no register that selects them (R51; log entry 36). -/
  macsec : Map Bool := []
  deriving DecidableEq, Repr

/-! ### Pools, yard, rewind (R235–R258) -/

/-- A buffer out of its pool (R242, R245). -/
structure Held where
  owner : Nat
  stamp : Nat
  tracked : Bool := true
  deriving DecidableEq, Repr

/-- A pool's free list: buffers never allocated come first, then the freed ones in order (R238). -/
structure Pool where
  /-- The next buffer never allocated. -/
  fresh : Nat := 0
  freed : List Nat := []
  /-- Buffers withdrawn (R237). -/
  withdrawn : List Nat := []
  deriving DecidableEq, Repr

/-- An audit entry (R245): the owner and the buffers out of each pool; the scanner's published oldest (R246). -/
structure AuditEntry where
  owner : Nat := 0
  used : Bool := false
  counts : List Nat := [0, 0, 0, 0, 0]
  oldestMs : Nat := 0
  oldestPool : Nat := 0
  deriving DecidableEq, Repr

structure PoolSt where
  pools : Map Pool := []
  /-- Buffers out, keyed pool × 2^20 + index. -/
  held : Map (Option Held) := []
  lastOwner : Map Nat := []
  audit : Map AuditEntry := []
  /-- P0 cells out for coaches of reserved classes (R240). -/
  heldRes : Nat := 0
  /-- SIDING_HIGH has been raised and the capacity has not risen back (R244). -/
  sidingLow : Bool := false
  /-- Logical yard banks and their physical banks (R235); the bank copy under way. -/
  bankMap : Map Nat := []
  bankMove : Option (Nat × Nat) := none
  /-- Logical banks that wait for the move under way to end before their own begins (R237). -/
  bankWaits : List Nat := []
  bankReady : Bool := false
  /-- Correctable errors of a bank in this scrub pass (R237). -/
  bankErrs : Map Nat := []
  /-- Yard words, by word number (32 bytes), with an uncorrectable error (R236). -/
  badWords : Map Bool := []
  /-- Scrub position and the start of the pass. -/
  scrubAt : Nat := 0
  scrubStart : Nat := 0
  auditStart : Nat := 0
  deriving DecidableEq, Repr

/-- A rewind copy accepted and not yet recorded (R249). -/
structure RewPending where
  coach : Nat
  session : Nat
  snap : Nat
  deriving DecidableEq, Repr

/-- A drain under way (R253). -/
structure Drain where
  /-- Selected segments still to send, oldest first. -/
  segs : List Nat
  /-- Index entries still to send. -/
  index : List Nat
  indexOff : Nat := 0
  offset : Nat := 0
  sent : Nat := 0
  aborted : Bool := false
  pausedAt : Option Nat := none
  stallRaised : Bool := false
  deriving DecidableEq, Repr

structure RewSt where
  /-- Bytes written into the open segment. -/
  fill : Nat := 0
  /-- The open segment's first TS_IN, latest TS_IN, records and TORN (Table 10.4). -/
  first : Option Nat := none
  latest : Nat := 0
  records : Nat := 0
  torn : Bool := false
  pass : Nat := 0
  pending : List RewPending := []
  /-- Bytes to the end of the last record of each closed segment (R253). -/
  ends : Map Nat := []
  /-- The freeze under way: instant, cause kind and detail. -/
  freezeAt : Nat := 0
  freezeBy : Nat × Nat := (0, 0)
  /-- The latest trigger, whatever came of it (R252). -/
  trigAt : Option Nat := none
  /-- The latest RESUME performed: its instant, and the index byte of the segment that it opened (R252). -/
  resumed : Option (Nat × Nat) := none
  /-- A trigger has been taken and the entry to FROZEN is under way (R251). -/
  freezing : Bool := false
  drain : Option Drain := none
  /-- The END frame of the drain has been enqueued (R253). -/
  endSent : Bool := false
  deriving DecidableEq, Repr

/-! ### Clocks, power, pins, lanes (R383–R403) -/

structure PwrSt where
  /-- VIN below 16 V or the input disconnected, since this instant (R388). -/
  lossAt : Option Nat := none
  /-- VIN_LOST has latched; the loss sequence runs to its end. -/
  lost : Bool := false
  /-- WAKE is asserted (R391). -/
  wake : Bool := true
  /-- WAKE_DROP latched at this instant with HOLD 0 (R391). -/
  wakeDropAt : Option Nat := none
  /-- The module is in SLEEP. -/
  asleep : Bool := false
  /-- Power is present. -/
  powered : Bool := false
  /-- The rails are up (R390). -/
  rails : Bool := false
  /-- Rails held down by the cause of a halt (R361). -/
  railsHeld : Bool := false
  /-- Units without power after a confirmed loss (R388). -/
  unpowered : Bool := false
  deriving DecidableEq, Repr

/-- The pin mux commit under way (R399). -/
structure PinSt where
  /-- Contacts whose new function has not yet taken them. -/
  changing : List Nat := []
  commitAt : Nat := 0
  deriving DecidableEq, Repr

/-- A carrier-bus transaction or MDIO frame under way (R396). -/
structure CbusSt where
  /-- A lane swap that waits for the carrier switch: the lane and its spare (R401). -/
  swap : Option (Nat × Nat) := none
  /-- Spare lanes taken over whose calibration pair waits for the traffic (R91). -/
  calDue : List Nat := []
  /-- Address registers of the two MDIO masters, as last sent (R396). -/
  mdioAddr : Map Nat := []
  /-- Bytes that the transaction under way reads, and the masters whose frame under way is a read (R396). -/
  rlen : Nat := 0
  mdioReads : List Nat := []
  deriving DecidableEq, Repr

/-! ### Threads, channels, coprocessors (R113–R168) -/

/-- What an instruction that has issued, or that cannot issue yet, waits for (R145, R154–R156, R161, R141). -/
inductive Wait where
  | chrd (rd ch : Nat)
  | chwr (ch : Nat) (v : DWord) (last : Bool)
  | join (rd t : Nat)
  | xget (rd xs word : Nat)
  | xop (xs unit fn : Nat) (a b : DWord)
  | srq (eng port : Nat) (a b : DWord)
  | wfi
  deriving DecidableEq, Repr

/-- Where a thread stands (R132, R148–R150). -/
inductive Run where
  | free | ready | waiting (w : Wait) | parked | quit
  deriving DecidableEq, Repr

/-- A load in its window (R124): it delivers before the `left`-th instruction after it; an uncorrectable word instead traps (R133). -/
structure LoadWin where
  dest : Nat
  value : DWord
  left : Nat
  bad : Option Nat := none
  deriving DecidableEq, Repr

/-- A coprocessor operation accepted and not yet answered (R161): its due CORE cycle, where known; its result words; its late
    error. A result of a thread returned to the leg entry is discarded (R31). -/
structure XOp where
  unit : Nat
  fn : Nat
  a : DWord
  b : DWord
  issued : Nat
  due : Option Nat
  words : List DWord := []
  late : Option Nat := none
  coach : Option Nat := none
  discarded : Bool := false
  /-- The operation waits for the tail of a body (R164). -/
  tail : Bool := false
  /-- The source raised when the result or the error arrives. -/
  src : Option Nat := none
  deriving DecidableEq, Repr

/-- A scoreboard bit with the result readable under it (R113, R161): busy while an operation is held. -/
structure XsSt where
  op : Option XOp := none
  words : List DWord := []
  deriving DecidableEq, Repr

/-- A packet-core thread (R113). -/
structure Thread where
  /-- w1 to w31; w0 reads 0. -/
  regs : Map DWord := []
  lk : BitVec 16 := 0
  pc : BitVec 16 := 0
  xs : Map XsSt := []
  /-- The coach it serves or was forked for (R121). -/
  binding : Option Nat := none
  run : Run := .free
  loads : List LoadWin := []
  /-- Words written of an open item on ch1. -/
  ch1 : Nat := 0
  /-- The thread that forked it (R149). -/
  parent : Option Nat := none
  /-- Resumes and returns to the leg entry, modulo 256 (R136). -/
  gen : Nat := 0
  deriving DecidableEq, Repr

/-- A channel (R153, R154): unread words with their last marks, words written of the producer's open item, and whether that item
    has been flushed (R157). -/
structure Chan where
  words : List (DWord × Bool) := []
  open_ : Nat := 0
  cut : Bool := false
  /-- The consumer has begun to read the item at the head. -/
  begun : Bool := false
  /-- The CORE cycle of the last write and how many of the words it wrote: they are readable from the next cycle (R154). -/
  fresh : Nat × Nat := (0, 0)
  /-- The CORE cycle in which a place was freed while the depth was 4 (Table 6.2). -/
  full : Option Nat := none
  /-- The CORE cycle of the last flush: words written in it are discarded (R157). -/
  flushed : Option Nat := none
  deriving DecidableEq, Repr

/-- A search request (R156, R181, R197). -/
structure Srq where
  eng : Nat
  thread : Nat
  port : Nat
  coach : Nat
  a : DWord
  b : DWord
  key : List Byte
  /-- The CORE cycle its result becomes readable, once served, and the result words. -/
  ready : Option Nat := none
  words : List DWord := []
  /-- The result is discarded on arrival (R31, R157). -/
  discarded : Bool := false
  /-- What APPLY writes: status code, hit data, mask to add. -/
  apply : Option (Nat × Nat × Nat) := none
  learned : Bool := false
  deriving DecidableEq, Repr

/-- The CRY unit of a station (R165, R166). -/
structure Cry where
  holder : Option Nat := none
  ctx : Nat := 0
  /-- The holder has released; the lock passes on when its operations in flight have completed. -/
  releasing : Bool := false
  /-- Waiters: thread, scoreboard bit, context. -/
  queue : List (Nat × Nat × Nat) := []
  /-- The CORE cycle in which the lock was last released: the next holder has it from the following cycle. -/
  freedAt : Option Nat := none
  /-- The CORE cycle in which a request found the lock free, and the scoreboard bit of that request. -/
  took : Option (Nat × Nat) := none
  /-- The resident context: its address and the 64 bytes as loaded. -/
  resident : Option (Nat × List Byte) := none
  deriving DecidableEq, Repr

/-! ### Control cores (R139–R143, R277–R295) -/

/-- A TLB entry (R286): the leaf of a page of 4 KiB (level 2) or 2 MiB (level 1). -/
structure TlbEntry where
  asid : Nat
  level : Nat
  vpn : Nat
  pte : Nat
  deriving DecidableEq, Repr

/-- A dirty line of an L1 data cache, or of its eviction buffer (R278, R280). -/
structure Line where
  line : Nat
  bytes : List Byte
  /-- A snoop has taken the data: the acknowledged eviction writes nothing. -/
  taken : Bool := false
  deriving DecidableEq, Repr

/-- A control core (R139–R143). -/
structure CtlCore where
  regs : Map DWord := []
  lk : DWord := 0
  pc : Option DWord := none
  /-- System registers of Table 5.11 by number, where they differ from reset. -/
  sys : Map DWord := []
  waiting : Bool := false
  tlb : List TlbEntry := []
  dirty : List Line := []
  evict : List Line := []
  /-- The lines of the instruction cache as they were fetched: it is not coherent with stores (R278). -/
  code : Map (List Byte) := []
  /-- The watchdog: the instant of the last restart, whether half of it has passed, whether it has expired (R295). -/
  kicked : Nat := 0
  half : Bool := false
  expired : Bool := false
  deriving DecidableEq, Repr

/-- A lock table entry (R299). -/
structure LockEnt where
  addr : Nat
  owner : Nat
  stuck : Bool
  left : Nat
  since : Nat
  aged : Bool := false
  deriving DecidableEq, Repr

/-- Cores and their units. -/
structure CpuSt where
  /-- Packet-core threads, keyed by owner id n × 80 + k × 8 + t (R296). -/
  threads : Map Thread := []
  /-- Link channels, keyed core × 8 + k (R153). -/
  links : Map Chan := []
  /-- Search result channels, keyed thread × 4 + port. -/
  results : Map Chan := []
  /-- ch14 of each core, and the items waiting for it (R134). -/
  ch14 : Map Chan := []
  deferred : Map (List (List DWord)) := []
  /-- Search requests in order of issue. -/
  reqs : List Srq := []
  /-- The SRCH cycle after the last slot served, per engine. -/
  lastSlot : Map Nat := []
  crys : Map Cry := []
  /-- HSH of each core streams until this CORE cycle (R162). -/
  hsh : Map Nat := []
  /-- The CORE cycle after that of the last XOP a unit accepted, keyed core × 2 + unit: TAU and HSH take one each cycle (R162). -/
  xopAt : Map Nat := []
  /-- The CORE cycle of the last issue of a pool thread of a core, and whether its standstill has been counted (R160). -/
  lastIssue : Map Nat := []
  stood : Map Bool := []
  ctls : Map CtlCore := []
  locks : List LockEnt := []
  /-- READY lists of the 32 priorities, head first (R288). -/
  ready : Map (List Nat) := []
  /-- Memory words (8 bytes) with an uncorrectable error (R133, R281; log entry 12). -/
  upsets : Map Bool := []
  /-- Values that firmware has seen of the registers behind interrupt line TIME (Table 12.3; log entry 13). -/
  seen : Map Nat := []
  deriving DecidableEq, Repr

/-! ### DMA (R305–R319) -/

/-- A channel beside its registers. -/
structure DmaCh where
  /-- The descriptor in progress: its index, the offset it began at, its 32 bytes as read. -/
  desc : Option (Nat × Nat × List Byte) := none
  /-- The engine has read the descriptor at HEAD as owned (R309). -/
  owned : Bool := false
  /-- The offset from which a RESUME goes on (R313). -/
  resume : Nat := 0
  disabling : Bool := false
  aborting : Bool := false
  /-- A TX frame is being gathered: the index of its START descriptor, its first word, its TS_IN, and its body so far (R316). -/
  inFrame : Bool := false
  startAt : Nat := 0
  flags : Nat := 0
  ts : Nat := 0
  body : List Byte := []
  /-- Its coach cell, while its coach is not built; its coach. -/
  cell : Option Nat := none
  coach : Option Nat := none
  /-- A restarted frame: descriptors before this index are read again whatever OWN says (R313). -/
  redoTo : Option Nat := none
  deriving DecidableEq, Repr

/-- What an I/O TLB invalidation in progress invalidates (R286). -/
structure IotlbGo where
  all : Bool := false
  asid : Nat := 0
  va : Nat := 0
  deriving DecidableEq, Repr

structure DmaSt where
  chans : Map DmaCh := []
  /-- The channel last served by each engine, and the one in service. -/
  last : Map Nat := []
  busy : Map (Option Nat) := []
  iotlb : List TlbEntry := []
  /-- The operands of MMU_IOTLBI, as they stood at GO. -/
  iotlbGo : Option IotlbGo := none
  deriving DecidableEq, Repr

/-! ### Parsing, clauses, tenses, forwarding (R169–R214) -/

/-- A clause entry (R179), and the word the shadow copy holds with it is the same (R192). -/
structure Clause where
  value : Nat := 0
  care : Nat := 0
  control : BitVec 16 := 0
  action : BitVec 32 := 0
  deriving DecidableEq, Repr

/-- A prefix of the LPM tables with its tense marks (R204, R205). -/
structure Prefix where
  table : Nat
  family : Nat
  len : Nat
  addr : Nat
  nh : Nat
  control : BitVec 16
  deriving DecidableEq, Repr

/-- What a tense log record names (R189): a clause entry, a stream entry or a prefix; `born` tells insert from delete. -/
structure LogRec where
  tense : Nat
  born : Bool
  kind : Nat
  key : Nat
  deriving DecidableEq, Repr

/-- An update operation under way (R185, R213): OP, group, what to restore when it is cut short. -/
structure Update where
  op : Nat
  group : Nat
  entry : Nat
  began : Nat
  status : Nat
  /-- Update slots it takes in all, and those it has had: its effect comes with the last (R185, R213). -/
  need : Nat := 1
  had : Nat := 0
  stalled : Bool := false
  /-- The record as it stood at GO. -/
  record : List Byte := []
  /-- The operation was asked by TABLE_WRITE. -/
  jen : Bool := false
  deriving DecidableEq, Repr

/-- A queued learn item (R201). -/
structure Learn where
  coach : Nat
  key : Nat
  port : Nat
  verdict : Option Nat
  deriving DecidableEq, Repr

/-- A recovery instance's internal state (Table 8.6). -/
structure Rcvy where
  seq : Nat := 0
  hist : Nat := 0
  takeAny : Bool := false
  last : Nat := 0
  resets : Nat := 0
  /-- Coaches passed and duplicates discarded since the last check of R211. -/
  passed : Nat := 0
  dup : Nat := 0
  deriving DecidableEq, Repr

/-- A meter's buckets, in bytes × 8 × 10^6 × 2^48, and the instant of the last charge (R208). -/
structure MeterSt where
  c : Nat := 0
  e : Nat := 0
  last : Nat := 0
  deriving DecidableEq, Repr

/-- A frame that a port is receiving: its coach, where one was built, and the body bytes received so far. -/
structure Rx where
  coach : Option Nat := none
  body : List Byte := []
  deriving DecidableEq, Repr

/-- A raw framing unit (R175–R177). -/
structure RawUnit where
  /-- Stream bytes not yet consumed, and the stream offset of the first of them. -/
  buf : List Byte := []
  base : Nat := 0
  /-- The next offset to test: the hunt position, or the expected offset. -/
  next : Nat := 0
  /-- The candidate's first SYNC byte. -/
  cand : Nat := 0
  count : Nat := 0
  misses : Nat := 0
  lastLen : Nat := 0
  /-- The SEQ of a frame delivered in part, and when its first sync bit reached the plane. -/
  part : Option Nat := none
  partAt : Nat := 0
  /-- Frames of failed chains since the unit last hunted from LOCKED (R176; log entry 41). -/
  hunted : Nat := 0
  /-- Where the present hunt began, and the first candidate of the chain being confirmed. -/
  huntFrom : Nat := 0
  chain : Nat := 0
  deriving DecidableEq, Repr

structure ClsSt where
  /-- Clause entries, keyed group × 2^18 + address. -/
  clauses : Map Clause := []
  log : List LogRec := []
  prefixes : List Prefix := []
  /-- The CORE cycle of a scheduled commit. -/
  commitAt : Option Nat := none
  undoing : Bool := false
  /-- Tenses that VOID has forced to retire. -/
  voided : List Nat := []
  /-- The instant each tense ceased to be CURRENT, and whether TENSE_DRAIN has been raised for it. -/
  ceased : Map Nat := []
  drained : Map Bool := []
  upd : Option Update := none
  fwdUpd : Option Update := none
  learn : List Learn := []
  agePass : Bool := false
  ageHeld : Bool := false
  ageNext : Nat := 0
  /-- When the pass began, and the last tick or restart of the tick count (R203). -/
  ageStart : Nat := 0
  ageTickAt : Nat := 0
  /-- The next entry the clause scrubber compares, the start of its pass, and the soft errors of each block in it (R192, R193). -/
  scrubAt : Nat := 0
  scrubStart : Nat := 0
  softs : Map Nat := []
  rcvys : Map Rcvy := []
  meters : Map MeterSt := []
  /-- The gate list that stays in force until the new BASE (R209), keyed by gate: its 576 bytes. -/
  oldGates : Map (List Byte) := []
  /-- Latent check: the instant of the last one. -/
  latAt : Nat := 0
  /-- Miss and parse buckets (R191), in 2^48 ns × coaches × 10^6. -/
  miss : Bucket := {}
  parse : Bucket := {}
  /-- Parse errors in the present 1 ms window. -/
  errWindow : Nat := 0
  errCount : Nat := 0
  errRaised : Bool := false
  raws : Map RawUnit := []
  /-- Frames awaiting the lens, in bytes (R173). -/
  lensHeld : Nat := 0
  /-- Logical blocks that wait for the move under way to end before their own begins (R193). -/
  blockWaits : List Nat := []
  /-- Physical block of each logical clause block (R178, R193); spares are 48 to 51; a copy under way, and its readiness. -/
  blocks : Map Nat := []
  blockMove : Option (Nat × Nat) := none
  blockReady : Bool := false
  blockTesting : Option Nat := none
  blockBad : List Nat := []
  /-- The privileged entries of a group whose shadow has an uncorrectable error, until PRIV_WRITE rewrites each (R192). -/
  privLost : Map (List Nat) := []
  /-- Logical block the next rotation moves. -/
  blockNext : Nat := 0
  /-- The move under way retires the outgoing block. -/
  blockRetire : Bool := false
  /-- The frames each port is receiving, the last begun first: an express frame falls within a preemptable one (R225). -/
  rx : Map (List Rx) := []
  deriving DecidableEq, Repr

/-! ### Siding memory controller (R259–R276) -/

/-- A queued DRAM request (R267): class 0 CTL, 1 DMA, 2 REWIND, 3 RT; a write or a read; its physical address. -/
structure DramReq where
  cls   : Nat
  write : Bool
  addr  : Nat
  deriving DecidableEq, Repr

structure SmcSt where
  /-- The epoch boundary of a scheduled frequency change, and whether the DPHY PLL has locked. -/
  change : Option Nat := none
  locked : Bool := false
  /-- The target rate of the change under way (R270). -/
  target : Nat := 0
  /-- The GO that the change under way came from: its instant, and the words of the inactive set before it (R271). -/
  go : Option (Nat × List Word) := none
  /-- The instant a channel last had a request queued. -/
  lastReq : Map Nat := []
  /-- Queued requests of each channel, oldest first (R267). -/
  queues : Map (List DramReq) := []
  /-- The drain flag of a class queue, keyed channel × 4 + class (R267). -/
  drain : Map Bool := []
  /-- Groups whose code burst a channel holds, newest first, at most 64 (R261). -/
  groups : Map (List Nat) := []
  /-- The scrubber's next burst in each channel, the channels done in this pass, and its start (R272). -/
  scrubAt : Map Nat := []
  scrubDone : List Nat := []
  scrubStart : Nat := 0
  /-- The channel whose copy runs, whether it is complete, and its boundary. -/
  retiring : Option Nat := none
  copied : Bool := false
  /-- Channels retired for good. -/
  lost : List Nat := []
  /-- The data slot last served of each channel. -/
  slot : Map Nat := []
  /-- Correctable errors of a row in this scrub pass, keyed by the row's number (R272). -/
  rowErrs : Map Nat := []
  /-- Rows flagged since start. -/
  flagged : List Nat := []
  lastRefresh : Map Nat := []
  deriving DecidableEq, Repr

/-! ### The machine -/

/-- The outcome of the last access to memory or control space, as its requester sees it (R7). -/
inductive Resp where
  | none | ok (value : Nat) | error
  deriving DecidableEq, Repr

/-- The state of the SY3240-MQ. -/
structure State where
  /-- Commands waiting, first in, first out. -/
  pending : List Instr := []
  time : TimeSt := {}
  /-- Every control-space register word (R7), keyed by its physical address. -/
  ctl : Map Word := []
  /-- The bytes of the physical memory map (Table 15.8), keyed by physical address. -/
  mem : List Host.Cell := []
  /-- The response to the last access by a requester outside an instruction. -/
  resp : Resp := .none
  /-- Units of Table 14.3, keyed by UNIT. -/
  units : Map UnitSt := []
  tio : TioSt := {}
  flt : FltSt := {}
  jen : JenSt := {}
  store : Store := {}
  image : ImageSt := {}
  boot : BootSt := {}
  path : PathSt := {}
  stns : Map StnSt := []
  cores : Map CoreSt := []
  /-- Coaches, keyed by SEQ. -/
  coaches : Map (Option Coach) := []
  /-- Admission buckets of the ports (R19). -/
  meters : Map Bucket := []
  egr : EgrSt := {}
  pool : PoolSt := {}
  rew : RewSt := {}
  pwr : PwrSt := {}
  pin : PinSt := {}
  cbus : CbusSt := {}
  /-- The W1C bits that hardware set last in a register: the cycle of the register's domain, and the bits (Table 0.3). -/
  latched : Map (Nat × Nat) := []
  /-- High words latched by a read of a _LO register, keyed by the _HI register's address (Table 1.14, R258). -/
  hiLatch : Map (Option Word) := []
  cpu : CpuSt := {}
  dma : DmaSt := {}
  cls : ClsSt := {}
  smc : SmcSt := {}
  /-- The model's own counter, which picks a fresh free value each time one is drawn (log entry 3). -/
  freeCtr : Nat := 0
  deriving DecidableEq, Repr

/-- The machine at reset: every register at its reset value (R9), nothing loaded; POWER_UP is its first event (R350). -/
def State.reset : State := {}

end Sys2Proof.Machine
end

