-- ==== Sys2Proof/Machine/Ops.lean ====
section
/-!
DEFINITION. Machine/Ops.lean: the operations every family shares: register fields, memory bytes, raises, units, free values, the
passage of time.
-/
namespace Sys2Proof.Machine

/-! ### Control-space words -/

/-- The word of the control-space register at physical address `a`. -/
def State.reg (s : State) (a : Nat) : Word := aget regReset s.ctl a

/-- The register at `a` holds `w`. -/
def State.setReg (s : State) (a : Nat) (w : Word) : State := { s with ctl := aset regReset s.ctl a w }

/-- Field [lo+len-1:lo] of the register at `a`. -/
def State.fld (s : State) (a lo len : Nat) : Nat := getField (s.reg a) lo len

/-- A bit of the register at `a`. -/
def State.bit (s : State) (a i : Nat) : Bool := getField (s.reg a) i 1 == 1

/-- A field of the register at `a` as a signed number. -/
def State.sfld (s : State) (a lo len : Nat) : Int := getSigned (s.reg a) lo len

/-- Field [lo+len-1:lo] of the register at `a` takes the low bits of `v`. -/
def State.setFld (s : State) (a lo len v : Nat) : State := s.setReg a (putField (s.reg a) lo len v)

/-- Bit `i` of the register at `a` takes `b`. -/
def State.setBit (s : State) (a i : Nat) (b : Bool) : State := s.setFld a i 1 (if b then 1 else 0)

/-- A saturating count field grows by `k` (R10). -/
def State.count (s : State) (a lo len : Nat) (k : Nat := 1) : State := s.setFld a lo len (satur len (s.fld a lo len + k))

/-- A 40- or 64-bit value held in a low and a high register. -/
def State.reg2 (s : State) (lo hi : Nat) : Nat := (s.reg lo).toNat + (s.reg hi).toNat * 2 ^ 32

/-! ### Memory bytes -/

/-- What a byte of memory that nothing has written reads as (log entry 2). -/
def memReset (_ : Nat) : Byte := 0

/-- The byte at physical address `a`. -/
def State.byte (s : State) (a : Nat) : Byte := aget memReset s.mem a

/-- The byte at `a` takes `b`. -/
def State.setByte (s : State) (a : Nat) (b : Byte) : State := { s with mem := aset memReset s.mem a b }

/-- `n` bytes from `a`. -/
def State.bytes (s : State) (a n : Nat) : List Byte := (List.range n).map (fun i => s.byte (a + i))

/-- The bytes `l` stored from `a` on, lowest address first. -/
def State.setBytes (s : State) (a : Nat) : List Byte → State
  | [] => s
  | b :: t => State.setBytes (s.setByte a b) (a + 1) t

/-- An `n`-byte little-endian number at `a` (R4). -/
def State.num (s : State) (a n : Nat) : Nat := fromLE (s.bytes a n)

/-- An `n`-byte number stored at `a`, little-endian (R4). -/
def State.setNum (s : State) (a n v : Nat) : State := s.setBytes a (bytesLE n v)

/-! ### Free values and time -/

/-- A value the spec leaves open, and the state whose counter has moved on (log entry 3). -/
def State.fresh (s : State) (w : Nat) : BitVec w × State :=
  (Config.freeValue w s.freeCtr, { s with freeCtr := s.freeCtr + 1 })

/-- A free number below `n` (0 where `n` is 0). -/
def State.freshBelow (s : State) (n : Nat) : Nat × State :=
  ((Config.freeValue 64 s.freeCtr).toNat % n, { s with freeCtr := s.freeCtr + 1 })

/-- One nanosecond in units of 2^-48 ns. -/
def nsU : Nat := 2 ^ 48
/-- One root PLL period, 1/12.8 GHz (R383). -/
def rootU : Nat := 5 * 2 ^ 42
/-- Periods of the domains divided from the root PLL (Table 17.1). -/
def coreU : Nat := 6 * rootU
def fabU : Nat := 8 * rootU
def srchU : Nat := 12 * rootU
def evtU : Nat := 4 * rootU
def periU : Nat := 64 * rootU
/-- One TIME cycle: INCR_nom (Table 3.1). -/
def tickU : Nat := 351843720888320
/-- One epoch, 491.52 µs (R15). -/
def epochU : Nat := 2 ^ 20 * coreU
def usU : Nat := 1000 * nsU
def msU : Nat := 1000000 * nsU
def secU : Nat := 1000000000 * nsU

/-- CI0 now, in units of 2^-48 ns. -/
def State.now (s : State) : Nat := s.time.now

/-- Time reaches `t`; an instant already past leaves it where it is (log entry 5). -/
def State.advance (s : State) (t : Nat) : State := { s with time := { s.time with now := max s.time.now t } }

/-! ### A hardware set and a write in one cycle (Table 0.3) -/

/-- One cycle of the clock domain that holds the register at `a` (R10, Table 17.1; log entry 191). -/
def domainU (a : Nat) : Nat := match (a - 0x40000000) / 0x100000 with
  | 2 => 125 * nsU
  | 4 | 22 => tickU
  | 0 | 1 | 3 | 5 | 6 | 25 => periU
  | 9 | 10 | 15 => srchU
  | 11 => coreU
  | _ => fabU

/-- Hardware sets W1C bit `i` of the register at `a`: a clear in the same cycle of its domain loses (Table 0.3). -/
def State.latch (s : State) (a i : Nat) : State :=
  let k := s.now / domainU a
  let old := aget (fun _ => (0, 0)) s.latched a
  { s.setBit a i true with
    latched := aset (fun _ => (0, 0)) s.latched a (k, (if old.1 = k then old.2 else 0) ||| 2 ^ i) }

/-- The W1C bits of the register at `a` that hardware set in the present cycle of its domain. -/
def State.justSet (s : State) (a : Nat) : Word :=
  let e := aget (fun _ => (0, 0)) s.latched a
  if e.1 = s.now / domainU a then BitVec.ofNat 32 e.2 else 0

/-- A write of `v` clears the bits of `mask` written 1, but those that hardware set in the same cycle (W1C of Table 0.3). -/
def State.w1c (s : State) (a mask : Nat) (v : Word) : State :=
  let m := v &&& BitVec.ofNat 32 mask &&& ~~~(s.justSet a)
  if m = 0 then s else s.setReg a (s.reg a &&& ~~~m)

/-- The first whole multiple of `p` at or after `t`. -/
def ceilTo (p t : Nat) : Nat := (t + p - 1) / p * p

/-- SEC, NS and FRAC of a value in units of 2^-48 ns (R57). -/
def secOf (u : Nat) : Nat := u / secU % 2 ^ 48
def nsOf (u : Nat) : Nat := u / nsU % 1000000000
def fracOf (u : Nat) : Nat := u / 2 ^ 32 % 2 ^ 16

/-- SEC, NS and FRAC of a value in units of 2^-16 ns (R57). -/
def sec16 (v : Nat) : Nat := v / (1000000000 * 2 ^ 16) % 2 ^ 48
def ns16 (v : Nat) : Nat := v / 2 ^ 16 % 1000000000
def frac16 (v : Nat) : Nat := v % 2 ^ 16

/-- The 2^-16 ns value of SEC, NS and FRAC. -/
def join16 (sec ns frac : Nat) : Nat := (sec * 1000000000 + ns) * 2 ^ 16 + frac

/-- CORE cycles since packet path start (R15). -/
def State.coreCycle (s : State) : Nat := (s.now - s.path.start) / coreU

/-! ### Raises, causes and units -/

/-- Source `src` is raised with its context words and the unit it concerns (R356). -/
def State.raiseU (s : State) (src : Nat) (ctx : List Nat) (unit : Nat) : State :=
  { s with flt := { s.flt with raises := s.flt.raises ++ [⟨src, ctx, unit⟩] } }

/-- Source `src` is raised with its context words. -/
def State.raise (s : State) (src : Nat) (ctx : List Nat := []) : State := s.raiseU src ctx 0

/-- An outside condition behind level source `src` begins or ends (R358). -/
def State.setCause (s : State) (src : Nat) (on : Bool) : State :=
  { s with flt := { s.flt with causes := aset (fun _ => false) s.flt.causes src on } }

/-- A condition that raises a level source, or ends its cause: the raise occurs when the condition begins. -/
def State.levelSource (s : State) (src : Nat) (on : Bool) (ctx : List Nat := []) : State :=
  let s := s.setCause src on
  if on then s.raise src ctx else s

/-- UNIT numbers of Table 14.3. -/
def unitId (cls idx : Nat) : Nat := cls * 256 + idx

/-- The state of a unit; a unit nothing has changed is ACTIVE with GEN 0 and EPOCH 0 (log entry 6). -/
def State.unit (s : State) (u : Nat) : UnitSt := aget (fun _ => {}) s.units u

def State.setUnit (s : State) (u : Nat) (x : UnitSt) : State := { s with units := aset (fun _ => {}) s.units u x }

/-- A unit takes STATE `c`; GEN advances modulo 65,536 when the state changes (R331). -/
def State.unitState (s : State) (u c : Nat) : State :=
  let x := s.unit u
  if x.state = c then s else s.setUnit u { x with state := c, gen := (x.gen + 1) % 65536 }

/-- GEN of a unit advances: its own state register changed (R331). -/
def State.bumpGen (s : State) (u : Nat) : State :=
  let x := s.unit u
  s.setUnit u { x with gen := (x.gen + 1) % 65536 }

/-- Whether a unit is fenced: requests to it complete with ABSENT (R373). -/
def State.fenced (s : State) (u : Nat) : Bool := (s.unit u).state == 1

/-- Requests to the unit end ABSENT: it is fenced or in reset, which begins with a fence (R374). -/
def State.absent (s : State) (u : Nat) : Bool := (s.unit u).state == 1 || ((s.unit u).state == 2 && u / 256 != 9 && u / 256 != 10)

/-- The unit is fenced: its epoch advances, its STATE becomes FENCED and UNIT_FENCED is raised (R373). Not again within 2 µs. -/
def State.fence (s : State) (u : Nat) (by_ : Option Nat) : State :=
  let x := s.unit u
  if x.state = 1 ∨ x.state = 6 then s
  else
    let e := (x.epoch + 1) % 16
    let s := s.setUnit u { x with state := 1, gen := (x.gen + 1) % 65536, epoch := e, fencedAt := some s.now, fencedBy := by_ }
    s.raiseU Src.unitFenced [u + e * 65536] u

/-- The fence of the unit took effect less than 2 µs ago (R373). -/
def State.fenceYoung (s : State) (u : Nat) : Bool :=
  match (s.unit u).fencedAt with
  | none => false
  | some t => s.now < t + 2 * usU

/-- The fence of a unit ends no earlier than 2 µs after it took effect (R373). -/
def State.afterFence (s : State) (u : Nat) : State := match (s.unit u).fencedAt with
  | some t => s.advance (t + 2 * usU)
  | none => s

/-- A fenced unit is ACTIVE again; its EPOCH is kept (R374). -/
def State.liftFence (s : State) (u : Nat) : State :=
  let s := s.afterFence u
  let x := s.unit u
  s.setUnit u { x with state := 0, gen := (x.gen + 1) % 65536, fencedBy := none }

/-! ### Clock instances -/

def State.inst (s : State) (n : Nat) : Inst := aget (fun _ => {}) s.time.insts n

def State.setInst (s : State) (n : Nat) (i : Inst) : State :=
  { s with time := { s.time with insts := aset (fun _ => {}) s.time.insts n i } }

/-- TIME_CInHOLD.STATE: 0 FREE, 1 LOCKED, 2 HOLDOVER, 3 INVALID (Table 3.2). -/
def State.instState (s : State) (n : Nat) : Nat :=
  if n = 0 then (if s.time.ci0Invalid then 3 else 0) else s.fld (ciR n 0x3C) 0 2

/-- The newest segment in force at TIME cycle `k` (R68). -/
def segAt (segs : List Segment) (k : Nat) : Option Segment := segs.find? (fun g => g.k ≤ k)

/-- The value of an instance at the start of TIME cycle `k`, units of 2^-48 ns (R58). -/
def State.instAt (s : State) (n k : Nat) : Nat :=
  if n = 0 then k * tickU
  else match segAt (s.inst n).segs k with
    | some g => g.v + (k - g.k) * g.incr
    | none => 0

/-- The TIME cycle that holds the present instant. -/
def State.tick (s : State) : Nat := s.now / tickU

/-- Conversion status of R69. -/
inductive Conv where
  | ok | old | ambig | invalid
  deriving DecidableEq, Repr

def Conv.code : Conv → Nat
  | .ok => 0 | .old => 1 | .ambig => 2 | .invalid => 3

/-- The more severe of two statuses, in the order INVALID, OLD, AMBIG, OK (R69). -/
def Conv.worse (a b : Conv) : Conv :=
  if a = .invalid ∨ b = .invalid then .invalid
  else if a = .old ∨ b = .old then .old
  else if a = .ambig ∨ b = .ambig then .ambig else .ok

/-- A CI0 instant (2^-48 ns) in instance n, in units of 2^-16 ns (R68): none where it lies before the oldest segment. -/
def State.fromCi0 (s : State) (n t0 : Nat) : Option Nat :=
  if n = 0 then some (t0 / 2 ^ 32)
  else
    let k := t0 / tickU
    let phi := t0 % tickU
    match segAt (s.inst n).segs k with
    | none => none
    | some g => some ((g.v + (k - g.k) * g.incr + phi * g.incr / tickU) / 2 ^ 32)

/-- The latest instant in one segment, before the CI0 instant `stop`, whose conversion does not pass the value `x16`
    (2^-16 ns): none where the segment opens above it (R68; log entry 7). -/
def segBack (g : Segment) (stop : Option Nat) (x16 : Nat) : Option Nat :=
  let x := (x16 + 1) * 2 ^ 32 - 1
  if x < g.v then none
  else
    let d := x - g.v
    let k := d / g.incr
    let phi := min (tickU - 1) (((d % g.incr + 1) * tickU - 1) / g.incr)
    let t := (g.k + k) * tickU + phi
    match stop with
    | none => some t
    | some e => some (min t (e - 1))

/-- The value `x16` also occurs in a segment older than `g`, before a backward step (R69); `back`: one has been passed already. -/
def occursBefore (x16 : Nat) (g : Segment) (back : Bool) : List Segment → Bool
  | [] => false
  | p :: rest =>
    let e := p.v + (g.k - p.k) * p.incr
    let back := back || decide (g.v < e)
    (back && p.v ≤ (x16 + 1) * 2 ^ 32 - 1 && x16 * 2 ^ 32 < e) || occursBefore x16 p back rest

/-- The conversion of a value to CI0 over the segments, newest first: the instant, and whether it is ambiguous. -/
def backSearch : List Segment → Option Nat → Nat → Option (Nat × Bool)
  | [], _, _ => none
  | g :: rest, stop, x16 =>
    match segBack g stop x16 with
    | some t => some (t, occursBefore x16 g false rest)
    | none => backSearch rest (some (g.k * tickU)) x16

/-- An instance value (2^-16 ns) as a CI0 instant truncated to 2^-16 ns, in units of 2^-48 ns, with its status (R68, R69). -/
def State.toCi0 (s : State) (m x16 : Nat) : Option (Nat × Conv) :=
  if m = 0 then some (x16 * 2 ^ 32, .ok)
  else match backSearch (s.inst m).segs none x16 with
    | none => none
    | some (t, again) => some (t / 2 ^ 32 * 2 ^ 32, if again then .ambig else .ok)

/-- A value of instance m (2^-16 ns) converted to instance n (R69). An OLD result is undefined: a free value. -/
def State.convert (s : State) (m n x16 : Nat) : Nat × Conv × State :=
  if s.instState m = 3 ∨ s.instState n = 3 then
    let (v, s) := s.fresh 96
    (v.toNat, .invalid, s)
  else
    match s.toCi0 m x16 with
    | none => let (v, s) := s.fresh 96; (v.toNat, .old, s)
    | some (t, c) =>
      match s.fromCi0 n t with
      | none => let (v, s) := s.fresh 96; (v.toNat, .old, s)
      | some r => (r, c, s)

/-- A capture at CI0 instant `t0` as it reads in instance n (R61, R68): the value in 2^-16 ns and its status. -/
def State.stampIn (s : State) (n t0 : Nat) : Nat × Conv × State :=
  match s.fromCi0 n t0 with
  | none => let (v, s) := s.fresh 96; (v.toNat, .old, s)
  | some r => (r, if s.instState n = 3 then .invalid else .ok, s)

/-- The clock instance of port p: TIME_PORTCIm (R61). -/
def State.portCi (s : State) (p : Nat) : Nat := s.fld (timeB + 0x20 + p / 8 * 4) (p % 8 * 4) 4

/-- A read of a _LO register latches its _HI register for the next read of it (Table 1.14, R258). -/
def State.latchHi (s : State) (lo hi : Nat) : State :=
  { s with hiLatch := aset (fun _ => none) s.hiLatch hi (some (s.reg hi)), resp := .ok (s.reg lo).toNat }

/-- A read of a _HI register: the latched word when one waits, else the register. -/
def State.readHi (s : State) (hi : Nat) : State :=
  match aget (fun _ => none) s.hiLatch hi with
  | some w => { s with hiLatch := aset (fun _ => none) s.hiLatch hi none, resp := .ok w.toNat }
  | none => { s with resp := .ok (s.reg hi).toNat }

end Sys2Proof.Machine
end

