-- ==== Sys2Proof/Machine/PoolOps.lean ====
section
/-!
DEFINITION. Machine/PoolOps.lean: the buffer pool manager (R238–R246): free lists, owners, the audit table, frame cells.
-/
namespace Sys2Proof.Machine

def State.pool1 (s : State) (k : Nat) : Pool := aget (fun _ => {}) s.pool.pools k

def State.setPool1 (s : State) (k : Nat) (p : Pool) : State :=
  { s with pool := { s.pool with pools := aset (fun _ => {}) s.pool.pools k p } }

def State.heldAt (s : State) (k i : Nat) : Option Held := aget (fun _ => none) s.pool.held (k * 2 ^ 20 + i)

def State.setHeld (s : State) (k i : Nat) (h : Option Held) : State :=
  { s with pool := { s.pool with held := aset (fun _ => none) s.pool.held (k * 2 ^ 20 + i) h } }

def State.lastOwner (s : State) (k i : Nat) : Nat := aget (fun _ => 0) s.pool.lastOwner (k * 2 ^ 20 + i)

def State.setLastOwner (s : State) (k i o : Nat) : State :=
  { s with pool := { s.pool with lastOwner := aset (fun _ => 0) s.pool.lastOwner (k * 2 ^ 20 + i) o } }

def State.auditAt (s : State) (e : Nat) : AuditEntry := aget (fun _ => {}) s.pool.audit e

def State.setAudit (s : State) (e : Nat) (x : AuditEntry) : State :=
  { s with pool := { s.pool with audit := aset (fun _ => {}) s.pool.audit e x } }

/-- Free buffers of pool k: POOL_PkFREE. -/
def State.poolFree (s : State) (k : Nat) : Nat := s.fld (poolR k 0x0C) 0 20
def State.poolCount (s : State) (k : Nat) : Nat := s.fld (poolR k 0x08) 0 20
def State.poolBase (s : State) (k : Nat) : Nat := s.reg2 (poolR k 0) (poolR k 4)

/-- The physical address of buffer i of pool k (R238). -/
def State.bufAddr (s : State) (k i : Nat) : Nat := s.poolBase k + i * poolSize k

/-- The stamp of R245, in ms modulo 2^32. -/
def State.stampMs (s : State) : Nat := (secOf s.now * 1000 + nsOf s.now / 1000000) % 2 ^ 32

/-- The first buffer from `i` that is not withdrawn; `fuel` bounds the search. -/
def skipWithdrawn (w : List Nat) : Nat → Nat → Nat
  | 0, i => i
  | fuel + 1, i => if w.contains i then skipWithdrawn w fuel (i + 1) else i

/-- The head of pool k's free list (R238), and the list without it. -/
def State.takeHead (s : State) (k : Nat) : Option (Nat × State) :=
  let p := s.pool1 k
  let i := skipWithdrawn p.withdrawn p.withdrawn.length p.fresh
  if i < s.poolCount k then some (i, s.setPool1 k { p with fresh := i + 1 })
  else match p.freed with
    | j :: t => some (j, s.setPool1 k { p with fresh := i, freed := t })
    | [] => none

/-- The audit entry of an owner, when it has one (R245): ports have entries 0 to 33. -/
def State.auditOf (s : State) (owner : Nat) : Option Nat :=
  if 0xE00 ≤ owner ∧ owner ≤ 0xE21 then some (owner - 0xE00)
  else (s.pool.audit.find? (fun e => 34 ≤ e.1 && e.2.used && e.2.owner == owner)).map (·.1)

/-- The lowest free audit entry, when there is one. -/
def State.freeAudit (s : State) : Option Nat :=
  ((List.range 222).map (· + 34)).find? (fun e => !(s.auditAt e).used)

/-- The owner's count of pool k changes; an entry of no port whose counts are all 0 is released (R245). -/
def State.auditAdd (s : State) (e k : Nat) (up : Bool) : State :=
  let x := s.auditAt e
  let c := x.counts.getD k 0
  let counts := x.counts.set k (if up then c + 1 else c - 1)
  if 34 ≤ e ∧ counts.all (· == 0) then
    (s.setAudit e {}).setFld (poolB + 0x18C) 0 9 (s.fld (poolB + 0x18C) 0 9 - 1)
  else s.setAudit e { x with counts := counts }

/-- The owner receives a buffer of pool k: whether the audit table tracks it (R245). -/
def State.auditReceive (s : State) (owner k : Nat) : Bool × State :=
  match s.auditOf owner with
  | some e => (true, s.auditAdd e k true)
  | none =>
    let holds := s.pool.held.any (fun h => match h.2 with | some x => x.owner == owner | none => false)
    match (if holds then none else s.freeAudit) with
    | some e =>
      let s := s.setAudit e { owner := owner, used := true }
      let s := s.setFld (poolB + 0x18C) 0 9 (s.fld (poolB + 0x18C) 0 9 + 1)
      (true, s.auditAdd e k true)
    | none => (false, (s.count (poolB + 0x18C) 12 20).raise Src.poolAuditFull)

/-- The owner gives a buffer up. -/
def State.auditLose (s : State) (h : Held) (k : Nat) : State :=
  if h.tracked then
    match s.auditOf h.owner with
    | some e => s.auditAdd e k false
    | none => s
  else s.setFld (poolB + 0x18C) 12 20 (s.fld (poolB + 0x18C) 12 20 - 1)

/-- Free capacity of P3 and P4 below POOL_SIDING.LOW_PCT percent raises SIDING_HIGH once (R244). -/
def State.sidingCheck (s : State) : State :=
  let cap := fun n3 n4 => n3 * poolSize 3 + n4 * poolSize 4
  let low := 100 * cap (s.poolFree 3) (s.poolFree 4) < s.fld (poolB + 0x104) 0 7 * cap (s.poolCount 3) (s.poolCount 4)
  if low then
    if s.pool.sidingLow then s
    else ({ s with pool := { s.pool with sidingLow := true } }).levelSource Src.sidingHigh true
  else ({ s with pool := { s.pool with sidingLow := false } }).setCause Src.sidingHigh false

/-- Buffer i of pool k leaves the free list for `owner` (R241, R245). -/
def State.allocFrom (s : State) (k owner : Nat) : Option (Nat × State) :=
  if s.poolFree k = 0 then none
  else match s.takeHead k with
    | none => none
    | some (i, s) =>
      let f := s.poolFree k - 1
      let s := s.setFld (poolR k 0x0C) 0 20 f
      let s := if f < s.fld (poolR k 0x18) 0 20 then s.setFld (poolR k 0x18) 0 20 f else s
      let (tr, s) := s.auditReceive owner k
      let s := (s.setHeld k i (some ⟨owner, s.stampMs, tr⟩)).sidingCheck
      some (i, s)

/-- EGR_CELLS.RESERVE − held of R240. -/
def State.p0Reserve (s : State) : Nat :=
  let r := s.fld (egrB + 0x08) 0 19
  r - min r s.pool.heldRes

/-- A refused request: POOL_EMPTY_Pk for the first pool tried, SIDING_FULL for a siding (R244). -/
def State.refusePool (s : State) (k : Nat) : State :=
  let s := s.raise (Src.poolEmpty k)
  if 3 ≤ k then s.raise Src.sidingFull else s

/-- An allocation naming pool k (R239): k first, then the larger pool of the same memory. -/
def State.poolGet (s : State) (k owner : Nat) : Option (Nat × Nat) × State :=
  let try1 := fun (s : State) (j : Nat) => (s.allocFrom j owner).map (fun r => ((j, r.1), r.2))
  let r :=
    if k = 0 then (if s.p0Reserve < s.poolFree 0 then try1 s 0 else none)
    else if k = 1 ∨ k = 3 then (match try1 s k with | some r => some r | none => try1 s (k + 1))
    else try1 s k
  match r with
  | some (h, s) => (some h, s)
  | none => (none, s.refusePool k)

/-- The pool that a request by size tries first in the yard or in the siding share, or BAD_ARG (2) where the size is too large (R239). -/
def sizePool (yard : Bool) (size : Nat) : Except Nat Nat :=
  if yard then (if size ≤ 2048 then .ok 1 else if size ≤ 16384 then .ok 2 else .error 2)
  else if size ≤ 65536 then .ok 3 else if size ≤ 1048576 then .ok 4 else .error 2

/-- An allocation by size (R239): BAD_ARG, or what the pool it names gives. -/
def State.poolGetSize (s : State) (yard : Bool) (size owner : Nat) : Except Nat (Option (Nat × Nat)) × State :=
  match sizePool yard size with
  | .error e => (.error e, s)
  | .ok k => let (h, s) := s.poolGet k owner; (.ok h, s)

/-- The handle of buffer i of pool k (Table 10.2). -/
def handleOf (k i : Nat) : Nat := i % 2 ^ 20 + k * 2 ^ 20 + 2 ^ 31

/-- The pool and index a handle names; none where it is malformed (R241). -/
def State.readHandle (s : State) (h : Nat) : Option (Nat × Nat) :=
  let k := bitsOf h 20 3
  let i := bitsOf h 0 20
  if bitsOf h 31 1 = 1 ∧ k ≤ 4 ∧ bitsOf h 23 8 = 0 ∧ i < s.poolCount k ∧ h < 2 ^ 32 then some (k, i) else none

/-- A refused PUT, GIVE or module free: latched, counted and raised (R242). -/
def State.refuseFree (s : State) (k i req owner : Nat) (foreign : Bool) : State :=
  let a := i + k * 2 ^ 20 + (if foreign then 2 ^ 23 else 0)
  let b := req + owner * 2 ^ 16
  let s := s.setReg (poolB + 0x108) (BitVec.ofNat 32 a)
  let s := s.setReg (poolB + 0x10C) (BitVec.ofNat 32 b)
  let s := if foreign then s.count (poolB + 0x110) 12 12 else s.count (poolB + 0x110) 0 12
  s.raise (if foreign then Src.poolForeignFree else Src.poolDoubleFree) [a, b]

/-- The buffer joins the tail of its free list, or leaves the pool when it was withdrawn (R237, R238). -/
def State.release (s : State) (k i : Nat) (h : Held) : State :=
  let s := s.auditLose h k
  let s := (s.setHeld k i none).setLastOwner k i h.owner
  let p := s.pool1 k
  if p.withdrawn.contains i then s
  else
    let s := s.setPool1 k { p with freed := p.freed ++ [i] }
    (s.setFld (poolR k 0x0C) 0 20 (s.poolFree k + 1)).sidingCheck

/-- Whether an owner may free or give buffer i of pool k, with its record: a refusal changes nothing but what R242 latches. -/
def State.mayFree (s : State) (k i owner : Nat) : Option Held × State :=
  match s.heldAt k i with
  | none => (none, s.refuseFree k i owner (s.lastOwner k i) false)
  | some h => if h.owner = owner then (some h, s) else (none, s.refuseFree k i owner h.owner true)

/-- PUT (R241, R242). -/
def State.poolPut (s : State) (h owner : Nat) : State :=
  match s.readHandle h with
  | none => s.count (poolB + 0x110) 24 8
  | some (k, i) =>
    match s.mayFree k i owner with
    | (some x, s) => s.release k i x
    | (none, s) => s

/-- GIVE to owner `dst` (R241, R242): the stamp is set anew and the counts move. -/
def State.poolGive (s : State) (h owner dst : Nat) : State :=
  match s.readHandle h with
  | none => s.count (poolB + 0x110) 24 8
  | some (k, i) =>
    match s.mayFree k i owner with
    | (some x, s) =>
      let s := (s.auditLose x k).setHeld k i none
      let s := s.setLastOwner k i x.owner
      let (tr, s) := s.auditReceive dst k
      s.setHeld k i (some ⟨dst, s.stampMs, tr⟩)
    | (none, s) => s

/-- The logical bank of yard word `w` (32 bytes): bank b of group g is 12 g + b (R235). -/
def bankOfWord (w : Nat) : Nat := w / 8 % 16 * 12 + w / 128 % 12

/-- An uncorrectable error met in yard word `w`: YARD_UNCORR counts it and names its bank, YARD_ERR_ADDR its offset (R236). -/
def State.noteYard (s : State) (w : Nat) : State :=
  ((((s.count (yardB + 4) 0 16).setFld (yardB + 4) 16 8 (bankOfWord w)).setFld (yardB + 8) 0 27 (w * 32))).raise Src.yardUncorr

/-- The first yard word with an uncorrectable error in these cells of P0 (R236). -/
def State.badWordIn (s : State) (cells : List Nat) : Option Nat :=
  (s.pool.badWords.find? (fun e => e.2 && decide (e.1 < 2621440) && cells.contains (e.1 / 8))).map (·.1)

/-- A P0 cell is written whole: its words carry a valid code again. -/
def State.cleanCell (s : State) (i : Nat) : State :=
  { s with pool := { s.pool with badWords := (List.range 8).foldl (fun m j => aset (fun _ => false) m (i * 8 + j) false) s.pool.badWords } }

/-- A frame cell for ingress port p (R240): none with POOL_EMPTY_P0 where it is refused. -/
def State.takeCell (s : State) (p : Nat) (reserved : Bool) : Option Nat × State :=
  let allowed := reserved || decide (s.p0Reserve < s.poolFree 0)
  match (if allowed then s.allocFrom 0 (0xE00 + p) else none) with
  | some (i, s) =>
    let s := s.cleanCell i
    (some i, if reserved then { s with pool := { s.pool with heldRes := s.pool.heldRes + 1 } } else s)
  | none => (none, s.raise (Src.poolEmpty 0))

/-- The module frees a frame cell as port p (R240, R242). -/
def State.freeCell (s : State) (p i : Nat) : State :=
  match s.heldAt 0 i with
  | some h => s.release 0 i h
  | none => s.refuseFree 0 i (0xE00 + p) (s.lastOwner 0 i) false

/-- Several frame cells freed, `res` of them counted as reserved. -/
def State.freeCells (s : State) (p res : Nat) (l : List Nat) : State :=
  let s := l.foldl (fun s i => s.freeCell p i) s
  { s with pool := { s.pool with heldRes := s.pool.heldRes - res } }

end Sys2Proof.Machine
end

