-- ==== Sys2Proof/Machine/CoachOps.lean ====
section
/-!
DEFINITION. Machine/CoachOps.lean: the coach's fields (Table 2.1), drop reasons (R41), drop counters (R231), references of copies
(R54) and frames the module enqueues directly (R253, R320).
-/
namespace Sys2Proof.Machine

/-- Field [lo+len-1:lo] of the word at coach byte `b`. -/
def Coach.fld (c : Coach) (b lo len : Nat) : Nat := getField c.raw (8 * b + lo) len

def Coach.setFld (c : Coach) (b lo len v : Nat) : Coach := { c with raw := putField c.raw (8 * b + lo) len v }

/-- Byte i of the coach. -/
def Coach.byte (c : Coach) (i : Nat) : Byte := c.raw.extractLsb' (8 * i) 8

/-- Bytes i to i + n − 1 of the coach. -/
def Coach.bytes (c : Coach) (i n : Nat) : List Byte := (List.range n).map (fun j => c.byte (i + j))

def Coach.len (c : Coach) : Nat := c.fld 192 0 14
def Coach.inPort (c : Coach) : Nat := c.fld 192 14 6
def Coach.tense (c : Coach) : Nat := c.fld 192 20 4
def Coach.cls (c : Coach) : Nat := c.fld 192 24 3
def Coach.kind (c : Coach) : Nat := c.fld 192 27 3
def Coach.verb (c : Coach) : Nat := c.fld 196 23 3
def Coach.reason (c : Coach) : Nat := c.fld 196 26 6
def Coach.seq (c : Coach) : Nat := c.fld 200 0 32
def Coach.headCheck (c : Coach) : Nat := c.fld 220 0 32
def Coach.carriage (c : Coach) : Nat := c.fld 224 0 32
def Coach.streamIx (c : Coach) : Nat := c.fld 228 0 14
def Coach.frerSeq (c : Coach) : Nat := c.fld 228 14 16
def Coach.frerAct (c : Coach) : Nat := c.fld 228 30 2
def Coach.streamSt (c : Coach) : Nat := c.fld 240 23 2
def Coach.mirror (c : Coach) : Nat := c.fld 236 2 4
/-- EGRESS_MASK, ports 0 to 33. -/
def Coach.mask (c : Coach) : Nat := c.fld 232 0 32 + c.fld 236 0 2 * 2 ^ 32
def Coach.setMask (c : Coach) (m : Nat) : Coach := (c.setFld 232 0 32 m).setFld 236 0 2 (m / 2 ^ 32)

/-- Body length: LEN of ETH and INJECT; a raw payload's LEN (0 is 16,384) and its 16-byte header (R38). -/
def Coach.bodyLen (c : Coach) : Nat :=
  if c.kind = 1 then (if c.len = 0 then 16384 else c.len) + 16 else c.len

/-- LEN is final: the tail has been written (Table 2.1). -/
def Coach.lenFinal (c : Coach) : Bool := c.verdict.isSome || c.kind == 1

/-- The packet path runs (Table 1.14). -/
def State.pathRun (s : State) : Bool := s.bit (stnB + 4) 1

def State.coach (s : State) (q : Nat) : Option Coach := aget (fun _ => none) s.coaches q

def State.setCoach (s : State) (q : Nat) (c : Coach) : State :=
  { s with coaches := aset (fun _ => none) s.coaches q (some c) }

def State.dropCoachRec (s : State) (q : Nat) : State := { s with coaches := aset (fun _ => none) s.coaches q none }

/-- The coach changes under `f`, when it exists. -/
def State.modCoach (s : State) (q : Nat) (f : Coach → Coach) : State :=
  match s.coach q with
  | some c => s.setCoach q (f c)
  | none => s

/-- CORE cycles of CI0, for the same-cycle rule of R41. -/
def State.coreNow (s : State) : Nat := s.now / coreU

/-- DROP_REASON takes `reason` with the writer's rank of R41 (1 to 6); VERB then reads DROP. -/
def Coach.drop (c : Coach) (cyc reason rank : Nat) : Coach :=
  let put := fun (c : Coach) => { (c.setFld 196 23 3 2).setFld 196 26 6 reason with dropBy := some (cyc, rank) }
  if reason = 0 then c
  else if c.reason = 0 then put c
  else match c.dropBy with
    | some (cy, r) => if cy = cyc ∧ (rank < r ∨ (rank = r ∧ r = 5 ∧ reason < c.reason)) then put c else c
    | none => c

def State.dropCoach (s : State) (q reason rank : Nat) : State := s.modCoach q (fun c => c.drop s.coreNow reason rank)

/-! ### Drop counters -/

/-- One drop counted in set `set` of port p under `reason` (R231), with the rate watch of Table 9.3 and the period of R233. -/
def State.countDrop (s : State) (p set reason : Nat) : State :=
  let s := s.count (dropR p set reason) 0 32
  let key := (p * 9 + set) * 64 + reason
  let s := { s with egr := { s.egr with refused := aset (fun _ => 0) s.egr.refused key (aget (fun _ => 0) s.egr.refused key + 1) } }
  if reason = 1 then
    let w := (s.now - s.path.start) / msU
    let n := if s.egr.fcsWindow = w then s.egr.fcsCount + 1 else 1
    let s := { s with egr := { s.egr with fcsWindow := w, fcsCount := n } }
    let lim := s.fld egrB 0 16
    if lim ≠ 0 ∧ n = lim + 1 then s.raise Src.fcsRate else s
  else s

/-- A coach of a stream (STREAM_ST 1) counts its drop in the stream state (R231). -/
def State.streamDrop (s : State) (c : Coach) (reason : Nat) : State :=
  if c.streamSt = 1 then
    let a := 0x30A00000 + c.streamIx * 16
    let s := s.setNum (a + 8) 4 (satur 32 (s.num (a + 8) 4 + 1))
    s.setNum (a + 12) 1 ((s.num (a + 12) 1) / 64 * 64 + reason)
  else s

/-- Whether class c is reserved on port p (PORT_ADMIT_DEGp.RES_CLASS). -/
def State.resClass (s : State) (p c : Nat) : Bool := s.bit (admitR p 4) (20 + c)

/-- Downtime of R380: 1 ms for each CI0 millisecond in which a reserved or stream coach is dropped for a module cause. -/
def State.availDrop (s : State) (c : Coach) (reason : Nat) (reservedQueue : Bool) : State :=
  let cause := reason == 8 || reason == 12 || reason == 10 || reason == 20 || reason == 23 || reason == 18 || reason == 5
    || (reason == 6 && reservedQueue)
  if cause && (s.resClass c.inPort c.cls || c.streamSt == 1) then
    let ms := s.now / msU
    if s.path.availMs = some ms then s
    else
      let s := { s with path := { s.path with availMs := some ms } }
      (s.count (fltB + 0x94) 0 32).count (fltB + 0x98) 0 32
  else s

/-- The coach leaves: its cells are freed and its record goes (R41). -/
def State.freeCoach (s : State) (q : Nat) (c : Coach) : State :=
  (s.freeCells c.inPort c.resCells (c.cell :: c.cells)).dropCoachRec q

/-- A dropped coach leaves, counted once in the ingress set of its port (R41, R231). -/
def State.leaveDropped (s : State) (q : Nat) (c : Coach) : State :=
  let s := s.countDrop c.inPort 8 c.reason
  let s := (s.streamDrop c c.reason).availDrop c c.reason false
  s.freeCoach q c

/-- One copy of the coach is done: its cells are freed with the last one (R54). -/
def State.unref (s : State) (q : Nat) : State :=
  match s.coach q with
  | none => s
  | some c => if c.refs ≤ 1 then s.freeCoach q c else s.setCoach q { c with refs := c.refs - 1 }

/-! ### Queues -/

def State.queue (s : State) (q c : Nat) : List Copy := aget (fun _ => []) s.egr.queues (q * 8 + c)

def State.setQueue (s : State) (q c : Nat) (l : List Copy) : State :=
  { s with egr := { s.egr with queues := aset (fun _ => []) s.egr.queues (q * 8 + c) l } }

def State.egrPort (s : State) (q : Nat) : EgrPort := aget (fun _ => {}) s.egr.ports q

def State.setEgrPort (s : State) (q : Nat) (p : EgrPort) : State :=
  { s with egr := { s.egr with ports := aset (fun _ => {}) s.egr.ports q p } }

/-- The fill of a queue and the cells charged to all queues change by `n` (R216, Table 9.6). -/
def State.addFill (s : State) (q c : Nat) (n : Int) : State :=
  let f := s.fld (egrQR q c 0x10) 0 19
  let u := s.fld (egrB + 0x0C) 0 19
  let s := s.setFld (egrQR q c 0x10) 0 19 (f + n).toNat
  s.setFld (egrB + 0x0C) 0 19 (u + n).toNat

/-- cells(B) of R216. -/
def cellsOf (b : Nat) : Nat := 1 + (b - 196 + 255) / 256

/-- EGR_PORTq.MAX_FRAME: values outside 64 to 9,216 act as 9,216 (Table 9.7). -/
def State.maxFrame (s : State) (q : Nat) : Nat :=
  let m := s.fld (egrPR q 0) 0 14
  if 64 ≤ m ∧ m ≤ 9216 then m else 9216

/-- A class of a port is reserved when some ingress port reserves it (R217; log entry 20). -/
def State.reservedQueue (s : State) (c : Nat) : Bool := (List.range 34).any (fun p => s.resClass p c)

/-- The source that goes with a refusal or discard reason at a queue (Table 9.3). -/
def reasonSource (r : Nat) : Option Nat := match r with
  | 6 => some Src.queueQuota
  | 7 => some Src.staleDrop
  | 21 => some Src.launchLate
  | 23 => some Src.yardUncorr
  | _ => none

/-- A copy is counted in the queue's set under `reason` (R231), and where R380 and R110 count it too. -/
def State.countQuiet (s : State) (cp : Copy) (reason : Nat) : State :=
  let s := s.countDrop cp.port cp.cls reason
  match cp.coach.bind s.coach with
  | some c => (s.streamDrop c reason).availDrop c reason (s.reservedQueue cp.cls)
  | none => s

/-- A copy is refused or discarded at queue (q, c) under `reason` (R231): counted, and the source of the reason raised. -/
def State.countQ (s : State) (cp : Copy) (reason : Nat) : State :=
  (match reasonSource reason with
    | some src => s.raise src
    | none => s).countQuiet cp reason

/-- The cells of a frame the drain built go back (R253). -/
def State.freeCopyCells (s : State) (cp : Copy) : State :=
  cp.cells.foldl (fun s i => match s.heldAt 0 i with
    | some h => s.release 0 i h
    | none => s.refuseFree 0 i cp.cellOwner (s.lastOwner 0 i) false) s

/-- A queued copy is discarded: counted, its charge returned, its reference dropped (R229). The queue itself is the caller's. -/
def State.discard (s : State) (cp : Copy) (reason : Nat) : State :=
  let s := (s.countQ cp reason).addFill cp.port cp.cls (-(cp.charge : Int))
  match cp.coach with
  | some q => s.unref q
  | none => s.freeCopyCells cp

/-- The rate of a port in Gbit/s, from the PORTS record in force (Table 15.6). -/
def State.portRate (s : State) (p : Nat) : Nat := le (s.image.ports.getD p []) 2 2

/-- The copy of a frame the module makes. -/
def State.frameCopy (s : State) (q c : Nat) (frame : List Byte) (cells : List Nat) (owner : Nat) : Copy :=
  let b := max 64 (frame.length + 4)
  { frame := frame, port := q, cls := c, size := b, charge := cellsOf b, enqueued := s.now, cells := cells, cellOwner := owner }

/-- A copy joins queue (q, c). -/
def State.pushCopy (s : State) (q c : Nat) (cp : Copy) : State := (s.setQueue q c (s.queue q c ++ [cp])).addFill q c cp.charge

/-- A frame the module makes is put into queue (q, c) directly (R253, R320): the tests of Table 9.1 that need no coach apply.
    `false` where it is refused, counted under R231. -/
def State.enqueueFrame (s : State) (q c : Nat) (frame : List Byte) (cells : List Nat := []) (owner : Nat := 0) : Bool × State :=
  let cp := s.frameCopy q c frame cells owner
  let b := cp.size
  let tagged := be frame 12 2 = 0x8100
  let vid := be frame 14 2 % 4096
  let v := if tagged ∧ vid ≠ 0 then vid else s.fld (egrPR q 0x20) 0 12
  let member := if q < 32 then s.bit (vlanR v 0) q else s.bit (vlanR v 4) (q - 32)
  if s.fld (egrPR q 4) 0 1 = 0 then (false, s.countQ cp 15)
  else if s.bit (egrPR q 0) 27 && !member then (false, s.countQ cp 13)
  else if s.maxFrame q < b then (false, s.countQ cp 14)
  else if s.fld (egrQR q c 0) 0 19 < s.fld (egrQR q c 0x10) 0 19 + cp.charge then (false, s.countQ cp 6)
  else
    (true, s.pushCopy q c cp)

end Sys2Proof.Machine
end

