-- ==== Sys2Proof/Machine/Notice.lean ====
section
/-!
DEFINITION. Machine/Notice.lean: Jenitor frames as the module sends them (R320–R322) and the notice queue (R333–R335).
-/
namespace Sys2Proof.Machine

def State.session (s : State) (i : Nat) : Session := aget (fun _ => {}) s.jen.sessions i

def State.setSession (s : State) (i : Nat) (x : Session) : State :=
  { s with jen := { s.jen with sessions := aset (fun _ => {}) s.jen.sessions i x } }

/-- The Jenitor EtherType: JEN_CFG.ETYPE, and 0x88B5 where no image sets it (R320, R349). -/
def State.jenEtype (s : State) : Nat :=
  if s.image.valid then (if s.fld jenB 0 16 = 0 then 0x88B5 else s.fld jenB 0 16) else 0x88B5

/-- The 32-byte header with TAG zero (Table 14.1). -/
def jenHeader (kind flags len session seq ns : Nat) : List Byte :=
  bytesBE 1 (1 + 16 * kind) ++ bytesBE 1 flags ++ bytesBE 2 len ++ bytesBE 4 session ++ bytesBE 4 seq ++ bytesBE 4 ns
    ++ List.replicate 16 0

/-- Header, tag and payload (R322); no key gives TAG 0 (R323). -/
def jenSeal (hdr payload : List Byte) (key : Option (List Byte)) : List Byte :=
  match key with
  | some k => hdr.take 16 ++ (hmac k (hdr ++ payload)).take 16 ++ payload
  | none => hdr ++ payload

/-- The Ethernet frame around a Jenitor message, on the port and VLAN of the session's last accepted frame (R320). -/
def State.jenFrame (s : State) (port : Nat) (vlan : Option Nat) (dst msg : List Byte) : List Byte :=
  let tag := match vlan with
    | some v => bytesBE 2 0x8100 ++ bytesBE 2 v
    | none => []
  dst ++ bytesBE 6 (Config.portAddr port).toNat ++ tag ++ bytesBE 2 s.jenEtype ++ msg

/-- RECOVERY with a fused recovery key: Jenitor runs untagged on MGT (R349). -/
def State.jenRecovery (s : State) : Bool := s.fld bootB 0 4 == 8 && s.boot.otpOk && s.store.recoveryKey.isSome

/-- A Jenitor message goes straight into class JEN_CFG.CLASS of the port (R320); in RECOVERY no image limits the queue. -/
def State.jenSend (s : State) (port : Nat) (vlan : Option Nat) (dst msg : List Byte) : State :=
  let c := s.fld jenB 28 3
  let f := s.jenFrame port vlan dst msg
  if s.fld bootB 0 4 = 8 then s.pushCopy port c (s.frameCopy port c f [] 0) else (s.enqueueFrame port c f).2

/-- Where the Jenitor header of a frame at port p begins, for a frame that the parser takes off (R320). -/
def State.jenAt (s : State) (p : Nat) (f : List Byte) : Option Nat :=
  if p = 32 then (if (s.bit jenB 31 || s.jenRecovery) && be f 12 2 == s.jenEtype then some 14 else none)
  else if p < 32 && s.bit (jenB + 4) p && be f 12 2 == 0x8100 && be f 14 2 % 4096 == s.fld jenB 16 12 && be f 16 2 == s.jenEtype then some 18
  else none

/-- Copies of a session that are sent, unacknowledged and not parked (R334). -/
def State.outstanding (s : State) (i : Nat) : Nat :=
  (s.jen.notices.map (fun n => (n.copies.filter (fun c => c.session == i && 0 < c.sends && !c.parked)).length)).sum

/-- JEN_NQ shows the queue (Table 14.6). -/
def State.noticeStat (s : State) : State :=
  let s := s.setFld (jenB + 0x10) 0 9 s.jen.notices.length
  s.setFld (jenB + 0x10) 9 9 (s.jen.notices.filter (fun n => n.copies.all (·.parked))).length

/-- One send of a copy: the first fixes its bytes, every further send repeats them (R334). -/
def State.sendCopy (s : State) (n : Notice) (c : NoticeCopy) : NoticeCopy × State :=
  let x := s.session c.session
  let payload := bytesBE 1 n.kind ++ [0#8] ++ bytesBE 2 n.body.length ++ n.body
  let bytes := if c.bytes.isEmpty then jenSeal (jenHeader 3 0 payload.length x.id c.seq (nsOf s.now)) payload (some x.key) else c.bytes
  ({ c with sends := c.sends + 1, bytes := bytes, due := s.now + 10 * msU }, s.jenSend x.port x.vlan x.mac bytes)

/-- Every copy for which `p` holds is sent, oldest entry first. -/
def State.sendCopies (p : State → NoticeCopy → Bool) : List Notice → List Notice → State → State
  | done, [], s => { s with jen := { s.jen with notices := done } }
  | done, n :: rest, s =>
    let (copies, s) := n.copies.foldl (fun (acc : List NoticeCopy × State) c =>
      if p acc.2 c then let (c, s) := acc.2.sendCopy n c; (acc.1 ++ [c], s) else (acc.1 ++ [c], acc.2)) ([], s)
    let n := { n with copies := copies }
    let s := { s with jen := { s.jen with notices := done ++ n :: rest } }
    State.sendCopies p (done ++ [n]) rest s

/-- Copies never sent go out while their session has fewer than 16 outstanding (R334). -/
def State.pumpNotices (s : State) : State :=
  (State.sendCopies (fun s c => c.sends == 0 && !c.parked && s.outstanding c.session < 16) [] s.jen.notices s).noticeStat

/-- A notice for every open session subscribed to its kind (R333); the queue holds 256 entries (R335). -/
def State.notice (s : State) (kind : Nat) (body : List Byte) : State :=
  let subs := (List.range 16).filter (fun i => (s.session i).isOpen && bitAt (s.session i).mask (kind - 1))
  if subs.isEmpty then s
  else
    let full := decide (256 ≤ s.jen.notices.length)
    let parked := s.jen.notices.findIdx? (fun n => n.copies.all (·.parked))
    let s := if full then (s.count (jenB + 0x2C) 0 32).raise Src.jenNoticeLost else s
    let s := match full, parked with
      | true, some i => { s with jen := { s.jen with notices := s.jen.notices.eraseIdx i } }
      | _, _ => s
    if full && parked.isNone then s
    else
      let n : Notice := { kind := kind, body := bytesBE 6 (secOf s.now) ++ bytesBE 4 (nsOf s.now) ++ body,
                          copies := subs.map (fun i => { session := i, seq := (s.session i).noticeSeq }) }
      let s := subs.foldl (fun s i => s.setSession i { s.session i with noticeSeq := (s.session i).noticeSeq + 1 }) s
      { s with jen := { s.jen with notices := s.jen.notices ++ [n] } }.pumpNotices

/-- EVENT notices (Table 14.4): 1 tense committed, 2 image activated, 3 drain complete, 4 step applied. The spec does not say
    what DETAIL holds: a free value (log entry 8). -/
def State.eventNotice (s : State) (code : Nat) : State :=
  let (d, s) := s.fresh 64
  s.notice 2 (bytesBE 2 code ++ bytesBE 8 d.toNat)

/-- A LINK notice (Table 14.4). -/
def State.linkNotice (s : State) (p : Nat) (up : Bool) : State :=
  s.notice 4 (bytesBE 1 p ++ bytesBE 1 (if up then 1 else 0) ++ bytesBE 2 (s.portRate p))

/-- A MIGRATION notice (Table 14.4): outcome 0 DONE, 1 FAIL. -/
def State.migrationNotice (s : State) (unit src dst outcome : Nat) : State :=
  s.notice 8 (bytesBE 2 unit ++ bytesBE 2 src ++ bytesBE 2 dst ++ bytesBE 1 outcome ++ [0#8])

/-! ### Sessions -/

/-- JEN_SESSn and JEN_SESSn_ID show session index i. -/
def State.showSession (s : State) (i : Nat) : State :=
  let x := s.session i
  let w := (if x.isOpen then 1 else 0) + x.role * 2 + x.keyId * 8 + x.port * 128 + x.mask * 65536
  (s.setReg (sessR i 0) (BitVec.ofNat 32 w)).setReg (sessR i 4) (BitVec.ofNat 32 x.id)

/-- The copies for which `p` holds leave the queue, and with its last copy an entry (R334). -/
def State.dropNotices (s : State) (p : NoticeCopy → Bool) : State :=
  let l := (s.jen.notices.map (fun n => { n with copies := n.copies.filter (fun c => !p c) })).filter (fun n => !n.copies.isEmpty)
  ({ s with jen := { s.jen with notices := l } } : State).noticeStat

/-- A session closes (R324); OPENS of its index is kept. -/
def State.closeSession (s : State) (i : Nat) : State :=
  if !(s.session i).isOpen then s
  else
    let s := (s.setSession i { opens := (s.session i).opens }).showSession i
    (s.dropNotices (fun c => c.session == i)).raise Src.jenSession

/-! ### Responses (R326, R327) -/

/-- The command belongs to the session that is open at its index now. -/
def State.cmdLive (s : State) (c : JenCmd) : Bool :=
  (s.session c.session).isOpen && (s.session c.session).id == c.id

/-- The payload of a response. -/
def JenCmd.payload (c : JenCmd) : List Byte :=
  c.answers.flatMap (fun a => bytesBE 1 a.1 ++ bytesBE 1 a.2.1 ++ bytesBE 2 a.2.2.length ++ a.2.2)

/-- The response to a frame outside a session, sealed with `key` where one is known (R323). -/
def State.respondOpen (s : State) (c : JenCmd) (key : Option (List Byte)) : State := match c.origin with
  | some o => s.jenSend o.port o.vlan o.mac (jenSeal (jenHeader 2 0 c.payload.length 0 c.seq (nsOf s.now)) c.payload key)
  | none => s

/-- The response to a command goes out and is kept for repeats (R326); a session closed meanwhile gets none. -/
def State.respond (s : State) (c : JenCmd) : State :=
  let x := s.session c.session
  if c.origin.isSome then s.respondOpen c none
  else if s.cmdLive c then
    let payload := c.payload
    let msg := jenSeal (jenHeader 2 0 payload.length x.id c.seq (nsOf s.now)) payload (some x.key)
    let s := s.setSession c.session { x with stored := x.stored.map (fun r =>
      if r.seq == c.seq && r.tag == c.tag then { r with response := some msg } else r) }
    let s := s.jenSend x.port x.vlan x.mac msg
    if c.closing then s.closeSession c.session else s
  else s

/-- The item at the front of command `i` is answered; the response goes out after the last item, or after the first failing
    one when STOP is 1, or where `last` says that processing ends here (R327). -/
def State.finishItem (s : State) (i status : Nat) (body : List Byte) (last : Bool := false) : State :=
  match s.jen.cmds[i]? with
  | none => s
  | some c =>
    match c.items with
    | [] => s
    | (op, _) :: rest =>
      let c := { c with items := rest, answers := c.answers ++ [(op, status, body)], waiting := false }
      if rest.isEmpty || (c.stop && status != 0) || last then
        { s with jen := { s.jen with cmds := s.jen.cmds.eraseIdx i } }.respond c
      else { s with jen := { s.jen with cmds := s.jen.cmds.set i c } }

/-! ### The order of items (R327, R330) -/

/-- TABLE_WRITE is not among the commands beside which others proceed (R330). -/
def JenCmd.holds (c : JenCmd) : Bool := c.waiting && (match c.items with
  | (op, _) :: _ => op == 5
  | [] => false)

/-- The next item to perform: the place of its command, the command, OP and body. -/
def State.front (s : State) : Option (Nat × JenCmd × Nat × List Byte) :=
  if s.jen.cmds.any (·.holds) then none
  else match s.jen.cmds.findIdx? (fun c => !c.waiting) with
    | none => none
    | some i => match s.jen.cmds[i]? with
      | some c => c.items.head?.map (fun it => (i, c, it.1, it.2))
      | none => none

/-- OP is known, the body's length matches it, and its ACTION, MODE, KIND, TARGET and RESTART are among its values (R327, Table 14.2). -/
def itemKnown (c : JenCmd) (op : Nat) (b : List Byte) : Bool :=
  let n := b.length
  match op with
  | 0x01 => n == 0
  | 0x02 => n == 8
  | 0x03 => n == 12
  | 0x04 => n == 10
  | 0x05 => (be b 0 1 == 0 && n == 263) || (be b 0 1 == 1 && decide (71 ≤ n ∧ n ≤ 583))
  | 0x06 => n == 3 && decide (be b 0 1 ≤ 2)
  | 0x07 => n == 2
  | 0x08 => n == 5 && decide (be b 4 1 ≤ 2)
  | 0x09 => n == 8
  | 0x0A => n == 2
  | 0x0B => n == 2
  | 0x0C => n == 5
  | 0x0D => [261, 517, 773, 1029].contains n
  | 0x0E => n == 9 && decide (be b 5 1 ≤ 1) && decide (be b 6 1 ≤ 1)
  | 0x0F => n == 22 && decide (be b 11 1 ≤ 1)
  | 0x10 => n == 12 && decide (be b 1 1 ≤ 1)
  | 0x11 => n == 1 && decide (be b 0 1 ≤ 1)
  | 0x12 => n == 17 && decide (be b 0 1 ≤ 1)
  | 0x13 => n == 3
  | 0x14 => n == 4
  | 0x15 => n == 2
  | 0x16 => n == 18 && c.origin.isSome
  | 0x17 => n == 0
  | _ => false

/-- Items that no command of Table 14.2 reads are answered with BAD_ARG; `n` bounds them. -/
def State.drainBad (s : State) : Nat → State
  | 0 => s
  | n + 1 => match s.front with
    | some (i, c, op, b) => if itemKnown c op b then s else (s.finishItem i 2 []).drainBad n
    | none => s

/-- The items that stand in the queue. -/
def State.itemCount (s : State) : Nat := (s.jen.cmds.map (fun c => c.items.length)).sum

def State.settleItems (s : State) : State := s.drainBad s.itemCount

/-- The waiting command whose front item satisfies `p` is answered, and bad items that come to the front with it (R330). -/
def State.answer (s : State) (p : Nat → List Byte → Bool) (status : Nat) (body : List Byte) : State :=
  match s.jen.cmds.findIdx? (fun c => c.waiting && (match c.items with | (op, b) :: _ => p op b | [] => false)) with
  | some i => (s.finishItem i status body).settleItems
  | none => s

end Sys2Proof.Machine
end

