-- ==== Sys2Proof/Machine/Journal.lean ====
section
/-!
DEFINITION. Machine/Journal.lean: journal records, the writer, pins, RAM-only mode and the last-gasp cell (R368–R372).
-/
namespace Sys2Proof.Machine

def jour : Nat := fltB + 0x30
def State.ramOnly (s : State) : Bool := s.bit (fltB + 4) 1

/-- A record of Table 16.5: number, source, byte 6, instant (2^-48 ns), suppressed, context words, unit. -/
def State.recordBytes (s : State) (no src flags t suppressed : Nat) (ctx : List Nat) (unit : Nat) : List Byte :=
  let x := s.unit unit
  let b := bytesLE 4 no ++ bytesLE 2 src ++ bytesLE 1 flags ++ [0#8] ++ bytesLE 6 (secOf t) ++ bytesLE 4 (nsOf t)
    ++ bytesLE 2 (satur 16 suppressed) ++ (List.range 4).flatMap (fun i => bytesLE 4 (ctx.getD i 0))
    ++ bytesLE 2 unit ++ bytesLE 2 (if unit = 0 then 0 else x.gen) ++ bytesLE 1 (if unit = 0 then 0 else x.epoch) ++ [0#8, 0#8, 0#8]
    ++ bytesLE 4 s.image.seqNo ++ bytesLE 4 s.flt.boots ++ List.replicate 8 0
  b ++ bytesLE 4 (crc32c b)

/-- The number of the next record, taken (R368). -/
def State.nextRecno (s : State) : Nat × State :=
  let n := (s.reg (jour + 4)).toNat
  (n, s.setReg (jour + 4) (BitVec.ofNat 32 (n + 1)))

/-- A record joins the writer queue of 64 entries, or is lost and counted (R368). -/
def State.queueRecord (s : State) (r : List Byte) : State :=
  if 64 ≤ s.flt.jqueue.length then s.count (jour + 8) 0 32
  else { s with flt := { s.flt with jqueue := s.flt.jqueue ++ [r] } }

/-- PINNED of a record (Table 16.5). -/
def pinnedRec (r : List Byte) : Bool := bitsOf (le r 6 1) 4 1 == 1

/-- Pinned slots in use (R369). -/
def State.pins (s : State) : Nat := s.fld jour 17 10

/-- A pinned record; `false` where 512 slots are pinned already (R369), or where the writer queue is full and the record lost (R368). -/
def State.pinRecord (s : State) (src : Nat) (ctx : List Nat) (unit : Nat) : Bool × State :=
  if 512 ≤ s.pins then (false, s.raise Src.spareLow)
  else
    let (n, s) := s.nextRecno
    let held := decide (s.flt.jqueue.length < 64)
    let s := if held then s.setFld jour 17 10 (s.pins + 1) else s
    (held, s.queueRecord (s.recordBytes n src 16 s.now 0 ctx unit))

/-- A part is retired: its unit reads RETIRED, and a RETIRE record names it and the source (R369). -/
def State.retirePart (s : State) (unit src : Nat) : State :=
  let s := s.unitState unit 6
  let (ok, s) := if s.flt.retired.contains unit then (false, s) else s.pinRecord 0x102 [src] unit
  if ok then { s with flt := { s.flt with retired := s.flt.retired ++ [unit] } } else s

/-- A DRAM row flagged for repair (R272, R369): pinned with channel, bank and row. -/
def State.pinRow (s : State) (ch bank row : Nat) : State :=
  let (ok, s) := s.pinRecord Src.dramPpr [ch, bank, row] (unitId 8 ch)
  if ok then { s with flt := { s.flt with pprRows := s.flt.pprRows ++ [(ch, bank, row)] } } else s

/-- A special record of Table 16.5: BOOT, AVAIL, COLLECTOR. -/
def State.specialRecord (s : State) (src : Nat) (ctx : List Nat) : State :=
  let (n, s) := s.nextRecno
  s.queueRecord (s.recordBytes n src 0 s.now 0 ctx 0)

/-- The last-gasp cell and its registers (R371). -/
def State.setCell (s : State) (c : Option (List Byte)) : State :=
  let l := c.getD (List.replicate 64 0)
  let s := (List.range 16).foldl (fun s w => s.setReg (fltB + 0x40 + w * 4) (BitVec.ofNat 32 (le l (4 * w) 4))) s
  { s with flt := { s.flt with cell := c } }

/-- The next slot whose record is not pinned; `fuel` bounds the pins skipped. -/
def skipPins (m : Map (List Byte)) : Nat → Nat → Nat
  | 0, i => i
  | fuel + 1, i => if pinnedRec (aget (fun _ => []) m i) then skipPins m fuel ((i + 1) % 32768) else i

/-- A record is written into the MRAM ring (R368, R369). -/
def State.writeMram (s : State) (r : List Byte) : State :=
  let i := skipPins s.flt.mram 512 s.flt.mramNext
  let held := !(aget (fun _ => []) s.flt.mram i).isEmpty
  let s := { s with flt := { s.flt with mram := aset (fun _ => []) s.flt.mram i r, mramNext := (i + 1) % 32768 } }
  if held then s else s.setFld jour 0 16 (s.fld jour 0 16 + 1)

/-- A record goes into the RAM ring of 512 slots (R370): the slot follows its number, and a full ring loses its oldest, which
    counts as lost where it is unread. -/
def State.writeRing (s : State) (r : List Byte) : State :=
  let full := decide (512 ≤ s.flt.ramRing.length)
  let unread := full && !(s.flt.ramRing.take 1).any (fun x => s.flt.ramRead.contains (le x 0 4))
  let s := s.setBytes (0x203F8000 + le r 0 4 % 512 * 64) r
  { s with flt := { s.flt with ramRing := (if full then s.flt.ramRing.drop 1 else s.flt.ramRing) ++ [r],
                               ramLost := s.flt.ramLost + (if unread then 1 else 0) } }

/-- JOURNAL_WRITE_DONE: the record at the head of the writer queue is written (R357, R368, R370). -/
def State.journalWrite (s : State) : State :=
  match s.flt.jqueue with
  | [] => s
  | r :: rest =>
    let t := { s with flt := { s.flt with jqueue := rest } }
    if s.ramOnly then t.writeRing r else if s.flt.writerOn then t.writeMram r else s

/-- A JOURNAL notice (Table 14.4). -/
def State.journalNotice (s : State) (mode : Nat) : State :=
  s.notice 9 (bytesBE 1 mode ++ [0#8, 0#8, 0#8] ++ bytesBE 4 s.flt.ramLost)

/-- JOURNAL_MEM_FAIL: an MRAM write fails, or (`on` false) the MRAM answers again (R370). -/
def State.journalFail (s : State) (on : Bool) : State :=
  if !on then s.setCause Src.journalMem false
  else if s.ramOnly ∨ s.flt.writerOn = false then s
  else match s.flt.jqueue with
    | [] => s
    | r :: rest =>
      let s := if s.flt.cell.isNone then ({ s with flt := { s.flt with jqueue := rest } }).setCell (some r) else s
      let s := (s.levelSource Src.journalMem true).journalNotice 1
      (s.setBit (fltB + 4) 1 true).setFld jour 16 1 1

/-- A clear of JOURNAL_MEM whose test write verifies ends RAM-only mode (R370): pinned records first, then the ring, oldest first. -/
def State.journalRecover (s : State) : State :=
  if !s.ramOnly then s
  else
    let ring := s.flt.ramRing
    let s := (ring.filter pinnedRec ++ ring.filter (fun r => !pinnedRec r)).foldl (fun s r => s.writeMram r) s
    let s := s.journalNotice 0
    let s := { s with flt := { s.flt with ramRing := [], ramLost := 0, ramRead := [] } }
    (s.setBit (fltB + 4) 1 false).setFld jour 16 1 0

/-- The record in the last-gasp cell is copied into MRAM with FROM_CELL, and the cell is emptied (R371, R372). -/
def State.copyCell (s : State) : State :=
  match s.flt.cell with
  | none => s
  | some r =>
    let b := (patch r 6 [BitVec.ofNat 8 (le r 6 1 % 32 + 32)]).take 60
    (s.queueRecord (b ++ bytesLE 4 (crc32c b))).setCell none

/-- Downtime of the present interval up to now (R380). -/
def State.carryDown (s : State) : Nat := match s.flt.downSince with
  | some t => s.flt.downCarry + (if s.flt.vinOut then 0 else s.now - t)
  | none => 0

/-- The records after the newest AVAIL record's: the newest AVAIL record in the MRAM (R381). -/
def State.newestAvail (s : State) : Option (List Byte) :=
  (s.flt.mram.filter (fun e => le e.2 4 2 == 0x101)).foldl (fun (b : Option (List Byte)) e => match b with
    | some x => if le x 0 4 < le e.2 0 4 then some e.2 else b
    | none => some e.2) none

/-- An AVAIL record: DOWN and EVENTS (R381). -/
def State.availRecord (s : State) : State :=
  s.specialRecord 0x101 [(s.reg (fltB + 0x94)).toNat, (s.reg (fltB + 0x98)).toNat]

/-- The journal's last steps, once per loss: the queue, the cell's record, an AVAIL record (R371). -/
def State.drainJournal (s : State) : State := (List.range 66).foldl (fun s _ => s.journalWrite) s
def State.lastGasp (s : State) : State :=
  if s.flt.gasped then s
  else
    let s := s.drainJournal.copyCell.availRecord.drainJournal
    { s with flt := { s.flt with gasped := true } }

end Sys2Proof.Machine
end

