-- ==== Sys2Proof/Machine/TimeOps.lean ====
section
/-!
DEFINITION. Machine/TimeOps.lean: segments, increments, slews and states of the clock instances (R62–R77).
-/
namespace Sys2Proof.Machine

def incrMin : Nat := 351667799027876
def incrMax : Nat := 352019642748764

/-- The slew part in force: reduced until the sum reaches ±500 ppm (R63). -/
def slewPart (incr : Nat) (left : Int) (size : Nat) : Int :=
  let want : Int := if left < 0 then -(size : Int) else size
  max ((incrMin : Int) - incr) (min ((incrMax : Int) - incr) want)

/-- The instance with a segment opened at TIME cycle `k` with value `v`, under its increment and slew (R68). The record keeps 16;
    a second change in one cycle replaces the segment opened there. -/
def Inst.openSeg (i : Inst) (k v : Nat) : Inst :=
  let slew := i.slew.map (fun w => { w with part := slewPart i.incr w.left w.size })
  let eff := ((i.incr : Int) + (match slew with | some w => w.part | none => 0)).toNat
  let old := match i.segs with
    | g :: r => if g.k = k then r else g :: r
    | [] => []
  { i with slew := slew, segs := (⟨k, v, eff⟩ :: old).take 16 }

/-- What is left of a slew at TIME cycle `k` (R63). -/
def Inst.settleSlew (i : Inst) (k : Nat) : Inst :=
  match i.slew, i.segs with
  | some w, g :: _ => { i with slew := some { w with left := w.left - w.part * ((k - g.k : Nat) : Int) } }
  | _, _ => i

/-- The count rule of instance n changes by `f` from TIME cycle `k` on (R68). -/
def State.reseg (s : State) (n k : Nat) (f : Inst → Inst) : State :=
  let v := s.instAt n k
  s.setInst n ((f ((s.inst n).settleSlew k)).openSeg k v)

/-- The instance's value is set at TIME cycle `k` (R64). A change of the count rule made in that cycle applies from the next one
    (R66): its segment keeps its increment and goes on from the new value. -/
def Inst.stepSeg (i : Inst) (k v : Nat) : Inst :=
  match i.segs with
  | g :: r =>
    if k < g.k then
      let e := match segAt r k with
        | some h => h.incr
        | none => i.incr
      { i with segs := (⟨g.k, v + (g.k - k) * e, g.incr⟩ :: ⟨k, v, e⟩ :: r.filter (fun h => h.k < k)).take 16 }
    else (i.settleSlew k).openSeg k v
  | [] => i.openSeg k v

def State.stepTo (s : State) (n k v : Nat) : State := s.setInst n ((s.inst n).stepSeg k v)

/-- TIME_CInHOLD.STATE changes with a TIME notice (R71); the segment is the caller's. -/
def State.setInstState (s : State) (n st : Nat) : State :=
  let old := s.instState n
  if old = st then s
  else
    let s := if n = 0 then { s with time := { s.time with ci0Invalid := st == 3 } } else s.setFld (ciR n 0x3C) 0 2 st
    let s := s.bumpGen (unitId 0x0B n)
    s.notice 5 (bytesBE 1 n ++ bytesBE 1 old ++ bytesBE 1 st ++ [0#8])

/-- A clamped increment (R62), and whether it was clamped. -/
def clampIncr (v : Nat) : Nat × Bool :=
  if v < incrMin then (incrMin, true) else if incrMax < v then (incrMax, true) else (v, false)

/-- The registers show the increment in force; a low word that is held stays to be read (R62). -/
def State.showIncr (s : State) (n : Nat) : State :=
  let i := (s.inst n).incr
  (s.setReg (ciR n 0x10) ((s.inst n).heldLo.getD (BitVec.ofNat 32 i))).setReg (ciR n 0x14) (BitVec.ofNat 32 (i / 2 ^ 32))

end Sys2Proof.Machine
end

