-- ==== Sys2Proof/Machine/TioOps.lean ====
section
/-!
DEFINITION. Machine/TioOps.lean: placing and driving edges of the timing outputs (R94–R99, R105, R110), and the rewind trigger that
event inputs, firmware, the host and faults share (R251).
-/
namespace Sys2Proof.Machine

/-! ### Rewind trigger -/

/-- A RESUME performed in the PERI cycle of a trigger is taken back: the trigger takes effect instead (R252). -/
def State.unresume (s : State) : State := match s.rew.resumed with
  | some (t, v) =>
    if t / periU = s.now / periU ∧ s.fld (rewB + 4) 0 3 = 1 ∧ !s.rew.freezing then
      let n := max 1 (s.fld (rewB + 0xC) 0 17)
      let g := s.fld (rewB + 0x18) 0 17
      let l := s.rew.pending
      let s : State := { s with rew := { s.rew with resumed := none, pending := [],
                                                    pass := if g = 0 then (s.rew.pass + 255) % 256 else s.rew.pass } }
      let s := l.foldl (fun s p => s.unref p.coach) s
      let s := s.setNum (s.reg2 (rewB + 0x10) (rewB + 0x14) + 16 * g + 14) 1 v
      (((s.setFld (rewB + 0x18) 0 17 ((g + n - 1) % n)).setFld (rewB + 4) 0 3 3).bumpGen (unitId 0x0E 0)).setCause Src.rewindFrozen true
    else s
  | none => s

/-- A trigger of a freeze (R251): kind 0 FIRMWARE, 1 HOST, 2 EVT, 3 FAULT, with its detail. -/
def State.rewTrigger (s : State) (kind detail : Nat) : State :=
  let s := s.unresume
  let st := s.fld (rewB + 4) 0 3
  let s : State := { s with rew := { s.rew with trigAt := some s.now } }
  if st = 0 then s
  else if st = 1 ∧ !s.rew.freezing then
    let s : State := { s with rew := { s.rew with freezeAt := s.tick * tickU, freezeBy := (kind, detail) } }
    if kind ≠ 3 ∧ s.fld (rewB + 8) 0 16 ≠ 0 then (s.setFld (rewB + 4) 0 3 2).bumpGen (unitId 0x0E 0)
    else { s with rew := { s.rew with freezing := true } }
  else
    let s := s.count (rewB + 0x34) 0 32
    if st = 2 ∧ kind = 3 then { s with rew := { s.rew with freezing := true } } else s

/-! ### Contacts and levels -/

/-- Register of output i: TRIGn for i < 24, else PPSO(i − 24) (Table 4.4). -/
def outCfg (i : Nat) : Nat := if i < 24 then trigR i 0 else ppsoR (i - 24) 0
def outDiag (i : Nat) : Nat := if i < 24 then trigR i 0xC else ppsoR (i - 24) 8

/-- CFG.POL of output i. -/
def State.outLow (s : State) (i : Nat) : Bool := if i < 24 then s.bit (outCfg i) 1 else s.bit (outCfg i) 8

/-- CFG.SAFE of output i (R110). -/
def State.outSafe (s : State) (i : Nat) : Level :=
  match (if i < 24 then s.fld (outCfg i) 2 2 else s.fld (outCfg i) 5 2) with
  | 0 => .low
  | 1 => .high
  | _ => .z

def levelOf (b : Bool) : Level := if b then .high else .low

/-- The active or inactive level of output i (Table 4.6). -/
def State.outLevel (s : State) (i : Nat) (active : Bool) : Level := levelOf (active != s.outLow i)

/-- The contact in force of function f: PIN_FUNCf.ACTIVE, 31 for none (R398). -/
def State.contactOf (s : State) (f : Nat) : Nat := s.fld (pinB + f * 4) 8 5

def State.setContact (s : State) (c : Nat) (l : Level) : State :=
  { s with tio := { s.tio with contacts := aset (fun _ => .z) s.tio.contacts c l } }

/-- Function f drives its contact, when it has one that it has taken (R399). -/
def State.driveFn (s : State) (f : Nat) (l : Level) : State :=
  let c := s.contactOf f
  if c ≤ 27 ∧ !s.pin.changing.contains c then s.setContact c l else s

/-- Output i drives a level, unless outputs are forced (R110) or its driver is off (R108). -/
def State.driveOut (s : State) (i : Nat) (l : Level) : State :=
  if s.bit (tioB + 4) 0 || s.bit (outDiag i) 4 || s.fenced (unitId 0x0C i) then s else s.driveFn i l

def State.trig (s : State) (n : Nat) : Trig := aget (fun _ => {}) s.tio.trigs n

def State.setTrig (s : State) (n : Nat) (t : Trig) : State :=
  { s with tio := { s.tio with trigs := aset (fun _ => {}) s.tio.trigs n t } }

def State.ppso (s : State) (k : Nat) : Ppso := aget (fun _ => {}) s.tio.ppsos k

def State.setPpso (s : State) (k : Nat) (p : Ppso) : State :=
  { s with tio := { s.tio with ppsos := aset (fun _ => {}) s.tio.ppsos k p } }



/-! ### Placement of edges (R96) -/

/-- 1/64 of a TIME cycle, 19.53 ps. -/
def stepU : Nat := tickU / 64

/-- A time in instance `ci` (2^-16 ns), less `cal` (units of 2^-8 ns), rounded to the nearest step, halves to the later (R96). -/
def State.place (s : State) (ci x16 : Nat) (cal : Int) : Option Nat :=
  match s.toCi0 ci x16 with
  | none => none
  | some (t, _) =>
    let u : Int := (t : Int) - cal * 2 ^ 40 + (stepU / 2 : Nat)
    some ((u / (stepU : Int) * stepU).toNat)

/-- TIO_TRIGn_CAL.DRIVER + HARNESS. -/
def State.trigCal (s : State) (n : Nat) : Int := s.sfld (trigR n 4) 0 16 + s.sfld (trigR n 4) 16 16

def Trig.word (t : Trig) (i : Nat) : Word := t.entry.getD i 0
def Trig.ci (t : Trig) : Nat := getField (t.word 0) 1 4

/-- Output i stands at its safe level of its own: a trigger output before its first entry, or an output whose instance is INVALID
    (R110). -/
def State.restSafe (s : State) (i : Nat) : Bool :=
  if i < 24 then
    let t := s.trig i
    !t.ran || (!t.entry.isEmpty && s.instState t.ci == 3)
  else s.bit (outCfg i) 0 && s.instState (s.fld (outCfg i) 1 4) == 3

/-- The level of output i outside a pulse (R98, R110). -/
def State.restLevel (s : State) (i : Nat) : Level := if s.restSafe i then s.outSafe i else s.outLevel i false
def Trig.count (t : Trig) : Nat := getField (t.word 0) 16 16
/-- START, WIDTH and PERIOD of the entry in units of 2^-16 ns (Table 4.2). -/
def Trig.start16 (t : Trig) : Nat :=
  join16 (t.startHi * 2 ^ 32 + (t.word 1).toNat) (getField (t.word 2) 0 30) (getField (t.word 3) 0 16)
def Trig.width16 (t : Trig) : Nat := (t.word 4).toNat * 2 ^ 16 + getField (t.word 5) 0 16
def Trig.period16 (t : Trig) : Nat := (t.word 6).toNat * 2 ^ 16 + getField (t.word 5) 16 16
/-- The instance times of the edges of pulse i (R96). -/
def Trig.lead16 (t : Trig) (i : Nat) : Nat := t.start16 + i * t.period16
def Trig.trail16 (t : Trig) (i : Nat) : Nat := t.lead16 i + t.width16

/-- Whether a placed instant can still be committed at TIME cycle k: its commit cycle is k_I − 256 (R96). -/
def commitOk (k : Nat) (i : Nat) : Bool := k + 256 ≤ i / tickU

/-- The first pulse at or after `t.pulse` whose leading edge falls at or after the CI0 instant `m` (R99, R111). -/
def State.nextPulse (s : State) (n : Nat) (t : Trig) (m : Nat) : Nat :=
  let ok := fun i => match s.place t.ci (t.lead16 i) (s.trigCal n) with
    | some u => decide (m ≤ u)
    | none => false
  let cal := s.trigCal n * 2 ^ 40
  let base := (m : Int) + cal
  let guess := match s.fromCi0 t.ci base.toNat with
    | some v => if t.period16 = 0 then 0 else (v - t.start16) / t.period16
    | none => 0
  let lo := max t.pulse (guess - 2)
  let last := if t.count = 0 then lo + 5 else t.count
  (((List.range 6).map (· + lo)).find? (fun i => i < last && ok i)).getD (if t.count = 0 then lo + 5 else t.count)

/-- The pointer leaves entry e: to 0 from entry 63 or from an entry with WRAP set (R97). -/
def State.afterEntry (s : State) (n e : Nat) : Nat := if e = 63 ∨ s.bit (schedR n e 0) 5 then 0 else e + 1

/-- The entry under the pointer is finished: the pointer moves on (R97). -/
def State.trigAdvance (s : State) (n : Nat) (t : Trig) : State :=
  let e := s.fld (trigR n 8) 0 6
  let s := (s.setFld (trigR n 8) 0 6 (if e = 63 ∨ getField (t.word 0) 5 1 = 1 then 0 else e + 1)).setBit (trigR n 8) 6 false
  s.setTrig n { t with run := .scanning, entry := [], pulse := 0, passed := 0 }

/-- Pulses up to `j` are not produced: they count against COUNT and in STAT.SKIP (R99, R111). -/
def State.skipPulses (s : State) (n : Nat) (t : Trig) (j : Nat) : State :=
  let s := if t.pulse < j then s.count (trigR n 8) 16 16 (j - t.pulse) else s
  let t := { t with pulse := max t.pulse j }
  if t.count ≠ 0 ∧ t.count ≤ t.pulse ∧ t.open_ = none then s.trigAdvance n t else s.setTrig n t

/-- The output goes to its safe level, unless its driver is off (R108, R110). -/
def State.outToSafe (s : State) (i : Nat) : State := if s.bit (outDiag i) 4 then s else s.driveFn i (s.outSafe i)

/-- Whether a pulse has begun at the contact and not ended: of its edges only the trailing one is still to come. -/
def inPulse (edges : List Edge) (open_ : Bool) : Bool := match edges with
  | e :: _ => !e.leading
  | [] => open_

/-- Output i is forced: a pulse in progress is cut off and STAT.TRUNC is set; one committed and not begun is not produced, and the
    entry goes back to it. -/
def State.forceOut (s : State) (i : Nat) : State :=
  let s :=
    if i < 24 then
      let t := s.trig i
      let s := s.setTrig i { t with edges := [], open_ := none,
                                    pulse := if t.run = .running then t.pulse - (t.edges.filter (·.leading)).length else t.pulse }
      if inPulse t.edges t.open_.isSome then s.latch (trigR i 8) 10 else s
    else s.setPpso (i - 24) { s.ppso (i - 24) with edges := [], open_ := none }
  s.outToSafe i

/-- Output i, between pulses, stands at its rest level again (R98, R110). -/
def State.restOut (s : State) (i : Nat) (pulse : Bool) : State := if pulse then s else s.driveOut i (s.restLevel i)

/-- A segment of instance ci opens at TIME cycle k: edges not yet committed are placed again (R99). -/
def State.replaceTrig (s : State) (ci k n : Nat) : State :=
  let t := s.trig n
  if t.run = .running ∧ t.ci = ci ∧ s.fld (tioB + 4) 0 1 = 0 then
    if s.instState ci = 3 then s.forceOut n
    else
      let s := s.restOut n (inPulse t.edges t.open_.isSome)
      let s := match t.open_ with
        | some p =>
          (match s.place ci (t.trail16 p) (s.trigCal n) with
           | some u => if commitOk k u then s
             else s.setTrig n { t with open_ := none, edges := t.edges ++ [({ leading := false, instant := k * tickU + 320 * nsU } : Edge)] }
           | none => s)
        | none => s
      let t := s.trig n
      if t.stopping then s else s.skipPulses n t (s.nextPulse n t ((k + 256) * tickU))
  else s

/-- The trailing edge of a pulse of PPSOk that can no longer be committed in its own cycle is committed at once (R99, R105); an output
    of an INVALID instance goes to its safe level (R110). -/
def State.replacePpso (s : State) (ci k j : Nat) : State :=
  let mine := s.bit (ppsoR j 0) 0 && s.fld (ppsoR j 0) 1 4 == ci && !s.bit (tioB + 4) 0
  if mine && s.instState ci == 3 then s.forceOut (24 + j)
  else
  let s := if mine then s.restOut (24 + j) (inPulse (s.ppso j).edges (s.ppso j).open_.isSome) else s
  match (s.ppso j).open_ with
  | some (c, x) => (match (if c = ci then s.place c x 0 else none) with
    | some u => if commitOk k u then s
      else s.setPpso j { s.ppso j with open_ := none, edges := (s.ppso j).edges ++ [({ leading := false, instant := k * tickU + 320 * nsU } : Edge)] }
    | none => s)
  | none => s

/-- After a segment of instance ci opened at cycle k, every output of that instance is placed again (R99). -/
def State.replaceEdges (s : State) (ci k : Nat) : State :=
  (List.range 4).foldl (fun s j => s.replacePpso ci k j) ((List.range 24).foldl (fun s n => s.replaceTrig ci k n) s)

/-- The count rule of an instance changes, and the edges of its outputs follow (R68, R99). -/
def State.resegOut (s : State) (n k : Nat) (f : Inst → Inst) : State := (s.reseg n k f).replaceEdges n k

/-- The instance enters a state of Table 3.2: a segment opens and a notice is sent (R71). -/
def State.enterInst (s : State) (n st : Nat) : State :=
  if s.instState n = st then s
  else
    let s := s.setInstState n st
    if n = 0 then s.replaceEdges 0 (s.tick + 1) else s.resegOut n (s.tick + 1) id

/-! ### Safe state (R110, R111) -/

/-! ### Clock outputs (R106) -/

def State.clko (s : State) (j : Nat) : Clko := aget (fun _ => {}) s.tio.clko j

/-- The period of CLKOj in units of 2^-16 ns: PERIOD steps of 19.53 ps, at least 512; and its high phase, floor(PERIOD / 2) steps. -/
def State.clkoPeriod (s : State) (j : Nat) : Nat := max 512 (s.fld (clkoR j 4) 0 24) * 1280
def State.clkoHigh (s : State) (j : Nat) : Nat := max 512 (s.fld (clkoR j 4) 0 24) / 2 * 1280

/-- CLKOj starts at its next whole period: on the whole seconds where 1 s is a multiple of the period, else at a free phase (log
    entry 180). -/
def State.clkoStart (s : State) (j : Nat) : State :=
  let ci := s.fld (clkoR j 0) 1 4
  let p := s.clkoPeriod j
  let (f, s) := s.freshBelow p
  let phase := if 1000000000 * 2 ^ 16 % p = 0 then 0 else f
  let since := match s.fromCi0 ci s.now with
    | some v => ((s.toCi0 ci ((v + p - 1 - phase) / p * p + phase)).map (·.1)).getD s.now
    | none => s.now
  { s with tio := { s.tio with clko := aset (fun _ => {}) s.tio.clko j ⟨true, since, phase⟩ } }

/-- CLKOj stops, the P contact low and the N contact high (R110). -/
def State.clkoStop (s : State) (j : Nat) : State := { s with tio := { s.tio with clko := aset (fun _ => {}) s.tio.clko j {} } }

/-- The levels of the P and N contacts of CLKOj at the present instant (R106, R110). -/
def State.clkoLevels (s : State) (j : Nat) : Level × Level :=
  let c := s.clko j
  let high := c.on && decide (c.since ≤ s.now) && (match s.fromCi0 (s.fld (clkoR j 0) 1 4) s.now with
    | some v => decide ((v + s.clkoPeriod j - c.phase) % s.clkoPeriod j < s.clkoHigh j)
    | none => false)
  (levelOf high, levelOf (!high))

/-- All TRIG and PPSO outputs go to their safe levels, GPOs to theirs, and CLKO0–1 stop (R110, R398). -/
def State.forceSafe (s : State) : State :=
  let s := (List.range 28).foldl (fun s i => s.forceOut i) s
  let s := (List.range 8).foldl (fun s g => s.driveFn (28 + g) (levelOf (s.bit (pinB + 0x104) (8 + g)))) s
  let s := (List.range 2).foldl (fun s j => s.clkoStop j) s
  (s.setBit (tioB + 4) 0 true).setBit (fltB + 4) 0 true

/-- Outputs return from forcing (R111): each enabled output goes on from the entry under its pointer. -/
def State.resumeOutputs (s : State) : State :=
  let s := ((s.setBit (tioB + 4) 0 false).setBit (fltB + 4) 0 false).setBit timeB 3 false
  let s := (List.range 28).foldl (fun s i => s.driveOut i (s.restLevel i)) s
  let s := (List.range 24).foldl (fun s n =>
    let t := s.trig n
    if t.run = .running ∧ s.instState t.ci ≠ 3 then s.skipPulses n t (s.nextPulse n t (s.now + 320 * nsU)) else s) s
  let s := (List.range 4).foldl (fun s k =>
    let ci := s.fld (ppsoR k 0) 1 4
    s.setPpso k { s.ppso k with lastSec := some (sec16 (s.instAt ci s.tick / 2 ^ 32)) }) s
  let s := (List.range 8).foldl (fun s g => s.driveFn (28 + g) (levelOf (s.bit (pinB + 0x104) g))) s
  (List.range 2).foldl (fun s j => if s.bit (clkoR j 0) 0 then s.clkoStart j else s) s

end Sys2Proof.Machine
end

