-- ==== Sys2Proof/Machine/TimeBase.lean ====
section
/-!
DEFINITION. Machine/TimeBase.lean: the meanings of the TIME block's commands (R62–R77, R85).
-/
namespace Sys2Proof.Machine

/-- The block answers the access: a word, with no error (R7). -/
def State.answerRead (s : State) (v : Nat) : State := { s with resp := .ok (v % 2 ^ 32) }

/-- A write completed. -/
def State.answerWrite (s : State) : State := { s with resp := .ok 0 }

/-! ### Increment (R62) -/

def State.incrLoWrite (s : State) (n : Nat) (v : Word) : State :=
  if n = 0 then s
  else (s.setInst n { s.inst n with heldLo := some v }).setReg (ciR n 0x10) v

/-- The increment `v` is committed for instance n: clamped with CIn_ALARM, in force from the next TIME cycle. -/
def State.commitIncr (s : State) (n v : Nat) : State :=
  let (i, clamped) := clampIncr v
  let s := if clamped then s.raise (Src.ciAlarm n) else s
  let s := s.resegOut n (s.tick + 1) (fun x => { x with incr := i, heldLo := none, hwHold := false })
  s.showIncr n

/-- A write of INCR_HI commits {INCR_HI, held low word}. -/
def State.incrHiWrite (s : State) (n : Nat) (v : Word) : State :=
  if n = 0 then s
  else
    let lo := match (s.inst n).heldLo with
      | some w => w.toNat
      | none => (s.inst n).incr % 2 ^ 32
    s.commitIncr n (v.toNat * 2 ^ 32 + lo)

/-! ### Slew (R63) -/

/-- S of R63 for a RATE in ppm: 0 means 500, and above 500 acts as 500. -/
def slewSize (rate : Nat) : Nat := tickU * (if rate = 0 then 500 else min rate 500) / 1000000

/-- A slew of `amount` (2^-8 ns) at `rate` begins or replaces one under way. -/
def State.startSlew (s : State) (n : Nat) (amount : Int) (rate : Nat) : State :=
  let s := s.resegOut n (s.tick + 1) (fun x => { x with slew := some ⟨amount * 2 ^ 40, slewSize rate, 0⟩ })
  s.setBit (ciR n 0x1C) 10 true

def State.slewWrite (s : State) (n : Nat) (v : Word) : State :=
  if n = 0 then s
  else
    let s := s.setFld (ciR n 0x1C) 0 9 (getField v 0 9)
    if getField v 9 1 = 1 then s.startSlew n (s.sfld (ciR n 0x18) 0 32) (getField v 0 9) else s

/-- The TIME cycles in which a slew adds its full part, and the remainder the last tick adds (R63). -/
def slewTail (w : Slew) : Nat × Int :=
  if w.left = 0 ∨ w.part = 0 then (0, 0) else ((w.left / w.part).toNat, w.left - (w.left / w.part) * w.part)

/-- The slew of instance n ends at its own cycle: the last tick adds the remainder (R63). -/
def State.endSlew (s : State) (n : Nat) : State :=
  match (s.inst n).slew, (s.inst n).segs with
  | some w, g :: _ =>
    if w.part = 0 ∧ w.left ≠ 0 then s
    else
      let (q, r) := slewTail w
      let k := g.k + q
      let s :=
        if r = 0 then s.resegOut n k (fun x => { x with slew := none })
        else
          let s := s.resegOut n k (fun x => { x with slew := some ⟨r, r.natAbs, 0⟩ })
          s.resegOut n (k + 1) (fun x => { x with slew := none })
      (s.setBit (ciR n 0x1C) 10 false).advance ((if r = 0 then k else k + 1) * tickU)
  | _, _ => s

/-! ### Step (R64–R66) -/

/-- A refused step: ERR and CIn_ALARM (R65). -/
def State.refuseStep (s : State) (n : Nat) : State := (s.latch (ciR n 0x30) 2).raise (Src.ciAlarm n)

/-- The refusals of R65 at the ARM write. -/
def State.stepRefused (s : State) (n : Nat) (a : ArmedStep) (atNs : Nat) : Bool :=
  a.instant < s.now + usU || 999999999 < atNs
    || (if a.absolute then decide (999999999 < a.ns.toNat) else decide (999999999 < a.ns.toInt.natAbs))
    || (!a.absolute && s.instState n == 3)

/-- A step is armed, or refused with what stood before kept (R64, R65). -/
def State.armStep (s : State) (n : Nat) (a : ArmedStep) (atNs : Nat) : State :=
  if s.stepRefused n a atNs then s.refuseStep n
  else (s.setInst n { s.inst n with step := some a }).setBit (ciR n 0x30) 0 true

/-- A write of TIME_CInSTEP_CTL: MODE, SEC_HI, W1C of ERR and DONE, then ARM (Table 3.10). -/
def State.stepCtlWrite (s : State) (n : Nat) (v : Word) : State :=
  if n = 0 then s
  else
    let a := ciR n 0x30
    let s := (s.setFld a 1 1 (getField v 1 1)).setFld a 16 16 (getField v 16 16)
    let s := s.w1c a 0xC v
    if getField v 0 1 = 1 then
      let atNs := (s.reg (ciR n 0x24)).toNat
      let sec := secOf s.now / 2 ^ 32 * 2 ^ 32 + (s.reg (ciR n 0x20)).toNat
      let abs := getField v 1 1 = 1
      let lo := s.reg (ciR n 0x28)
      s.armStep n { instant := (sec * 1000000000 + atNs) * nsU, absolute := abs,
                    sec := if abs then BitVec.ofNat 48 (getField v 16 16 * 2 ^ 32 + lo.toNat) else lo.signExtend 48,
                    ns := s.reg (ciR n 0x2C) } atNs
    else s

/-- The value a step sets, in 2^-48 ns: none where a delta would make the instance negative (R64, R65). -/
def stepValue (a : ArmedStep) (v : Nat) : Option Nat :=
  if a.absolute then some (join16 a.sec.toNat a.ns.toNat 0 * 2 ^ 32)
  else
    let d : Int := (a.sec.toInt * 1000000000 + a.ns.toInt) * 2 ^ 48
    let r := ((v / 2 ^ 32 * 2 ^ 32 : Nat) : Int) + d
    if r < 0 then none else some r.toNat

/-- The armed step takes effect in the first TIME cycle in which CI0 has reached its instant (R64). A run of offset updates goes on
    through it (log entry 198). -/
def State.applyStep (s : State) (n : Nat) : State :=
  match (s.inst n).step with
  | none => s
  | some a =>
    let k := max s.tick ((a.instant + tickU - 1) / tickU)
    let s := s.advance (k * tickU)
    let s := (s.setInst n { s.inst n with step := none }).setBit (ciR n 0x30) 0 false
    let waits := (s.inst n).jenWaits
    let s := s.setInst n { s.inst n with jenWaits := false }
    let answer := fun (s : State) st => if waits then s.answer (fun op b => op == 0x0F && be b 0 1 == n) st [] else s
    match (if !a.absolute && s.instState n == 3 then none else stepValue a (s.instAt n k)) with
    | none => answer (s.refuseStep n) 3
    | some v =>
      let s := (s.stepTo n k v).replaceEdges n k
      let s := if s.instState n = 3 then s.setInstState n 0 else s
      let s := (s.latch (ciR n 0x30) 3).raise Src.timeStep
      answer (s.eventNotice 4) 0

/-! ### Reading (R67) -/

/-- The read latch of instance n is loaded from the present TIME cycle. -/
def State.loadLatch (s : State) (n : Nat) : State :=
  s.setInst n { s.inst n with latch := s.instAt n s.tick / 2 ^ 32 }

/-- The latched words SEC_HI, SEC_LO, NS and FRAC (Table 3.9). -/
def State.latchWord (s : State) (n o : Nat) : Nat :=
  let v := (s.inst n).latch
  match o with
  | 0 => sec16 v / 2 ^ 32
  | 4 => sec16 v % 2 ^ 32
  | 8 => ns16 v
  | _ => frac16 v

/-- A read of SEC_HI loads the latch unless HELD is set. -/
def State.secHiRead (s : State) (n : Nat) : State :=
  let s := if s.bit timeB 2 then s else s.loadLatch n
  s.answerRead (s.latchWord n 0)

/-- A write of TIME_SNAP: TAKE, else RELEASE. -/
def State.snapWrite (s : State) (v : Word) : State :=
  if getField v 0 1 = 1 then ((List.range 9).foldl (fun s n => s.loadLatch n) s).setBit timeB 2 true
  else if getField v 1 1 = 1 then s.setBit timeB 2 false else s

/-! ### Conversion registers (R69) -/

/-- A write of TIME_CONV_CTL: SRC and DST, which a conversion under way keeps (log entry 199), and GO. -/
def State.convWrite (s : State) (v : Word) : State :=
  if s.time.convBusy then s
  else
    let s := s.setFld (timeB + 0x80) 0 8 (getField v 0 8)
    if getField v 8 1 = 1 then
      let s := s.setBit (timeB + 0x80) 8 true
      if 8 < getField v 0 4 ∨ 8 < getField v 4 4 then
        -- STATUS reads INVALID and GO clears in the PERI cycle after the write
        (s.setFld (timeB + 0x80) 10 2 3).setBit (timeB + 0x80) 8 false
      else { s with time := { s.time with convBusy := true } }
    else s

/-- The conversion ends: result and STATUS over the operands, GO clears. -/
def State.convDone (s : State) : State :=
  if s.time.convBusy then
    let r := fun o => (s.reg (timeB + o)).toNat
    let x := join16 (r 0x84 % 2 ^ 16 * 2 ^ 32 + r 0x88) (r 0x8C) (r 0x90 % 2 ^ 16)
    let (v, c, s) := s.convert (s.fld (timeB + 0x80) 0 4) (s.fld (timeB + 0x80) 4 4) x
    let s := s.setFld (timeB + 0x84) 0 16 (sec16 v / 2 ^ 32)
    let s := s.setReg (timeB + 0x88) (BitVec.ofNat 32 (sec16 v))
    let s := s.setReg (timeB + 0x8C) (BitVec.ofNat 32 (ns16 v))
    let s := s.setFld (timeB + 0x90) 0 16 (frac16 v)
    let s := (s.setFld (timeB + 0x80) 10 2 c.code).setBit (timeB + 0x80) 8 false
    { s with time := { s.time with convBusy := false } }
  else s

/-! ### Reference and holdover (R70–R76) -/

/-- The reference of a LOCKED instance is lost: HOLDOVER (Table 3.2, R72, R75). -/
def State.loseReference (s : State) (n : Nat) : State :=
  if s.instState n = 1 then
    let s := (s.setInstState n 2).raise Src.holdoverEnter
    let s := (s.setBit (ciR n 0x3C) 2 (!s.bit timeB 1)).setFld (ciR n 0x3C) 20 12 0
    let z7 := s.sfld (pwrB + 0x5C) 0 8
    let auto := s.fld (ciR n 0x34) 2 1 = 0
    let s := s.resegOut n (s.tick + 1) (fun x =>
      let x := { x with holdSince := s.now, limitRaised := false, run := 0, tempEntry := z7 }
      if auto then { x with incr := x.holdIncr, slew := none, hwHold := true } else x)
    if auto then (s.setBit (ciR n 0x1C) 10 false).showIncr n else s
  else s

/-- One offset update, in units of 2^-8 ns (R70, R71, R73). -/
def State.offsetUpdate (s : State) (n : Nat) (ofs : Int) : State :=
  let sat := decide (ofs < -(2 ^ 31) ∨ 2 ^ 31 ≤ ofs)
  let w := max (-(2 ^ 31) : Int) (min (2 ^ 31 - 1) ofs)
  let s := (s.setReg (ciR n 0x38) (BitVec.ofInt 32 w)).setBit (ciR n 0x3C) 3 sat
  let bound := max 1 (s.fld (ciR n 0x34) 16 8) * 256
  let within := !sat && decide (w.natAbs ≤ bound)
  let i := s.inst n
  let run := if within then i.run + 1 else 0
  let s := s.setInst n { i with run := run, lastUpdate := s.now }
  let st := s.instState n
  let ab := s.fld (ciR n 0x34) 24 8
  let s := if st = 1 ∧ ab ≠ 0 ∧ ab * 64 * 256 < w.natAbs then s.raise (Src.ciAlarm n) else s
  if (st = 0 ∨ st = 2) ∧ 8 ≤ run then
    let s := s.enterInst n 1
    s.setInst n { s.inst n with hwHold := false, run := 0 }
  else s

/-- A write of TIME_CInOFS: it counts only when SRC is FIRMWARE (R70). -/
def State.ofsWrite (s : State) (n : Nat) (v : Word) : State :=
  if n = 0 ∨ s.fld (ciR n 0x34) 0 2 ≠ 3 then s else s.offsetUpdate n v.toInt

/-- A write of TIME_CInREF; SRC = 0 returns the instance to FREE (R71). -/
def State.refWrite (s : State) (n : Nat) (v : Word) : State :=
  if n = 0 then s
  else
    let s := s.setReg (ciR n 0x34) (v &&& 0xFFFFFFF7#32)
    if getField v 0 2 = 0 ∧ s.instState n ≠ 3 then
      let s := s.enterInst n 0
      s.setInst n { s.inst n with run := 0, hwHold := false }
    else s

/-- No update of a FIRMWARE reference for TIMEOUT × 100 ms (R70). -/
def State.refTimeout (s : State) (n : Nat) : State :=
  if n ≠ 0 ∧ s.fld (ciR n 0x34) 0 2 = 3 then
    let s := s.advance ((s.inst n).lastUpdate + max 1 (s.fld (ciR n 0x34) 8 8) * 100 * msU)
    s.loseReference n
  else s

/-- HOLD_INCR: an exponential average of the increment without slew, weight 2^-AVG (R72). -/
def State.holdIncrUpdate (s : State) (n : Nat) : State :=
  if n ≠ 0 ∧ s.instState n = 1 then
    let i := s.inst n
    let d : Int := (i.incr : Int) - i.holdIncr
    s.setInst n { i with holdIncr := ((i.holdIncr : Int) + d / 2 ^ s.fld (ciR n 0x34) 4 4).toNat }
  else s

/-- The temperature correction of R72, with C1 in 2^-8 ppb/K and C2 in 2^-12 ppb/K²; the term taken off is rounded down (log
    entry 195). -/
def State.tcomp (s : State) (n : Nat) : State :=
  let i := s.inst n
  if n ≠ 0 ∧ s.instState n = 2 ∧ i.hwHold then
    let t := s.sfld (pwrB + 0x5C) 0 8 - i.tempEntry
    let c := s.sfld (timeB + 0x14) 0 16 * t * 16 + s.sfld (timeB + 0x14) 16 16 * t * t
    let v := ((i.holdIncr : Int) - (i.holdIncr : Int) * c / (2 ^ 12 * 1000000000)).toNat
    let s := s.resegOut n (s.tick + 1) (fun x => { x with incr := v })
    s.showIncr n
  else s

/-- HOLDOVER_LIMIT once per holdover, at HOLD_MAX or T_LIM (R73). -/
def State.holdLimit (s : State) (n : Nat) : State :=
  let i := s.inst n
  let hm := s.fld (ciR n 0x3C) 4 12
  let tl := s.fld (ciR n 0x3C) 16 4
  let t := (s.sfld (pwrB + 0x5C) 0 8 - i.tempEntry).natAbs
  if s.instState n = 2 ∧ !i.limitRaised ∧ ((hm ≠ 0 ∧ hm ≤ s.fld (ciR n 0x3C) 20 12) ∨ (tl ≠ 0 ∧ tl < t)) then
    (s.setInst n { i with limitRaised := true }).raise Src.holdoverLimit
  else s

/-- ELAPSED advances every 10 s of HOLDOVER (R73). -/
def State.elapsedTick (s : State) (n : Nat) : State :=
  if n ≠ 0 ∧ s.instState n = 2 then
    let s := s.advance ((s.inst n).holdSince + (s.fld (ciR n 0x3C) 20 12 + 1) * 10 * secU)
    (s.count (ciR n 0x3C) 20 12).holdLimit n
  else s

/-- WARM is set 600 s after REF became stable, while it is (R75; log entry 9). -/
def State.warmSet (s : State) : State :=
  if s.bit (clkB + 4) 1 then (s.advance (s.time.refSince + 600 * secU)).setBit timeB 1 true else s

/-- The hourly oscillator measurement (R76), rounded down to 2^-8 ppb (log entry 196). -/
def State.oscMeasure (s : State) : State :=
  let m := s.fld (timeB + 8) 0 4
  if 1 ≤ m ∧ m ≤ 8 ∧ s.instState m = 1 then
    let h : Int := (s.inst m).holdIncr
    let ofs := ((tickU : Int) - h) * (1000000000 * 256) / h
    let s := s.setReg (timeB + 0xC) (BitVec.ofInt 32 ofs)
    let lim := s.fld (timeB + 8) 8 8
    if lim ≠ 0 ∧ lim * 256 < (ofs - s.sfld (timeB + 0x10) 0 32).natAbs then s.raise Src.oscAging else s
  else s

/-! ### Integrity (R77) -/

/-- All nine instances enter INVALID and TIME_SAFE_STATE is raised. -/
def State.allInvalid (s : State) : State :=
  ((List.range 9).foldl (fun s n => s.enterInst n 3) s).levelSource Src.timeSafeState true

/-- The two accumulators of instance n disagree. -/
def State.timeParity (s : State) (n : Nat) : State :=
  let s := s.raise Src.timeParity
  if n = 0 then s.allInvalid else s.enterInst n 3

/-! ### Transmit timestamp queue (R85) -/

/-- The four words of a queued stamp; W0 first. -/
def txWords (e : TxStamp) : List Nat :=
  [e.seqId + e.port * 2 ^ 16 + e.ci * 2 ^ 22 + e.msg * 2 ^ 26 + 2 ^ 31, ns16 e.at16, sec16 e.at16 % 2 ^ 32,
   frac16 e.at16 + sec16 e.at16 / 2 ^ 32 * 2 ^ 16]

/-- A stamp is queued, or discarded with OVERRUN and TS_FIFO_OVERRUN. -/
def State.pushTxts (s : State) (e : TxStamp) : State :=
  if 256 ≤ s.time.txts.length then (s.latch (timeB + 0xA0) 9).raise Src.tsFifoOverrun
  else
    let s := { s with time := { s.time with txts := s.time.txts ++ [e] } }
    s.setFld (timeB + 0xA0) 0 9 s.time.txts.length

/-- A read of TIME_TXTS_W0 pops the oldest entry and loads W1–W3. -/
def State.popTxts (s : State) : State :=
  match s.time.txts with
  | [] => (s.setReg (timeB + 0xA4) (s.reg (timeB + 0xA4) &&& 0x7FFFFFFF#32)).answerRead ((s.reg (timeB + 0xA4) &&& 0x7FFFFFFF#32).toNat)
  | e :: rest =>
    let s := { s with time := { s.time with txts := rest } }
    let w := txWords e
    let s := (List.range 4).foldl (fun s i => s.setReg (timeB + 0xA4 + 4 * i) (BitVec.ofNat 32 (w.getD i 0))) s
    (s.setFld (timeB + 0xA0) 0 9 rest.length).answerRead (w.getD 0 0)

end Sys2Proof.Machine
end

