-- ==== Sys2Proof/Machine/Triggers.lean ====
section
/-!
DEFINITION. Machine/Triggers.lean: the meanings of the trigger outputs' and PPS outputs' commands (R94–R99, R105, R108, R111).
-/
namespace Sys2Proof.Machine

/-- The next edge of the PERI clock after the present instant. -/
def State.nextPeri (s : State) : Nat := (s.now / periU + 1) * periU

/-- The trailing edge of a pulse of output n that is still to end is committed: its entry is left behind (R98). -/
def State.closePulse (s : State) (n : Nat) (t : Trig) : Trig := match t.open_ with
  | some p => match s.place t.ci (t.trail16 p) (s.trigCal n) with
    | some u => { t with open_ := none, edges := t.edges ++ [⟨false, u⟩] }
    | none => { t with open_ := none }
  | none => t

/-- A write of TIO_TRIGn_CFG: a change of EN from 0 to 1 sets the pointer to START_PTR; EN = 0 stops the output (R97, R98). -/
def State.trigCfgWrite (s : State) (n : Nat) (v : Word) : State :=
  let was := s.bit (trigR n 0) 0
  let s := s.setReg (trigR n 0) (v &&& 0x3F3F#32)
  let en := getField v 0 1 = 1
  let t := s.trig n
  if en ∧ !was then
    let s := (s.setFld (trigR n 8) 0 6 (getField v 8 6)).setBit (trigR n 8) 6 false
    let busy := t.open_.isSome || !t.edges.isEmpty
    let t := s.closePulse n t
    let s := s.setTrig n { t with run := .scanning, entry := [], pulse := 0, passed := 0, stopping := false, ran := true }
    if busy then s else s.driveOut n (s.outLevel n false)
  else if !en ∧ was then
    let s := s.setBit (trigR n 8) 6 false
    if t.open_.isSome ∨ !t.edges.isEmpty then
      s.setTrig n { t with stopping := true, run := if t.run = .running then .running else .off }
    else (s.setTrig n { t with run := .off, entry := [] }).driveOut n (s.outLevel n false)
  else s

/-- A bad entry (R95). -/
def Trig.bad (t : Trig) : Bool :=
  8 < t.ci || 999999999 < getField (t.word 2) 0 30 || t.width16 < 5 * 2 ^ 16
    || (t.count != 1 && (t.period16 < 10 * 2 ^ 16 || t.period16 < t.width16 + 5 * 2 ^ 16))

/-- The pointer reads the entry it stands on (R97). -/
def State.trigRead (s : State) (n : Nat) : State :=
  let t := s.trig n
  if t.run = .scanning then
    let s := s.advance s.nextPeri
    let e := s.fld (trigR n 8) 0 6
    let words := (List.range 8).map (fun w => s.reg (schedR n e w))
    let ci := getField (words.getD 0 0) 1 4
    let t := { t with entry := words, pulse := 0, open_ := none, readAt := some (s.now / periU),
                      startHi := if ci ≤ 8 then sec16 (s.instAt ci s.tick / 2 ^ 32) / 2 ^ 32 else 0 }
    if getField (t.word 0) 0 1 = 0 then
      let p := t.passed + 1
      let s := s.setFld (trigR n 8) 0 6 (s.afterEntry n e)
      s.setTrig n { t with passed := p, entry := [], run := if p = 64 then .idle else .scanning }
    else if t.bad then
      let s := (s.latch (trigR n 8) 9).raiseU (Src.output n) [] (unitId 0x0C n)
      s.trigAdvance n t
    else
      let soon := match s.place t.ci (t.lead16 0) (s.trigCal n) with
        | some u => decide (u < s.now + 320 * nsU)
        | none => true
      if s.instState ci = 3 then (s.setTrig n t).outToSafe n
      else if soon then ((s.latch (trigR n 8) 7).raise Src.trigLate).trigAdvance n t
      else ((s.setBit (trigR n 8) 6 true).setTrig n { t with run := .running, passed := 0 }).restOut n (!t.edges.isEmpty)
  else s

/-- The bits of word w of a schedule entry that hold a field (Table 4.2). -/
def schedMask (w : Nat) : Word := match w with
  | 0 => 0xFFFF003F | 2 => 0x3FFFFFFF | 3 => 0xFFFF | 7 => 0 | _ => 0xFFFFFFFF

/-- A write of word w of entry e: not performed on the running entry, WERR instead; in the PERI cycle of its read it is performed
    after the read (R98). -/
def State.schedWrite (s : State) (n e w : Nat) (v : Word) : State :=
  if s.bit (trigR n 8) 6 ∧ s.fld (trigR n 8) 0 6 = e ∧ (s.trig n).readAt ≠ some (s.now / periU) then s.latch (trigR n 8) 8
  else s.setReg (schedR n e w) (v &&& schedMask w)

/-- The next edge not yet committed is placed and committed in TIME cycle k_I − 256 (R96). -/
def State.trigCommit (s : State) (n : Nat) : State :=
  let t := s.trig n
  if t.run ≠ .running ∨ s.bit (tioB + 4) 0 ∨ s.instState t.ci = 3 then s
  else match t.open_ with
    | some p =>
      (match s.place t.ci (t.trail16 p) (s.trigCal n) with
      | none => s
      | some u =>
        let s := s.advance ((u / tickU - 256) * tickU)
        let t := { t with open_ := none, edges := t.edges ++ [⟨false, u⟩] }
        if t.count ≠ 0 ∧ t.count ≤ t.pulse ∧ !t.stopping then s.trigAdvance n t else s.setTrig n t)
    | none =>
      if t.stopping ∨ (t.count ≠ 0 ∧ t.count ≤ t.pulse) then s
      else (match s.place t.ci (t.lead16 t.pulse) (s.trigCal n) with
      | none => s
      | some u =>
        let s := s.advance ((u / tickU - 256) * tickU)
        s.setTrig n { t with open_ := some t.pulse, pulse := t.pulse + 1, edges := t.edges ++ [⟨true, u⟩] })

/-- The oldest committed edge of output i crosses its contact at its instant (R96, R98, R108; log entry 200). -/
def State.edgeDrive (s : State) (i : Nat) : State :=
  if i < 24 then
    let t := s.trig i
    match t.edges with
    | [] => s
    | e :: rest =>
      let s := s.advance e.instant
      let done := t.stopping && rest.isEmpty && t.open_.isNone
      let s := s.setTrig i { t with edges := rest, run := if done then .off else t.run, stopping := t.stopping && !done }
      let s := if e.leading && s.pin.changing.contains (s.contactOf i) then s.count (trigR i 8) 16 16 else s
      s.driveOut i (s.outLevel i e.leading)
  else
    let p := s.ppso (i - 24)
    match p.edges with
    | [] => s
    | e :: rest => ((s.advance e.instant).setPpso (i - 24) { p with edges := rest }).driveOut i (s.outLevel i e.leading)

/-- WIDTH of PPSOk in µs (R105). -/
def ppsoWidth (w : Nat) : Nat := if w = 0 then 1 else if 999999 < w then 500000 else w

/-- The CI0 instant of the leading edge of PPSOk at second `sec` of its instance, and the trailing edge's time in the instance (R105). -/
def State.ppsoEdges (s : State) (k sec : Nat) : Option (Nat × Nat) :=
  let lead : Int := ((sec * 1000000000 * 2 ^ 16 : Nat) : Int) + s.sfld (ppsoR k 4) 0 32 * 2 ^ 16
  let width := ppsoWidth (s.fld (ppsoR k 0) 9 20) * 1000 * 2 ^ 16
  if lead < 0 then none
  else (s.place (s.fld (ppsoR k 0) 1 4) lead.toNat 0).map (fun a => (a, lead.toNat + width))

/-- The next whole second whose pulse has not passed its commit cycle and was not given before (R105). -/
def State.ppsoNext (s : State) (k : Nat) : Option (Nat × Nat × Nat) :=
  let ci := s.fld (ppsoR k 0) 1 4
  let now := sec16 (s.instAt ci s.tick / 2 ^ 32)
  let lo := match (s.ppso k).lastSec with
    | some l => max (l + 1) (now - 1)
    | none => now - 1
  (List.range 5).findSome? (fun d => match s.ppsoEdges k (lo + d) with
    | some (a, b) => if commitOk s.tick a then some (lo + d, a, b) else none
    | none => none)

/-- PPSOk commits the leading edge of its next pulse (R105). -/
def State.ppsoLead (s : State) (k : Nat) : State :=
  let ci := s.fld (ppsoR k 0) 1 4
  if !s.bit (ppsoR k 0) 0 || s.instState ci == 3 then s
  else match s.ppsoNext k with
    | none => s
    | some (sec, a, b) =>
      let s := s.advance ((a / tickU - 256) * tickU)
      s.setPpso k { s.ppso k with lastSec := some sec, edges := (s.ppso k).edges ++ [⟨true, a⟩], open_ := some (ci, b) }

/-- PPSOk commits the trailing edge of the pulse that it has begun, in its own commit cycle (R96, R105). -/
def State.ppsoTrail (s : State) (k ci x : Nat) : State :=
  match s.place ci x 0 with
  | none => s
  | some u =>
    let s := s.advance ((u / tickU - 256) * tickU)
    s.setPpso k { s.ppso k with edges := (s.ppso k).edges ++ [⟨false, u⟩], open_ := none }

/-- PPSOk places the next edge of its pulses: the trailing one of a pulse begun, else the next leading one (R105). -/
def State.ppsoPulse (s : State) (k : Nat) : State :=
  if s.bit (tioB + 4) 0 then s
  else match (s.ppso k).open_ with
    | some (ci, x) => if s.instState ci = 3 then s else s.ppsoTrail k ci x
    | none => s.ppsoLead k

/-! ### Diagnostics (R108) -/

/-- The function whose contact is c, when one is active (R398). -/
def State.fnOf (s : State) (c : Nat) : Option Nat := (List.range 36).find? (fun f => s.contactOf f == c)

/-- A driver fault on contact c: DIAG bit `b` and OFF, or PIN_GPO.FAULT; the contact goes high impedance. -/
def State.driverFault (s : State) (c b : Nat) : State :=
  match s.fnOf c with
  | none => s
  | some f =>
    let s := s.setContact c .z
    if f < 28 then ((s.latch (outDiag f) b).setBit (outDiag f) 4 true).raiseU (Src.output f) [] (unitId 0x0C f)
    else s.latch (pinB + 0x104) (16 + (f - 28))

/-- The gap of at least 40 µs that an open test needs (R108). -/
def State.openGap (s : State) (n : Nat) : Bool :=
  let t := s.trig n
  t.edges.isEmpty && t.open_.isNone && (t.run != .running || (t.count != 0 && t.count ≤ t.pulse)
    || (match s.place t.ci (t.lead16 t.pulse) (s.trigCal n) with
        | some u => decide (s.now + 40 * usU ≤ u)
        | none => true))

/-- The level of contact c: an open test releases its driver for 20 µs (R108). -/
def State.contactLevel (s : State) (c : Nat) : Level := match aget (fun _ => none) s.tio.openTest c with
  | some t => if s.now < t + 20 * usU then .z else aget (fun _ => .z) s.tio.contacts c
  | none => aget (fun _ => .z) s.tio.contacts c

/-- The open test of contact c, with whether the pin exceeded 2.0 V (R108). -/
def State.openTestAt (s : State) (c : Nat) (exceeds : Bool) : State :=
  match s.fnOf c with
  | none => s
  | some f =>
    let recent := match aget (fun _ => none) s.tio.openTest c with
      | some t => decide (s.now < t + 10 * msU)
      | none => false
    if f < 24 && s.bit (trigR f 0) 5 && !s.outLow f && !s.bit (tioB + 4) 0 && s.openGap f && !recent then
      let s := { s with tio := { s.tio with openTest := aset (fun _ => none) s.tio.openTest c (some s.now) } }
      if exceeds then (s.latch (outDiag f) 3).raiseU (Src.output f) [] (unitId 0x0C f) else s
    else s

/-- DIAG bits cleared by writing 1; with none left OFF clears and the driver resumes (R108). -/
def State.diagClear (s : State) (i : Nat) (v : Word) : State :=
  let a := outDiag i
  let s := s.w1c a 0xF v
  let d := s.reg a
  if getField d 0 4 = 0 ∧ getField d 4 1 = 1 then (s.setBit a 4 false).driveOut i (s.restLevel i) else s

/-! ### Resume (R111, R366) -/

/-- A pending bit of a source of class S or H is set, or such a source is being latched in this TIME cycle. -/
def State.safePending (s : State) : Bool :=
  let heavy := fun x => 2 ≤ s.fld (srcR x) 1 2
  (List.range 256).any (fun x => s.bit (pendR (x / 32)) (x % 32) && heavy x)
    || s.flt.raises.any (fun r => s.bit (srcR r.src) 0 && heavy r.src)

/-- A write of TIO_CTL.RESUME. -/
def State.tioResume (s : State) : State :=
  if s.bit (tioB + 4) 0 ∧ !s.safePending then s.resumeOutputs else s

end Sys2Proof.Machine
end

