-- ==== Sys2Proof/Machine/EventIn.lean ====
section
/-!
DEFINITION. Machine/EventIn.lean: the meanings of event and PPS input commands and of lane drift (R93, R100–R104, R107, R109).
-/
namespace Sys2Proof.Machine

def State.evIn (s : State) (i : Nat) : EvIn := aget (fun _ => {}) s.tio.inputs i

def State.setEvIn (s : State) (i : Nat) (x : EvIn) : State :=
  { s with tio := { s.tio with inputs := aset (fun _ => {}) s.tio.inputs i x } }

/-- The queue with a stamp in its place: by CI0 instant, then by input (R101). -/
def insertStamp (e : Stamp) : List Stamp → List Stamp
  | [] => [e]
  | x :: l => if e.at0 < x.at0 ∨ (e.at0 = x.at0 ∧ e.input < x.input) then e :: x :: l else x :: insertStamp e l

/-- The sampler's instant of an edge: held at the 19.53 ps resolution (R100; log entry 201). -/
def edgePhase (t : Nat) : Nat := t / stepU * stepU

/-- A stamp enters the event queue, or is discarded with OVERRUN, LOST and EVT_OVERRUN (R101). -/
def State.pushStamp (s : State) (e : Stamp) : State :=
  if 1024 ≤ s.tio.evtq.length then
    let s := if e.input < 16 then s.count (evtR e.input 0xC) 16 16 else s
    (s.latch (tioB + 0x10) 11).raise Src.evtOverrun
  else
    let s := { s with tio := { s.tio with evtq := insertStamp e s.tio.evtq } }
    s.setFld (tioB + 0x10) 0 11 s.tio.evtq.length

/-- An edge within 5 ns of the last stamped edge is in the dead time (R100). -/
def EvIn.dead (x : EvIn) (t : Nat) : Bool := match x.last with
  | some l => decide (t < l + 5 * nsU)
  | none => false

/-- The edge after polarity inversion (R109): INV and INVERTED each invert. -/
def inputEdge (cfgInv statInv falling : Bool) : Bool := (falling != cfgInv) != statInv

/-- An edge at event input i at CI0 instant t (R100–R102). -/
def State.evtEdge (s : State) (i t : Nat) (falling : Bool) : State :=
  let s := s.advance t
  let cfg := evtR i 0
  let f := inputEdge (s.bit cfg 9) (s.bit (evtR i 8) 0) falling
  let sel := s.fld cfg 1 2
  let selected := if f then 2 ≤ sel else sel % 2 == 1
  let x := s.evIn i
  if !s.bit cfg 0 || !selected || s.bit (evtR i 8) 1 then s
  else if x.dead t then s.count (evtR i 0xC) 0 16
  else
    let s := s.setEvIn i { x with last := some t }
    let c0 := ((edgePhase t : Int) - s.sfld (evtR i 4) 0 32 * 2 ^ 40).toNat
    let ci := s.fld cfg 3 4
    let (v, c, s) := s.stampIn ci c0
    let s := s.pushStamp ⟨i, f, ci, c.code, v, c0⟩
    if s.bit cfg 10 then s.rewTrigger 2 i else s

/-- The words of a queued stamp (Table 4.5). -/
def stampWords (e : Stamp) : List Nat :=
  [e.input + (if e.falling then 32 else 0) + e.ci * 64 + e.status * 1024 + 2 ^ 31, ns16 e.at16, sec16 e.at16 % 2 ^ 32,
   frac16 e.at16 + sec16 e.at16 / 2 ^ 32 * 2 ^ 16]

/-- A read of TIO_EVTQ_W0 pops the oldest stamp (R101). -/
def State.popStamp (s : State) : State :=
  match s.tio.evtq with
  | [] =>
    let w := s.reg (tioB + 0x14) &&& 0x7FFFFFFF#32
    (s.setReg (tioB + 0x14) w).answerRead w.toNat
  | e :: rest =>
    let s := { s with tio := { s.tio with evtq := rest } }
    let w := stampWords e
    let s := (List.range 4).foldl (fun s j => s.setReg (tioB + 0x14 + 4 * j) (BitVec.ofNat 32 (w.getD j 0))) s
    (s.setFld (tioB + 0x10) 0 11 rest.length).answerRead (w.getD 0 0)

/-! ### PPS inputs (R103, R104) -/

/-- Instance n measured at an edge (2^-16 ns) against its nearest whole second, in units of 2^-8 ns (R70; log entry 197). -/
def ppsOffset (v : Nat) : Int :=
  let sec := 1000000000 * 2 ^ 16
  ((v : Int) - (((v + sec / 2) / sec * sec : Nat) : Int)) / 2 ^ 8

/-- The edge feeds every instance whose SRC names input k (R70, R103). -/
def State.feedPps (s : State) (k t : Nat) : State :=
  (List.range 8).foldl (fun s j =>
    let n := j + 1
    if s.fld (ciR n 0x34) 0 2 = k + 1 then
      let (v, _, s) := s.stampIn n t
      s.offsetUpdate n (ppsOffset v)
    else s) s

/-- Both inputs VALID with stamps of the same second further apart than DISAGREE raise PPS_IN_DISAGREE (R104). -/
def State.ppsDisagree (s : State) (k t : Nat) : State :=
  let lim := s.fld (ppsiR 0 0) 16 16
  match (s.evIn (16 + (1 - k))).lastValid with
  | some u =>
    let d := if t < u then u - t else t - u
    if lim ≠ 0 ∧ s.bit (ppsiR (1 - k) 4) 0 ∧ 2 * d < secU ∧ lim * nsU < d then s.raise Src.ppsDisagree else s
  | none => s

/-- An edge at PPS input k at CI0 instant t (R103). -/
def State.ppsEdge (s : State) (k t : Nat) (falling : Bool) : State :=
  let s := s.advance t
  let t := edgePhase t
  let cfg := ppsiR k 0
  let stat := ppsiR k 4
  let f := inputEdge (s.bit cfg 3) (s.bit stat 1) falling
  let x := s.evIn (16 + k)
  if !s.bit cfg 0 || f != s.bit cfg 5 || s.bit stat 2 || x.dead t then s
  else
    let tol := max 1 (s.fld cfg 8 8) * usU
    let valid := match x.last with
      | some l => decide (secU ≤ t - l + tol ∧ t - l ≤ secU + tol)
      | none => false
    let s := if s.bit cfg 4 then s.pushStamp ⟨16 + k, f, 0, if s.instState 0 = 3 then 3 else 0, t / 2 ^ 32, t⟩ else s
    if valid then
      let s := s.setEvIn (16 + k) { x with last := some t, lastValid := some t }
      let s := { s with tio := { s.tio with ppsiStamp := aset (fun _ => 0) s.tio.ppsiStamp k (t / 2 ^ 32) } }
      let s := (s.setBit stat 0 true).setCause (Src.ppsLost k) false
      (s.feedPps k t).ppsDisagree k t
    else (s.setEvIn (16 + k) { x with last := some t }).count stat 16 16

/-- No valid edge for 1.5 s: VALID clears, the source is raised and the instances that follow the input lose it (R70, R103). -/
def State.ppsLost (s : State) (k : Nat) : State :=
  let x := s.evIn (16 + k)
  match x.lastValid with
  | none => s
  | some l =>
    let s := s.advance (l + 3 * secU / 2)
    let s := s.setEvIn (16 + k) { x with last := none, lastValid := none }
    let s := (s.setBit (ppsiR k 4) 0 false).levelSource (Src.ppsLost k) true
    (List.range 8).foldl (fun s j => if s.fld (ciR (j + 1) 0x34) 0 2 = k + 1 then s.loseReference (j + 1) else s) s

/-- A read of PPSIk_SEC_HI latches the other words (R104). -/
def State.ppsiRead (s : State) (k : Nat) : State :=
  let v := aget (fun _ => 0) s.tio.ppsiStamp k
  let s := { s with tio := { s.tio with ppsiLatch := aset (fun _ => 0) s.tio.ppsiLatch k v } }
  s.answerRead (sec16 v / 2 ^ 32)

/-- The latched SEC_LO, NS and FRAC words of PPSIk. -/
def State.ppsiWord (s : State) (k o : Nat) : Nat :=
  let v := aget (fun _ => 0) s.tio.ppsiLatch k
  match o with
  | 0xC => sec16 v % 2 ^ 32
  | 0x10 => ns16 v
  | _ => frac16 v

/-! ### Polarity and overvoltage (R107, R109) -/

/-- Configuration and status registers of input i: EVTi for i < 16, else PPSI(i − 16). -/
def inCfg (i : Nat) : Nat := if i < 16 then evtR i 0 else ppsiR (i - 16) 0
def inStat (i : Nat) : Nat := if i < 16 then evtR i 8 else ppsiR (i - 16) 4

/-- EVT_LOW, EVT_HIGH or PPS_IN_FAULT. -/
def inSource (i : Nat) : Nat := if i < 8 then Src.evtLow else if i < 16 then Src.evtHigh else Src.ppsInFault

/-- The duty rule of R109 is met: a differential input with POL_AUTO inverts itself, or removes its inversion. -/
def State.polarityInvert (s : State) (i : Nat) : State :=
  let st := if i < 16 then 0 else 1
  let auto := if i < 16 then s.bit (inCfg i) 8 && s.bit (inCfg i) 7 else s.bit (inCfg i) 2 && s.bit (inCfg i) 1
  if auto then (s.setBit (inStat i) st (!s.bit (inStat i) st)).raise (inSource i) else s

/-- A contact above ±15 V: OVERV is set, and the input is isolated while it is (R107; log entry 10). -/
def State.overvoltage (s : State) (i : Nat) : State :=
  (s.latch (inStat i) (if i < 16 then 1 else 2)).raise (inSource i)

/-- The replica measurement of lane l (R93). -/
def State.driftMeasure (s : State) (l : Nat) (d : BitVec 16) : State :=
  let a := lcalR l 8
  let s := s.setFld a 0 16 d.toNat
  if s.bit (tioB + 8) 16 ∧ s.fld (tioB + 8) 0 16 < d.toInt.natAbs ∧ !s.bit a 16 then
    (s.latch a 16).raise Src.tsCalDrift
  else s

end Sys2Proof.Machine
end

