-- ==== Sys2Proof/Machine/Edits.lean ====
section
/-!
DEFINITION. Machine/Edits.lean: the frame a copy sends: its body, the edits of R219, the one-step PTP edits of R82–R84 and the FCS.
-/
namespace Sys2Proof.Machine

/-- The first n body bytes of a coach: the head window, then its chain cells (R38). -/
def State.bodyBytes (s : State) (c : Coach) (n : Nat) : List Byte :=
  let head := c.bytes 0 (min n 192)
  if n ≤ 192 then head
  else head ++ ((c.cells.flatMap (fun i => s.bytes (s.bufAddr 0 i) 256)).take (n - 192))

/-- The VID of the outer tag as the coach holds it now: none without a tag (R219). -/
def Coach.outerVid (c : Coach) : Option Nat := c.parsed.vlan.map (fun _ => be (c.bytes (c.parsed.vlanAt + 2) 2) 0 2 % 4096)

/-- The VLAN of a copy (R219): the VID of the outer tag when not 0, else EGR_PVIDp.PVID of the ingress port. -/
def State.vlanOf (s : State) (c : Coach) : Nat :=
  let v := c.outerVid.getD 0
  if v ≠ 0 then v else s.fld (egrPR c.inPort 0x20) 0 12

/-- Bit q of MEMBER (o = 0) or UNTAG (o = 8) of VLAN entry v (R234). -/
def State.vlanBit (s : State) (v o q : Nat) : Bool := if q < 32 then s.bit (vlanR v o) q else s.bit (vlanR v (o + 4)) (q - 32)

/-- What the tag edit does at port q: −4 removes the outer tag, 4 adds one (R219). -/
def State.tagEdit (s : State) (c : Coach) (q : Nat) : Int :=
  if s.bit (egrPR q 0) 28 then
    if s.vlanBit (s.vlanOf c) 8 q then (if c.parsed.vlan.isSome then -4 else 0)
    else (if c.parsed.vlan.isNone then 4 else 0)
  else 0

/-- What the R-TAG edit does at port q, for the FRER action taken at enqueue (R219). -/
def State.rtagEdit (s : State) (c : Coach) (act q : Nat) : Int :=
  if act = 1 then 6 else if act = 2 ∧ c.parsed.rtag.isSome ∧ !s.bit (egrPR q 0) 29 then -6 else 0

/-- Port q terminates MACsec (R51; log entry 36). -/
def State.macsecOn (s : State) (q : Nat) : Bool := aget (fun _ => false) s.egr.macsec q

/-- B of R216 and whether LEN is final. -/
def State.copySize (s : State) (c : Coach) (act q : Nat) : Nat × Bool :=
  let grow := s.tagEdit c q + s.rtagEdit c act q + (if s.macsecOn q then (Config.macsecGrow q : Int) else 0)
  if c.lenFinal then (max 64 ((c.bodyLen : Int) + 4 + grow).toNat, true)
  else if c.parsed.ip = 4 then (max 64 (((be (c.bytes 0 192) (c.parsed.l3 + 2) 2 + c.parsed.l3 + 4 : Nat) : Int) + grow).toNat, false)
  else if c.parsed.ip = 6 then (max 64 (((be (c.bytes 0 192) (c.parsed.l3 + 4) 2 + 40 + c.parsed.l3 + 4 : Nat) : Int) + grow).toNat, false)
  else (s.maxFrame q, false)

/-- `n` bytes of `l` at `i` replaced by `v`. -/
def splice (l : List Byte) (i n : Nat) (v : List Byte) : List Byte := l.take i ++ v ++ l.drop (i + n)

/-- Ones'-complement addition of 16-bit words. -/
def ocAdd (a b : Nat) : Nat := let t := a + b; t % 65536 + t / 65536

/-- The ones'-complement sum of a byte string as 16-bit words, zero-padded. -/
def ocSum : List Byte → Nat
  | [] => 0
  | [a] => a.toNat * 256
  | a :: b :: t => ocAdd (a.toNat * 256 + b.toNat) (ocSum t)

/-- RFC 1624: a checksum after one 16-bit word changed from m to m'. -/
def rfc1624 (hc m m' : Nat) : Nat := 65535 - ocAdd (ocAdd (65535 - hc) (65535 - m)) m'

/-- The CE mark of R218 on IP header offset l3. -/
def markCe (l : List Byte) (ip l3 : Nat) : List Byte :=
  if ip = 4 then
    let m := be l l3 2
    let m' := m ||| 3
    let hc := be l (l3 + 10) 2
    patch (patch l l3 (bytesBE 2 m')) (l3 + 10) (bytesBE 2 (rfc1624 hc m m'))
  else patch l l3 (bytesBE 2 (be l l3 2 ||| 0x30))

/-- The ECN field of an IP header. -/
def ecnOf (l : List Byte) (ip l3 : Nat) : Nat := if ip = 4 then be l (l3 + 1) 1 % 4 else be l l3 2 / 16 % 4

/-! ### One-step PTP edits (R79–R84) -/

/-- TIME_PTPp.TC: 3 acts as 0 (R80). -/
def State.tcMode (s : State) (p : Nat) : Nat := let t := s.fld (timeB + 0x400 + p * 8) 0 2; if t = 3 then 0 else t

/-- The instance a PTP message belongs to: the lowest n whose domain register matches, else CI0 (R79, R83). -/
def State.ptpInst (s : State) (dom sdo : Nat) : Nat :=
  (((List.range 8).map (· + 1)).find? (fun n =>
    let a := timeB + 0x40 + n * 4
    s.bit a 0 && s.fld a 8 8 == dom && s.fld a 16 4 == sdo)).getD 0

/-- Messages corrected when forwarded by a transparent clock (Table 3.4). -/
def ptpCorrected (tc msg : Nat) : Bool := if tc = 1 then msg ≤ 3 else tc == 2 && msg == 0

/-- The two bytes of a 16-bit number swapped. -/
def swap16 (w : Nat) : Nat := w % 256 * 256 + w / 256 % 256

/-- The UDP checksum after an edit: zero over IPv4, and over IPv6 the 2 bytes after the message keep it right (R84). Behind a message
    of odd length they straddle two words of the checksum, where their sum counts with its bytes swapped. -/
def ptpChecksum (old new : List Byte) (ip ptp udp : Nat) : List Byte :=
  if ip = 4 then patch new (udp + 6) [0#8, 0#8]
  else
    let n := be new (ptp + 2) 2
    let sum := fun l => ocSum (slice l ptp (n / 2 * 2 + 2))
    let d := ocAdd (sum old) (65535 - sum new)
    let turn := fun w => if n % 2 = 0 then w else swap16 w
    let w := be new (ptp + n) 2
    patch new (ptp + n) (bytesBE 2 (ocAdd w (turn d) % 65536))

/-- The PTP edit of a copy at body offset shift `sh` of its header, TS_IN and TS_OUT being CI0 instants (R82, R83). A copy of a trapped
    message is not forwarded, and none of its fields is corrected (R80). A TS_INSERT copy without a PTP header counts as not edited
    where ONE_STEP asks for the edit (log entry 186). -/
def State.ptpEdit (s : State) (c : Coach) (q : Nat) (tsOut : Nat) (sh : Int) (l : List Byte) : List Byte × State :=
  let p0 := c.parsed.ptp
  let hd := c.bytes 0 192
  let msg := be hd p0 1 % 16
  let corr := s.tcMode c.inPort = s.tcMode q ∧ ptpCorrected (s.tcMode q) msg = true ∧ c.kind ≠ 2 ∧ c.trapped = false
  let oneStep := s.bit (timeB + 0x400 + q * 8) 2 = true
  let insert := c.tsInsert = true ∧ msg = 0 ∧ oneStep
  if c.tsInsert = false ∧ (p0 = 0xFFFF ∨ ¬ corr) then (l, s)
  else if c.tsInsert = true ∧ ¬ insert ∧ (p0 ≠ 0xFFFF ∨ ¬ oneStep) then (l, s)
  else
    let need := if insert then 44 else 16
    let udpOk := match c.parsed.ptpUdp with
      | some u => c.parsed.ip != 6 || decide (be hd (p0 + 2) 2 + 2 + 8 ≤ be hd (u + 4) 2)
      | none => true
    if p0 = 0xFFFF ∨ 192 < p0 + need ∨ udpOk = false then (l, s.count (timeB + 0x1C) 0 32)
    else
      let n := s.ptpInst (be hd (p0 + 4) 1) (be hd p0 1 / 16)
      let (o, _, s) := s.stampIn n tsOut
      let (i, _, s) := s.stampIn n c.tsIn
      let at_ := ((p0 : Int) + sh).toNat
      let corrField := be l (at_ + 8) 8
      let l' :=
        if insert then
          patch (patch (patch l (at_ + 34) (bytesBE 6 (sec16 o))) (at_ + 40) (bytesBE 4 (ns16 o)))
            (at_ + 8) (bytesBE 8 (corrField + frac16 o))
        else
          let ld : Int := if s.tcMode q = 2 ∧ msg = 0 then (s.fld (timeB + 0x404 + c.inPort * 8) 0 32 : Nat) else 0
          patch l (at_ + 8) (bytesBE 8 (intBits 64 ((corrField : Int) + ((o : Int) - i) + ld)))
      let l' := match c.parsed.ptpUdp with
        | some u => ptpChecksum l l' c.parsed.ip at_ ((u : Int) + sh).toNat
        | none => l'
      (l', s)

/-- Body offset `o` of the frame after the tag edit `te` (R219): the bytes after the edited tag have moved. -/
def Coach.afterTag (c : Coach) (te : Int) (o : Nat) : Nat :=
  if te = -4 ∧ o ≤ c.parsed.vlanAt then o else ((o : Int) + te).toNat

/-- The bytes of a copy from byte 0 to before the FCS, after every edit (R219); on a wire, padded to 60, and protected on a port that
    terminates MACsec. -/
def State.copyFrame (s : State) (cp : Copy) (c : Coach) (tsOut : Nat) : List Byte × State :=
  let body := s.bodyBytes c c.bodyLen
  let te := s.tagEdit c cp.port
  let l := if te = -4 then splice body c.parsed.vlanAt 4 []
    else if te = 4 then splice body 12 0 (bytesBE 2 0x8100 ++ bytesBE 2 (c.cls * 8192 + s.vlanOf c)) else body
  let re := s.rtagEdit c cp.frer.1 cp.port
  let l := if re = 6 then splice l (c.afterTag te c.parsed.ethType) 0 (bytesBE 2 0xF1C1 ++ [0#8, 0#8] ++ bytesBE 2 cp.frer.2)
    else if re = -6 then splice l (c.afterTag te (c.parsed.rtag.getD 0)) 6 [] else l
  let sh := te + re
  let l := if cp.ce then markCe l c.parsed.ip ((c.parsed.l3 : Int) + sh).toNat else l
  let (l, s) := s.ptpEdit c cp.port tsOut sh l
  let l := if cp.port = 33 then l else l ++ List.replicate (60 - l.length) 0
  (if s.macsecOn cp.port then Config.macsecProtect cp.port l else l, s)

/-- The frame as sent: true or stomped FCS, cut at the port's maximum frame size (R50). -/
def fcsFrame (l : List Byte) (stomped : Bool) : List Byte :=
  let f := crc32 l
  l ++ bytesLE 4 (if stomped then 0xFFFFFFFF - f else f)

end Sys2Proof.Machine
end

