-- ==== Sys2Proof/Machine/EgrOps.lean ====
section
/-!
DEFINITION. Machine/EgrOps.lean: enqueue tests (R215–R218), gate lists (R220–R222), launch (R223), shapers (R224) and selection
(R226) as shared operations.
-/
namespace Sys2Proof.Machine

/-! ### Launch (R223) -/

/-- The launch instant of a coach in port q's instance: its NS equals LAUNCH_NS, within half a second of now. -/
def State.launchOf (s : State) (c : Coach) (q : Nat) : Nat × State :=
  let ci := s.portCi q
  let (te, _, s) := s.stampIn ci s.now
  let sec := 1000000000 * 2 ^ 16
  let ns := c.fld 248 0 32 * 2 ^ 16
  let base := te / sec * sec + ns
  let l := if te < base ∧ sec ≤ 2 * (base - te) ∧ 2 * (base - te) ≠ sec ∧ sec ≤ base then base - sec
    else if te < base ∧ 2 * (base - te) = sec ∧ sec ≤ base then base - sec
    else if base ≤ te ∧ sec < 2 * (te - base) then base + sec else base
  (l, s)

/-- A launch instant of port q in CI0, where it converts with status OK (R223). -/
def State.launchCi0 (s : State) (q l : Nat) : Option Nat :=
  if s.instState (s.portCi q) = 3 ∨ s.instState 0 = 3 then none
  else match s.toCi0 (s.portCi q) l with
    | some (t, .ok) => some t
    | _ => none

/-- EGR_LAUNCHq.TOL in 2^-48 ns; 0 acts as 1. -/
def State.launchTol (s : State) (q : Nat) : Nat := max 1 (s.fld (egrPR q 0x24) 0 16) * nsU

/-- The wire time of `n` bytes at port q, in 2^-48 ns; a port without a rate takes none. -/
def State.wireTime (s : State) (q n : Nat) : Nat := let r := s.portRate q; if r = 0 then 0 else n * 8 * nsU / r

/-! ### Gates (R220–R222) -/

/-- The gate list in force of port q applies: GATE_EN, a line port, a valid instance. -/
def State.gateList (s : State) (q : Nat) : Option GateList :=
  if q < 32 ∧ s.bit (egrPR q 0) 14 ∧ s.instState (s.portCi q) ≠ 3 then (s.egrPort q).gcl else none

def State.gateInterval (s : State) (q : Nat) (g : GateList) (e : Nat) : Nat := (s.reg (gclR q g.bank e 0)).toNat
def State.gateWord (s : State) (q : Nat) (g : GateList) (e : Nat) : Word := s.reg (gclR q g.bank e 1)
def State.gateBit (s : State) (q : Nat) (g : GateList) (e c : Nat) : Bool := getField (s.gateWord q g e) c 1 == 1

/-- The entry in force at offset `o` (2^-16 ns) of the cycle, and where it ends: the last entry holds to the end (R220). -/
def State.gateAt (s : State) (q : Nat) (g : GateList) (o : Nat) : Nat → Nat → Nat → Nat × Nat
  | 0, e, _ => (e, g.cycle * 2 ^ 16)
  | fuel + 1, e, from_ =>
    let stop := min (from_ + s.gateInterval q g e * 2 ^ 16) (g.cycle * 2 ^ 16)
    if e + 1 ≥ g.count then (e, g.cycle * 2 ^ 16)
    else if o < stop then (e, stop)
    else s.gateAt q g o fuel (e + 1) stop

/-- How many entries of a list begin before CYCLE: the others are never reached, and the last one reached holds to the end (R220). -/
def State.gateReach (s : State) (q : Nat) (g : GateList) : Nat → Nat → Nat → Nat
  | 0, e, _ => e
  | fuel + 1, e, from_ =>
    if e < g.count ∧ from_ < g.cycle then s.gateReach q g fuel (e + 1) (from_ + s.gateInterval q g e) else e

/-- The entries of a list that its cycle reaches. -/
def State.gateLive (s : State) (q : Nat) (g : GateList) : Nat := s.gateReach q g g.count 0 0

/-- Entry, its end offset and the offset in the cycle at instance value v; none before BASE (all gates open). -/
def State.gatePos (s : State) (q : Nat) (g : GateList) (v : Nat) : Option (Nat × Nat × Nat) :=
  if v < g.base16 ∨ g.cycle = 0 then none
  else
    let o := (v - g.base16) % (g.cycle * 2 ^ 16)
    let (e, stop) := s.gateAt q g o g.count 0 0
    some (e, stop, o)

/-- How long the gate of class c stays open from entry e on, in 2^-16 ns, following entries and cycles over the `n` entries that the
    cycle reaches; none when for ever. -/
def State.openFrom (s : State) (q : Nat) (g : GateList) (c n : Nat) : Nat → Nat → Nat → Option Nat
  | 0, _, _ => none
  | fuel + 1, e, acc =>
    if s.gateBit q g e c then
      let starts := ((List.range e).map (s.gateInterval q g)).sum * 2 ^ 16
      let stop := if e + 1 ≥ n then g.cycle * 2 ^ 16 else min ((starts + s.gateInterval q g e * 2 ^ 16)) (g.cycle * 2 ^ 16)
      s.openFrom q g c n fuel (if e + 1 ≥ n then 0 else e + 1) (acc + (stop - starts))
    else some acc

/-- The gates of port q act: GATE_EN, a line port, a valid instance (R220). -/
def State.gatesOn (s : State) (q : Nat) : Bool := decide (q < 32) && s.bit (egrPR q 0) 14 && s.instState (s.portCi q) != 3

/-- W of R222 for class c at CI0 instant t, in 2^-16 ns of the port's instance: none when unlimited, some 0 when closed. A pending list
    ends it at its BASE. -/
def State.gateWindow (s : State) (q c t : Nat) : Option Nat :=
  if !s.gatesOn q then none
  else
    match s.fromCi0 (s.portCi q) t with
    | none => none
    | some v =>
      let w := match s.gateList q with
        | none => none
        | some g => match s.gatePos q g v with
          | none => none
          | some (e, stop, o) =>
            let n := s.gateLive q g
            if s.gateBit q g e c then s.openFrom q g c n n (if e + 1 ≥ n then 0 else e + 1) (stop - o) else some 0
      match (s.egrPort q).gclNext with
      | some n => (match w with
        | some x => some (min x (n.base16 - v))
        | none => some (n.base16 - v))
      | none => w

/-- The longest continuous open time of class c in the list in force (R222): none when it never closes. -/
def State.longestOpen (s : State) (q c : Nat) : Option Nat :=
  match s.gateList q with
  | none => none
  | some g =>
    let n := s.gateLive q g
    if (List.range n).all (fun e => s.gateBit q g e c) then none
    else some (((List.range n).map (fun e => (s.openFrom q g c n (2 * n) e 0).getD 0)).foldl max 0)

/-- Preemption of port q is active: PRE_STATE 2 (R225). -/
def State.preActive (s : State) (q : Nat) : Bool := s.fld (egrPR q 4) 1 2 == 2
/-- Class c is sent by the pMAC. -/
def State.preemptable (s : State) (q c : Nat) : Bool := s.preActive q && s.bit (egrPR q 0) (16 + c)

/-- The bytes of the gate test: B, MAX_FRAME while LEN is not final, one fragment for a preemptable class (R222). -/
def State.gateBytes (s : State) (cp : Copy) : Nat :=
  if s.preemptable cp.port cp.cls then 64 * (1 + s.fld (egrPR cp.port 0) 24 2)
  else if cp.final then cp.size else s.maxFrame cp.port

/-- T ≤ W of R222, in exact bytes and nanoseconds. -/
def State.fits (s : State) (cp : Copy) (w : Option Nat) : Bool :=
  match w with
  | none => true
  | some x => decide ((s.gateBytes cp + 8) * 8 * 2 ^ 16 ≤ x * s.portRate cp.port)

/-! ### Shapers (R224) -/

/-- A bucket of RATE Mbit/s and BURST KiB filled up to now: credit in bytes × 10^9 × 2^48. -/
def Bucket.fill (b : Bucket) (rate burst now : Nat) : Bucket :=
  ⟨min ((burst * 1024 * secU : Nat) : Int) (b.credit + (rate * 125000 * (now - b.last) : Nat)), max b.last now⟩

def State.qBucket (s : State) (q c : Nat) : Bucket := aget (fun _ => {}) s.egr.buckets (q * 8 + c)

/-- Every enabled bucket on the copy's path is at 0 or above at CI0 instant t (R224). -/
def State.shaperOk (s : State) (q c t : Nat) : Bool :=
  let qs := egrQR q c 8
  let ps := egrPR q 8
  let a := s.fld qs 0 20 == 0 || decide (0 ≤ ((s.qBucket q c).fill (s.fld qs 0 20) (s.fld qs 20 12) t).credit)
  let b := s.fld ps 0 20 == 0 || decide (0 ≤ ((s.egrPort q).bucket.fill (s.fld ps 0 20) (s.fld ps 20 12) t).credit)
  a && b

/-- B + 20 bytes are taken from each enabled bucket at the start of a copy, at CI0 instant t (R224). -/
def State.shaperTake (s : State) (q c b t : Nat) : State :=
  let qs := egrQR q c 8
  let ps := egrPR q 8
  let cost : Int := ((b + 20) * secU : Nat)
  let s :=
    if s.fld qs 0 20 = 0 then s
    else
      let k := (s.qBucket q c).fill (s.fld qs 0 20) (s.fld qs 20 12) t
      { s with egr := { s.egr with buckets := aset (fun _ => {}) s.egr.buckets (q * 8 + c) { k with credit := k.credit - cost } } }
  if s.fld ps 0 20 = 0 then s
  else
    let k := (s.egrPort q).bucket.fill (s.fld ps 0 20) (s.fld ps 20 12) t
    s.setEgrPort q { s.egrPort q with bucket := { k with credit := k.credit - cost } }

/-! ### Enqueue (R215–R218) -/

/-- The enqueue stage marks the copy for CE (R218). -/
def State.ecnMark (s : State) (c : Coach) (q cls : Nat) : Bool :=
  let e := ecnOf (c.bytes 0 192) c.parsed.ip c.parsed.l3
  s.bit (egrQR q cls 0) 19 && decide (s.fld (egrQR q cls 4) 0 19 ≤ s.fld (egrQR q cls 0x10) 0 19) && c.parsed.ip != 0
    && !c.parsed.frag && (e == 1 || e == 2)

/-- The tests of Table 9.1 for one target, in order: the reason of the first that fails. -/
def State.enqueueTest (s : State) (c : Coach) (cp : Copy) : Nat × State :=
  let q := cp.port
  if s.fld (egrPR q 4) 0 1 = 0 then (15, s)
  else if s.bit (egrPR q 0) 27 && !s.vlanBit (s.vlanOf c) 0 q then (13, s)
  else if cp.final && decide (s.maxFrame q < cp.size) then (14, s)
  else
    let late := match cp.launch with
      | some l => (match s.launchCi0 q l with
        | some t => decide (t + s.launchTol q < s.now)
        | none => true)
      | none => false
    if late then (21, s)
    else if s.fld (egrQR q cp.cls 0) 0 19 < s.fld (egrQR q cp.cls 0x10) 0 19 + cp.charge then (6, s)
    else (0, s)

/-- One target of coach k is tried (R54, R215): whether it accepted, and the state with the copy queued or the refusal counted. -/
def State.tryTarget (s : State) (k q cls : Nat) (mirror : Bool) : Bool × State :=
  match s.coach k with
  | none => (false, s)
  | some c =>
    let (b, fin) := s.copySize c c.frerAct q
    let (launch, s) := if c.fld 236 29 1 = 1 then (let (l, s) := s.launchOf c q; (some l, s)) else (none, s)
    let cp : Copy := { coach := some k, port := q, cls := cls, mirror := mirror, size := b, final := fin, charge := cellsOf b,
                       launch := launch, enqueued := s.now, ce := s.ecnMark c q cls, frer := (c.frerAct, c.frerSeq) }
    let (r, s) := s.enqueueTest c cp
    if r ≠ 0 then (false, s.countQ cp r)
    else
      let s := if cp.ce then s.count (egrQR q cls 0x18) 0 32 else s
      let s := (s.setQueue q cls (s.queue q cls ++ [cp])).addFill q cls cp.charge
      (true, s.modCoach k (fun c => { c with refs := c.refs + 1 }))

/-! ### Selection (R226) -/

/-- A copy may be cut through (R47). -/
def State.mayCut (s : State) (cp : Copy) (c : Coach) : Bool :=
  c.kind == 0 && c.cutIn && s.bit (pathR cp.port 0) 1 && decide (s.portRate cp.port ≤ s.portRate c.inPort)
    && !c.lens

/-- The time from the first bit of a preamble to the timestamp point of a copy to port q (R222); the receive rings have none. -/
def State.preTime (s : State) (q : Nat) : Nat := if q = 33 then 0 else s.wireTime q 8

/-- The first instant at which the preamble of a copy can begin: its timestamp point crosses E_OUT after its release from S15, or where
    it is not cut through, E_OUT after the FAB cycle that follows its verdict (R45, R47, R48). None before the verdict. -/
def State.readyAt (s : State) (cp : Copy) : Option Nat :=
  let lead := fun (t : Nat) => t + s.fld (pathR cp.port 4) 16 12 * fabU - s.preTime cp.port
  match cp.coach with
  | none => some (lead cp.enqueued)
  | some k => match s.coach k with
    | none => none
    | some c =>
      if s.mayCut cp c then some (lead cp.enqueued)
      else if c.verdict.isSome then some (lead (max cp.enqueued ((c.verdictAt + 1) * fabU))) else none

/-- The copy may start at CI0 instant t as far as it is ready and its gate, its shapers and HOLD allow (R222, R224, R226). -/
def State.startOk (s : State) (cp : Copy) (t : Nat) : Bool :=
  let w := s.gateWindow cp.port cp.cls t
  (match s.readyAt cp with
    | some r => decide (r ≤ t)
    | none => false)
  && w != some 0 && s.fits cp w && s.shaperOk cp.port cp.cls t && !(s.preemptable cp.port cp.cls && s.bit (egrPR cp.port 4) 3)

/-- What becomes of the head of a queue at a selection; a start has its instant. -/
inductive HeadFate where
  | wait | start (at_ : Nat) | discard (reason : Nat)
  deriving DecidableEq, Repr

/-- What becomes of a head copy with launch instant t, as far as R223 tells: it starts at t − 64/r when the port has been free and
    nothing else has kept it, or as soon after as it may, within TOL. -/
def State.launchFate (s : State) (cp : Copy) (t : Nat) : HeadFate :=
  let q := cp.port
  let t0 := t - s.preTime q
  if s.now < t0 then .wait
  else if (s.egrPort q).sending.isNone && decide ((s.egrPort q).freeAt ≤ t0) && s.startOk cp t0 then .start t0
  else if t + s.launchTol q < s.now + s.preTime q then .discard 21
  else if s.startOk cp s.now then .start s.now else .wait

/-- The cells whose words a copy reads. -/
def State.copyCells (s : State) (cp : Copy) : List Nat := match cp.coach.bind s.coach with
  | some c => c.cell :: c.cells
  | none => cp.cells

/-- A copy meets an uncorrectable word of the yard (R236). -/
def State.copyBad (s : State) (cp : Copy) : Bool :=
  ((cp.coach.bind s.coach).any (·.yardBad)) || (s.badWordIn (s.copyCells cp)).isSome

/-- The egress has read the uncorrectable word of a copy: YARD_UNCORR is raised and latched (R236). -/
def State.noteCopy (s : State) (cp : Copy) : State := match s.badWordIn (s.copyCells cp) with
  | some w => s.noteYard w
  | none => s

/-- The tests of R222, R223, R226 and R227 on a head copy at the present instant; not in the FAB cycle of its enqueue (R228). -/
def State.headFate (s : State) (cp : Copy) : HeadFate :=
  let q := cp.port
  if cp.enqueued / fabU = s.now / fabU then .wait else
  let stale := match cp.coach.bind s.coach with
    | some c => let m := s.fld (egrQR q cp.cls 0xC) 0 24; m != 0 && decide (c.tsIn + m * usU < s.now)
    | none => false
  let bad := s.copyBad cp
  if stale then .discard 7
  else if bad then .discard 23
  else
    let never := match s.longestOpen q cp.cls with
      | some x => cp.final && !s.fits cp (some x)
      | none => false
    if never then .discard 22
    else match cp.launch with
      | none => if s.startOk cp s.now then .start s.now else .wait
      | some l => match s.launchCi0 q l with
        | some t => s.launchFate cp t
        | none => .discard 21

/-- The head of queue (q, c) after stale, late and never-fitting heads are discarded, when it may start, and from which instant (R226);
    `fuel` bounds the discards. -/
def State.headOf (s : State) (q c : Nat) : Nat → Option (Copy × Nat) × State
  | 0 => (none, s)
  | fuel + 1 => match s.queue q c with
    | [] => (none, s)
    | h :: rest => match s.headFate h with
      | .start t => (some (h, t), s)
      | .wait => (none, s)
      | .discard r => State.headOf (((if r = 23 then s.noteCopy h else s).setQueue q c rest).discard h r) q c fuel

/-- The first class of `cls` whose head may start (R226). -/
def State.pickHead (s : State) (q : Nat) : List Nat → Option (Copy × Nat) × State
  | [] => (none, s)
  | c :: rest => match s.headOf q c ((s.queue q c).length + 1) with
    | (some h, s) => (some h, s)
    | (none, s) => State.pickHead s q rest

/-- Copy h leaves its queue and starts at CI0 instant t (R224, R226); its port's instance is bound from its first byte on (R61). -/
def State.startCopy (s : State) (h : Copy) (t : Nat) : State :=
  let q := h.port
  let s := s.setQueue q h.cls ((s.queue q h.cls).drop 1)
  let cut := match h.coach.bind s.coach with
    | some c => c.verdict.isNone
    | none => false
  let s := s.shaperTake q h.cls h.size t
  s.setEgrPort q { s.egrPort q with sending := some { h with startedAt := t, fragAt := t, done := 0, ci := s.portCi q, cut := cut } }

/-- Classes 7 down to 0 in the express or the preemptable set (R226). -/
def State.classSet (s : State) (q : Nat) (pre : Bool) : List Nat :=
  [7, 6, 5, 4, 3, 2, 1, 0].filter (fun c => s.preemptable q c == pre)

/-- The bytes of its frame that the present fragment of copy cp carries when it is preempted at its next permitted boundary after the
    present instant (R225): with the mCRC at least 64 × (1 + ADD_FRAG). A boundary leaves 64 bytes for the last fragment (log 187). -/
def State.cutPoint (s : State) (cp : Copy) : Option Nat :=
  let gone := (s.now - cp.fragAt) * s.portRate cp.port / (8 * nsU) - 8
  let d := max gone (64 * (1 + s.fld (egrPR cp.port 0) 24 2) - 4)
  if cp.final ∧ cp.size < cp.done + d + 64 then none else some d

/-- The preemptable copy in transmission is preempted at its next permitted boundary: the port is free after the mCRC and the gap. A
    copy without another boundary goes on to its end (R225). -/
def State.preempt (s : State) (q : Nat) : State :=
  let p := s.egrPort q
  match p.sending with
  | some cp =>
    if s.preemptable q cp.cls && p.preempted.isNone then
      match s.cutPoint cp with
      | some d => s.setEgrPort q { p with sending := none, preempted := some { cp with done := cp.done + d },
                                          freeAt := cp.fragAt + s.wireTime q (8 + d + 4 + 12) }
      | none => s
    else s
  | none => s

/-- An express copy may start, and a preemptable copy is in transmission: it is preempted, and the express copy starts (R225). -/
def State.expressOver (s : State) (q : Nat) : State :=
  let s := s.preempt q
  if (s.egrPort q).sending.isSome then s
  else
    let s := s.advance (s.egrPort q).freeAt
    match s.pickHead q (s.classSet q false) with
    | (some (h, t), s) => s.startCopy h t
    | (none, s) => s

/-- The preemptable copy in transmission on port q and an express copy, HOLD or its closed gate (R225). -/
def State.selectOver (s : State) (q : Nat) (cur : Copy) : State :=
  if s.preemptable q cur.cls && (s.egrPort q).preempted.isNone then
    match s.pickHead q (s.classSet q false) with
    | (some _, s) => s.expressOver q
    | (none, s) => if s.bit (egrPR q 4) 3 || s.gateWindow q cur.cls s.now == some 0 then s.preempt q else s
  else s

/-- A selection on a free port at the present instant (R226): express copies first, then a preempted copy, then preemptable ones. -/
def State.selectFree (s : State) (q : Nat) : State :=
  match s.pickHead q (s.classSet q false) with
  | (some (h, t), s) => s.startCopy h t
  | (none, s) =>
    match (s.egrPort q).preempted with
    | some cp =>
      if s.bit (egrPR q 4) 3 || s.gateWindow q cp.cls s.now == some 0 then s
      else s.setEgrPort q { s.egrPort q with sending := some { cp with fragAt := s.now }, preempted := none }
    | none =>
      match s.pickHead q (s.classSet q true) with
      | (some (h, t), s) => s.startCopy h t
      | (none, s) => s

/-- The next instant after the present one at which some head of port q is ready, or reaches its launch instant (R45, R223). -/
def State.nextReady (s : State) (q : Nat) : Option Nat :=
  let of := fun (cp : Copy) => match s.readyAt cp with
    | none => none
    | some r => match cp.launch with
      | none => some r
      | some l => (s.launchCi0 q l).map (fun t => max r (t - s.preTime q))
  ((List.range 8).filterMap (fun c => (s.queue q c).head?.bind of)).foldl
    (fun b t => if s.now < t then some (min t (b.getD t)) else b) none

/-- EGRESS_SELECTION at port q (R226): at the first instant from now on at which the port can begin a frame or a fragment. -/
def State.select (s : State) (q : Nat) : State :=
  if s.fld (egrPR q 4) 0 1 = 0 then s
  else
    match (s.egrPort q).sending with
    | some cur => s.selectOver q cur
    | none =>
      let s := (s.advance (s.egrPort q).freeAt).selectFree q
      match (if (s.egrPort q).sending.isSome then none else s.nextReady q) with
      | some t => (s.advance t).selectFree q
      | none => s

end Sys2Proof.Machine
end

