-- ==== Sys2Proof/Machine/Egress.lean ====
section
/-!
DEFINITION. Machine/Egress.lean: the meanings of the egress commands (R47–R55, R217, R220–R233) and link loss (R229, R400).
-/
namespace Sys2Proof.Machine

/-! ### End of a copy (R50, R53) -/

/-- Accuracy of a stamp in 2^-48 ns: Table 4.1, ±4 ns, ±800 ps or ±200 ps by the port's rate class (R92). -/
def State.stampBound (s : State) (q : Nat) : Nat :=
  match be (s.image.ports.getD q []) 4 1 with
  | 0 => 4 * nsU | 1 => 800 * nsU / 1000 | 6 => 800 * nsU / 1000 | _ => 200 * nsU / 1000

/-- The physical lane that carries port p's first lane: MGT is 34, a spare replaces lane p (R90, R379). -/
def State.portLane (s : State) (p : Nat) : Nat :=
  if p = 32 then 34 else match s.fld (laneB + p * 0x10 + 4) 2 2 with
    | 1 => 32 | 2 => 33 | _ => p

/-- LAT + DRIFT + ASYM of lane l, in 2^-48 ns (R90). -/
def State.lcalOut (s : State) (l : Nat) : Int :=
  (s.sfld (lcalR l 0) 0 32 + s.sfld (lcalR l 8) 0 16 + s.sfld (lcalR l 4) 0 32) * 2 ^ 40

/-- T_cap of a transmit capture whose timestamp point crosses the contacts at CI0 instant t, at the 1/64-tick phase (R89): a free phase
    for which the stamp of R90 lies within the bound of R92, or any, where DEFAULT or a TS_CAL_DRIFT not cleared leaves the stamps of
    the lane without a bound (log entry 11). -/
def State.captureOut (s : State) (q t : Nat) : Int × State :=
  let l := s.portLane q
  let (e, s) := s.fresh 64
  if s.bit (lcalR l 8) 31 || s.bit (lcalR l 8) 16 then ((e.toNat * stepU : Nat), s)
  else
    let mid := (t : Int) - s.lcalOut l
    let b : Int := (s.stampBound q : Nat)
    let lo := -((b - mid) / (stepU : Nat))
    let hi := (mid + b) / (stepU : Nat)
    ((lo + (e.toNat % (hi - lo + 1).toNat : Nat)) * (stepU : Nat), s)

/-- TS_OUT as the module reports it (R90): T_cap with the constants of the lane and of the port's extension. Port 33 reports the
    instant itself (R45). -/
def State.reportedOut (s : State) (q t : Nat) : Nat × State :=
  if q = 33 then (t, s)
  else
    let (cap, s) := s.captureOut q t
    ((cap + s.lcalOut (s.portLane q) + s.sfld (extR q 4) 0 32 * 2 ^ 40).toNat, s)

/-- The stomp of a frame sent on port q (R50). -/
def State.stompSent (s : State) (q : Nat) : State := (s.count (pathR q 8) 0 32).raise Src.stompSent

/-- A cut-through copy above its port's MAX_FRAME (R50). -/
def State.overlong (s : State) (cp : Copy) : Bool := cp.cut && decide (s.maxFrame cp.port < cp.size)

/-- Bytes of copy cp that are sent, the FCS included: up to the maximum frame size (R50). -/
def State.sentSize (s : State) (cp : Copy) : Nat := if s.overlong cp then s.maxFrame cp.port else cp.size

/-- The checkers of R53 on a copy: HEAD_BAD, CARRIAGE_BAD, and the reasons for which it is stomped (R50): an ingress verdict that
    failed, a mismatch, a yard error, a frame too long. Each counts the copy once (log entry 188). A frame without a coach has no
    check values, and only byte parity. -/
def State.checkCopy (s : State) (cp : Copy) (c : Option Coach) (headParity bodyParity : Bool) : List Nat × State :=
  let head := headParity || c.any (fun c => crc32c (c.bytes 0 192) != c.headCheck)
  let body := bodyParity || c.any (fun c => crc32c ((s.bodyBytes c c.bodyLen).drop 192) != c.carriage)
  let s := if head then s.raise Src.headBad else s
  let s := if body then s.raise Src.carriageBad else s
  let s := if s.copyBad cp then s.noteCopy cp else s
  let own := (if head then [10] else []) ++ (if body then [20] else []) ++ (if s.copyBad cp then [23] else [])
    ++ (if s.overlong cp then [14] else [])
  (cp.stomp.toList ++ own.filter (fun r => cp.stomp != some r), s)

/-- TS_REPORT of a copy sent with CI0 stamp `out` in instance ci (R85). Without a PTP header the entry has no messageType and no
    sequenceId to hold, and reads what the offsets 0xFFFF and beyond of the head window give: 0 (log entry 189). -/
def State.reportCopy (s : State) (q ci out : Nat) (c : Coach) : State :=
  if c.tsReport then
    let (v, _, s) := s.stampIn ci out
    let p := c.parsed.ptp
    s.pushTxts ⟨q, be (c.bytes 0 192) p 1 % 16, be (c.bytes 0 192) (p + 30) 2, ci, v⟩
  else s

/-- A copy of a coach has been sent in full: FCS or stomp, counters, timestamp report, charge and reference (R50, R53, R85). -/
def State.finishCoachCopy (s : State) (cp : Copy) (k : Nat) (c : Coach) (headParity bodyParity : Bool) : State :=
  let (rs, s) := s.checkCopy cp (some c) headParity bodyParity
  let q := cp.port
  let tp := cp.startedAt + s.preTime q
  let (out, s) := s.reportedOut q tp
  let (l, s) := s.copyFrame cp c out
  let l := if s.overlong cp then l.take (s.maxFrame q - 4) else l
  let s := { s with egr := { s.egr with sent := aset (fun _ => {}) s.egr.sent q ⟨fcsFrame l !rs.isEmpty, !rs.isEmpty, tp⟩ } }
  let s := rs.foldl (fun s r => s.countQ cp r) s
  let s := if rs.isEmpty then s else s.stompSent q
  let s := if cp.cut then s.count (pathR q 0xC) 0 32 else s
  ((s.reportCopy q cp.ci out c).addFill q cp.cls (-(cp.charge : Int))).unref k

/-- COPY_TRANSMIT_END: the last byte of the copy in transmission on port q is sent (R53). Copies to port 33 end in their receive
    ring instead (R318). -/
def State.transmitEnd (s : State) (q : Nat) (headParity bodyParity : Bool) : State :=
  match (if q = 33 then none else (s.egrPort q).sending) with
  | none => s
  | some cp =>
    let n := s.sentSize cp - cp.done + 8
    let s := s.advance (cp.fragAt + s.wireTime q n)
    let s := s.setEgrPort q { s.egrPort q with sending := none, freeAt := cp.fragAt + s.wireTime q (n + 12) }
    match cp.coach with
    | none =>
      let (rs, s) := s.checkCopy cp none headParity bodyParity
      let bad := !rs.isEmpty
      let x : Sent := ⟨fcsFrame (cp.frame ++ List.replicate (60 - cp.frame.length) 0) bad, bad, cp.startedAt + s.preTime q⟩
      let s := { s with egr := { s.egr with sent := aset (fun _ => {}) s.egr.sent q x } }
      let s := rs.foldl (fun s r => s.countQ cp r) s
      let s := if bad then s.stompSent q else s
      (s.addFill q cp.cls (-(cp.charge : Int))).freeCopyCells cp
    | some k => match s.coach k with
      | some c => s.finishCoachCopy cp k c headParity bodyParity
      | none => s.addFill q cp.cls (-(cp.charge : Int))

/-! ### A verdict after enqueue (R49, R216) -/

/-- Every queued copy of coach k for which `p` holds is discarded under `reason`. -/
def State.discardCopies (s : State) (k reason : Nat) (p : Copy → Bool) : State :=
  (List.range 272).foldl (fun s i =>
    let l := s.queue (i / 8) (i % 8)
    let gone := l.filter (fun cp => cp.coach == some k && p cp)
    if gone.isEmpty then s
    else gone.foldl (fun s cp => s.discard cp reason)
      (s.setQueue (i / 8) (i % 8) (l.filter (fun cp => !(cp.coach == some k && p cp))))) s

/-- Copies of coach k in transmission on port q take a change (R49). -/
def State.modSending (s : State) (k : Nat) (f : Copy → Copy) : State :=
  (List.range 34).foldl (fun s q =>
    let p := s.egrPort q
    let g := fun (o : Option Copy) => o.map (fun cp => if cp.coach = some k then f cp else cp)
    if (p.sending.bind (·.coach)) = some k ∨ (p.preempted.bind (·.coach)) = some k then
      s.setEgrPort q { p with sending := g p.sending, preempted := g p.preempted } else s) s

/-- A copy of coach c with its true size and charge, LEN being final (R216). -/
def State.trueSize (s : State) (c : Coach) (cp : Copy) : Copy :=
  let b := (s.copySize c cp.frer.1 cp.port).1
  { cp with size := b, final := true, charge := cellsOf b }

/-- The charge of a started copy, sending or preempted, is corrected where it is one of coach k's (R216). -/
def State.resize (s : State) (k q : Nat) (c : Coach) (o : Option Copy) : Option Copy × State := match o with
  | some cp =>
    if cp.coach = some k ∧ cp.final = false then
      let cp' := s.trueSize c cp
      (some cp', s.addFill q cp.cls ((cp'.charge : Int) - cp.charge))
    else (o, s)
  | none => (none, s)

/-- The tail is written: every copy of coach k takes its true size and charge (R216). -/
def State.recharge (s : State) (k : Nat) (c : Coach) : State :=
  let s := (List.range 272).foldl (fun s i =>
    let l := s.queue (i / 8) (i % 8)
    if l.any (fun cp => cp.coach == some k && !cp.final) then
      let l' := l.map (fun cp => if cp.coach = some k then s.trueSize c cp else cp)
      let d : Int := ((l'.map (·.charge)).sum : Nat) - ((l.map (·.charge)).sum : Nat)
      (s.setQueue (i / 8) (i % 8) l').addFill (i / 8) (i % 8) d
    else s) s
  (List.range 34).foldl (fun s q =>
    let (a, s) := s.resize k q c (s.egrPort q).sending
    let (b, s) := s.resize k q c (s.egrPort q).preempted
    s.setEgrPort q { s.egrPort q with sending := a, preempted := b }) s

/-- LEN is final: the true size of every copy, its charge, and MTU for a copy above MAX_FRAME that has not started (R216). -/
def State.settleCopies (s : State) (k : Nat) : State :=
  match s.coach k with
  | none => s
  | some c => (s.recharge k c).discardCopies k 14 (fun cp => decide (s.maxFrame cp.port < cp.size))

/-- A failing verdict that arrives after release from S15 (R49). -/
def State.failCopies (s : State) (k reason : Nat) : State :=
  let s := match s.coach k with
    | some c => s.recharge k c
    | none => s
  let s := s.modSending k (fun cp => { cp with stomp := some (cp.stomp.getD reason) })
  s.discardCopies k reason (fun _ => true)

/-! ### Registers -/

/-- The sum of QUOTA over every reserved queue (R217). -/
def State.reservedQuota (s : State) : Nat :=
  ((List.range 272).map (fun i => if s.reservedQueue (i % 8) then s.fld (egrQR (i / 8) (i % 8) 0) 0 19 else 0)).sum

/-- A write of EGR_QCFGq_c: QUOTA of a reserved queue is not performed when the sum would exceed RESERVE (R217). -/
def State.qcfgWrite (s : State) (q c : Nat) (v : Word) : State :=
  let a := egrQR q c 0
  let s := s.setBit a 19 (getField v 19 1 == 1)
  let rest := s.reservedQuota - s.fld a 0 19
  if s.reservedQueue c ∧ s.fld (egrB + 8) 0 19 < rest + getField v 0 19 then s else s.setFld a 0 19 (getField v 0 19)

/-- Writes of shaper registers clip the bucket to the new BURST (R224). -/
def State.qshapeWrite (s : State) (q c : Nat) (v : Word) : State :=
  let a := egrQR q c 8
  let k := (s.qBucket q c).fill (s.fld a 0 20) (s.fld a 20 12) s.now
  let k := ⟨min k.credit ((getField v 20 12 * 1024 * secU : Nat) : Int), s.now⟩
  ({ s with egr := { s.egr with buckets := aset (fun _ => {}) s.egr.buckets (q * 8 + c) k } }).setReg a v

def State.pshapeWrite (s : State) (q : Nat) (v : Word) : State :=
  let a := egrPR q 8
  let k := (s.egrPort q).bucket.fill (s.fld a 0 20) (s.fld a 20 12) s.now
  (s.setEgrPort q { s.egrPort q with bucket := ⟨min k.credit ((getField v 20 12 * 1024 * secU : Nat) : Int), s.now⟩ }).setReg a v

/-- EGR_QCTLq_c.FLUSH: every unstarted copy goes with FLUSH (R229). -/
def State.flushQueue (s : State) (q c : Nat) : State :=
  let l := s.queue q c
  l.foldl (fun s cp => s.discard cp 24) (s.setQueue q c [])

/-! ### Gate lists (R220, R221) -/

/-- A write to a gate list word: the bank in force is not written, and ERR is set (R221). -/
def State.gateWrite (s : State) (q bank e w : Nat) (v : Word) : State :=
  if s.fld (egrPR q 0xC) 2 1 = bank ∧ (s.egrPort q).gcl.isSome then s.latch (egrPR q 0xC) 3
  else s.setReg (gclR q bank e w) (if w = 0 then v else v &&& 0x3FF#32)

/-- A bad pending list (R221). -/
def State.gclBad (s : State) (q bank count cycle : Nat) : Bool :=
  count = 0 || 1024 < count || cycle = 0 || 1000000000 < cycle
    || (List.range count).any (fun e => decide (s.reg (gclR q bank e 0) < 10#32) || s.fld (gclR q bank e 1) 8 2 == 3)

/-- A write of EGR_GCLq with its ARM bit (R221). Ports 32 and 33 have no gate list banks: ARM there has no effect (log entry 192). -/
def State.gclWrite (s : State) (q : Nat) (v : Word) : State :=
  let a := egrPR q 0xC
  let s := (s.setFld a 1 1 (getField v 1 1)).setFld a 16 11 (getField v 16 11)
  let s := s.w1c a 8 v
  if getField v 0 1 = 0 ∨ 32 ≤ q then s
  else
    let bank := getField v 1 1
    let count := getField v 16 11
    let cycle := (s.reg (egrPR q 0x10)).toNat
    if s.gclBad q bank count cycle then (s.latch a 3).setBit a 0 false
    else
      let ci := s.portCi q
      let (v16, _, s) := s.stampIn ci s.now
      let base := join16 (sec16 v16 / 2 ^ 32 * 2 ^ 32 + (s.reg (egrPR q 0x18)).toNat) (s.fld (egrPR q 0x14) 0 30) 0
      let min16 := v16 + 10000 * 2 ^ 16
      let late := base < min16
      let n := if late then (min16 - base + cycle * 2 ^ 16 - 1) / (cycle * 2 ^ 16) else 0
      let s := if late then s.raise Src.gateListLate else s
      let s := s.setEgrPort q { s.egrPort q with gclNext := some ⟨bank, count, cycle, base + n * cycle * 2 ^ 16⟩ }
      (s.setBit a 0 true).setBit a 4 true

/-- An entry of the list takes effect: its OP, and the preemption of a copy whose gate closes (R220, R225). -/
def State.enterGate (s : State) (q : Nat) (g : GateList) (e : Nat) : State :=
  let s := s.setFld (egrPR q 0x1C) 0 10 e
  let op := getField (s.gateWord q g e) 8 2
  let s := if op = 1 then s.setBit (egrPR q 4) 3 true else if op = 2 then s.setBit (egrPR q 4) 3 false else s
  match (s.egrPort q).sending with
  | some cp => if op = 1 ∨ !s.gateBit q g e cp.cls then s.preempt q else s
  | none => s

/-- The pending bank comes into force at BASE (R221). -/
def State.gclSwitch (s : State) (q : Nat) : State :=
  let p := s.egrPort q
  match p.gclNext with
  | none => s
  | some g =>
    let a := egrPR q 0xC
    let s := match s.toCi0 (s.portCi q) g.base16 with
      | some (t, _) => s.advance (ceilTo fabU t)
      | none => s
    let s := s.setEgrPort q { p with gcl := some g, gclNext := none }
    let s := ((s.setBit a 0 false).setBit a 4 false).setFld a 2 1 g.bank
    if s.gatesOn q then s.enterGate q g 0 else s.setFld (egrPR q 0x1C) 0 10 0

/-- GATE_BOUNDARY: the next entry boundary of port q takes effect (R220). -/
def State.gateBoundary (s : State) (q : Nat) : State :=
  match s.gateList q with
  | none => s
  | some g =>
    let ci := s.portCi q
    match s.fromCi0 ci s.now with
    | none => s
    | some v =>
      let next := match s.gatePos q g v with
        | none => g.base16
        | some (_, stop, o) => v + (stop - o)
      let s := match s.toCi0 ci next with
        | some (t, _) => s.advance (ceilTo fabU t)
        | none => s
      match s.gatePos q g next with
      | some (e, _, _) => s.enterGate q g e
      | none => s

/-! ### Preemption (R225) -/

/-- The MAC sends a verify mPacket, at most 3 at 10 ms intervals after link-up. -/
def State.verifySend (s : State) (q : Nat) : State :=
  let p := s.egrPort q
  if s.fld (egrPR q 4) 1 2 = 1 ∧ p.verifySent < 3 then
    let s := if p.verifySent = 0 then s else s.advance (p.verifyAt + 10 * msU)
    s.setEgrPort q { p with verifySent := p.verifySent + 1, verifyAt := s.now }
  else s

def State.verifyResponse (s : State) (q : Nat) : State :=
  if s.fld (egrPR q 4) 1 2 = 1 then s.setFld (egrPR q 4) 1 2 2 else s

/-- No response to 3 verifies: FAILED. -/
def State.verifyFail (s : State) (q : Nat) : State :=
  let p := s.egrPort q
  if s.fld (egrPR q 4) 1 2 = 1 ∧ 3 ≤ p.verifySent then (s.advance (p.verifyAt + 10 * msU)).setFld (egrPR q 4) 1 2 3 else s

/-! ### REFUSAL notice (R233) -/

/-- The entries of the period in descending order of count. -/
def topRefused (n : Nat) (m : Map Nat) : List (Nat × Nat) :=
  (m.mergeSort (fun a b => decide (b.2 ≤ a.2))).take n

/-- One REFUSAL notice per PERIOD_MS in which a drop counter advanced. -/
def State.refusalNotice (s : State) : State :=
  let per := let p := s.fld (egrB + 4) 0 16; if p = 0 then 100 else p
  let top := let t := s.fld (egrB + 4) 16 4; if t = 0 then 8 else min t 8
  let s := s.advance (s.egr.refusalAt + per * msU)
  let l := topRefused top s.egr.refused
  let s := { s with egr := { s.egr with refused := [], refusalAt := s.now } }
  if s.bit (egrB + 4) 20 ∧ !l.isEmpty then
    s.notice 7 (bytesBE 1 l.length ++ [0#8, 0#8, 0#8] ++ l.flatMap (fun e =>
      bytesBE 1 (e.1 / 64 / 9) ++ bytesBE 1 (e.1 / 64 % 9) ++ bytesBE 1 (e.1 % 64) ++ [0#8] ++ bytesBE 4 (satur 32 e.2)))
  else s

/-! ### Links (R225, R229, R400) -/

/-- Queued copies of port q go with LINK_DOWN, and the copy in transmission is lost the same way (R229). -/
def State.portLoss (s : State) (q : Nat) : State :=
  let s := (List.range 8).foldl (fun s c => (s.queue q c).foldl (fun s cp => s.discard cp 15) (s.setQueue q c [])) s
  let p := s.egrPort q
  let s := s.setEgrPort q { p with sending := none, preempted := none }
  [p.sending, p.preempted].foldl (fun s o => match o with
    | some cp => s.discard cp 15
    | none => s) s

/-- The lanes of port p, from its PORTS record (Table 15.6). -/
def State.portLanes (s : State) (p : Nat) : List Nat :=
  if p < 32 then (List.range (be (s.image.ports.getD p []) 1 1)).map (· + p) else []

/-- The skew of each lane to the first, as the link-up measured it (R89). -/
def State.setSkews (s : State) (p : Nat) (l : List Int) : State := s.setEgrPort p { s.egrPort p with skews := l }

/-- The calibration of lane l in a rate class (R91, Table 4.11). -/
def State.loadCal (s : State) (l cls : Nat) : State :=
  let e : List Nat := aget (fun _ => []) s.image.cal (l * 7 + cls)
  let a := lcalR l 0
  if e.getD 2 0 % 2 = 1 then
    ((s.setReg a (BitVec.ofNat 32 (e.getD 0 0))).setReg (a + 4) (BitVec.ofNat 32 (e.getD 1 0))).setBit (a + 8) 31 false
  else
    let s := s.setReg a (BitVec.ofNat 32 ([1229, 538, 371, 410, 318, 371, 538].getD cls 0))
    let s := s.setReg (a + 4) (BitVec.ofNat 32 ([0, 5, 6, 8, 8, 6, 5].getD cls 0))
    (s.setBit (a + 8) 31 true).raise Src.asymCalFail

/-- Spare lanes of port p that begin to carry traffic take their own pairs in the port's rate class (R91). -/
def State.loadSpares (s : State) (p : Nat) : State :=
  let mine := (s.portLanes p).filterMap (fun l => match s.fld (laneB + l * 0x10 + 4) 2 2 with
    | 1 => some 32 | 2 => some 33 | _ => none)
  let due := s.cbus.calDue.filter mine.contains
  let s : State := { s with cbus := { s.cbus with calDue := s.cbus.calDue.filter (fun x => !mine.contains x) } }
  due.foldl (fun s x => s.loadCal x (be (s.image.ports.getD p []) 4 1)) s

/-- The link of port p comes up (R225, R374, R400): `inverted` names the lanes whose receive polarity was corrected. -/
def State.linkUp (s : State) (p : Nat) (inverted : List Nat) : State :=
  let lanes := s.portLanes p
  if lanes.any (fun l => s.fenced (unitId 9 l)) ∨ s.fenced (unitId 0xA p) then s
  else
    let s := s.setBit (egrPR p 4) 0 true
    let s := lanes.foldl (fun s l =>
      let a := laneB + l * 0x10
      let inv := if s.bit a 1 then inverted.contains l else s.bit a 2
      let s := ((s.setBit (a + 4) 0 true).setBit (a + 4) 1 inv).setCause (Src.lane l) false
      if (s.unit (unitId 9 l)).state = 2 then s.unitState (unitId 9 l) 0 else s) s
    let s := if p = 32 then s.setCause Src.mgtLink false else s
    let s := if (s.unit (unitId 0xA p)).state = 2 then s.unitState (unitId 0xA p) 0 else s
    let pre := if p < 32 ∧ s.bit (egrPR p 0) 15 then (if s.bit (egrPR p 0) 26 then 2 else 1) else 0
    let s := (s.setFld (egrPR p 4) 1 2 pre).setEgrPort p { s.egrPort p with verifySent := 0 }
    (s.loadSpares p).linkNotice p true

/-- The losses of lane l in the last 60 s (R379, R400). -/
def State.recentLosses (s : State) (l : Nat) : List (Nat × Bool) :=
  (aget (fun _ => []) s.flt.losses l).filter (fun e => decide (s.now < e.1 + 60 * secU))

/-- The lane losses of the last 60 s, this one included (R379, R400). -/
def State.laneLoss (s : State) (l : Nat) (partner : Bool) : State :=
  let new := s.recentLosses l ++ [(s.now, partner)]
  let s := { s with flt := { s.flt with losses := aset (fun _ => []) s.flt.losses l new } }
  let s := s.setFld (laneB + l * 0x10 + 4) 16 8 (satur 8 new.length)
  let s := s.setCause (Src.lane l) true
  s.raiseU (Src.lane l) [(if partner then 2 else 0) + new.length * 256] (unitId 9 l)

/-- The link of port p goes down (R229, R400): `lanes` are those whose own receive path failed, `partner` a remote fault before. -/
def State.linkDown (s : State) (p : Nat) (lanes : List Nat) (partner : Bool) : State :=
  if s.fld (egrPR p 4) 0 1 = 0 then s
  else
    let s := ((s.setBit (egrPR p 4) 0 false).setFld (egrPR p 4) 1 2 0).setBit (egrPR p 4) 3 false
    let all := s.portLanes p
    let s := all.foldl (fun s l => s.setBit (laneB + l * 0x10 + 4) 0 false) s
    let own := all.filter (fun l => lanes.contains l)
    let own := if own.isEmpty then all.take 1 else own
    let s := if p = 32 then s.levelSource Src.mgtLink true else own.foldl (fun s l => s.laneLoss l partner) s
    (s.portLoss p).linkNotice p false

end Sys2Proof.Machine
end

