-- ==== Sys2Proof/Machine/SmcOps.lean ====
section
/-!
DEFINITION. Machine/SmcOps.lean: where an address lies in DRAM (R259–R261), queued requests (R267, R268), errors, rows flagged for repair
and the retirement of a channel (R261, R272–R275).
-/
namespace Sys2Proof.Machine

/-! ### Mapping (R259–R261) -/

/-- The interleave grain in bytes (R260). -/
def State.grain (s : State) : Nat := 256 * 2 ^ min 8 (s.fld smcB 0 4)

/-- The unit an interleave unit is held in, with channel x retired (R260). -/
def movedUnit (g x u : Nat) : Nat :=
  if u % 16 = x then
    let k := u / 16
    let r := if x ≤ k % 15 then k % 15 + 1 else k % 15
    15 * (66571993088 / g) / 16 + 16 * (k / 15) + r
  else u

/-- The interleave unit that a place holds, with channel x retired. -/
def homeUnit (g x u : Nat) : Nat :=
  let u15 := 15 * (66571993088 / g) / 16
  if u < u15 then u
  else
    let v := u - u15
    let r := if x < v % 16 then v % 16 - 1 else v % 16
    16 * (v / 16 * 15 + r) + x

/-- The retired channel, when one is (SMC_STAT.RET_VALID). -/
def State.retiredCh (s : State) : Option Nat := if s.bit (smcB + 4) 9 then some (s.fld (smcB + 4) 5 4) else none

/-- Channel and data offset of an address, given from the start of DRAM (R260). -/
def dramMap (g : Nat) (ret : Option Nat) (a : Nat) : Nat × Nat :=
  let u := match ret with
    | some x => movedUnit g x (a / g)
    | none => a / g
  (u % 16, u / 16 * g + a % g)

def dramBase : Nat := 0x1000000000

/-- The channel and the physical burst of an address (R260, R261). -/
def State.dramBurst (s : State) (a : Nat) : Nat × Nat :=
  let (ch, d) := dramMap s.grain s.retiredCh (a - dramBase)
  (ch, d / 64 / 31 * 32 + d / 64 % 31)

/-- The ECC burst of the group of physical burst p (R261). -/
def codeBurst (p : Nat) : Nat := p / 32 * 32 + 31

/-- The first address that data burst p of a channel holds; a code burst stands for the first of its group. -/
def State.burstAddr (s : State) (ch p : Nat) : Nat :=
  let g := s.grain
  let d := (p / 32 * 31 + (if p % 32 = 31 then 0 else p % 32)) * 64
  let u := d / g * 16 + ch
  let u := match s.retiredCh with
    | some x => homeUnit g x u
    | none => u
  dramBase + u * g + d % g

def smcCh (n : Nat) : Nat := smcB + 0x40 + n * 4

/-! ### Requests (R267, R268) -/

/-- Bank and row of a request in its channel. -/
def State.reqRow (s : State) (r : DramReq) : Nat × Nat :=
  let p := (s.dramBurst r.addr).2
  (Config.dramBank p, Config.dramRow p)

def State.smcQueue (s : State) (ch : Nat) : List DramReq := aget (fun _ => []) s.smc.queues ch

def State.setSmcQueue (s : State) (ch : Nat) (l : List DramReq) : State :=
  { s with smc := { s.smc with queues := aset (fun _ => []) s.smc.queues ch l } }

/-- A request joins its channel's queue: 32 places of its class, the oldest of which has been served when none is left. -/
def State.dramReq (s : State) (cls : Nat) (write : Bool) (a : Nat) : State :=
  if a < dramBase then s
  else
    let ch := (s.dramBurst a).1
    let l := s.smcQueue ch
    let l := if 32 ≤ (l.filter (fun r => r.cls == cls)).length then l.eraseP (fun r => r.cls == cls) else l
    let s := s.setSmcQueue ch (l ++ [⟨cls, write, a⟩])
    { s with smc := { s.smc with lastReq := aset (fun _ => 0) s.smc.lastReq ch s.now } }

/-- One request for each 64-byte burst of [a, a + n). -/
def State.dramReqs (s : State) (cls : Nat) (write : Bool) (a n : Nat) : State :=
  if a < dramBase then s
  else (List.range ((a + n + 63) / 64 - a / 64)).foldl (fun s i => s.dramReq cls write ((a / 64 + i) * 64)) s

/-- Banks with a read and a write to one row pending (R268): they are IN_ORDER. -/
def State.inOrder (s : State) : List DramReq → List Nat
  | [] => []
  | r :: t =>
    let b := s.reqRow r
    (if t.any (fun x => s.reqRow x == b && x.write != r.write) then [b.1] else []) ++ s.inOrder t

/-- The request that class k of a channel has served in a slot (R267), in queue `l`. -/
def State.pickReq (s : State) (l : List DramReq) (k : Nat) (drain : Bool) : Option DramReq :=
  let io := s.inOrder l
  let bank := fun (r : DramReq) => (s.reqRow r).1
  let mine := l.filter (fun r => r.cls == k)
  let c := if drain then mine.find? (fun r => r.write)
    else match mine.find? (fun r => !r.write && !io.contains (bank r)) with
      | some r => some r
      | none => mine.head?
  match c with
  | some r => if io.contains (bank r) && l.find? (fun x => bank x == bank r) != some r then none else some r
  | none => none

/-! ### Retirement (R274, R275) -/

def smcRetireR : Nat := smcB + 0x28

/-- Register of word w of timing set i (Table 11.4). -/
def tset (i w : Nat) : Nat := smcB + 0x100 + i * 0x20 + w * 4

/-- A GO performed in the PERI cycle of a retirement's trigger is refused after all, with STATE (R271). -/
def State.cutGo (s : State) : State := match s.smc.go with
  | some (t, old) =>
    if t / periU = s.now / periU ∧ s.smc.change.isSome ∧ s.retiredCh.isNone ∧ s.smc.retiring.isNone then
      let i := 1 - s.fld (smcB + 4) 12 1
      let s := (List.range 8).foldl (fun s w => s.setReg (tset i w) (old.getD w 0)) s
      let s := (s.setBit (smcB + 4) 13 false).setFld (smcB + 8) 4 3 3
      { s with smc := { s.smc with change := none, go := none } }
    else s
  | none => s

/-- With N at 0 there is no rewind store (R247): it is OFF, its pending copies are given up and a drain ends (log entry 219). -/
def State.noStore (s : State) : State :=
  let l := s.rew.pending
  let was := s.fld (rewB + 4) 0 3
  let s : State := { s with rew := { s.rew with pending := [], freezing := false, drain := none, endSent := false } }
  let s := l.foldl (fun s p => s.unref p.coach) s
  let s := ((s.setBit rewB 0 false).setFld (rewB + 4) 0 3 0).setCause Src.rewindFrozen false
  if was = 0 then s else s.bumpGen (unitId 0x0E 0)

/-- The rewind store gives up its top 3,968 segments (R247, R275). -/
def State.shrinkRewind (s : State) : State :=
  let n := s.fld (rewB + 0xC) 0 17
  let base := s.reg2 (rewB + 0x10) (rewB + 0x14)
  let m := n - 3968
  let lo := base + 16 * m
  let s := (s.mem.filter (fun e => decide (lo ≤ e.1 ∧ e.1 < base + 16 * n ∧ (e.1 - base) % 16 = 14))).foldl
    (fun s e => s.setNum e.1 1 (e.2.toNat / 2 * 2)) s
  let s := s.setFld (rewB + 0xC) 0 17 m
  let keep := fun (l : List Nat) => l.filter (fun g => decide (g < m))
  let s : State := { s with rew := { s.rew with drain := s.rew.drain.map (fun d => { d with
    index := keep d.index, segs := keep d.segs, offset := if d.segs.head?.any (fun g => decide (m ≤ g)) then 0 else d.offset }) } }
  if m = 0 then s.noStore
  else if m ≤ s.fld (rewB + 0x18) 0 17 then
    if s.fld (rewB + 4) 0 3 = 1 ∨ s.fld (rewB + 4) 0 3 = 2 then
      let s := (s.setFld (rewB + 0x18) 0 17 0).setNum (base + 14) 1 (s.num (base + 14) 1 / 2 * 2)
      { s with rew := { s.rew with fill := 0, first := none, latest := 0, records := 0, torn := false, pass := (s.rew.pass + 1) % 256 } }
    else s.setFld (rewB + 0x18) 0 17 (m - 1)
  else s

/-- A channel is to be retired (R274): copied away at run time, or marked for the next start where the rewind region is too small (R275).
    The answer tells whether a retirement began. -/
def State.retireChannel (s : State) (ch : Nat) : Bool × State :=
  let s := s.cutGo
  if s.retiredCh.isSome ∨ s.smc.retiring.isSome ∨ (List.range 16).any (fun n => s.fld (smcCh n) 0 3 == 5) then (false, s.raise Src.dramRetire)
  else if s.fld (rewB + 0xC) 0 17 < 3968 then
    let (_, s) := s.pinRecord 0x102 [Src.dramRetire] (unitId 8 ch)
    let s : State := { s with flt := { s.flt with retired := s.flt.retired ++ [unitId 8 ch] } }
    (true, ((s.setFld (smcCh ch) 0 3 5).bumpGen (unitId 8 ch)).raise Src.dramRetire)
  else
    let s := s.shrinkRewind
    let s := ((s.setBit (smcB + 4) 14 true).setFld (smcCh ch) 0 3 3).unitState (unitId 8 ch) 3
    (true, { s with smc := { s.smc with retiring := some ch, copied := false } })

/-! ### Errors and rows (R261, R272–R274) -/

/-- A row is flagged for repair (R272, R273); one in a bank whose repair is spent retires the channel (R274). -/
def State.flagRow (s : State) (ch p : Nat) : State :=
  let bank := Config.dramBank p
  let row := Config.dramRow p
  let key := (row * 1024 + bank) * 16 + ch
  if s.smc.flagged.contains key then s
  else
    let s : State := { s with smc := { s.smc with flagged := key :: s.smc.flagged } }
    let s := s.raiseU Src.dramPpr [] (unitId 8 ch)
    let s := (s.pinRow ch bank row).count (smcB + 0x24) 0 5
    if s.store.ppr.contains (ch, bank) then (s.retireChannel ch).2 else s

/-- A correctable error in burst p of a channel. -/
def State.dramCorr (s : State) (ch p : Nat) : State :=
  let s := ((s.count (smcB + 0x14) 0 16).count (smcCh ch) 8 8).raise Src.dramCorr
  let key := (Config.dramRow p * 1024 + Config.dramBank p) * 16 + ch
  let k := aget (fun _ => 0) s.smc.rowErrs key + 1
  let s : State := { s with smc := { s.smc with rowErrs := aset (fun _ => 0) s.smc.rowErrs key k } }
  let lim := s.fld (smcB + 0x20) 16 8
  if lim ≠ 0 ∧ k = lim then s.flagRow ch p else s

/-- An uncorrectable error in burst p of a channel, at address a: counts, SMC_ERR_ADDR, the row, and UNCORR_LIM. -/
def State.dramUncorr (s : State) (ch p a : Nat) : State :=
  let s := (s.count (smcB + 0x14) 16 16).count (smcCh ch) 16 8
  let s := (s.setReg (smcB + 0x18) (BitVec.ofNat 32 a)).setReg (smcB + 0x1C) (BitVec.ofNat 32 (a / 2 ^ 32 % 256 + ch * 256))
  let s := (s.raise Src.dramUncorr).flagRow ch p
  let lim := s.fld smcRetireR 16 8
  if lim ≠ 0 ∧ s.fld (smcCh ch) 16 8 = lim then (s.retireChannel ch).2 else s

end Sys2Proof.Machine
end

