-- ==== Sys2Proof/Machine/Rewind.lean ====
section
/-!
DEFINITION. Machine/Rewind.lean: the rewind store (R248–R258): records, segments, freezing, drains.
-/
namespace Sys2Proof.Machine

def State.rewState (s : State) : Nat := s.fld (rewB + 4) 0 3

/-- REW_STAT.STATE changes, and with it GEN of the rewind store (R331). -/
def State.setRewState (s : State) (st : Nat) : State :=
  if s.rewState = st then s else (s.setFld (rewB + 4) 0 3 st).bumpGen (unitId 0x0E 0)

def State.rewSegs (s : State) : Nat := s.fld (rewB + 0xC) 0 17
def State.rewBase (s : State) : Nat := s.reg2 (rewB + 0x10) (rewB + 0x14)
def State.rewHead (s : State) : Nat := s.fld (rewB + 0x18) 0 17
/-- Data segment g, after the 1 MiB index area (R247). -/
def State.segAddr (s : State) (g : Nat) : Nat := s.rewBase + (g + 1) * 1048576

/-- A mirror copy for the rewind store at release from S15 (R249, R251): whether it is accepted. -/
def State.rewAccept (s : State) (k m : Nat) : Bool × State :=
  let st := s.rewState
  if st = 3 ∨ st = 4 ∨ s.rew.freezing then (false, s.count (rewB + 0x2C) 0 32)
  else if st = 0 then (false, s)
  else if 4096 ≤ s.rew.pending.length then (false, s.count (rewB + 0x30) 0 32)
  else
    let x : RewPending := ⟨k, m, s.fld (rewB + 0x100 + m * 4) 10 14⟩
    let s : State := { s with rew := { s.rew with pending := s.rew.pending ++ [x] } }
    (true, s.modCoach k (fun c => { c with refs := c.refs + 1 }))

/-- Nanoseconds of CI0, SEC × 10^9 + NS. -/
def nsTotal (t : Nat) : Nat := t / nsU

/-- The header of a record (Table 10.3). -/
def recordHeader (c : Coach) (session recLen : Nat) (cut : Bool) (body : List Byte) : List Byte :=
  bytesLE 2 recLen ++ bytesLE 2 c.bodyLen ++ bytesLE 1 c.inPort
    ++ bytesLE 1 (c.kind + session * 8 + (if c.verdict.getD 0 = 0 then 0 else 128))
    ++ bytesLE 1 (c.fld 212 16 4 + (if recLen < c.bodyLen then 16 else 0) + (if cut then 32 else 0)) ++ [0#8]
    ++ bytesLE 4 c.seq ++ bytesLE 4 (nsOf c.tsIn) ++ bytesLE 4 (secOf c.tsIn) ++ bytesLE 2 (fracOf c.tsIn) ++ [0#8, 0#8]
    ++ bytesLE 4 (c.fld 204 0 32) ++ bytesLE 4 (crc32c body)

/-- The open segment is closed: its index entry is written (Table 10.4). -/
def State.closeSegment (s : State) : State :=
  let g := s.rewHead
  let first := s.rew.first.getD 0
  let s := s.setBytes (s.rewBase + 16 * g)
    (bytesLE 8 first ++ bytesLE 4 (satur 32 (s.rew.latest - first)) ++ bytesLE 2 s.rew.records
      ++ bytesLE 1 (1 + (if s.rew.torn then 2 else 0)) ++ bytesLE 1 s.rew.pass)
  { s with rew := { s.rew with ends := aset (fun _ => 0) s.rew.ends g s.rew.fill } }

/-- A segment that is full closes (R250). -/
def State.closeFull (s : State) : State := if s.rew.fill = 1048576 then s.closeSegment else s

/-- Writing moves to segment (HEAD + 1) mod N; its entry is invalid from before the first write (R250). -/
def State.openNext (s : State) : State :=
  let n := max 1 s.rewSegs
  let g := (s.rewHead + 1) % n
  let s := s.setFld (rewB + 0x18) 0 17 g
  let s := { s with rew := { s.rew with fill := 0, first := none, latest := 0, records := 0, torn := false,
                                        pass := if g = 0 then (s.rew.pass + 1) % 256 else s.rew.pass } }
  s.setNum (s.rewBase + 16 * g + 14) 1 (s.num (s.rewBase + 16 * g + 14) 1 / 2 * 2)

/-- The bytes of one record are appended to the open segment. -/
def State.appendRecord (s : State) (l : List Byte) (ts : Nat) (cut : Bool) : State :=
  let s := (s.setBytes (s.segAddr s.rewHead + s.rew.fill) l).dramReqs 2 true (s.segAddr s.rewHead + s.rew.fill) l.length
  let ns := nsTotal ts
  State.closeFull { s with rew := { s.rew with fill := s.rew.fill + l.length, records := s.rew.records + 1, torn := s.rew.torn || cut,
                                               first := some (min ns (s.rew.first.getD ns)), latest := max ns s.rew.latest } }

/-- The end mark of a segment that cannot take the next record, and the move to the next segment (R250). -/
def State.endSegment (s : State) : State :=
  let s := if s.rew.fill < 1048576 then
      s.setBytes (s.segAddr s.rewHead + s.rew.fill) (List.replicate 5 0 ++ [7#8] ++ List.replicate 26 0) else s
  s.closeSegment.openNext

/-- The body offset from which the record of coach c holds zeros: that of the first word with an uncorrectable error, of coach storage
    or of a cell of the chain (Table 10.3, CUT). -/
def State.cutFrom (s : State) (c : Coach) : Option Nat :=
  let bad := fun (i : Nat) => (List.range 8).find? (fun j => aget (fun _ => false) s.pool.badWords (i * 8 + j))
  if c.ecc then some 0
  else match bad c.cell with
    | some j => some (min 192 (32 * j))
    | none => c.cells.zipIdx.findSome? (fun e => (bad e.1).map (fun j => 192 + 256 * e.2 + 32 * j))

/-- Body bytes that the record of a copy holds. -/
def recordLen (p : RewPending) (c : Coach) : Nat := if p.snap = 0 then c.bodyLen else min c.bodyLen p.snap

/-- The record of coach c is cut: an error lies among the bytes it records (R249). -/
def State.recordCut (s : State) (p : RewPending) (c : Coach) : Bool := (s.cutFrom c).any (fun o => decide (o < recordLen p c))

/-- The bytes of the record of coach c, to a multiple of 32 (Table 10.3, R249). -/
def State.recordOf (s : State) (p : RewPending) (c : Coach) : List Byte :=
  let n := recordLen p c
  let keep := (s.cutFrom c).getD n
  let body := (s.bodyBytes c n).take keep ++ List.replicate (n - keep) 0
  let l := recordHeader c p.session n (s.recordCut p c) body ++ body
  l ++ List.replicate ((32 - l.length % 32) % 32) 0

/-- The record of coach c goes into the open segment, or into the next where it does not fit. -/
def State.recordCoach (s : State) (p : RewPending) (c : Coach) : State :=
  let l := s.recordOf p c
  let s := if s.rew.fill + l.length ≤ 1048576 then s else s.endSegment
  (s.appendRecord l c.tsIn (s.recordCut p c)).unref p.coach

/-- The oldest pending copy is written as a record, once its verdict is final (R249, R250). -/
def State.recordWrite (s : State) : State :=
  match s.rew.pending with
  | [] => s
  | p :: rest =>
    match s.coach p.coach with
    | none => { s with rew := { s.rew with pending := rest } }
    | some c =>
      if c.verdict.isNone then s
      else State.recordCoach { s with rew := { s.rew with pending := rest } } p c

/-- Every index entry is set invalid (Table 10.5). -/
def State.clearIndex (s : State) : State :=
  let b := s.rewBase
  let n := s.rewSegs
  (s.mem.filter (fun e => decide (b ≤ e.1 ∧ e.1 < b + 16 * n ∧ (e.1 - b) % 16 = 14))).foldl
    (fun s e => s.setNum e.1 1 (e.2.toNat / 2 * 2)) s

/-- EN written 1: OFF becomes RECORDING. -/
def State.rewEnable (s : State) : State :=
  if s.rewSegs = 0 then s
  else
    let s := s.setBit rewB 0 true
    if s.rewState = 0 then
      let s := s.clearIndex.setRewState 1
      { s with rew := { s.rew with fill := 0, first := none, latest := 0, records := 0, torn := false, freezing := false } }
    else s

/-- EN written 0: OFF, except in DRAINING, where the write is not performed. -/
def State.rewDisable (s : State) : State :=
  if s.rewState = 4 then s
  else
    let l := s.rew.pending
    let s : State := { s with rew := { s.rew with pending := [], freezing := false } }
    let s := l.foldl (fun s p => s.unref p.coach) s
    ((s.setBit rewB 0 false).setRewState 0).setCause Src.rewindFrozen false

/-- POST_MS after F the store leaves POST (R251). -/
def State.rewPostEnd (s : State) : State :=
  if s.rewState = 2 then
    let s := s.advance (s.rew.freezeAt + s.fld (rewB + 8) 0 16 * msU)
    { s with rew := { s.rew with freezing := true } }
  else s

/-- All pending records are written; `n` bounds them. -/
def State.flushRecords (s : State) : Nat → State
  | 0 => s
  | n + 1 => State.flushRecords s.recordWrite n

/-- The entry to FROZEN (R251): pending records, the open segment, the freeze's record, REWIND_FROZEN. -/
def State.rewFrozen (s : State) : State :=
  if s.rew.freezing ∧ (s.rewState = 1 ∨ s.rewState = 2) then
    let s := s.flushRecords s.rew.pending.length
    if !s.rew.pending.isEmpty then s
    else
      let s := if s.rew.records = 0 then s else s.closeSegment
      let s := { s with rew := { s.rew with freezing := false } }
      let s := s.setReg (rewB + 0x1C) (s.reg (rewB + 0x1C) + 1)
      let f := nsTotal s.rew.freezeAt
      let s := (s.setReg (rewB + 0x20) (BitVec.ofNat 32 f)).setReg (rewB + 0x24) (BitVec.ofNat 32 (f / 2 ^ 32))
      let s := s.setReg (rewB + 0x28) (BitVec.ofNat 32 (s.rew.freezeBy.1 + s.rew.freezeBy.2 % 256 * 4))
      (s.setRewState 3).levelSource Src.rewindFrozen true
  else s

/-- RESUME (R252): whether it was performed. -/
def State.rewResume (s : State) : Bool × State :=
  if s.rewState = 3 ∧ s.rew.trigAt.all (fun t => t / periU != s.now / periU) then
    let g := (s.rewHead + 1) % max 1 s.rewSegs
    let s : State := { s with rew := { s.rew with resumed := some (s.now, s.num (s.rewBase + 16 * g + 14) 1) } }
    (true, (s.setRewState 1).openNext.setCause Src.rewindFrozen false)
  else (false, s)

/-! ### Draining (R253–R255) -/

/-- VALID segments whose interval meets [lo, hi] in ns, oldest to newest. -/
def State.drainSelect (s : State) (lo hi : Nat) : List Nat :=
  let n := s.rewSegs
  let b := s.rewBase
  ((List.range n).map (fun i => (s.rewHead + 1 + i) % n)).filter (fun g =>
    let first := s.num (b + 16 * g) 8
    let span := s.num (b + 16 * g + 8) 4
    s.num (b + 16 * g + 14) 1 % 2 == 1 && decide (first ≤ hi ∧ lo ≤ first + span))

/-- DRAIN: performed only in FROZEN (R253). -/
def State.drainStart (s : State) (lo hi : Nat) : Bool × State :=
  if s.rewState = 3 then
    let l := s.drainSelect lo hi
    let s := (s.setRewState 4).setReg (rewB + 0x74) 0
    (true, { s with rew := { s.rew with drain := some { segs := l, index := l }, endSent := false } })
  else (false, s)

/-- ABORT: performed only in DRAINING; the END frame then carries ABORTED. -/
def State.drainAbort (s : State) : Bool × State :=
  match s.rew.drain with
  | some d => if s.rewState = 4 then
      (true, { s with rew := { s.rew with drain := some { d with segs := [], index := [], aborted := true } } }) else (false, s)
  | none => (false, s)

/-- REW_DRAIN_CFG.MAXPAY (Table 10.10). -/
def State.maxPay (s : State) : Nat :=
  let m := s.fld (rewB + 0x40) 16 14
  if 256 ≤ m ∧ m ≤ 9152 ∧ m % 32 = 0 then m else 8192

/-- A log frame around its payload (Table 10.6). -/
def State.logFrame (s : State) (kind flags sent seg off : Nat) (payload : List Byte) : List Byte :=
  let mac := fun lo hi => bytesLE 4 (s.reg (rewB + lo)).toNat ++ bytesLE 2 (s.reg (rewB + hi)).toNat
  let tag := if s.bit (rewB + 0x40) 9 then bytesBE 2 0x8100 ++ bytesBE 2 (s.fld (rewB + 0x44) 0 16) else []
  mac 0x48 0x4C ++ mac 0x50 0x54 ++ tag ++ bytesBE 2 0x88B6 ++ bytesBE 1 (16 + kind) ++ bytesBE 1 flags
    ++ bytesBE 2 payload.length ++ bytesBE 4 sent ++ bytesBE 4 (s.reg (rewB + 0x1C)).toNat ++ bytesBE 2 seg ++ bytesBE 4 off
    ++ bytesBE 8 (s.reg2 (rewB + 0x20) (rewB + 0x24)) ++ bytesBE 4 (crc32c payload) ++ [0#8, 0#8] ++ payload

/-- The DRAM burst that holds `a` has an uncorrectable error (R261). -/
def State.burstBad (s : State) (a : Nat) : Bool := (List.range 8).any (fun i => aget (fun _ => false) s.cpu.upsets (a / 64 * 8 + i))

/-- Bytes of the store as a drain sends them: a burst with an uncorrectable error as zeros (R261). -/
def State.drainBytes (s : State) (a n : Nat) : List Byte := (List.range n).map (fun i => if s.burstBad (a + i) then 0#8 else s.byte (a + i))

def State.drainTorn (s : State) (a n : Nat) : Bool := (List.range ((a + n + 63) / 64 - a / 64)).any (fun i => s.burstBad ((a / 64 + i) * 64))

/-- The next log frame of a drain, and the drain after it (R253). -/
def State.nextLog (s : State) (d : Drain) : List Byte × Drain × Bool :=
  let mp := s.maxPay
  let b := s.rewBase
  match d.index with
  | g :: _ =>
    let now := d.index.take (mp / 16)
    let rest := d.index.drop (mp / 16)
    let torn := fun g => s.num (b + 16 * g + 14) 1 / 2 % 2 == 1
    let payload := now.flatMap (fun g => s.bytes (b + 16 * g) 16)
    (s.logFrame 1 ((if rest.isEmpty then 1 else 0) + (if now.any torn then 2 else 0)) d.sent 0 (16 * g) payload,
     { d with index := rest, sent := d.sent + 1 }, false)
  | [] =>
    match d.segs with
    | g :: rest =>
      let stop := aget (fun _ => 0) s.rew.ends g
      let n := min mp (stop - d.offset)
      let last := decide (stop ≤ d.offset + n)
      let a := s.segAddr g + d.offset
      let torn := s.num (b + 16 * g + 14) 1 / 2 % 2 == 1 || s.drainTorn a n
      (s.logFrame 2 ((if last then 1 else 0) + (if torn then 2 else 0)) d.sent g d.offset (s.drainBytes a n),
       { d with segs := if last then rest else d.segs, offset := if last then 0 else d.offset + n, sent := d.sent + 1 }, false)
    | [] => (s.logFrame 3 (if d.aborted then 4 else 0) d.sent 0 d.sent [], { d with sent := d.sent + 1 }, true)

/-- P0 cells for a frame of `n` bytes under an owner; none where the pool refuses, with the ones taken given back. -/
def State.takeCells (s : State) (owner : Nat) : Nat → List Nat → Option (List Nat) × State
  | 0, got => (some got, s)
  | n + 1, got =>
    match s.poolGet 0 owner with
    | (some (_, i), s) => State.takeCells (s.cleanCell i) owner n (got ++ [i])
    | (none, s) => (none, s.freeCopyCells { cells := got, cellOwner := owner })

/-- The drain is held by the fill of its queue or by the link (R255). -/
def State.drainHeld (s : State) : Bool :=
  let q := s.fld (rewB + 0x40) 0 6
  let c := s.fld (rewB + 0x40) 6 3
  s.fld (egrPR q 4) 0 1 == 0 || decide (s.fld (rewB + 0x58) 0 16 ≤ s.fld (egrQR q c 0x10) 0 19)

/-- DRAIN_FRAME_SEND: the next log frame is built and enqueued, or the drain pauses (R253–R255). -/
def State.drainSend (s : State) : State :=
  match s.rew.drain with
  | none => s
  | some d =>
    if s.rewState ≠ 4 ∨ d.pausedAt.isSome ∨ s.rew.endSent then s
    else if s.drainHeld then
      let s := s.setBit (rewB + 0x70) 17 true
      { s with rew := { s.rew with drain := some { d with pausedAt := some s.now, stallRaised := false } } }
    else
      let q := s.fld (rewB + 0x40) 0 6
      let c := s.fld (rewB + 0x40) 6 3
      let owner := 0xD00 + s.fld (rewB + 0x40) 10 6
      let (f, d', isEnd) := s.nextLog d
      match s.takeCells owner ((f.length + 255) / 256) [] with
      | (none, s) => s
      | (some cells, s) =>
        let s := ((cells.zip (chunks 256 40 f)).foldl (fun s e => s.setBytes (s.bufAddr 0 e.1) e.2) s)
        match s.enqueueFrame q c f cells owner with
        | (false, s) => s.freeCopyCells { cells := cells, cellOwner := owner }
        | (true, s) =>
          let s := (s.setReg (rewB + 0x74) (BitVec.ofNat 32 (satur 32 d'.sent))).setFld (rewB + 0x70) 0 17 (d.segs.headD 0)
          { s with rew := { s.rew with drain := some d', endSent := isEnd } }

/-- DRAIN_COMPLETE: the END frame has been sent; DONE, EVENT notice 3, back to FROZEN (R251, R253). -/
def State.drainComplete (s : State) : State :=
  match s.rew.drain with
  | some d =>
    if s.rew.endSent then
      let s : State := { s with rew := { s.rew with drain := none, endSent := false } }
      let s := s.setRewState 3
      if d.aborted then s else (s.latch (rewB + 4) 3).eventNotice 3
    else s
  | none => s

/-- LOW of R255: at or above HIGH it acts as HIGH − 1. -/
def State.drainLow (s : State) : Nat :=
  let h := s.fld (rewB + 0x58) 0 16
  let l := s.fld (rewB + 0x58) 16 16
  if h ≤ l then h - 1 else l

/-- DRAIN_PACE_CONTINUE (R255). -/
def State.drainContinue (s : State) : State :=
  let q := s.fld (rewB + 0x40) 0 6
  let c := s.fld (rewB + 0x40) 6 3
  match s.rew.drain with
  | some d => if d.pausedAt.isSome ∧ s.fld (egrPR q 4) 0 1 = 1 ∧ s.fld (egrQR q c 0x10) 0 19 ≤ s.drainLow then
      { s.setBit (rewB + 0x70) 17 false with rew := { s.rew with drain := some { d with pausedAt := none } } } else s
  | none => s

/-- DRAIN_STALL: once per pause longer than STALL_MS (R255). -/
def State.drainStall (s : State) : State :=
  let ms := s.fld (rewB + 0x5C) 0 16
  match s.rew.drain with
  | some d => match d.pausedAt with
    | some t => if ms ≠ 0 ∧ !d.stallRaised then
        let s := (s.advance (t + ms * msU)).raise Src.rewindDrainStall
        { s with rew := { s.rew with drain := some { d with stallRaised := true } } } else s
    | none => s
  | none => s

end Sys2Proof.Machine
end

