-- ==== Sys2Proof/Machine/PathStop.lean ====
section
/-!
DEFINITION. Machine/PathStop.lean: the packet path stops: coaches in flight are discarded with their copies and cells (R22, R36).
-/
namespace Sys2Proof.Machine

/-- A sparse table with every listed value changed. -/
def amap {β : Type} [DecidableEq β] (d : Nat → β) (f : β → β) (m : Map β) : Map β :=
  (m.map (fun e => (e.1, f e.2))).filter (fun e => decide (e.2 ≠ d e.1))

/-- Cells held for frames go back to pool P0 (R239, R240). -/
def State.freePortCells (s : State) : State :=
  let l := s.pool.held.filterMap (fun e => match e.2 with
    | some h => if e.1 < 2 ^ 20 ∧ 0xE00 ≤ h.owner ∧ h.owner ≤ 0xE21 then some (e.1, h) else none
    | none => none)
  let s := l.foldl (fun s e => s.release 0 e.1 e.2) s
  { s with pool := { s.pool with heldRes := 0 } }

/-- Frames of the module still in a queue are discarded. -/
def State.dropModuleFrames (s : State) : State :=
  s.egr.queues.foldl (fun s e => e.2.foldl (fun s cp => if cp.coach.isNone then s.freeCopyCells cp else s) s) s

/-- The packet path stops: STN_TT_STATUS.PATH_RUN := 0; stations, channels and queues are empty. -/
def State.pathStop (s : State) : State :=
  if !s.bit (stnB + 4) 1 then s
  else
    let s := (s.setBit (stnB + 4) 1 false).dropModuleFrames.freePortCells
    let s : State := { s with coaches := [], stns := amap (fun _ => {}) (fun x => { x with order := [], mig := none }) s.stns }
    let s : State := { s with egr := { s.egr with queues := [], ports := amap (fun _ => {}) (fun x => { x with sending := none, preempted := none }) s.egr.ports } }
    let s : State := { s with cpu := { s.cpu with threads := [], links := [], results := [], ch14 := [], deferred := [], reqs := [], crys := [], stood := [] } }
    let s : State := { s with cls := { s.cls with rx := [], raws := [], lensHeld := 0, learn := [] } }
    let s : State := { s with rew := { s.rew with pending := [] }, path := { s.path with degraded := false, degradePending := false } }
    { s with flt := { s.flt with downSince := some s.now } }

/-- The effect of load code 13 on a running path (R22, R24): stopped, with PLACEMENT_DEGRADED. -/
def State.pathFail (s : State) : State := ((s.pathStop.setFld bootB 0 4 9).setCause Src.placementDegraded true).raise Src.placementDegraded

end Sys2Proof.Machine
end

