-- ==== Sys2Proof/Machine/Words.lean ====
section
/-!
DEFINITION. Machine/Words.lean: instruction words: their layouts, and which words are legal on each kind of core (R114–R116, R129, R136,
R141).
-/
namespace Sys2Proof.Machine

/-! ### Words (Tables 5.1, 5.2, 5.3, 5.5, 5.8, 5.10, 5.13) -/

def encA (op rd ra rb fn : Nat) : Nat := op * 2 ^ 26 + rd * 2 ^ 21 + ra * 2 ^ 16 + rb * 2 ^ 11 + fn
def encI (op rd ra imm : Nat) : Nat := op * 2 ^ 26 + rd * 2 ^ 21 + ra * 2 ^ 16 + imm
def encJ (off : Nat) : Nat := 0x27 * 2 ^ 26 + off
def encC (op rd ch last : Nat) : Nat := op * 2 ^ 26 + rd * 2 ^ 21 + ch * 2 ^ 17 + last * 2 ^ 16
def encX (xs unit ra rb fn : Nat) : Nat := 0x38 * 2 ^ 26 + xs * 2 ^ 23 + unit * 2 ^ 21 + ra * 2 ^ 16 + rb * 2 ^ 11 + fn
def encG (rd xs word : Nat) : Nat := 0x39 * 2 ^ 26 + rd * 2 ^ 21 + xs * 2 ^ 18 + word * 2 ^ 16
def encQ (eng port ra rb : Nat) : Nat := 0x3A * 2 ^ 26 + eng * 2 ^ 23 + port * 2 ^ 21 + ra * 2 ^ 16 + rb * 2 ^ 11
def encV (rd ra k t fn : Nat) : Nat := 0x3D * 2 ^ 26 + rd * 2 ^ 21 + ra * 2 ^ 16 + k * 2 ^ 11 + t * 2 ^ 8 + fn
def encP (rd ra sr fn : Nat) : Nat := 0x3E * 2 ^ 26 + rd * 2 ^ 21 + ra * 2 ^ 16 + sr * 2 ^ 8 + fn

/-! ### Legal words (R114) -/

/-- The listed function codes of the ALU group; those of one operand have rb = 0 (Table 5.3). -/
def aluLegal (fn rb : Nat) : Bool :=
  decide (fn ≤ 0x0E) || (decide (0x10 ≤ fn) && decide (fn ≤ 0x12)) || ([0x18, 0x19, 0x1A, 0x1C, 0x1D, 0x1E].contains fn && rb == 0)

/-- The members of the jump group with their unused fields 0 (Table 5.13). -/
def jumpLegal (fn rd ra rb : Nat) : Bool := rb == 0 && (match fn with
  | 0 => rd == 0
  | 1 => rd == 0
  | 2 => rd == 0 && ra == 0
  | 3 => ra == 0
  | 4 => rd == 0
  | _ => false)

/-- A word of the instructions that both kinds of core have (Tables 5.1 to 5.3). -/
def commonLegal (w : Nat) : Bool :=
  let rd := bitsOf w 21 5
  let ra := bitsOf w 16 5
  let imm := bitsOf w 0 16
  let fits := decide (bitsOf imm 0 6 + bitsOf imm 6 6 + 1 ≤ 64)
  match bitsOf w 26 6 with
  | 0x01 => aluLegal (bitsOf w 0 11) (bitsOf w 11 5)
  | 0x02 => true | 0x03 => true | 0x04 => true | 0x05 => true | 0x07 => true | 0x08 => true
  | 0x06 => bitsOf imm 8 8 == 0 && bitsOf imm 6 2 != 3
  | 0x09 => ra == 0
  | 0x0A => bitsOf ra 2 3 == 0
  | 0x0B => bitsOf imm 13 3 == 0 && fits
  | 0x0C => bitsOf imm 12 4 == 0 && fits
  | 0x10 => true | 0x11 => true | 0x12 => true | 0x13 => true | 0x14 => true | 0x15 => true | 0x16 => true
  | 0x18 => true | 0x19 => true | 0x1A => true | 0x1B => true
  | 0x20 => true | 0x21 => true | 0x22 => true | 0x23 => true | 0x24 => true | 0x25 => true
  | 0x26 => ra == 0 && rd != 0
  | 0x27 => true
  | 0x28 => jumpLegal (bitsOf w 0 11) rd ra (bitsOf w 11 5)
  | 0x3B => bitsOf w 0 26 == 0
  | 0x3C => rd == 0 && ra == 0
  | _ => false

/-- The supervisor group: a thread below 7, and unused fields 0 (R136, Table 5.8). -/
def superLegal (w : Nat) : Bool :=
  let rd := bitsOf w 21 5
  let ra := bitsOf w 16 5
  let k := bitsOf w 11 5
  bitsOf w 8 3 != 7 && (match bitsOf w 0 8 with
    | 0 => k == 0
    | 1 => ra == 0 && k == 0
    | 2 => ra == 0
    | 3 => rd == 0
    | 4 => ra == 0 && k == 0
    | _ => false)

/-- The listed functions of TAU, HSH and CRY (Tables 6.3 to 6.5); t7 has no CRY (R152). -/
def xopLegal (sup : Bool) (w : Nat) : Bool := match bitsOf w 21 2 with
  | 0 => decide (bitsOf w 0 11 ≤ 4)
  | 1 => decide (bitsOf w 0 11 ≤ 3)
  | 2 => !sup && decide (bitsOf w 0 11 ≤ 4)
  | _ => false

/-- A word is legal in a packet-core thread; `sup` tells t7, which alone has the supervisor group and CHFLUSH and which has no FORK, JOIN,
    QUIT or SRQ (Tables 5.2 and 5.5, R129, R152). -/
def pktLegal (sup : Bool) (w : Nat) : Bool := match bitsOf w 26 6 with
  | 0x30 => bitsOf w 0 17 == 0
  | 0x31 => bitsOf w 0 16 == 0
  | 0x32 => bitsOf w 0 17 == 0
  | 0x33 => sup && bitsOf w 21 5 == 0 && bitsOf w 0 17 == 0
  | 0x34 => !sup && bitsOf w 0 11 == 0
  | 0x35 => !sup && bitsOf w 0 16 == 0
  | 0x36 => !sup && bitsOf w 0 26 == 0
  | 0x38 => xopLegal sup w
  | 0x39 => bitsOf w 0 16 == 0
  | 0x3A => !sup && decide (bitsOf w 23 3 ≤ 4) && bitsOf w 0 11 == 0
  | 0x3D => sup && superLegal w
  | _ => commonLegal w

/-- The privileged group with its unused fields 0 and a listed system register (R141, Tables 5.10 and 5.11). -/
def privLegal (w : Nat) : Bool :=
  let rd := bitsOf w 21 5
  let ra := bitsOf w 16 5
  let sr := bitsOf w 8 8
  match bitsOf w 0 8 with
  | 0 => rd == 0 && ra == 0 && sr == 0
  | 1 => ra == 0 && decide (sr ≤ 0xC)
  | 2 => rd == 0 && decide (sr ≤ 0xC)
  | 3 => rd == 0 && ra == 0 && sr == 0
  | 4 => rd == 0 && sr == 0
  | 5 => rd == 0 && ra == 0 && sr == 0
  | 6 => rd == 0 && sr == 0
  | 7 => rd == 0 && sr == 0
  | 8 => rd == 0 && sr == 0
  | _ => false

/-- A word is legal on a control core. -/
def ctlLegal (w : Nat) : Bool := if bitsOf w 26 6 = 0x3E then privLegal w else commonLegal w

end Sys2Proof.Machine
end

