-- ==== Sys2Proof/Machine/Threads.lean ====
section
/-!
DEFINITION. Machine/Threads.lean: packet-core threads: registers, channels, traps and their items, returns to the leg entry, the
budget monitor, and what every issued instruction does around its own effect (R113, R124–R135, R28–R31, R151–R154).
-/
namespace Sys2Proof.Machine

/-- Owner id of thread t of physical core k of station n (R296). -/
def threadId (n k t : Nat) : Nat := n * 80 + k * 8 + t
/-- Station, core and number of a thread. -/
def stnOf (i : Nat) : Nat := i / 80
def coreOf (i : Nat) : Nat := i / 8
def thrOf (i : Nat) : Nat := i % 8

def State.thread (s : State) (i : Nat) : Thread := aget (fun _ => {}) s.cpu.threads i

def State.setThread (s : State) (i : Nat) (x : Thread) : State :=
  { s with cpu := { s.cpu with threads := aset (fun _ => {}) s.cpu.threads i x } }

def State.modThread (s : State) (i : Nat) (f : Thread → Thread) : State := s.setThread i (f (s.thread i))

def State.core (s : State) (c : Nat) : CoreSt := aget (fun _ => {}) s.cores c

def State.setCore (s : State) (c : Nat) (x : CoreSt) : State := { s with cores := aset (fun _ => {}) s.cores c x }

/-- A core runs its threads while it is in service, or leaving it (R25). -/
def State.coreRuns (s : State) (c : Nat) : Bool := match (s.core c).role with
  | .service _ => true
  | .leaving _ => true
  | _ => false

/-- The dispatch slot of a core (R159). -/
def State.coreSlot (s : State) (c : Nat) : Nat := match (s.core c).role with
  | .service k => k
  | .leaving k => k
  | _ => 0

/-- w[r] of a thread: w0 reads 0 (R113). -/
def Thread.get (x : Thread) (r : Nat) : DWord := if r = 0 then 0 else aget (fun _ => 0) x.regs r

/-- set(r, v): w0 discards it. -/
def Thread.put (x : Thread) (r : Nat) (v : DWord) : Thread :=
  if r = 0 then x else { x with regs := aset (fun _ => 0) x.regs r v }

def State.ttStn (s : State) (n : Nat) : TtStation := s.image.tt.stations.getD n {}

/-- The half of instruction scratch whose legs a coach runs that entered its station at `t` (R35). -/
def State.legHalfAt (s : State) (t : Nat) : Nat := if t < s.path.legFrom then 1 - s.path.legHalf else s.path.legHalf

/-- The leg entry of a half of instruction scratch (R148; log entry 14). -/
def State.legEntry (s : State) (n half : Nat) : Nat :=
  half * 0x8000 + (if half = s.path.legHalf then (s.ttStn n).legEntry else s.path.legOld.getD n 0)

/-- STN_DISPn.NDISP: threads t0 to t(NDISP − 1) are dispatch threads (R148). -/
def State.isDispatch (s : State) (i : Nat) : Bool := thrOf i < s.fld (stn2R (stnOf i) 0) 0 3

/-! ### Channels (R153, R154) -/

/-- Whole items waiting: last-marked words not yet read. -/
def Chan.items (c : Chan) : Nat := (c.words.filter (·.2)).length
/-- Items of which a word has been written and whose last-marked word has not been read; a flushed item is none (R154, R157). -/
def Chan.depth (c : Chan) : Nat := c.items + (if c.open_ = 0 ∨ c.cut then 0 else 1)

/-- A word is written: an open item cut off by a flush swallows it (R157). -/
def Chan.push (c : Chan) (v : DWord) (last : Bool) : Chan :=
  let n := if last then 0 else c.open_ + 1
  if c.cut then { c with cut := !last, open_ := n } else { c with words := c.words ++ [(v, last)], open_ := n }

/-- `n` more words were written in CORE cycle `cyc`. -/
def Chan.stamp (c : Chan) (cyc n : Nat) : Chan := { c with fresh := (cyc, (if c.fresh.1 = cyc then c.fresh.2 else 0) + n) }

/-- A word is written in CORE cycle `cyc`; in the cycle of a flush it goes with the flushed items (R154, R157). How many items that
    cuts off. -/
def Chan.write (c : Chan) (cyc : Nat) (v : DWord) (last : Bool) : Nat × Chan :=
  if c.flushed = some cyc ∧ c.cut = false then (if last then 0 else 1, { c with cut := !last, open_ := if last then 0 else 1 })
  else if c.cut then (0, c.push v last)
  else (0, (c.push v last).stamp cyc 1)

/-- A whole item is written. -/
def Chan.pushItem (c : Chan) : List DWord → Chan
  | [] => c
  | [v] => c.push v true
  | v :: t => (c.push v false).pushItem t

/-- A word is readable in CORE cycle `cyc`: one written before it (R154). -/
def Chan.readable (c : Chan) (cyc : Nat) : Bool := (if c.fresh.1 = cyc then c.fresh.2 else 0) < c.words.length

/-- The word at the head is read. -/
def Chan.pop (c : Chan) : Option (DWord × Bool × Chan) := match c.words with
  | [] => none
  | (v, l) :: t => some (v, l, { c with words := t, begun := !l })

/-- A CHRD in CORE cycle `cyc` (R154, Table 6.2). -/
def Chan.read (c : Chan) (cyc : Nat) : Option (DWord × Chan) :=
  if !c.readable cyc then none
  else c.pop.map (fun (v, l, d) => (v, if l ∧ 4 ≤ c.depth then { d with full := some cyc } else d))

/-- A flush: every item goes; an open item is cut off (R157). How many items are cut off at either end. -/
def Chan.flush (c : Chan) (cyc : Nat) : Nat × Chan :=
  let openCut := decide (c.open_ ≠ 0) && !c.cut
  let torn := (if openCut then 1 else 0) + (if c.begun ∧ (!openCut ∨ 0 < c.items) then 1 else 0)
  (torn, { words := [], open_ := c.open_, cut := c.cut || openCut, begun := false, flushed := some cyc })

def State.link (s : State) (i : Nat) : Chan := aget (fun _ => {}) s.cpu.links i
def State.setLink (s : State) (i : Nat) (c : Chan) : State :=
  { s with cpu := { s.cpu with links := aset (fun _ => {}) s.cpu.links i c } }
def State.result (s : State) (i : Nat) : Chan := aget (fun _ => {}) s.cpu.results i
def State.setResult (s : State) (i : Nat) (c : Chan) : State :=
  { s with cpu := { s.cpu with results := aset (fun _ => {}) s.cpu.results i c } }
def State.ch14 (s : State) (c : Nat) : Chan := aget (fun _ => {}) s.cpu.ch14 c
def State.setCh14 (s : State) (c : Nat) (x : Chan) : State :=
  { s with cpu := { s.cpu with ch14 := aset (fun _ => {}) s.cpu.ch14 c x } }
def State.deferred (s : State) (c : Nat) : List (List DWord) := aget (fun _ => []) s.cpu.deferred c
def State.setDeferred (s : State) (c : Nat) (l : List (List DWord)) : State :=
  { s with cpu := { s.cpu with deferred := aset (fun _ => []) s.cpu.deferred c l } }

/-- How a port reaches a link channel (R153): none where it does not, else whether the thread is its producer. -/
def State.linkRole (s : State) (i k : Nat) : Option Bool :=
  let a := stn2R (stnOf i) (if k < 4 then 8 else 0xC)
  let j := k % 4
  let prod := s.fld a (8 * j) 3
  let cons := s.fld a (8 * j + 3) 3
  if s.bit a (8 * j + 6) ∧ prod ≠ cons ∧ prod ≠ 7 ∧ cons ≠ 7 then
    (if prod = thrOf i then some true else if cons = thrOf i then some false else none)
  else none

/-! ### Traps and notices (R132–R135) -/

/-- An item for ch14 of core c: sent while the channel has room and none waits before it, else deferred (R134). -/
def State.sendItem (s : State) (c : Nat) (item : List DWord) : State :=
  if (s.deferred c).isEmpty ∧ (s.ch14 c).depth < 4 then s.setCh14 c (((s.ch14 c).pushItem item).stamp s.coreNow item.length)
  else s.setDeferred c (s.deferred c ++ [item])

/-- The three words of an item (R134). -/
def trapItem (code thr : Nat) (async : Bool) (pc value : Nat) : List DWord :=
  [BitVec.ofNat 64 (code + thr * 256 + (if async then 2048 else 0)), BitVec.ofNat 64 pc, BitVec.ofNat 64 value]

/-- A notice (codes 9 to 11) for the supervisor of thread i's core. -/
def State.notify (s : State) (i code value : Nat) : State := s.sendItem (coreOf i) (trapItem code (thrOf i) false 0 value)

/-- Every load the thread has issued delivers (R126); one that met an uncorrectable word traps at the next instruction (R133). -/
def Thread.closeLoads (x : Thread) : Thread :=
  x.loads.foldl (fun x l => if l.bad.isSome then x else x.put l.dest l.value)
    { x with loads := (x.loads.filter (·.bad.isSome)).map (fun l => { l with left := 1 }) }

/-! ### Return to the leg entry (R31, R150, R151) -/

/-- The results of a thread's searches and operations are discarded when they arrive (R31). -/
def State.discardPending (s : State) (i : Nat) : State :=
  let s := { s with cpu := { s.cpu with reqs := s.cpu.reqs.map (fun (q : Srq) => if q.thread = i then { q with discarded := true } else q) } }
  s.modThread i (fun x => { x with xs := x.xs.map (fun (e : Nat × XsSt) => (e.1, { e.2 with op := e.2.op.map (fun (o : XOp) => { o with discarded := true }) })) })

def State.cry (s : State) (n : Nat) : Cry := aget (fun _ => {}) s.cpu.crys n

/-- STN_CRYn shows the lock of station n (Table 6.10). -/
def State.setCry (s : State) (n : Nat) (c : Cry) : State :=
  let s := { s with cpu := { s.cpu with crys := aset (fun _ => {}) s.cpu.crys n c } }
  let a := stn2R n 0x14
  (((s.setFld a 0 12 (c.holder.getD 0)).setBit a 12 c.holder.isSome).setFld a 16 6 c.queue.length).setBit a 22 c.resident.isSome

/-- CRY operations of a thread in flight, ACQ and REL aside. -/
def State.cryFlying (s : State) (i : Nat) : Bool :=
  (s.thread i).xs.any (fun e => match e.2.op with
    | some o => o.unit == 2 && (o.fn == 2 || o.fn == 3 || o.fn == 4)
    | none => false)

/-- A holder that has released loses the lock once none of its operations is in flight (R165). -/
def State.settleCry (s : State) (n : Nat) : State :=
  let c := s.cry n
  match c.holder with
  | some h => if c.releasing && !s.cryFlying h then
      s.setCry n { c with holder := none, releasing := false, freedAt := some s.coreNow, took := none } else s
  | none => s

/-- A thread gives up the CRY lock if it holds it (R165). -/
def State.releaseCry (s : State) (i : Nat) : State :=
  let c := s.cry (stnOf i)
  if c.holder = some i then (s.setCry (stnOf i) { c with releasing := true }).settleCry (stnOf i) else s

/-- A thread returned to the leg entry gives up the CRY lock, or leaves its queue: the request it waited for is gone (R31, R165). -/
def State.leaveCry (s : State) (i : Nat) : State :=
  let c := s.cry (stnOf i)
  let mine := c.queue.filter (fun w => w.1 = i)
  let s := if mine.isEmpty then s else
    (s.setCry (stnOf i) { c with queue := c.queue.filter (fun w => w.1 ≠ i) }).modThread i (fun x =>
      { x with xs := mine.foldl (fun m w => aset (fun _ => {}) m w.2.1 { aget (fun _ => {}) m w.2.1 with op := none }) x.xs })
  s.releaseCry i

/-- Thread i returns to the leg entry, from where it runs on; a helper becomes free (R31, R151). -/
def State.returnThread (s : State) (i : Nat) : State :=
  let s := (s.discardPending i).leaveCry i
  let entry := s.legEntry (stnOf i) s.path.legHalf
  let helper := !s.isDispatch i
  s.modThread i (fun x =>
    let x := x.closeLoads
    { x with pc := BitVec.ofNat 16 entry, run := if helper then .free else .ready, binding := none,
             ch1 := 0, gen := (x.gen + 1) % 256, parent := none })

/-- The helpers forked on behalf of coach q in the core of thread i (R151). -/
def State.helpersOf (s : State) (i q : Nat) : List Nat :=
  ((List.range 7).map (fun t => coreOf i * 8 + t)).filter (fun j => j ≠ i && !s.isDispatch j && (s.thread j).binding == some q
    && (s.thread j).run != .free)

/-- A joiner whose helper has been returned completes with all ones (R150). -/
def State.releaseJoiners (s : State) (i : Nat) : State :=
  let p := (List.range 7).map (fun t => coreOf i * 8 + t)
  p.foldl (fun s j => match (s.thread j).run with
    | .waiting (.join rd t) => if coreOf i * 8 + t = i then
        s.modThread j (fun x => { x.put rd (BitVec.allOnes 64) with run := .ready, pc := x.pc + 4 }) else s
    | _ => s) s

/-- The serving thread of coach q and every thread it forked return to the leg entry; `late` sends the LATE notice of R31, which
    names the serving thread alone (R30, R31, R151). -/
def State.returnServer (s : State) (i q : Nat) (late : Bool) : State :=
  let l := i :: s.helpersOf i q
  let s := l.foldl (fun s j => (s.returnThread j).releaseJoiners j) s
  if late then s.notify i 11 q else s

/-- The coach of a serving thread is complete: the bindings end and its helpers are returned (R121, R151). -/
def State.completeCoach (s : State) (i q : Nat) : State :=
  let l := s.helpersOf i q
  let s := s.modCoach q (fun c => { c with complete := true, completeAt := s.coreNow })
  let s := l.foldl (fun s j => (s.returnThread j).releaseJoiners j) s
  (s.releaseCry i).modThread i (fun x => { x with binding := none })

/-! ### Cores out of service (R24, R25, R375) -/

def CoreRole.serves : CoreRole → Bool
  | .service _ => true
  | _ => false

def State.roleOf (s : State) (c : Nat) : CoreRole := (s.core c).role

/-- Physical core c takes a role. -/
def State.setRole (s : State) (c : Nat) (r : CoreRole) : State := s.setCore c { s.core c with role := r }

def stnCores (n : Nat) : List Nat := (List.range 10).map (fun k => n * 10 + k)

/-- Cores of station n in its dispatch set. -/
def State.inService (s : State) (n : Nat) : Nat := ((stnCores n).filter (fun c => (s.roleOf c).serves)).length

def State.migOf (s : State) (n : Nat) : Option Migration := (aget (fun _ => {}) s.stns n : StnSt).mig

def State.setMig (s : State) (n : Nat) (m : Option Migration) : State :=
  let x : StnSt := aget (fun _ => {}) s.stns n
  { s with stns := aset (fun _ => {}) s.stns n { x with mig := m } }

/-- STN_CORESn (Table 1.20). -/
def State.showCores (s : State) (n : Nat) : State :=
  let a := stnR n 0x18
  let k := s.inService n
  let mig := (s.migOf n).isSome
  let s := (s.setFld a 0 4 k).setBit a 4 ((stnCores n).any (fun c => decide (s.roleOf c = CoreRole.rotation)))
  let s := (s.setBit a 5 (k != 0 && k ≤ 8)).setBit a 6 mig
  s.setFld a 8 4 ((stnCores n).filter (fun c => (s.unit (unitId 2 c)).state == 6)).length

/-- STNn_FAULT with the context of Table 16.2. -/
def State.stnRaise (s : State) (c cause code pc : Nat) : State :=
  let slot := if s.roleOf c = .rotation ∨ s.roleOf c = .testing then 15 else s.coreSlot c
  s.raiseU (Src.stnFault (c / 10)) [cause + c * 16 + slot * 4096, code, pc] (unitId 2 c)

/-- The station is left with k cores and no core to come (R24). -/
def State.degradeStn (s : State) (n : Nat) : State :=
  let k := s.inService n
  if 8 < k then s
  else if k = 8 then
    let s := (s.setCause Src.placementDegraded true).raiseU Src.placementDegraded [] (unitId 1 n)
    let s := s.unitState (unitId 1 n) 7
    if s.fld (stnR n 0) 12 12 < s.fld (stnR n 4) 16 12 then { s with path := { s.path with degradePending := true } } else s
  else s.pathFail

/-- A slot of station n has lost its core c: the rotation core is prepared for it, when there is one (R375). A core already on its way
    into the slot of another lost core stays there: the station then runs on 8 cores from that core's boundary on (R24). -/
def State.loseCore (s : State) (n c slot : Nat) : State :=
  match s.migOf n with
  | some m =>
    if m.leaveAt.isSome then (s.raise Src.spareLow).degradeStn n
    else if m.outgoing = c then (s.setMig n (some { m with retire := true })).raise Src.spareLow
    else if (s.roleOf m.outgoing).serves then
      ((s.unitState (unitId 2 m.outgoing) 0).setMig n (some { m with outgoing := c, slot := slot, retire := true })).raise Src.spareLow
    else
      let s := s.raise Src.spareLow
      if s.inService n + 1 < 8 then s.pathFail else s
  | none =>
    match (stnCores n).find? (fun r => decide (s.roleOf r = CoreRole.rotation) || (decide (s.roleOf r = CoreRole.testing) && (s.core r).testPassed)) with
    | some r =>
      let s := (s.setRole r .preparing).unitState (unitId 2 r) 3
      (s.setMig n (some { incoming := r, outgoing := c, slot := slot, retire := true })).raise Src.spareLow
    | none => (s.raise Src.spareLow).degradeStn n

/-- Coaches that a core of station n holds take UNIT_ABSENT (R375). -/
def State.dropServed (s : State) (n k : Nat) : State :=
  s.coaches.foldl (fun s e => match e.2 with
    | some c => if c.loc = .station n ∧ (c.server.map (·.1)) = some k ∧ !c.complete then s.dropCoach e.1 12 3 else s
    | none => s) s

/-- Core c is contained and retired (R375). -/
def State.containCore (s : State) (c : Nat) : State :=
  let n := c / 10
  let r := s.roleOf c
  if r = .retired then s
  else
    let s := s.dropServed n (c % 10)
    let s := (List.range 8).foldl (fun s t => s.leaveCry (c * 8 + t)) s
    let s := (s.setRole c .retired).retirePart (unitId 2 c) (Src.stnFault n)
    let s := match r with
      | .service k => s.loseCore n c k
      | .leaving _ => s.setMig n none
      | .preparing => s.setMig n none
      | _ => if (stnCores n).any (fun x => decide (s.roleOf x = CoreRole.rotation)) then s else s.raise Src.spareLow
    s.showCores n

/-- A trap of thread i (R132, R133): it parks and the supervisor receives an item; in t7 the core has failed (R135). -/
def State.trapThread (s : State) (i code : Nat) (async : Bool) (value : Nat) : State :=
  if thrOf i = 7 then (s.stnRaise (coreOf i) 1 code (s.thread i).pc.toNat).containCore (coreOf i)
  else
    let x := (s.thread i).closeLoads
    (s.setThread i { x with run := .parked }).sendItem (coreOf i) (trapItem code (thrOf i) async x.pc.toNat value)

/-! ### The budget monitor (R28, R29) -/

def State.wOf (s : State) (n : Nat) : Nat := s.fld (stnR n 4) 16 12
def State.budget (s : State) (n : Nat) : Nat := s.fld (stnR n 0) 0 12

/-- One instruction is counted for coach q in station n (R28, R29); a CLEAR of STN_PEAKn in the same cycle loses the update of the peak
    (Table 1.17). -/
def State.countIssue (s : State) (n q : Nat) : State :=
  match s.coach q with
  | none => s
  | some c =>
    let k := c.issued + 1
    let past := decide (s.wOf n < k) && !c.overW
    let s := s.setCoach q { c with issued := k, overW := c.overW || past }
    let lost := (aget (fun _ => {}) s.stns n : StnSt).cleared == some s.coreNow
    let s := if s.fld (stnR n 0xC) 0 12 < k ∧ !lost then s.setFld (stnR n 0xC) 0 12 (satur 12 k) else s
    if past then (s.count (stnR n 0x10) 0 32).raise (Src.stnBudget n) else s

/-- The hard action before the (B + 1)th instruction (R29): whether the instruction issues. Under STOP with W_n = B the instruction
    that would pass both points does not issue, so the count never exceeds W_n and STN_OVERn does not count the coach (log entry 182). -/
def State.hardAction (s : State) (i q : Nat) : Bool × State :=
  match s.coach q with
  | none => (true, s)
  | some c =>
    let n := stnOf i
    if c.issued ≠ s.budget n ∨ c.overB then (true, s)
    else
      let s := s.setCoach q { c with overB := true }
      match s.fld (stnR n 8) 0 2 with
      | 1 => (true, s.notify i 9 q)
      | 2 =>
        let srv := match c.server with
          | some (k, t) => threadId n k t
          | none => i
        (false, (s.dropCoach q 8 2).returnServer srv q true)
      | _ => (true, s)

/-- An issue of a thread other than t7 ends the core's standstill (R404). -/
def State.noteIssue (s : State) (i : Nat) : State :=
  if thrOf i = 7 then s else
    { s with cpu := { s.cpu with lastIssue := aset (fun _ => 0) s.cpu.lastIssue (coreOf i) s.coreNow,
                                 stood := aset (fun _ => false) s.cpu.stood (coreOf i) false } }

/-- The coach an instruction of thread i counts for; t7 counts for none (R28). -/
def State.chargedTo (s : State) (i : Nat) : Option Nat := if thrOf i = 7 then none else (s.thread i).binding

/-- The monitor's part in an issue of thread i: whether the instruction issues, and the state with it counted. -/
def State.monitor (s : State) (i : Nat) : Bool × State :=
  match s.chargedTo i with
  | none => (true, s.noteIssue i)
  | some q =>
    match (s.noteIssue i).hardAction i q with
    | (true, s) => (true, s.countIssue (stnOf i) q)
    | (false, s) => (false, s)

/-! ### Load windows (R124–R126) -/

/-- The loads due at this position deliver, oldest first; an uncorrectable one is reported (R124, R125, R133). -/
def Thread.deliver (x : Thread) : Thread × Option Nat :=
  let l := x.loads.map (fun w => { w with left := w.left - 1 })
  let due := l.filter (fun w => w.left == 0)
  let x := { x with loads := l.filter (fun w => w.left != 0) }
  (due.foldl (fun x w => if w.bad.isSome then x else x.put w.dest w.value) x, due.findSome? (·.bad))

/-! ### Issue -/

/-- What an instruction does once it has issued. -/
inductive Eff where
  /-- It completes and the next pc is pc + 4. -/
  | next (s : State)
  /-- It completes with this pc. -/
  | goto (s : State) (pc : Nat)
  /-- The effect has set the thread's own pc and standing. -/
  | done (s : State)
  /-- It waits in place. -/
  | wait (s : State) (w : Wait)
  /-- A synchronous trap: no effect. -/
  | trap (code value : Nat)
  /-- A synchronous trap that leaves what it reports behind: a source raised, MMU_ERR. -/
  | trapIn (s : State) (code value : Nat)

/-- Thread i completes its instruction at pc + 4. -/
def State.stepPc (s : State) (i : Nat) : State := s.modThread i (fun x => { x with pc := x.pc + 4 })

/-- The effect of an issued instruction on thread i: every trap leaves the state as `s0`, apart from the count of R131. -/
def State.settle (s0 : State) (i : Nat) : Eff → State
  | .next s => s.stepPc i
  | .goto s pc => s.modThread i (fun x => { x with pc := BitVec.ofNat 16 pc })
  | .done s => s
  | .wait s w => s.modThread i (fun x => { x with run := .waiting w })
  | .trap code value => s0.trapThread i code false value
  | .trapIn s code value => s.trapThread i code false value

/-- The address of the instruction at `pc` in the instruction scratch of thread i (Table 15.8). -/
def codeAddr (i pc : Nat) : Nat := 0x10800000 + stnOf i * 0x1000000 + coreOf i % 10 * 0x40000 + pc

/-- The word thread i fetches, little-endian (R114). -/
def State.codeWord (s : State) (i : Nat) : Nat := s.num (codeAddr i (s.thread i).pc.toNat) 4

/-- An instruction of packet-core thread i issues (R28–R31, R114, R124, R128, R131, R404). `word` is the instruction's own word: where
    another legal word stands at pc the command is not what the thread runs and nothing happens, and an illegal one traps (log entry
    203). `legal` is R114 for `word`; `falls` tells whether it goes on at pc + 4; `body` is its effect, traps of ranks 3 to 8 included. -/
def State.issuePkt (s : State) (i : Nat) (word : Nat) (legal : Bool) (falls : State → Bool) (body : State → Eff) : State :=
  if !(s.coreRuns (coreOf i) && (s.thread i).run == .ready) then s
  else
    let (x, bad) := (s.thread i).deliver
    let s1 := s.setThread i x
    match bad with
    | some a => (s1.raise (if a % 0x1000000 < 0x800000 then Src.stnMemEcc else Src.scratchEcc)).trapThread i 7 true a
    | none =>
      match s1.monitor i with
      | (false, s2) => s2
      | (true, s2) =>
        let fetch := codeAddr i x.pc.toNat
        let stored := s2.num fetch 4
        if aget (fun _ => false) s2.cpu.upsets (fetch / 8) then (s2.raise Src.scratchEcc).trapThread i 7 false fetch
        else if stored ≠ word then (if pktLegal (thrOf i == 7) stored then s else s2.trapThread i 0 false stored)
        else if !legal then s2.trapThread i 0 false word
        else if x.pc.toNat = 0xFFFC ∧ falls s2 then s2.trapThread i 2 false 0x10000
        else s2.settle i (body s2)

end Sys2Proof.Machine
end

