-- ==== Sys2Proof/Machine/MemMap.lean ====
section
/-!
DEFINITION. Machine/MemMap.lean: the physical address map (R354), the presented DRAM region (R259, R260) and the coherent bytes of
cacheable memory (R277–R280).
-/
namespace Sys2Proof.Machine

/-- A range of Table 15.8. -/
inductive Region where
  | yard | stnMem | code | data | sram | rom | table | ctl | dram | lockWord | none
  deriving DecidableEq, Repr

/-- The end of the presented DRAM region (R259). -/
def State.dramEnd (s : State) : Nat := if s.bit (smcB + 4) 9 then 0x1E88000000 else 0x1F80000000

/-- The range an address without bit 39 lies in. -/
def State.region0 (s : State) (a : Nat) : Region :=
  if a < 0x06000000 then .yard
  else if 0x10000000 ≤ a ∧ a < 0x20000000 then
    let o := a % 0x1000000
    if o < 0x200000 then .stnMem
    else if 0x800000 ≤ o ∧ o < 0xA80000 then
      let w := (o - 0x800000) % 0x40000
      if w < 0x10000 then .code else if 0x20000 ≤ w then .data else .none
    else .none
  else if 0x20000000 ≤ a ∧ a < 0x20400000 then .sram
  else if 0x20800000 ≤ a ∧ a < 0x20840000 then .rom
  else if 0x30000000 ≤ a ∧ a < 0x32000000 then .table
  else if 0x40000000 ≤ a ∧ a < 0x41A00000 then .ctl
  else if 0x1000000000 ≤ a ∧ a < s.dramEnd then .dram
  else .none

/-- The leg-table region of table memory (Table 8.1). -/
def legTable (a : Nat) : Bool := 0x30C00000 ≤ a && a < 0x31000000

/-- Whether the word at `a` can serve as a lock (R297). -/
def State.lockPlace (s : State) (a : Nat) : Bool := match s.region0 a with
  | .yard => true
  | .stnMem => true
  | .sram => true
  | .dram => true
  | .table => legTable a
  | _ => false

/-- The range a 40-bit address lies in: bit 39 names a lock alias, and an alias of any other place lies outside the map (R297). -/
def State.region (s : State) (a : Nat) : Region :=
  if a < 0x8000000000 then s.region0 a
  else if a < 0x10000000000 ∧ s.lockPlace (a - 0x8000000000) then .lockWord
  else .none

/-- Cacheable memory (R277). -/
def Region.cacheable : Region → Bool
  | .sram => true
  | .rom => true
  | .dram => true
  | _ => false

/-! ### Coherence (R278–R280) -/

def State.ctlc (s : State) (c : Nat) : CtlCore := aget (fun _ => {}) s.cpu.ctls c

def State.setCtlc (s : State) (c : Nat) (x : CtlCore) : State :=
  { s with cpu := { s.cpu with ctls := aset (fun _ => {}) s.cpu.ctls c x } }

/-- The dirty data of a line in some L1 or eviction buffer. -/
def State.dirtyLine (s : State) (ln : Nat) : Option (List Byte) :=
  (List.range 4).findSome? (fun c =>
    let x := s.ctlc c
    match x.dirty.find? (fun l => l.line == ln) with
    | some l => some l.bytes
    | none => (x.evict.find? (fun l => l.line == ln && !l.taken)).map (·.bytes))

/-- A byte of the boot ROM, or of memory (R354). -/
def State.pbyte (s : State) (a : Nat) : Byte :=
  if 0x20800000 ≤ a ∧ a < 0x20840000 then Config.bootRom (a - 0x20800000) else s.byte a

/-- The byte every coherent reader sees (R278, R279). -/
def State.cbyte (s : State) (a : Nat) : Byte := match s.dirtyLine (a / 64) with
  | some l => l.getD (a % 64) 0
  | none => s.pbyte a

def State.cbytes (s : State) (a n : Nat) : List Byte := (List.range n).map (fun i => s.cbyte (a + i))

def State.cnum (s : State) (a n : Nat) : Nat := fromLE (s.cbytes a n)

/-- The L2 takes a line from whichever L1 holds it dirty, and every L1 copy goes (R279). -/
def State.recall (s : State) (ln : Nat) : State :=
  match s.dirtyLine ln with
  | none => s
  | some l =>
    let s := s.setBytes (ln * 64) l
    (List.range 4).foldl (fun s c =>
      let x := s.ctlc c
      s.setCtlc c { x with dirty := x.dirty.filter (fun d => d.line ≠ ln),
                           evict := x.evict.map (fun d => if d.line = ln then { d with taken := true } else d) }) s

/-- What a write of [a, a + n) writes whole has no error any more: 8 bytes of a memory with SEC-DED, a word of the yard, a burst of
    DRAM (R236, R261). -/
def State.heal (s : State) (a n : Nat) : State :=
  let g := if s.region0 a = .dram then 64 else 8
  let whole := fun (p g : Nat) => decide (a ≤ p / g * g) && decide (p / g * g + g ≤ a + n)
  { s with cpu := { s.cpu with upsets := s.cpu.upsets.filter (fun e => !whole (e.1 * 8) g) },
           pool := { s.pool with badWords := s.pool.badWords.filter (fun e => !whole (e.1 * 32) 32) } }

/-- Bytes stored in memory itself. -/
def State.storeBytes (s : State) (a : Nat) (l : List Byte) : State := (s.setBytes a l).heal a l.length

/-- A store by the lock unit, a DMA engine or the module to memory: L1 copies are invalidated (R279). -/
def State.writeBytes (s : State) (a : Nat) (l : List Byte) : State :=
  let s := (List.range ((l.length + 63) / 64 + 1)).foldl (fun s i => if (a / 64 + i) * 64 < a + l.length then s.recall (a / 64 + i) else s) s
  s.storeBytes a l

def State.writeNum (s : State) (a n v : Nat) : State := s.writeBytes a (bytesLE n v)

/-- An uncorrectable error in a word of memory at `a` (R133, R236, R261). -/
def State.upset (s : State) (a : Nat) : Bool :=
  aget (fun _ => false) s.cpu.upsets (a / 8) || (a < 0x06000000 && aget (fun _ => false) s.pool.badWords (a / 32))

/-- What an uncorrectable read of memory raises, by region (R261, R281, R196). -/
def State.raiseEcc (s : State) (a : Nat) : State := match s.region0 a with
  | .yard => s.noteYard (a / 32)
  | .stnMem => s.raise Src.stnMemEcc
  | .data => s.raise Src.scratchEcc
  | .code => s.raise Src.scratchEcc
  | .rom => s.raise Src.bootRomEcc
  | .dram => let (ch, p) := s.dramBurst a; s.dramUncorr ch p a
  | .table => s.raise (if a < 0x30900000 then Src.fdbEcc else if a < 0x30C00000 then Src.streamEcc
      else if a < 0x31000000 then Src.hashEcc else Src.trieEcc)
  | _ => (s.count (ctlB + 0x24) 16 16).raise Src.l2Ecc

end Sys2Proof.Machine
end

