-- ==== Sys2Proof/Machine/Ctl.lean ====
section
/-!
DEFINITION. Machine/Ctl.lean: control cores: system registers, traps and their return (R139–R143), translation (R282–R287), and the
data caches (R277–R280).
-/
namespace Sys2Proof.Machine

/-- The boot ROM entry: the first byte of the boot ROM (R143, R354; log entry 15). -/
def bootEntry : Nat := 0x20800000

/-- Reset values of the system registers of core c (Table 5.11). -/
def sysReset (c sr : Nat) : DWord := match sr with
  | 0 => 1
  | 4 => BitVec.ofNat 64 bootEntry
  | 0xA => BitVec.ofNat 64 c
  | _ => 0

/-- CTL cycles since reset (Table 5.11): CTL runs at the root PLL's rate divided by 8 (Table 17.1). -/
def ctlU : Nat := 8 * rootU

/-- A system register as MFSR reads it. -/
def State.sysReg (s : State) (c sr : Nat) : DWord :=
  if sr = 9 then BitVec.ofNat 64 (s.now / ctlU) else aget (sysReset c) (s.ctlc c).sys sr

def State.setSys (s : State) (c sr : Nat) (v : DWord) : State :=
  let x := s.ctlc c
  s.setCtlc c { x with sys := aset (sysReset c) x.sys sr v }

/-- STATUS.MODE is kernel. -/
def State.kernel (s : State) (c : Nat) : Bool := getField (s.sysReg c 0) 0 1 == 1
def State.intEnable (s : State) (c : Nat) : Bool := getField (s.sysReg c 0) 1 1 == 1
def State.trans (s : State) (c : Nat) : Bool := getField (s.sysReg c 0) 4 1 == 1

def CtlCore.get (x : CtlCore) (r : Nat) : DWord := if r = 0 then 0 else aget (fun _ => 0) x.regs r
def CtlCore.put (x : CtlCore) (r : Nat) (v : DWord) : CtlCore :=
  if r = 0 then x else { x with regs := aset (fun _ => 0) x.regs r v }
def CtlCore.pcOf (x : CtlCore) : DWord := x.pc.getD (BitVec.ofNat 64 bootEntry)
def State.modCtlc (s : State) (c : Nat) (f : CtlCore → CtlCore) : State := s.setCtlc c (f (s.ctlc c))

/-- The owner id of a control core's accesses: 0x800 + TASK[9:0] (R288). -/
def State.ctlOwner (s : State) (c : Nat) : Nat := 0x800 + getField (s.sysReg c 0xB) 0 10

/-- The control cores run from BIST on (R143, R350; log entry 16). -/
def State.ctlRuns (s : State) (c : Nat) : Bool :=
  s.fld bootB 0 4 != 0 && !s.boot.resetHeld && (c == 0 || s.fld pwrB 0 2 == 0)

/-! ### Traps (R140) -/

/-- Taking a trap; CTLn_EXC when it overwrites the state of another (R295). -/
def State.trapCtl (s : State) (c code : Nat) (async : Bool) (value : Nat) : State :=
  let st := s.sysReg c 0
  let s := if s.kernel c && !s.intEnable c then s.raise (Src.ctlExc c) else s
  let s := s.setSys c 1 (s.ctlc c).pcOf
  let s := s.setSys c 2 (BitVec.ofNat 64 (code + (if async then 2 ^ 63 else 0)))
  let s := s.setSys c 3 (BitVec.ofNat 64 value)
  let st := putField (putField st 2 1 (getField st 0 1)) 3 1 (getField st 1 1)
  let s := s.setSys c 0 (putField (putField st 0 1 1) 1 1 0)
  s.modCtlc c (fun x => { x with pc := some (s.sysReg c 4), waiting := false })

/-- ERET (R140): pc, MODE and IE return. -/
def State.eret (s : State) (c : Nat) : State :=
  let st := s.sysReg c 0
  let s := s.setSys c 0 (putField (putField st 0 1 (getField st 2 1)) 1 1 (getField st 3 1))
  s.modCtlc c (fun x => { x with pc := some (s.sysReg c 1) })

/-! ### Translation (R282–R287) -/

/-- What a walk or a translation ends in. -/
inductive Walk where
  | pa (a : Nat) (e : TlbEntry)
  | page
  | region (a lvl : Nat)
  | ecc (a lvl : Nat)
  deriving DecidableEq, Repr

/-- A page-table entry is a leaf when R, W or X is 1 (R283). -/
def pteLeaf (e : Nat) : Bool := bitsOf e 1 3 != 0

/-- A malformed entry at a level (R283). -/
def pteBad (e lvl : Nat) : Bool :=
  (pteLeaf e && lvl == 0) || (pteLeaf e && lvl == 1 && bitsOf e 12 9 != 0) || (!pteLeaf e && lvl == 2)
    || (!pteLeaf e && bitsOf e 4 4 != 0) || bitsOf e 6 2 == 3 || (bitsOf e 39 1 == 1 && bitsOf e 6 2 != 2)
    || bitsOf e 8 4 != 0 || bitsOf e 40 24 != 0

/-- One level of the walk from table `t`, then the rest (R282). -/
def State.walk (s : State) (va asid : Nat) : Nat → Nat → Nat → Walk
  | 0, _, _ => .page
  | fuel + 1, lvl, t =>
    let a := t + bitsOf va (30 - 9 * lvl) 9 * 8
    let r := s.region0 a
    if r ≠ .sram ∧ r ≠ .dram then .region a lvl
    else if s.upset a then .ecc a lvl
    else
      let e := s.cnum a 8
      if bitsOf e 0 1 = 0 ∨ pteBad e lvl then .page
      else if pteLeaf e then
        let pa := if lvl = 1 then bitsOf e 21 19 * 2 ^ 21 + bitsOf va 0 21 else bitsOf e 12 28 * 4096 + bitsOf va 0 12
        .pa pa ⟨asid, lvl, va / (if lvl = 1 then 2 ^ 21 else 4096), e⟩
      else State.walk s va asid fuel (lvl + 1) (bitsOf e 12 28 * 4096)

/-- Whether a TLB entry serves a virtual address (R286). -/
def TlbEntry.hits (e : TlbEntry) (asid va : Nat) : Bool :=
  e.vpn == va / (if e.level = 1 then 2 ^ 21 else 4096) && (e.asid == asid || bitsOf e.pte 5 1 == 1)

def TlbEntry.pa (e : TlbEntry) (va : Nat) : Nat :=
  if e.level = 1 then bitsOf e.pte 21 19 * 2 ^ 21 + bitsOf va 0 21 else bitsOf e.pte 12 28 * 4096 + bitsOf va 0 12

/-- Permission of an access (R285): `kind` 0 fetch, 1 load, 2 store. -/
def permits (e kind : Nat) (kernel : Bool) : Bool :=
  (match kind with | 0 => bitsOf e 3 1 | 1 => bitsOf e 1 1 | _ => bitsOf e 2 1) == 1
    && (if kernel then !(kind == 0 && bitsOf e 4 1 == 1) else bitsOf e 4 1 == 1)

/-- An entry joins a TLB of `size` entries; when it is full a free choice leaves (log entry 17). -/
def fillTlb (s : State) (l : List TlbEntry) (size : Nat) (e : TlbEntry) : List TlbEntry × State :=
  if l.length < size then (l ++ [e], s)
  else
    let (i, s) := s.freshBelow l.length
    (l.eraseIdx i ++ [e], s)

/-- MMU_ERR records a walk refused or failed (R284); `req` 0 to 3 is a core, 4 the I/O TLB. -/
def State.walkError (s : State) (a lvl asid req : Nat) (ecc : Bool) : State :=
  let s := s.setReg mmuB (BitVec.ofNat 32 a)
  let s := s.setReg (mmuB + 4) (BitVec.ofNat 32 (a / 2 ^ 32 % 256 + lvl * 256 + (if ecc then 1024 else 0) + req * 2048 + asid * 65536))
  s.raise (if ecc then Src.walkEcc else Src.walkRegion) [a % 2 ^ 32, a / 2 ^ 32, lvl, asid + req * 256]

/-- The physical address of an access of core c, or the trap it takes, and the state with the TLB filled. -/
def State.translate (s : State) (c va kind : Nat) : Except (Nat × Nat) Nat × State :=
  if !s.trans c then (.ok va, s)
  else if va / 2 ^ 39 ≠ (if bitsOf va 38 1 = 1 then 2 ^ 25 - 1 else 0) then (.error (16, va), s)
  else
    let asid := getField (s.sysReg c 6) 0 8
    let k := s.kernel c
    let x := s.ctlc c
    let finish := fun (e : TlbEntry) (s : State) => if permits e.pte kind k then (Except.ok (e.pa va), s) else (.error (16, va), s)
    match x.tlb.find? (fun e => e.hits asid va) with
    | some e => finish e s
    | none => match s.walk va asid 3 0 (s.sysReg c 5).toNat with
      | .pa _ e =>
        if permits e.pte kind k then
          let (l, s) := fillTlb s x.tlb 64 e
          (.ok (e.pa va), s.modCtlc c (fun x => { x with tlb := l }))
        else (.error (16, va), s)
      | .page => (.error (16, va), s)
      | .region a lvl => (.error (17, va), s.walkError a lvl asid c false)
      | .ecc a lvl => (.error (17, va), s.walkError a lvl asid c true)

/-- TLBI: cached translations of one page under the current ASID (R141). -/
def State.tlbi (s : State) (c va : Nat) : State :=
  let asid := getField (s.sysReg c 6) 0 8
  s.modCtlc c (fun x => { x with tlb := x.tlb.filter (fun e => !e.hits asid va) })

/-! ### Data caches (R277–R280) -/

/-- The L2 acknowledges the oldest eviction of core c (R280). -/
def State.evictAck (s : State) (c : Nat) : State :=
  let x := s.ctlc c
  match x.evict with
  | [] => s
  | l :: t =>
    let s := s.setCtlc c { x with evict := t }
    if l.taken then s else s.setBytes (l.line * 64) l.bytes

/-- A dirty line leaves the L1 for the eviction buffer; a full buffer waits for an acknowledgement (R280). -/
def State.evictLine (s : State) (c : Nat) (l : Line) : State :=
  let s := if 8 ≤ (s.ctlc c).evict.length then s.evictAck c else s
  s.modCtlc c (fun x => { x with dirty := x.dirty.filter (fun d => d.line ≠ l.line), evict := x.evict ++ [l] })

/-- A line still in the eviction buffer of core c is served only after its acknowledgement (R280); `n` bounds the buffer. -/
def State.drainEvict (s : State) (c ln : Nat) : Nat → State
  | 0 => s
  | n + 1 => if (s.ctlc c).evict.any (fun l => l.line == ln) then State.drainEvict (s.evictAck c) c ln n else s

/-- A miss may push out a dirty line, which one the spec does not say (log entry 17). -/
def State.missEvict (s : State) (c : Nat) : State :=
  let d := (s.ctlc c).dirty
  let (i, s) := s.freshBelow (d.length + 1)
  match d[i]? with
  | some l => s.evictLine c l
  | none => s

/-- The line is present for core c before an access to cacheable memory. -/
def State.touchLine (s : State) (c ln : Nat) : State :=
  let s := s.drainEvict c ln 9
  if (s.ctlc c).dirty.any (fun l => l.line == ln) then s else s.missEvict c

/-- A store to a cacheable line: every other copy is invalidated, and the line is dirty in core c (R278). -/
def State.storeLine (s : State) (c a : Nat) (l : List Byte) : State :=
  let ln := a / 64
  let s := s.touchLine c ln
  let old := s.cbytes (ln * 64) 64
  let s := (List.range 4).foldl (fun s k =>
    let x := s.ctlc k
    s.setCtlc k { x with dirty := x.dirty.filter (fun d => d.line ≠ ln),
                         evict := x.evict.map (fun d => if d.line = ln then { d with taken := true } else d) }) s
  s.modCtlc c (fun x => { x with dirty := x.dirty ++ [⟨ln, patch old (a % 64) l, false⟩] })

/-- DCWB (R141): a dirty line is written back. -/
def State.dcwb (s : State) (c ln : Nat) : State :=
  match (s.ctlc c).dirty.find? (fun l => l.line == ln) with
  | some l => (s.modCtlc c (fun x => { x with dirty := x.dirty.filter (fun d => d.line ≠ ln) })).setBytes (ln * 64) l.bytes
  | none => s

/-- DCINV (R141): the line is dropped without being written back. -/
def State.dcinv (s : State) (c ln : Nat) : State :=
  s.modCtlc c (fun x => { x with dirty := x.dirty.filter (fun d => d.line ≠ ln) })

/-! ### Issue -/

/-- The effect of an issued instruction on control core c. -/
def State.settleCtl (s0 : State) (c : Nat) : Eff → State
  | .next s => s.modCtlc c (fun x => { x with pc := some (x.pcOf + 4) })
  | .goto s pc => s.modCtlc c (fun x => { x with pc := some (BitVec.ofNat 64 pc) })
  | .done s => s
  | .wait s _ => s.modCtlc c (fun x => { x with waiting := true })
  | .trap code value => s0.trapCtl c code false value
  | .trapIn s code value => s.trapCtl c code false value

/-- The line that a fetch of control core c reads: the copy its instruction cache may hold, memory below the data caches, or what the
    data caches hold; which of them, where they differ, is a free choice (R277, R278; log entry 203). -/
def State.codeLine (s : State) (c ln : Nat) : List Byte × State :=
  let held := aget (fun _ => []) (s.ctlc c).code ln
  let below := (List.range 64).map (fun i => s.pbyte (ln * 64 + i))
  let now := s.cbytes (ln * 64) 64
  let l := if held = [] ∨ held = below then below :: (if now = below then [] else [now])
    else held :: below :: (if now = below ∨ now = held then [] else [now])
  if l.length = 1 then (below, s)
  else
    let (k, s) := s.freshBelow l.length
    (l.getD k [], s)

/-- The word at physical address `a` as control core c fetches it; a cacheable line stays in its instruction cache. -/
def State.codeFetch (s : State) (c a : Nat) : Nat × State :=
  if (s.region a).cacheable then
    let (l, s) := s.codeLine c (a / 64)
    (le l (a % 64) 4, s.modCtlc c (fun x => { x with code := aset (fun _ => []) x.code (a / 64) l }))
  else (s.cnum a 4, s)

/-- ICINV (Table 5.10): the line leaves the instruction cache. -/
def State.icinv (s : State) (c ln : Nat) : State :=
  s.modCtlc c (fun x => { x with code := aset (fun _ => []) x.code ln [] })

/-- The fetch of the instruction at pc: its word, or the trap it takes (R139, R282, R285). -/
def State.fetchCtl (s : State) (c : Nat) : Except (Nat × Nat) Nat × State :=
  match s.translate c (s.ctlc c).pcOf.toNat 0 with
  | (.error e, s) => (.error e, s)
  | (.ok a, s) =>
    let r := s.region a
    if r = .ctl ∨ r = .lockWord ∨ r = .none then (.error (2, a), s)
    else if s.upset a then (.error (7, a), s.raiseEcc a)
    else
      let (w, s) := s.codeFetch c a
      (.ok w, s)

/-- An instruction of control core c issues: the fetch, R114 for the word fetched, then its effect; a command whose word is not the
    one fetched has none (log entry 203). -/
def State.issueCtl (s : State) (c word : Nat) (legal : Bool) (body : State → Eff) : State :=
  if !s.ctlRuns c || (s.ctlc c).waiting then s
  else match s.fetchCtl c with
    | (.error e, s1) => s1.trapCtl c e.1 false e.2
    | (.ok w, s1) =>
      if w ≠ word then (if ctlLegal w then s else s1.trapCtl c 0 false w)
      else if !legal then s1.trapCtl c 0 false word else s1.settleCtl c (body s1)

/-! ### Either kind of hart -/

/-- A general register of a hart. -/
def State.rget (s : State) (h : Hart) (r : Nat) : DWord := match h with
  | .pkt n k t => (s.thread (threadId n k t)).get r
  | .ctl c => (s.ctlc c).get r

/-- set(r, v) on a hart. -/
def State.rset (s : State) (h : Hart) (r : Nat) (v : DWord) : State := match h with
  | .pkt n k t => s.modThread (threadId n k t) (fun x => x.put r v)
  | .ctl c => s.modCtlc c (fun x => x.put r v)

def State.pcOf (s : State) (h : Hart) : Nat := match h with
  | .pkt n k t => (s.thread (threadId n k t)).pc.toNat
  | .ctl c => (s.ctlc c).pcOf.toNat

def State.lkOf (s : State) (h : Hart) : Nat := match h with
  | .pkt n k t => (s.thread (threadId n k t)).lk.toNat
  | .ctl c => (s.ctlc c).lk.toNat

def State.setLk (s : State) (h : Hart) (v : Nat) : State := match h with
  | .pkt n k t => s.modThread (threadId n k t) (fun x => { x with lk := BitVec.ofNat 16 v })
  | .ctl c => s.modCtlc c (fun x => { x with lk := BitVec.ofNat 64 v })

/-- An instruction that both kinds of core have issues on a hart. -/
def State.issue (s : State) (h : Hart) (word : Nat) (legal : Bool) (falls : State → Bool) (body : State → Eff) : State :=
  match h with
  | .pkt n k t => s.issuePkt (threadId n k t) word legal falls body
  | .ctl c => s.issueCtl c word legal body

/-- An instruction of the packet cores alone: illegal on a control core (R116). -/
def State.issueP (s : State) (h : Hart) (word : Nat) (legal : Bool) (falls : Bool) (body : Nat → State → Eff) : State :=
  match h with
  | .pkt n k t => s.issuePkt (threadId n k t) word legal (fun _ => falls) (body (threadId n k t))
  | .ctl c => s.issueCtl c word false (fun s => .next s)

/-- An instruction of the control cores alone, privileged (R141). -/
def State.issueC (s : State) (h : Hart) (word : Nat) (legal : Bool) (body : Nat → State → Eff) : State :=
  match h with
  | .pkt n k t => s.issuePkt (threadId n k t) word false (fun _ => false) (fun s => .next s)
  | .ctl c => s.issueCtl c word legal (body c)

end Sys2Proof.Machine
end

