-- ==== Sys2Proof/Machine/Isa.lean ====
section
/-!
DEFINITION. Machine/Isa.lean: the shared effects of the arithmetic, branch,
jump, supervisor and privileged instructions (R117, R127, R128, R136, R140–R142).
-/
namespace Sys2Proof.Machine

/-! ### Arithmetic (R117, R118) -/

/-- A member of the ALU group: rd takes f of w[ra] and w[rb]. -/
def State.alu (s : State) (h : Hart) (rd ra rb : BitVec 5) (fn : Nat) (f : DWord → DWord → DWord) : State :=
  s.issue h (encA 1 rd.toNat ra.toNat rb.toNat fn) true (fun _ => true)
    (fun s => .next (s.rset h rd.toNat (f (s.rget h ra.toNat) (s.rget h rb.toNat))))

/-- A member of the ALU group with one operand; its rb field is 0. -/
def State.alu1 (s : State) (h : Hart) (rd ra : BitVec 5) (fn : Nat) (f : DWord → DWord) : State :=
  s.issue h (encA 1 rd.toNat ra.toNat 0 fn) true (fun _ => true) (fun s => .next (s.rset h rd.toNat (f (s.rget h ra.toNat))))

/-- An instruction of format I that computes rd from w[ra] and its immediate. -/
def State.aluI (s : State) (h : Hart) (op : Nat) (rd ra : BitVec 5) (imm : BitVec 16) (legal : Bool) (f : DWord → DWord) : State :=
  s.issue h (encI op rd.toNat ra.toNat imm.toNat) legal (fun _ => true) (fun s => .next (s.rset h rd.toNat (f (s.rget h ra.toNat))))

/-- The low `n` bytes of a word in reverse order, zero-extended. -/
def revBytes (n : Nat) (v : DWord) : DWord := BitVec.ofNat 64 (fromBE (bytesLE n v.toNat))

/-- Leading zeros of a 64-bit word. -/
def clz64 (v : DWord) : Nat := ((List.range 64).find? (fun i => v.getLsbD (63 - i))).getD 64

/-- Trailing zeros of a 64-bit word. -/
def ctz64 (v : DWord) : Nat := ((List.range 64).find? (fun i => v.getLsbD i)).getD 64

/-- A field of a word, sign- or zero-extended (BFX). -/
def bfx (v : DWord) (lsb width : Nat) (signed : Bool) : DWord :=
  let f := getField v lsb width
  if signed ∧ 2 ^ (width - 1) ≤ f then BitVec.ofNat 64 (f + (2 ^ 64 - 2 ^ width)) else BitVec.ofNat 64 f

/-! ### Branches and jumps (R127, R128) -/

/-- The pc becomes `target`: on a packet core outside 0x0000 to 0xFFFF it raises ADDRESS, and elsewhere, where it is not a multiple
    of 4, MISALIGN (R128; log entry 18 for the control cores). -/
def jumpTo (h : Hart) (target : Int) (s : State) : Eff :=
  let a := intBits 64 target
  match h with
  | .pkt _ _ _ => if target < 0 ∨ 0xFFFF < target then .trap 2 a else if a % 4 ≠ 0 then .trap 1 a else .goto s a
  | .ctl _ => if a % 4 ≠ 0 then .trap 1 a else .goto s a

/-- A branch of format B. -/
def State.branch (s : State) (h : Hart) (op : Nat) (ra rb : BitVec 5) (off : BitVec 16) (p : DWord → DWord → Bool) : State :=
  s.issue h (encI op ra.toNat rb.toNat off.toNat) true (fun s => !p (s.rget h ra.toNat) (s.rget h rb.toNat))
    (fun s => if p (s.rget h ra.toNat) (s.rget h rb.toNat) then jumpTo h (s.pcOf h + off.toInt * 4) s else .next s)

/-- DBNZ: ra is decremented; the branch is taken when the result is not 0. ra = 0 is illegal. -/
def State.dbnz (s : State) (h : Hart) (ra : BitVec 5) (off : BitVec 16) : State :=
  s.issue h (encI 0x26 ra.toNat 0 off.toNat) (ra != 0) (fun s => s.rget h ra.toNat - 1 == 0)
    (fun s =>
      let v := s.rget h ra.toNat - 1
      if v ≠ 0 then jumpTo h (s.pcOf h + off.toInt * 4) (s.rset h ra.toNat v) else .next (s.rset h ra.toNat v))

/-- A call saves pc + 4 in lk; at 0xFFFC of a packet core that address does not fit (R128). -/
def callTo (h : Hart) (target : Int) (s : State) : Eff :=
  match h with
  | .pkt _ _ _ => if s.pcOf h = 0xFFFC then .trap 2 0x10000 else jumpTo h target (s.setLk h (s.pcOf h + 4))
  | .ctl _ => jumpTo h target (s.setLk h (s.pcOf h + 4))

/-- A register that a jump reads as an address: unsigned on a packet core. -/
def addrOf (h : Hart) (v : DWord) : Int := match h with
  | .pkt _ _ _ => (v.toNat : Int)
  | .ctl _ => (v.toNat : Int)

/-- MTLK: a value that pc could not hold is refused as a jump to it is (R128). -/
def State.mtlk (s : State) (h : Hart) (ra : BitVec 5) : State :=
  s.issue h (encA 0x28 0 ra.toNat 0 4) true (fun _ => true) (fun s =>
    let v := s.rget h ra.toNat
    match jumpTo h (addrOf h v) s with
    | .trap c x => .trap c x
    | _ => .next (s.setLk h v.toNat))

/-! ### Supervisor group (R136, R137) -/

/-- A supervisor instruction names thread t of the issuing core; it is valid only in t7, and t = 7 is illegal. -/
def State.super (s : State) (h : Hart) (rd ra k : BitVec 5) (t : BitVec 3) (fn : Nat) (body : Nat → Nat → State → State) : State :=
  match h with
  | .pkt n c j => s.issuePkt (threadId n c j) (encV rd.toNat ra.toNat k.toNat t.toNat fn) (j == 7 && t != 7) (fun _ => true)
      (fun s => .next (body (threadId n c j) (threadId n c t.toNat) s))
  | .ctl c => s.issueCtl c (encV rd.toNat ra.toNat k.toNat t.toNat fn) false (fun s => .next s)

/-- A parked thread resumes at `pc` (R126, R136). A pc outside its range is taken modulo 2^16 and 4 (log entry 19). -/
def State.resumeAt (s : State) (i : Nat) (pc : DWord) : State :=
  s.modThread i (fun x => { x with run := .ready, pc := BitVec.ofNat 16 (pc.toNat / 4 * 4), gen := (x.gen + 1) % 256 })

/-- Whether a thread is at the leg entry, a dispatch thread in or before its CHRD on ch0, a helper free (Table 5.8, R137; log entry 205). -/
def State.atEntry (s : State) (i : Nat) : Bool :=
  let x := s.thread i
  x.binding.isNone && (List.range 2).any (fun h => x.pc.toNat == s.legEntry (stnOf i) h)
    && (match x.run with
        | .ready => s.isDispatch i
        | .waiting (.chrd _ ch) => s.isDispatch i && ch == 0
        | .free => !s.isDispatch i
        | _ => false)

/-- TENT: the thread returns to the leg entry with the effects of R31, parked or not (R136); its coach is left to R30. The notice
    names the coach it was bound to; of a thread bound to none the spec does not say what VALUE holds. -/
def State.tent (s : State) (rd i j : Nat) : State :=
  if s.atEntry j then s.modThread i (fun x => x.put rd 1)
  else
    let s := match (s.thread j).binding with
      | some q => if s.isDispatch j then s.returnServer j q true else ((s.returnThread j).releaseJoiners j).notify j 11 q
      | none =>
        let (v, s) := s.fresh 64
        ((s.returnThread j).releaseJoiners j).notify j 11 v.toNat
    s.modThread i (fun x => x.put rd 0)

/-- TSTAT (Table 5.8). -/
def State.tstat (s : State) (j : Nat) : DWord :=
  BitVec.ofNat 64 ((if (s.thread j).run = .parked then 1 else 0) + (if s.atEntry j then 2 else 0) + (s.thread j).gen * 256)

/-! ### Privileged group (R140–R142) -/

/-- A member of the privileged group: user mode raises PRIV with the instruction word. MFSR of CYCLE and CORE_ID is open to it. -/
def State.priv (s : State) (h : Hart) (word : Nat) (legal open_ : Bool) (body : Nat → State → Eff) : State :=
  s.issueC h word legal (fun c s => if s.kernel c ∨ open_ then body c s else .trap 18 word)

/-- Table 5.11 lists the system register. -/
def srListed (sr : BitVec 8) : Bool := sr.toNat ≤ 0xC

/-- MTSR: RO fields and registers keep their value, and with TRANS 0 user mode is not entered: MODE stays 1 (Tables 5.11, 5.12; log
    entry 204). -/
def State.mtsr (s : State) (c sr : Nat) (v : DWord) : State :=
  match sr with
  | 0 => s.setSys c 0 (if getField v 0 1 = 0 ∧ getField v 4 1 = 0 then v &&& 0x1F ||| 1 else v &&& 0x1F)
  | 4 => s.setSys c 4 (v &&& ~~~0xFF#64)
  | 5 => s.setSys c 5 (v &&& 0xFFFFFFF000#64)
  | 6 => s.setSys c 6 (v &&& 0xFF)
  | 9 => s
  | 0xA => s
  | _ => s.setSys c sr v

/-- A cache operation on the line of a virtual address: its translation is that of a load (log entry 18). -/
def State.cacheOp (s : State) (c va : Nat) (f : Nat → State → State) : Eff :=
  match s.translate c va 1 with
  | (.error e, s) => .trapIn s e.1 e.2
  | (.ok a, s) => .next (f (a / 64) s)

end Sys2Proof.Machine
end

