-- ==== Sys2Proof/Machine/Alu.lean ====
section
/-!
DEFINITION. Machine/Alu.lean: the meanings of the arithmetic, constant, branch, jump, supervisor and privileged instructions.
-/
namespace Sys2Proof.Machine
/-- ADD (Table 5.3). -/
def execAdd (h : Hart) (rd ra rb : BitVec 5) (s : State) : Host.Outcome State Fault Refusal :=
  .next (s.alu h rd ra rb 0x0 (fun a b => a + b))

/-- SUB (Table 5.3). -/
def execSub (h : Hart) (rd ra rb : BitVec 5) (s : State) : Host.Outcome State Fault Refusal :=
  .next (s.alu h rd ra rb 0x1 (fun a b => a - b))

/-- AND (Table 5.3). -/
def execAnd (h : Hart) (rd ra rb : BitVec 5) (s : State) : Host.Outcome State Fault Refusal :=
  .next (s.alu h rd ra rb 0x2 (fun a b => a &&& b))

/-- OR (Table 5.3). -/
def execOr (h : Hart) (rd ra rb : BitVec 5) (s : State) : Host.Outcome State Fault Refusal :=
  .next (s.alu h rd ra rb 0x3 (fun a b => a ||| b))

/-- XOR (Table 5.3). -/
def execXor (h : Hart) (rd ra rb : BitVec 5) (s : State) : Host.Outcome State Fault Refusal :=
  .next (s.alu h rd ra rb 0x4 (fun a b => a ^^^ b))

/-- ANDN (Table 5.3). -/
def execAndn (h : Hart) (rd ra rb : BitVec 5) (s : State) : Host.Outcome State Fault Refusal :=
  .next (s.alu h rd ra rb 0x5 (fun a b => a &&& ~~~b))

/-- SLL (Table 5.3). -/
def execSll (h : Hart) (rd ra rb : BitVec 5) (s : State) : Host.Outcome State Fault Refusal :=
  .next (s.alu h rd ra rb 0x6 (fun a b => a <<< (b.toNat % 64)))

/-- SRL (Table 5.3). -/
def execSrl (h : Hart) (rd ra rb : BitVec 5) (s : State) : Host.Outcome State Fault Refusal :=
  .next (s.alu h rd ra rb 0x7 (fun a b => a >>> (b.toNat % 64)))

/-- SRA (Table 5.3). -/
def execSra (h : Hart) (rd ra rb : BitVec 5) (s : State) : Host.Outcome State Fault Refusal :=
  .next (s.alu h rd ra rb 0x8 (fun a b => a.sshiftRight (b.toNat % 64)))

/-- SLT (Table 5.3). -/
def execSlt (h : Hart) (rd ra rb : BitVec 5) (s : State) : Host.Outcome State Fault Refusal :=
  .next (s.alu h rd ra rb 0x9 (fun a b => if a.slt b then 1 else 0))

/-- SLTU (Table 5.3). -/
def execSltu (h : Hart) (rd ra rb : BitVec 5) (s : State) : Host.Outcome State Fault Refusal :=
  .next (s.alu h rd ra rb 0xa (fun a b => if a.ult b then 1 else 0))

/-- MIN (Table 5.3). -/
def execMin (h : Hart) (rd ra rb : BitVec 5) (s : State) : Host.Outcome State Fault Refusal :=
  .next (s.alu h rd ra rb 0xb (fun a b => if a.slt b then a else b))

/-- MAX (Table 5.3). -/
def execMax (h : Hart) (rd ra rb : BitVec 5) (s : State) : Host.Outcome State Fault Refusal :=
  .next (s.alu h rd ra rb 0xc (fun a b => if a.slt b then b else a))

/-- MINU (Table 5.3). -/
def execMinu (h : Hart) (rd ra rb : BitVec 5) (s : State) : Host.Outcome State Fault Refusal :=
  .next (s.alu h rd ra rb 0xd (fun a b => if a.ult b then a else b))

/-- MAXU (Table 5.3). -/
def execMaxu (h : Hart) (rd ra rb : BitVec 5) (s : State) : Host.Outcome State Fault Refusal :=
  .next (s.alu h rd ra rb 0xe (fun a b => if a.ult b then b else a))

/-- MUL (Table 5.3). -/
def execMul (h : Hart) (rd ra rb : BitVec 5) (s : State) : Host.Outcome State Fault Refusal :=
  .next (s.alu h rd ra rb 0x10 (fun a b => a * b))

/-- MULH (Table 5.3). -/
def execMulh (h : Hart) (rd ra rb : BitVec 5) (s : State) : Host.Outcome State Fault Refusal :=
  .next (s.alu h rd ra rb 0x11 (fun a b => BitVec.ofInt 64 (a.toInt * b.toInt / 2 ^ 64)))

/-- MULHU (Table 5.3). -/
def execMulhu (h : Hart) (rd ra rb : BitVec 5) (s : State) : Host.Outcome State Fault Refusal :=
  .next (s.alu h rd ra rb 0x12 (fun a b => BitVec.ofNat 64 (a.toNat * b.toNat / 2 ^ 64)))

/-- REVH (Table 5.3). -/
def execRevh (h : Hart) (rd ra : BitVec 5) (s : State) : Host.Outcome State Fault Refusal :=
  .next (s.alu1 h rd ra 0x18 (revBytes 2))

/-- REVW (Table 5.3). -/
def execRevw (h : Hart) (rd ra : BitVec 5) (s : State) : Host.Outcome State Fault Refusal :=
  .next (s.alu1 h rd ra 0x19 (revBytes 4))

/-- REVD (Table 5.3). -/
def execRevd (h : Hart) (rd ra : BitVec 5) (s : State) : Host.Outcome State Fault Refusal :=
  .next (s.alu1 h rd ra 0x1a (revBytes 8))

/-- CLZ (Table 5.3). -/
def execClz (h : Hart) (rd ra : BitVec 5) (s : State) : Host.Outcome State Fault Refusal :=
  .next (s.alu1 h rd ra 0x1c (fun a => BitVec.ofNat 64 (clz64 a)))

/-- CTZ (Table 5.3). -/
def execCtz (h : Hart) (rd ra : BitVec 5) (s : State) : Host.Outcome State Fault Refusal :=
  .next (s.alu1 h rd ra 0x1d (fun a => BitVec.ofNat 64 (ctz64 a)))

/-- POPC (Table 5.3). -/
def execPopc (h : Hart) (rd ra : BitVec 5) (s : State) : Host.Outcome State Fault Refusal :=
  .next (s.alu1 h rd ra 0x1e (fun a => BitVec.ofNat 64 (popCount 64 a.toNat)))

/-- ADDI (Table 5.3). -/
def execAddi (h : Hart) (rd ra : BitVec 5) (imm : BitVec 16) (s : State) : Host.Outcome State Fault Refusal :=
  .next (s.aluI h 2 rd ra imm true (fun a => a + imm.signExtend 64))

/-- ANDI (Table 5.3). -/
def execAndi (h : Hart) (rd ra : BitVec 5) (imm : BitVec 16) (s : State) : Host.Outcome State Fault Refusal :=
  .next (s.aluI h 3 rd ra imm true (fun a => a &&& imm.zeroExtend 64))

/-- ORI (Table 5.3). -/
def execOri (h : Hart) (rd ra : BitVec 5) (imm : BitVec 16) (s : State) : Host.Outcome State Fault Refusal :=
  .next (s.aluI h 4 rd ra imm true (fun a => a ||| imm.zeroExtend 64))

/-- XORI (Table 5.3). -/
def execXori (h : Hart) (rd ra : BitVec 5) (imm : BitVec 16) (s : State) : Host.Outcome State Fault Refusal :=
  .next (s.aluI h 5 rd ra imm true (fun a => a ^^^ imm.zeroExtend 64))

/-- SLTI (Table 5.3). -/
def execSlti (h : Hart) (rd ra : BitVec 5) (imm : BitVec 16) (s : State) : Host.Outcome State Fault Refusal :=
  .next (s.aluI h 7 rd ra imm true (fun a => if a.slt (imm.signExtend 64) then 1 else 0))

/-- SLTIU (Table 5.3). -/
def execSltiu (h : Hart) (rd ra : BitVec 5) (imm : BitVec 16) (s : State) : Host.Outcome State Fault Refusal :=
  .next (s.aluI h 8 rd ra imm true (fun a => if a.ult (imm.signExtend 64) then 1 else 0))

/-- SLLI (Table 5.3). -/
def execSlli (h : Hart) (rd ra : BitVec 5) (n : BitVec 6) (s : State) : Host.Outcome State Fault Refusal :=
  .next (s.aluI h 6 rd ra (BitVec.ofNat 16 (n.toNat + 0)) true (fun a => a <<< n.toNat))

/-- SRLI (Table 5.3). -/
def execSrli (h : Hart) (rd ra : BitVec 5) (n : BitVec 6) (s : State) : Host.Outcome State Fault Refusal :=
  .next (s.aluI h 6 rd ra (BitVec.ofNat 16 (n.toNat + 64)) true (fun a => a >>> n.toNat))

/-- SRAI (Table 5.3). -/
def execSrai (h : Hart) (rd ra : BitVec 5) (n : BitVec 6) (s : State) : Host.Outcome State Fault Refusal :=
  .next (s.aluI h 6 rd ra (BitVec.ofNat 16 (n.toNat + 128)) true (fun a => a.sshiftRight n.toNat))

/-- LUI (Table 5.3). -/
def execLui (h : Hart) (rd : BitVec 5) (imm : BitVec 16) (s : State) : Host.Outcome State Fault Refusal :=
  .next (s.aluI h 9 rd 0 imm true (fun _ => imm.signExtend 64 <<< 16))

/-- INS16: field k of rd (Table 5.3). -/
def execIns16 (h : Hart) (rd : BitVec 5) (k : BitVec 2) (imm : BitVec 16) (s : State) : Host.Outcome State Fault Refusal :=
  .next (s.issue h (encI 0xA rd.toNat k.toNat imm.toNat) true (fun _ => true)
    (fun s => .next (s.rset h rd.toNat (putField (s.rget h rd.toNat) (16 * k.toNat) 16 imm.toNat))))

/-- BFX: lsb + width above 64 is illegal (Table 5.3). -/
def execBfx (h : Hart) (rd ra : BitVec 5) (lsb wm1 : BitVec 6) (signed : Bool) (s : State) : Host.Outcome State Fault Refusal :=
  .next (s.aluI h 0xB rd ra (BitVec.ofNat 16 (lsb.toNat + wm1.toNat * 64 + (if signed then 4096 else 0)))
    (lsb.toNat + wm1.toNat + 1 ≤ 64) (fun a => bfx a lsb.toNat (wm1.toNat + 1) signed))

/-- BFI: lsb + width above 64 is illegal (Table 5.3). -/
def execBfi (h : Hart) (rd ra : BitVec 5) (lsb wm1 : BitVec 6) (s : State) : Host.Outcome State Fault Refusal :=
  .next (s.issue h (encI 0xC rd.toNat ra.toNat (lsb.toNat + wm1.toNat * 64)) (lsb.toNat + wm1.toNat + 1 ≤ 64) (fun _ => true)
    (fun s => .next (s.rset h rd.toNat (putField (s.rget h rd.toNat) lsb.toNat (wm1.toNat + 1) (s.rget h ra.toNat).toNat))))

/-- BEQ (R127). -/
def execBeq (h : Hart) (ra rb : BitVec 5) (off : BitVec 16) (s : State) : Host.Outcome State Fault Refusal :=
  .next (s.branch h 0x20 ra rb off (fun a b => a == b))

/-- BNE (R127). -/
def execBne (h : Hart) (ra rb : BitVec 5) (off : BitVec 16) (s : State) : Host.Outcome State Fault Refusal :=
  .next (s.branch h 0x21 ra rb off (fun a b => a != b))

/-- BLT (R127). -/
def execBlt (h : Hart) (ra rb : BitVec 5) (off : BitVec 16) (s : State) : Host.Outcome State Fault Refusal :=
  .next (s.branch h 0x22 ra rb off (fun a b => a.slt b))

/-- BGE (R127). -/
def execBge (h : Hart) (ra rb : BitVec 5) (off : BitVec 16) (s : State) : Host.Outcome State Fault Refusal :=
  .next (s.branch h 0x23 ra rb off (fun a b => !a.slt b))

/-- BLTU (R127). -/
def execBltu (h : Hart) (ra rb : BitVec 5) (off : BitVec 16) (s : State) : Host.Outcome State Fault Refusal :=
  .next (s.branch h 0x24 ra rb off (fun a b => a.ult b))

/-- BGEU (R127). -/
def execBgeu (h : Hart) (ra rb : BitVec 5) (off : BitVec 16) (s : State) : Host.Outcome State Fault Refusal :=
  .next (s.branch h 0x25 ra rb off (fun a b => !a.ult b))

/-- DBNZ (R127). -/
def execDbnz (h : Hart) (ra : BitVec 5) (off : BitVec 16) (s : State) : Host.Outcome State Fault Refusal :=
  .next (s.dbnz h ra off)

/-- JAL (R127, R128). -/
def execJal (h : Hart) (off : BitVec 26) (s : State) : Host.Outcome State Fault Refusal :=
  .next (s.issue h (encJ off.toNat) true (fun _ => false) (fun s => callTo h (s.pcOf h + off.toInt * 4) s))

/-- JR (Table 5.13). -/
def execJr (h : Hart) (ra : BitVec 5) (s : State) : Host.Outcome State Fault Refusal :=
  .next (s.issue h (encA 0x28 0 ra.toNat 0 0) true (fun _ => false) (fun s => jumpTo h (addrOf h (s.rget h ra.toNat)) s))

/-- JALR (Table 5.13). -/
def execJalr (h : Hart) (ra : BitVec 5) (s : State) : Host.Outcome State Fault Refusal :=
  .next (s.issue h (encA 0x28 0 ra.toNat 0 1) true (fun _ => false) (fun s => callTo h (addrOf h (s.rget h ra.toNat)) s))

/-- RET (Table 5.13). -/
def execRet (h : Hart) (s : State) : Host.Outcome State Fault Refusal :=
  .next (s.issue h (encA 0x28 0 0 0 2) true (fun _ => false) (fun s => jumpTo h (s.lkOf h) s))

/-- MFLK (Table 5.13). -/
def execMflk (h : Hart) (rd : BitVec 5) (s : State) : Host.Outcome State Fault Refusal :=
  .next (s.issue h (encA 0x28 rd.toNat 0 0 3) true (fun _ => true)
    (fun s => .next (s.rset h rd.toNat (BitVec.ofNat 64 (s.lkOf h)))))

/-- MTLK (Table 5.13, R128). -/
def execMtlk (h : Hart) (ra : BitVec 5) (s : State) : Host.Outcome State Fault Refusal :=
  .next (s.mtlk h ra)

/-- FENCE (R141): every access of this model is visible when it completes, so the pc alone advances. -/
def execFence (h : Hart) (s : State) : Host.Outcome State Fault Refusal :=
  .next (s.issue h (encA 0x3B 0 0 0 0) true (fun _ => true) (fun s => .next s))

/-- TRAP raises trap SOFT with imm, zero-extended (R133, Table 5.9). -/
def execTrap (h : Hart) (imm : BitVec 16) (s : State) : Host.Outcome State Fault Refusal :=
  .next (s.issue h (encI 0x3C 0 0 imm.toNat) true (fun _ => false) (fun _ => .trap 8 imm.toNat))

/-- TRES (Table 5.8). -/
def execTres (h : Hart) (rd ra : BitVec 5) (t : BitVec 3) (s : State) : Host.Outcome State Fault Refusal :=
  .next (s.super h rd ra 0 t 0 (fun i j s =>
    if (s.thread j).run = .parked then (s.resumeAt j ((s.thread i).get ra.toNat)).modThread i (fun x => x.put rd.toNat 0)
    else s.modThread i (fun x => x.put rd.toNat 1)))

/-- TENT (Table 5.8). -/
def execTent (h : Hart) (rd : BitVec 5) (t : BitVec 3) (s : State) : Host.Outcome State Fault Refusal :=
  .next (s.super h rd 0 0 t 1 (fun i j s => s.tent rd.toNat i j))

/-- TRDW (Table 5.8). -/
def execTrdw (h : Hart) (rd k : BitVec 5) (t : BitVec 3) (s : State) : Host.Outcome State Fault Refusal :=
  .next (s.super h rd 0 k t 2 (fun i j s => s.modThread i (fun x => x.put rd.toNat ((s.thread j).get k.toNat))))

/-- TWRW (Table 5.8). -/
def execTwrw (h : Hart) (k ra : BitVec 5) (t : BitVec 3) (s : State) : Host.Outcome State Fault Refusal :=
  .next (s.super h 0 ra k t 3 (fun i j s =>
    if (s.thread j).run = .parked then s.modThread j (fun x => x.put k.toNat ((s.thread i).get ra.toNat)) else s))

/-- TSTAT (Table 5.8). -/
def execTstat (h : Hart) (rd : BitVec 5) (t : BitVec 3) (s : State) : Host.Outcome State Fault Refusal :=
  .next (s.super h rd 0 0 t 4 (fun i j s => s.modThread i (fun x => x.put rd.toNat (s.tstat j))))

/-- ERET (R140); to user mode while TRANS is 0 it raises ILLEGAL (R143). -/
def execEret (h : Hart) (s : State) : Host.Outcome State Fault Refusal :=
  .next (s.priv h (encP 0 0 0 0) true false (fun c s =>
    if getField (s.sysReg c 0) 2 1 = 0 ∧ !s.trans c then .trap 0 (encP 0 0 0 0) else .done (s.eret c)))

/-- MFSR: user mode reads CYCLE and CORE_ID (Tables 5.10, 5.11). -/
def execMfsr (h : Hart) (rd : BitVec 5) (sr : BitVec 8) (s : State) : Host.Outcome State Fault Refusal :=
  .next (s.priv h (encP rd.toNat 0 sr.toNat 1) (srListed sr) (sr == 9 || sr == 0xA)
    (fun c s => .next (s.modCtlc c (fun x => x.put rd.toNat (s.sysReg c sr.toNat)))))

/-- MTSR keeps RO fields (Table 5.10). -/
def execMtsr (h : Hart) (sr : BitVec 8) (ra : BitVec 5) (s : State) : Host.Outcome State Fault Refusal :=
  .next (s.priv h (encP 0 ra.toNat sr.toNat 2) (srListed sr) false (fun c s => .next (s.mtsr c sr.toNat ((s.ctlc c).get ra.toNat))))

/-- TLBI (Table 5.10). -/
def execTlbi (h : Hart) (ra : BitVec 5) (s : State) : Host.Outcome State Fault Refusal :=
  .next (s.priv h (encP 0 ra.toNat 0 4) true false (fun c s => .next (s.tlbi c ((s.ctlc c).get ra.toNat).toNat)))

/-- TLBIA (Table 5.10). -/
def execTlbia (h : Hart) (s : State) : Host.Outcome State Fault Refusal :=
  .next (s.priv h (encP 0 0 0 5) true false (fun c s => .next (s.modCtlc c (fun x => { x with tlb := [] }))))

/-- DCWB (Table 5.10). -/
def execDcwb (h : Hart) (ra : BitVec 5) (s : State) : Host.Outcome State Fault Refusal :=
  .next (s.priv h (encP 0 ra.toNat 0 6) true false (fun c s => s.cacheOp c ((s.ctlc c).get ra.toNat).toNat (fun ln s => s.dcwb c ln)))

/-- DCINV (Table 5.10). -/
def execDcinv (h : Hart) (ra : BitVec 5) (s : State) : Host.Outcome State Fault Refusal :=
  .next (s.priv h (encP 0 ra.toNat 0 7) true false (fun c s => s.cacheOp c ((s.ctlc c).get ra.toNat).toNat (fun ln s => s.dcinv c ln)))

/-- ICINV (Table 5.10). -/
def execIcinv (h : Hart) (ra : BitVec 5) (s : State) : Host.Outcome State Fault Refusal :=
  .next (s.priv h (encP 0 ra.toNat 0 8) true false (fun c s => s.cacheOp c ((s.ctlc c).get ra.toNat).toNat (fun ln s => s.icinv c ln)))

/-- L2_EVICT_ACK (R280). -/
def execL2EvictAck (c : Fin 4) (s : State) : Host.Outcome State Fault Refusal :=
  .next (s.evictAck c)

end Sys2Proof.Machine
end

