-- ==== Sys2Proof/Machine/EgressCmds.lean ====
section
/-!
DEFINITION. Machine/EgressCmds.lean: the meanings of the commands of egress (chapter 9), of the rewind store (chapter 10), of links
(R229, R400).
-/
namespace Sys2Proof.Machine

/-! ### Egress -/

/-- COPY_TRANSMIT_END at port q, with the byte parity of the head and of the body (R53). -/
def execCopyTransmitEnd (q : Fin 34) (headParity bodyParity : Bool) (s : State) : Host.Outcome State Fault Refusal :=
  .next (s.transmitEnd q headParity bodyParity)

/-- EGR_QUOTA_WRITE: a write of EGR_QCFGq_c (R217). -/
def execEgrQuotaWrite (q : Fin 34) (c : Fin 8) (v : Word) (s : State) : Host.Outcome State Fault Refusal := .next (s.qcfgWrite q c v)

/-- GCL_ARM: a write of EGR_GCLq with ARM 1 (R221). -/
def execGclArm (q : Fin 32) (v : Word) (s : State) : Host.Outcome State Fault Refusal := .next (s.gclWrite q (v ||| 1))

/-- GCL_BANK_SWITCH (R221). -/
def execGclBankSwitch (q : Fin 32) (s : State) : Host.Outcome State Fault Refusal := .next (s.gclSwitch q)

/-- GATE_BOUNDARY (R220). -/
def execGateBoundary (q : Fin 32) (s : State) : Host.Outcome State Fault Refusal := .next (s.gateBoundary q)

/-- PREEMPT_VERIFY_SEND (R225). -/
def execPreemptVerifySend (q : Fin 32) (s : State) : Host.Outcome State Fault Refusal := .next (s.verifySend q)

/-- PREEMPT_VERIFY_RESPONSE (R225). -/
def execPreemptVerifyResponse (q : Fin 32) (s : State) : Host.Outcome State Fault Refusal := .next (s.verifyResponse q)

/-- PREEMPT_VERIFY_FAIL (R225). -/
def execPreemptVerifyFail (q : Fin 32) (s : State) : Host.Outcome State Fault Refusal := .next (s.verifyFail q)

/-- QUEUE_FLUSH (R229). -/
def execQueueFlush (q : Fin 34) (c : Fin 8) (s : State) : Host.Outcome State Fault Refusal := .next (s.flushQueue q c)

/-- REFUSAL_NOTICE (R233). -/
def execRefusalNotice (s : State) : Host.Outcome State Fault Refusal := .next s.refusalNotice

/-! ### Rewind -/

/-- REWIND_RECORD_WRITE (R249). -/
def execRewindRecordWrite (s : State) : Host.Outcome State Fault Refusal := .next s.recordWrite

/-- REW_CTL_ENABLE (R251). -/
def execRewCtlEnable (s : State) : Host.Outcome State Fault Refusal := .next s.rewEnable

/-- REW_CTL_DISABLE (R251). -/
def execRewCtlDisable (s : State) : Host.Outcome State Fault Refusal := .next s.rewDisable

/-- REW_CTL_FREEZE: a firmware trigger (R251). -/
def execRewCtlFreeze (s : State) : Host.Outcome State Fault Refusal := .next (s.rewTrigger 0 0)

/-- REWIND_POST_END (R251). -/
def execRewindPostEnd (s : State) : Host.Outcome State Fault Refusal := .next s.rewPostEnd

/-- REWIND_FROZEN_ENTRY (R251). -/
def execRewindFrozenEntry (s : State) : Host.Outcome State Fault Refusal := .next s.rewFrozen

/-- REW_CTL_RESUME (R252). -/
def execRewCtlResume (s : State) : Host.Outcome State Fault Refusal := .next s.rewResume.2

/-- REW_CTL_DRAIN: the range of REW_DRAIN_FROM and _TO (R253). -/
def State.drainRegs (s : State) : State := (s.drainStart (s.reg2 (rewB + 0x60) (rewB + 0x64)) (s.reg2 (rewB + 0x68) (rewB + 0x6C))).2

def execRewCtlDrain (s : State) : Host.Outcome State Fault Refusal := .next s.drainRegs

/-- REW_CTL_ABORT (R253). -/
def execRewCtlAbort (s : State) : Host.Outcome State Fault Refusal := .next s.drainAbort.2

/-- DRAIN_FRAME_SEND (R254). -/
def execDrainFrameSend (s : State) : Host.Outcome State Fault Refusal := .next s.drainSend

/-- DRAIN_COMPLETE (R253). -/
def execDrainComplete (s : State) : Host.Outcome State Fault Refusal := .next s.drainComplete

/-- DRAIN_PACE_CONTINUE (R255). -/
def execDrainPaceContinue (s : State) : Host.Outcome State Fault Refusal := .next s.drainContinue

/-- DRAIN_STALL (R255). -/
def execDrainStall (s : State) : Host.Outcome State Fault Refusal := .next s.drainStall

/-- The _LO and _HI pairs of the REW block (R258): base, freeze instant, drain range. -/
def rewPair (i : Fin 4) : Nat := match i with
  | 0 => rewB + 0x10 | 1 => rewB + 0x20 | 2 => rewB + 0x60 | 3 => rewB + 0x68

/-- REW_LO_READ (R258): the read answers the low word and latches the high one. -/
def execRewLoRead (i : Fin 4) (s : State) : Host.Outcome State Fault Refusal := .next (s.latchHi (rewPair i) (rewPair i + 4))

/-! ### Links -/

/-- Frame under reception at port p ends with its link (R48): a coach's verdict fails with LINK_DOWN. -/
def State.linkCut (s : State) (p : Nat) (cut : Bool) : State := if cut then s.countDrop p 8 15 else s

/-- Milliseconds since the PWR domain became alive (R351). -/
def State.bootMs (s : State) : Nat := satur 16 ((s.boot.pwrLead + s.now) / msU)

/-- BOOT_T_FWD at the first link-up of an NRZ port, BOOT_T_PAM4 once every PAM4 port of the plan is up (R350, R351). -/
def State.bootTimes (s : State) (p : Nat) : State :=
  let cls := fun (p : Nat) => le (s.image.ports.getD p []) 4 1
  let pam4 := fun (p : Nat) => le (s.image.ports.getD p []) 0 1 % 2 == 1 && (cls p == 3 || cls p == 4)
  let s := if s.fld (bootB + 0x20) 0 16 = 0xFFFF ∧ !pam4 p then s.setFld (bootB + 0x20) 0 16 s.bootMs else s
  let s := if s.fld (bootB + 0x24) 0 16 = 0xFFFF ∧ pam4 p ∧ (List.range 32).all (fun q => !pam4 q || s.bit (egrPR q 4) 0)
    then s.setFld (bootB + 0x24) 0 16 s.bootMs else s
  if s.fld bootB 0 4 = 6 then s.setFld bootB 0 4 7 else s

/-- A link comes up: a line lane trains once the packet path has started (R350). The skews of its lanes are measured (R89). -/
def State.linkUpAt (s : State) (p t : Nat) (inverted : List Nat) (skews : List Int) : State :=
  let s := (s.advance t).setSkews p skews
  if p = 32 then s.linkUp p inverted
  else if s.fld bootB 0 4 = 6 ∨ s.fld bootB 0 4 = 7 then
    let s := s.linkUp p inverted
    if s.bit (egrPR p 4) 0 then s.bootTimes p else s
  else s

/-- LINK_UP of port p at CI0 instant t (R400), with what its training found (R89). -/
def execLinkUp (p : Fin 33) (t : Nat) (tr : Training) (s : State) : Host.Outcome State Fault Refusal :=
  .next (s.linkUpAt p t tr.inverted tr.skews)

end Sys2Proof.Machine
end

