-- ==== Sys2Proof/Machine/Channels.lean ====
section
/-!
DEFINITION. Machine/Channels.lean: CHRD, CHWR, CHPOLL, CHFLUSH, FORK, JOIN, QUIT and what completes them (R129, R130, R148–R157).
-/
namespace Sys2Proof.Machine

/-- How a port may be used by a thread (R130, R152, R153). -/
inductive Port where
  | dispatch | coupler | result (i : Nat) | linkIn (i : Nat) | linkOut (i : Nat) | traps | time | bad
  deriving DecidableEq, Repr

def State.portOf (s : State) (i ch : Nat) : Port :=
  if thrOf i = 7 then (if ch = 14 then .traps else if ch = 15 then .time else .bad)
  else match ch with
    | 0 => .dispatch
    | 1 => .coupler
    | 14 => .bad
    | 15 => .time
    | _ => if ch < 6 then .result (i * 4 + (ch - 2))
      else match s.linkRole i (ch - 6) with
        | some true => .linkOut (coreOf i * 8 + (ch - 6))
        | some false => .linkIn (coreOf i * 8 + (ch - 6))
        | none => .bad

/-- Thread i serves its coach: it took it from ch0 (R151). -/
def State.serves (s : State) (i : Nat) : Option Nat :=
  match (s.thread i).binding with
  | none => none
  | some q => match s.coach q with
    | some c => if c.server = some (coreOf i % 10, thrOf i) ∧ c.complete = false then some q else none
    | none => none

/-- The channel behind an input port. -/
def State.chanOf (s : State) (i : Nat) : Port → Option Chan
  | .result k => some (s.result k)
  | .linkIn k => some (s.link k)
  | .traps => some (s.ch14 (coreOf i))
  | _ => none

def State.setChanOf (s : State) (i : Nat) (p : Port) (c : Chan) : State := match p with
  | .result k => s.setResult k c
  | .linkIn k => s.setLink k c
  | .traps => s.setCh14 (coreOf i) c
  | _ => s

/-- CI0 as ch15 delivers it (Table 6.1). -/
def State.ch15 (s : State) : DWord := BitVec.ofNat 64 (secOf s.now % 2 ^ 32 * 2 ^ 32 + nsOf s.now)

/-- A CHRD: the word at once, a wait, or CHANNEL (R130, R154). On ch0 it waits for the dispatcher. -/
def State.chrd (s : State) (i rd ch : Nat) : Eff :=
  let p := s.portOf i ch
  match p with
  | .dispatch => .wait s (.chrd rd ch)
  | .time => .next (s.modThread i (fun x => x.put rd s.ch15))
  | .coupler => .trap 5 ch
  | .linkOut _ => .trap 5 ch
  | .bad => .trap 5 ch
  | _ => match (s.chanOf i p).bind (·.read s.coreNow) with
    | some (v, c) => .next ((s.setChanOf i p c).modThread i (fun x => x.put rd v))
    | none => .wait s (.chrd rd ch)

/-- A word is written to link channel k of a station; an item that a flush of this cycle cuts off is counted (R154, R157). -/
def State.linkWrite (s : State) (k : Nat) (v : DWord) (last : Bool) : State :=
  let (t, c) := (s.link k).write s.coreNow v last
  let s := s.setLink k c
  if t = 0 then s else s.count (stn2R (k / 80) (0x20 + k % 8 * 4)) 0 32 t

/-- A CHWR (R130, R151, R154): the 8th word of an item without the last mark raises CHANNEL. -/
def State.chwr (s : State) (i ch : Nat) (v : DWord) (last : Bool) : Eff :=
  match s.portOf i ch with
  | .coupler =>
    let x := s.thread i
    match s.serves i with
    | none => .trap 5 ch
    | some q =>
      if x.ch1 = 7 ∧ last = false then .trap 5 ch
      else if last then .next ((s.modThread i (fun x => { x with ch1 := 0 })).completeCoach i q)
      else .next (s.modThread i (fun x => { x with ch1 := x.ch1 + 1 }))
  | .linkOut k =>
    let c := s.link k
    if c.open_ = 7 ∧ last = false then .trap 5 ch
    else if c.open_ = 0 ∧ 4 ≤ c.depth then .wait s (.chwr ch v last)
    else .next (s.linkWrite k v last)
  | _ => .trap 5 ch

/-- The bits of CHPOLL (R129, R154). A place freed at depth 4 shows no SPACE in its own cycle: a push of that cycle takes it (Table
    6.2). -/
def State.chpoll (s : State) (i ch : Nat) : Option DWord :=
  let bits := fun (c : Chan) (input : Bool) =>
    let ready := input && c.readable s.coreNow
    BitVec.ofNat 64 ((if ready then 1 else 0)
      + (if ready ∧ (c.words.head?.map (·.2)).getD false then 2 else 0)
      + (if c.depth < 4 ∧ c.full ≠ some s.coreNow then 4 else 0) + c.items * 16)
  let p := s.portOf i ch
  match p with
  | .bad => none
  | .time => some 7
  | .dispatch => some 4
  | .coupler => some (bits { open_ := (s.thread i).ch1 } false)
  | .linkOut k => some (bits (s.link k) false)
  | _ => some (bits ((s.chanOf i p).getD {}) true)

/-- CHFLUSH of a link channel, or of a search result port of all seven pool threads (R157). -/
def State.chflush (s : State) (i ch : Nat) : State :=
  let n := stnOf i
  if 6 ≤ ch ∧ ch ≤ 13 then
    let k := coreOf i * 8 + (ch - 6)
    let (t, c) := (s.link k).flush s.coreNow
    (s.setLink k c).count (stn2R n (0x20 + (ch - 6) * 4)) 0 32 t
  else if 2 ≤ ch ∧ ch ≤ 5 then
    (List.range 7).foldl (fun s t =>
      let j := coreOf i * 8 + t
      let (k, c) := (s.result (j * 4 + (ch - 2))).flush s.coreNow
      let s := (s.setResult (j * 4 + (ch - 2)) c).count (stn2R n 0x1C) 0 32 k
      { s with cpu := { s.cpu with reqs := s.cpu.reqs.map (fun (q : Srq) =>
          if q.thread = j ∧ q.port = ch - 2 then { q with discarded := true } else q) } }) s
  else s

/-- FORK (R149): the lowest free helper starts at w[ra] with w1 := w[rb] and the binding. -/
def State.fork (s : State) (i rd ra rb : Nat) : Eff :=
  let x := s.thread i
  let a := (x.get ra).toNat
  if 0xFFFF < a then .trap 2 a
  else if a % 4 ≠ 0 then .trap 1 a
  else
    match (List.range 7).find? (fun t => let j := coreOf i * 8 + t; !s.isDispatch j && (s.thread j).run == .free) with
    | none => .next (s.modThread i (fun x => x.put rd (BitVec.allOnes 64)))
    | some t =>
      let s := s.modThread (coreOf i * 8 + t) (fun y =>
        { (y.closeLoads.put 1 (x.get rb)) with pc := BitVec.ofNat 16 a, run := .ready, binding := x.binding, parent := some i, loads := [] })
      .next (s.modThread i (fun x => x.put rd (BitVec.ofNat 64 t)))

/-- JOIN collects the quit value of the helper: it becomes free (R150). -/
def State.collect (s : State) (i rd j : Nat) : State :=
  let v := (s.thread j).get 1
  (s.modThread j (fun y => { y with run := .free, binding := none, parent := none })).modThread i (fun x => x.put rd v)

/-- JOIN rd, t (R150). -/
def State.join (s : State) (i rd t : Nat) : Eff :=
  let j := coreOf i * 8 + t
  if t < 7 ∧ !s.isDispatch j ∧ (s.thread j).parent = some i ∧ (s.thread j).run ≠ .free then
    if (s.thread j).run = .quit then .next (s.collect i rd j) else .wait s (.join rd t)
  else .next (s.modThread i (fun x => x.put rd (BitVec.allOnes 64)))

/-- QUIT (R150): a helper stops with its value, w1 as it now reads, uncollected; a dispatch thread returns to the leg entry without
    a LATE notice. -/
def State.quit (s : State) (i : Nat) : Eff :=
  if s.isDispatch i then
    .done (match (s.thread i).binding with
      | some q => s.returnServer i q false
      | none => s.returnThread i)
  else .done ((s.releaseCry i).modThread i (fun x => { x with run := .quit }))

/-- A waiting thread completes its instruction (R130). -/
def State.wake (s : State) (i : Nat) : State := s.modThread i (fun x => { x with run := .ready, pc := x.pc + 4 })

/-- The next CORE cycle, where `later` asks for it: what has happened in this one takes effect from the next. -/
def State.nextCycle (s : State) (later : Bool) : State := if later then s.advance ((s.coreNow + 1) * coreU) else s

/-- CHRD_RESUME: a word has become readable, one written in this cycle in the next (R154). -/
def State.chrdResume (s : State) (i : Nat) : State :=
  match (s.thread i).run with
  | .waiting (.chrd rd ch) =>
    let p := s.portOf i ch
    match s.chanOf i p with
    | none => s
    | some c =>
      let u := s.nextCycle (!c.words.isEmpty && !c.readable s.coreNow)
      match c.read u.coreNow with
      | some (v, c) => ((u.setChanOf i p c).modThread i (fun x => x.put rd v)).wake i
      | none => s
  | _ => s

/-- CHWR_RESUME: the depth has fallen below 4; after a flush the producer goes on in the cycle after it (R154, R157). -/
def State.chwrResume (s : State) (i : Nat) : State :=
  match (s.thread i).run with
  | .waiting (.chwr ch v last) => match s.portOf i ch with
    | .linkOut k =>
      if (s.link k).depth < 4 then ((s.nextCycle ((s.link k).flushed == some s.coreNow)).linkWrite k v last).wake i else s
    | _ => s
  | _ => s

/-- JOIN_RESUME: the helper has quit. -/
def State.joinResume (s : State) (i : Nat) : State :=
  match (s.thread i).run with
  | .waiting (.join rd t) =>
    let j := coreOf i * 8 + t
    if (s.thread j).run = .quit then (s.collect i rd j).wake i
    else if (s.thread j).run = .free then (s.modThread i (fun x => x.put rd (BitVec.allOnes 64))).wake i else s
  | _ => s

/-- TRAP_ITEM_DEFERRED_SEND: the oldest deferred item of core c goes out when ch14 has room (R134). -/
def State.sendDeferred (s : State) (c : Nat) : State :=
  match s.deferred c with
  | [] => s
  | it :: rest => if (s.ch14 c).depth < 4 then (s.setDeferred c rest).setCh14 c (((s.ch14 c).pushItem it).stamp s.coreNow it.length) else s

/-- A pool thread is blocked internally (R160). -/
def State.blocked (s : State) (i : Nat) : Bool := match (s.thread i).run with
  | .waiting (.chrd _ ch) => match s.portOf i ch with
    | .linkIn k => (s.link k).words.isEmpty
    | _ => false
  | .waiting (.chwr ch _ _) => match s.portOf i ch with
    | .linkOut k => 4 ≤ (s.link k).depth
    | _ => false
  | .waiting (.join _ _) => true
  | _ => false

/-- STANDSTILL: 1,024 cycles with a pool thread blocked and none issuing (R160). -/
def State.standstill (s : State) (c : Nat) : State :=
  if s.coreRuns c ∧ (List.range 7).any (fun t => s.blocked (c * 8 + t)) ∧ !(aget (fun _ => false) s.cpu.stood c) then
    let s := s.advance ((aget (fun _ => 0) s.cpu.lastIssue c + 1024) * coreU)
    let s := { s with cpu := { s.cpu with stood := aset (fun _ => false) s.cpu.stood c true } }
    let n := c / 10
    let s := s.sendItem c (trapItem 10 7 false 0 0)
    let s := (s.count (stn2R n 0x10) 0 16).setFld (stn2R n 0x10) 16 4 (s.coreSlot c)
    s.stnRaise c 0 0 0
  else s

/-! ### Meanings -/

/-- CHRD (Table 5.5). -/
def execChrd (h : Hart) (rd : BitVec 5) (ch : BitVec 4) (s : State) : Host.Outcome State Fault Refusal :=
  .next (s.issueP h (encC 0x30 rd.toNat ch.toNat 0) true true (fun i s => s.chrd i rd.toNat ch.toNat))

/-- CHRD_RESUME (R154). -/
def execChrdResume (n : Fin 16) (k : Fin 10) (t : Fin 8) (s : State) : Host.Outcome State Fault Refusal :=
  .next (s.chrdResume (threadId n k t))

/-- CHWR (Table 5.5). -/
def execChwr (h : Hart) (ra : BitVec 5) (ch : BitVec 4) (last : Bool) (s : State) : Host.Outcome State Fault Refusal :=
  .next (s.issueP h (encC 0x31 ra.toNat ch.toNat (if last then 1 else 0)) true true
    (fun i s => s.chwr i ch.toNat ((s.thread i).get ra.toNat) last))

/-- CHWR_RESUME (R154). -/
def execChwrResume (n : Fin 16) (k : Fin 10) (t : Fin 8) (s : State) : Host.Outcome State Fault Refusal :=
  .next (s.chwrResume (threadId n k t))

/-- CHPOLL (Table 5.5). -/
def execChpoll (h : Hart) (rd : BitVec 5) (ch : BitVec 4) (s : State) : Host.Outcome State Fault Refusal :=
  .next (s.issueP h (encC 0x32 rd.toNat ch.toNat 0) true true (fun i s => match s.chpoll i ch.toNat with
    | some v => .next (s.modThread i (fun x => x.put rd.toNat v))
    | none => .trap 5 ch.toNat))

/-- CHFLUSH: t7 only (R157). -/
def execChflush (h : Hart) (ch : BitVec 4) (s : State) : Host.Outcome State Fault Refusal :=
  .next (s.issueP h (encC 0x33 0 ch.toNat 0) (match h with | .pkt _ _ t => t == 7 | .ctl _ => false) true
    (fun i s => .next (s.chflush i ch.toNat)))

/-- FORK (Table 5.5); a trap condition in t7 (R152). -/
def execFork (h : Hart) (rd ra rb : BitVec 5) (s : State) : Host.Outcome State Fault Refusal :=
  .next (s.issueP h (encA 0x34 rd.toNat ra.toNat rb.toNat 0) true true
    (fun i s => if thrOf i = 7 then .trap 0 (encA 0x34 rd.toNat ra.toNat rb.toNat 0) else s.fork i rd.toNat ra.toNat rb.toNat))

/-- JOIN (Table 5.5, R150). -/
def execJoin (h : Hart) (rd ra : BitVec 5) (s : State) : Host.Outcome State Fault Refusal :=
  .next (s.issueP h (encA 0x35 rd.toNat ra.toNat 0 0) true true
    (fun i s => if thrOf i = 7 then .trap 0 (encA 0x35 rd.toNat ra.toNat 0 0)
      else s.join i rd.toNat (getField ((s.thread i).get ra.toNat) 0 3)))

/-- JOIN_RESUME (R150). -/
def execJoinResume (n : Fin 16) (k : Fin 10) (t : Fin 8) (s : State) : Host.Outcome State Fault Refusal :=
  .next (s.joinResume (threadId n k t))

/-- QUIT (R150). -/
def execQuit (h : Hart) (s : State) : Host.Outcome State Fault Refusal :=
  .next (s.issueP h (encA 0x36 0 0 0 0) true false
    (fun i s => if thrOf i = 7 then .trap 0 (encA 0x36 0 0 0 0) else s.quit i))

/-- TRAP_ITEM_DEFERRED_SEND (R134). -/
def execTrapItemDeferredSend (n : Fin 16) (k : Fin 10) (s : State) : Host.Outcome State Fault Refusal :=
  .next (s.sendDeferred (n * 10 + k))

/-- STANDSTILL (R160). -/
def execStandstill (n : Fin 16) (k : Fin 10) (s : State) : Host.Outcome State Fault Refusal :=
  .next (s.standstill (n * 10 + k))

end Sys2Proof.Machine
end

