-- ==== Sys2Proof/Machine/Xops.lean ====
section
/-!
DEFINITION. Machine/Xops.lean: the coprocessors TAU, HSH and CRY, the scoreboard bits and late errors (R161–R167). Operands are
read in the cycle an operation is accepted, or when the tail it waits for is written (log entry 21).
-/
namespace Sys2Proof.Machine

/-- What a unit answers: result words, late error, latency in CORE cycles, source raised. -/
structure XAns where
  words : List DWord := []
  late : Option Nat := none
  lat : Nat := 1
  src : Option Nat := none
  deriving DecidableEq, Repr

/-- A result with its status in word 3 (R161). -/
def okWords (w0 w1 w2 : Nat) (status lat : Nat) : XAns :=
  { words := [BitVec.ofNat 64 w0, BitVec.ofNat 64 w1, BitVec.ofNat 64 w2, BitVec.ofNat 64 status], lat := lat }

def lateErr (code : Nat) (src : Option Nat := none) : XAns := { late := some code, lat := 2, src := src }

/-- Word 0 and word 1 of a time in 2^-16 ns (Table 6.3). -/
def timeWord0 (v : Nat) : Nat := sec16 v % 2 ^ 32 * 2 ^ 32 + ns16 v
def timeWord1 (v : Nat) : Nat := sec16 v / 2 ^ 32 * 65536 + frac16 v

/-- Word 3 of a TAU result with an R69 code. -/
def tauStatus (c : Conv) : Nat := if c = .ok then 0 else 3 + c.code * 256

/-- TAU (Table 6.3). -/
def State.tau (s : State) (i fn : Nat) (a b : DWord) : XAns × State :=
  let sec := fun (w : DWord) => getField w 32 32
  let ns := fun (w : DWord) => getField w 0 32
  match fn with
  | 0 =>
    let n := getField a 0 4
    if 8 < n then (lateErr 0x81, s)
    else
      let (v, c, s) := s.stampIn n s.now
      (okWords (timeWord0 v) (timeWord1 v) 0 (tauStatus c) 6, s)
  | 1 =>
    let m := getField b 32 4
    let n := getField b 36 4
    if 1000000000 ≤ ns a ∨ 8 < m ∨ 8 < n then (lateErr 0x81, s)
    else
      let (v, c, s) := s.convert m n (join16 (getField b 16 16 * 2 ^ 32 + sec a) (ns a) (getField b 0 16))
      (okWords (timeWord0 v) (timeWord1 v) 0 (tauStatus c) 12, s)
  | 2 =>
    if 1000000000 ≤ ns a then (lateErr 0x81, s)
    else
      let t := (((sec a * 1000000000 + ns a : Nat) : Int) + b.toInt) % (2 ^ 32 * 1000000000)
      (okWords (t.toNat / 1000000000 * 2 ^ 32 + t.toNat % 1000000000) 0 0 0 3, s)
  | 3 =>
    if 1000000000 ≤ ns a ∨ 1000000000 ≤ ns b then (lateErr 0x81, s)
    else
      let d : Int := (((sec a : Int) - sec b + 2 ^ 31) % 2 ^ 32) - 2 ^ 31
      (okWords (intBits 64 (d * 1000000000 + ns a - ns b)) 0 0 0 3, s)
  | _ =>
    match (s.thread i).binding.bind s.coach with
    | none => (lateErr 0x83, s)
    | some c =>
      let (v, st, s) := s.stampIn (c.fld 212 16 4) s.now
      let ts := join16 (c.fld 208 0 32) (c.fld 204 0 32) (c.fld 212 0 16)
      let m : Int := 2 ^ 32 * 1000000000 * 2 ^ 16
      let d : Int := (((v : Int) - ts + m / 2) % m) - m / 2
      (okWords (intBits 64 d) 0 0 (tauStatus st) 8, s)

/-! ### Local windows (Table 5.4) -/

/-- Physical address of a local address of the data scratch or of station shared memory. -/
def localPa (i ea : Nat) : Nat :=
  if ea < 0x20000 then 0x10800000 + stnOf i * 0x1000000 + coreOf i % 10 * 0x40000 + 0x20000 + ea
  else 0x10000000 + stnOf i * 0x1000000 + (ea - 0x200000)

/-- Which window of Table 5.4 holds [ea, ea + n): 0 data scratch, 1 coach, 2 shared memory, 3 lock aliases. -/
def windowOf (ea n : Nat) : Option Nat :=
  if ea + n ≤ 0x20000 then some 0
  else if 0x20000 ≤ ea ∧ ea + n ≤ 0x20100 then some 1
  else if 0x200000 ≤ ea ∧ ea + n ≤ 0x400000 then some 2
  else if 0x8000200000 ≤ ea ∧ ea + n ≤ 0x8000400000 then some 3
  else none

/-- An 8-byte word of [a, a + n) has an uncorrectable error. -/
def State.rangeUpset (s : State) (a n : Nat) : Bool :=
  (List.range (n / 8 + 2)).any (fun j => decide (a / 8 + j < (a + n + 7) / 8) && s.upset (a + j * 8))

/-- The source that an uncorrectable error in a local operand raises (Table 6.6). -/
def eccSrc (ea : Nat) : Nat := if ea < 0x20000 then Src.scratchEcc else if ea < 0x20100 then Src.coachEcc else Src.stnMemEcc

/-- The bytes of a local range, or the late error: outside its window, no coach, an uncorrectable word (R163, R164). -/
def State.localBytes (s : State) (i ea n : Nat) : Except Nat (List Byte) :=
  match windowOf ea n with
  | some 1 => match (s.thread i).binding.bind s.coach with
    | some c => if c.ecc then .error 0x82 else .ok (c.bytes (ea - 0x20000) n)
    | none => .error 0x83
  | some 0 => if s.rangeUpset (localPa i ea) n then .error 0x82 else .ok (s.bytes (localPa i ea) n)
  | some 2 => if s.rangeUpset (localPa i ea) n then .error 0x82 else .ok (s.cbytes (localPa i ea) n)
  | _ => .error 0x81

/-- HSH (Table 6.4): the answer, and for how many cycles the unit streams. -/
def State.hsh (s : State) (i fn : Nat) (a b : DWord) : XAns :=
  if fn = 3 then
    let l := bytesLE 8 a.toNat ++ bytesLE 8 b.toNat
    okWords (crc32c l) (crc32 l) 0 0 4
  else
    let n := getField b 0 18
    let init := getField b 32 32
    if n = 0 ∨ 131072 < n then lateErr 0x81
    else match s.localBytes i a.toNat n with
      | .error e => lateErr e (if e = 0x82 then some (eccSrc a.toNat) else none)
      | .ok l =>
        let w := match fn with
          | 0 => crcRun 0x82F63B78 init l ^^^ 0xFFFFFFFF
          | 1 => crcRun 0xEDB88320 init l ^^^ 0xFFFFFFFF
          | _ => crc0 l
        okWords w 0 0 0 (4 + (n + 15) / 16)

/-! ### CRY (R165–R167) -/


def State.holdsCry (s : State) (i : Nat) : Bool :=
  let c := s.cry (stnOf i)
  c.holder == some i && !c.releasing

/-- The lock of station n can be taken at once: none holds it or waits for it, and it was not released in this cycle (R165). -/
def State.cryFree (s : State) (n : Nat) : Bool :=
  let c := s.cry n
  c.holder.isNone && c.queue.isEmpty && c.freedAt != some s.coreNow

/-- Requests for the lock in one cycle are queued by dispatch slot, then by thread (R165). -/
def State.cryRank (s : State) (i : Nat) : Nat := s.coreSlot (coreOf i) * 8 + thrOf i

/-- A request joins the queue of station n, before the requests of the same cycle that rank after it. -/
def State.cryJoin (s : State) (n i k ctx : Nat) : State :=
  let c := s.cry n
  let after := fun (w : Nat × Nat × Nat) => decide (s.cryRank i < s.cryRank w.1) &&
    (((aget (fun _ => {}) (s.thread w.1).xs w.2.1 : XsSt).op.map (·.issued)) == some s.coreNow)
  let keep := c.queue.length - (c.queue.reverse.takeWhile after).length
  s.setCry n { c with queue := c.queue.take keep ++ (i, k, ctx) :: c.queue.drop keep }

/-- The holder found the lock free in this cycle, and thread i's request of the same cycle ranks before its own. -/
def State.cryOutranks (s : State) (n i : Nat) : Option (Nat × Nat) :=
  match (s.cry n).holder, (s.cry n).took with
  | some h, some (cyc, k) => if cyc = s.coreNow ∧ h ≠ i ∧ s.cryRank i < s.cryRank h then some (h, k) else none
  | _, _ => none

/-- Thread i takes the lock of station n with context address `ctx`; `k` is the scoreboard bit of its request. -/
def State.cryTake (s : State) (n i k ctx : Nat) : State :=
  let c := s.cry n
  s.setCry n { c with holder := some i, ctx := ctx, releasing := false, took := some (s.coreNow, k) }

/-- The lock goes from a holder of this cycle, whose request then waits at the head of the queue, to the request that ranks before. -/
def State.cryYield (s : State) (n h kh i k ctx : Nat) : State :=
  let c := s.cry n
  let s := s.modThread h (fun x =>
    let e : XsSt := aget (fun _ => {}) x.xs kh
    { x with xs := aset (fun _ => {}) x.xs kh { e with op := e.op.map (fun (o : XOp) => { o with due := none, words := [] }) } })
  (s.setCry n { c with queue := (h, kh, c.ctx) :: c.queue }).cryTake n i k ctx

/-- Whether [off, off + n) lies in the body of the coach. -/
def Coach.within (c : Coach) (off n : Nat) : Bool := off + n ≤ c.bodyLen

/-- The yard words of the coach's chain that [off, off + n) of its body takes in, and that have an uncorrectable error (R164, R236). -/
def State.bodyBad (s : State) (c : Coach) (off n : Nat) : Option Nat :=
  let lo := (max off 192 - 192) / 32
  let hi := if off + n ≤ 192 then 0 else (off + n - 192 + 31) / 32
  ((List.range (hi - lo)).map (fun j => s.bufAddr 0 (c.cells.getD ((lo + j) / 8) 0) / 32 + (lo + j) % 8)).find?
    (fun w => aget (fun _ => false) s.pool.badWords w)

/-- The uncorrectable error that an operation over a body meets: the source, or the yard word. -/
def State.bodyEcc (s : State) (c : Coach) (ranges : List (Nat × Nat)) : Option (Nat ⊕ Nat) :=
  if c.ecc ∧ ranges.any (fun r => r.1 < 192 && 0 < r.2) then some (.inl Src.coachEcc)
  else (ranges.findSome? (fun r => if r.2 = 0 then none else s.bodyBad c r.1 r.2)).map .inr

/-- The context that an operation uses: loaded when another one, or none, is resident (R166); or its late error. -/
def State.cryContext (s : State) (n : Nat) : Except Nat (List Byte × Bool × State) :=
  let c := s.cry n
  match c.resident with
  | some (a, l) => if a = c.ctx then .ok (l, false, s) else load c
  | none => load c
where
  load (c : Cry) : Except Nat (List Byte × Bool × State) :=
    let a := 0x10000000 + n * 0x1000000 + (c.ctx - 0x200000)
    if windowOf c.ctx 64 ≠ some 2 ∨ c.ctx % 64 ≠ 0 then .error 0x81
    else if s.rangeUpset a 64 then .error 0x82
    else .ok (s.cbytes a 64, true, s.setCry n { c with resident := some (c.ctx, s.cbytes a 64) })

/-- TAG and VERIFY over a body whose length is final (R166, R167). -/
def State.cryTag (s : State) (i : Nat) (verify : Bool) (a b : DWord) (c : Coach) : XAns × State :=
  let n := stnOf i
  let off := getField a 0 16
  let len := getField a 16 16
  let aad := getField a 32 16
  let ivOff := getField b 0 16
  let ivGen := getField b 16 1 == 1
  let tagOff := getField b 32 16
  let tagLen := getField b 48 5
  match s.cryContext n with
  | .error e => (lateErr e (if e = 0x82 then some Src.stnMemEcc else none), s)
  | .ok (ctx, loaded, s) =>
    let flags := le ctx 36 4
    let key := ctx.take (if bitsOf flags 1 1 = 1 then 32 else 16)
    let mode := bitsOf flags 2 2
    let at_ := 0x10000000 + n * 0x1000000 + ((s.cry n).ctx - 0x200000) + 40
    let counter := s.cnum at_ 8
    let reads := (off, len) :: ((if mode = 0 ∧ ivGen = false then [(ivOff, 12)] else []) ++ (if verify then [(tagOff, tagLen)] else []))
    if bitsOf flags 0 1 = 0 ∨ 2 ≤ mode then (lateErr 0x85, s)
    else if !c.within off len ∨ (mode = 0 ∧ (len < aad ∨ (ivGen = false ∧ !c.within ivOff 12)))
        ∨ (verify = true ∧ (tagLen < 4 ∨ 16 < tagLen ∨ !c.within tagOff tagLen)) then (lateErr 0x81, s)
    else if mode = 0 ∧ ivGen = true ∧ s.upset at_ then (lateErr 0x82 (some Src.stnMemEcc), s)
    else if mode = 0 ∧ ivGen = true ∧ counter = 2 ^ 64 - 1 then (lateErr 0x86 (some Src.cryptoPn), s)
    else match s.bodyEcc c reads with
    | some (.inl src) => (lateErr 0x82 (some src), s)
    | some (.inr w) => (lateErr 0x82, s.noteYard w)
    | none =>
      let body := s.bodyBytes c c.bodyLen
      let msg := slice body off len
      let iv := if ivGen then slice ctx 32 4 ++ bytesBE 8 counter else slice body ivOff 12
      let tag := if mode = 1 then cmac key msg else gcmTag key iv (msg.take aad) (msg.drop aad)
      let s := if mode = 0 ∧ ivGen = true then s.writeNum at_ 8 (counter + 1) else s
      let bad := verify && tag.take tagLen != slice body tagOff tagLen
      ({ okWords (le tag 0 8) (le tag 8 8) (if mode = 0 ∧ ivGen = true then counter else 0) (if bad then 1 else 0)
          (24 + (len + 15) / 16 + (if loaded then 40 else 0)) with src := if bad then some Src.cryptoAuth else none }, s)

/-- TAG and VERIFY for coach q: none while the tail is not written (R164). -/
def State.cryBody (s : State) (i : Nat) (q : Option Nat) (verify : Bool) (a b : DWord) : Option XAns × State :=
  match q.bind s.coach with
  | none => (some (lateErr 0x83), s)
  | some k =>
    if !k.lenFinal then (none, s)
    else
      let (r, s) := s.cryTag i verify a b k
      (some r, s)

/-- What a CRY operation of scoreboard bit k answers: none while it waits for the lock or for a tail. -/
def State.cryOp (s : State) (i k fn : Nat) (a b : DWord) : Option XAns × State :=
  let n := stnOf i
  let c := s.cry n
  if s.absent (unitId 6 n) then (some (okWords 0 0 0 2 1), s)
  else match fn with
    | 0 =>
      if s.holdsCry i then (some (okWords 0 0 0 0 2), s.setCry n { c with ctx := a.toNat })
      else if s.cryFree n then (some (okWords 0 0 0 0 2), s.cryTake n i k a.toNat)
      else match s.cryOutranks n i with
        | some (h, kh) => (some (okWords 0 0 0 0 2), s.cryYield n h kh i k a.toNat)
        | none => (none, s.cryJoin n i k a.toNat)
    | 1 => (some (okWords 0 0 0 0 1), s.releaseCry i)
    | 4 => if s.holdsCry i then (some (okWords 0 0 0 0 4), s.setCry n { c with resident := none }) else (some (lateErr 0x84), s)
    | _ => if s.holdsCry i then s.cryBody i (s.thread i).binding (fn == 3) a b else (some (lateErr 0x84), s)

/-! ### Accepting and answering an operation -/

/-- The answer of an operation, or none while it waits. -/
def State.xopAnswer (s : State) (i k unit fn : Nat) (a b : DWord) : Option XAns × State :=
  match unit with
  | 0 => let (r, s) := s.tau i fn a b; (some r, s)
  | 1 => (some (s.hsh i fn a b), s)
  | _ => s.cryOp i k fn a b

def Thread.xsOf (x : Thread) (k : Nat) : XsSt := aget (fun _ => {}) x.xs k
def Thread.setXs (x : Thread) (k : Nat) (v : XsSt) : Thread := { x with xs := aset (fun _ => {}) x.xs k v }

/-- Scoreboard bit k takes an operation in this cycle (R161). -/
def State.xopAccept (s : State) (i k unit fn : Nat) (a b : DWord) : State :=
  let cyc := s.coreNow
  let (r, s) := s.xopAnswer i k unit fn a b
  let op : XOp := match r with
    | some r => { unit := unit, fn := fn, a := a, b := b, issued := cyc, due := some (cyc + r.lat), words := r.words,
                  late := r.late, src := r.src, coach := (s.thread i).binding }
    | none => { unit := unit, fn := fn, a := a, b := b, issued := cyc, due := none, coach := (s.thread i).binding, tail := fn != 0 }
  let s := if unit = 1 ∧ fn < 3 then
      { s with cpu := { s.cpu with hsh := aset (fun _ => 0) s.cpu.hsh (coreOf i) (cyc + (getField b 0 18 + 15) / 16) } } else s
  let s := if unit < 2 then
      { s with cpu := { s.cpu with xopAt := aset (fun _ => 0) s.cpu.xopAt (coreOf i * 2 + unit) (cyc + 1) } } else s
  s.modThread i (fun x => x.setXs k { x.xsOf k with op := some op })

/-- An XOP that cannot be accepted now: its bit is busy, or its unit has taken one in this cycle, or HSH streams (R161, R162). -/
def State.xopBlocked (s : State) (i k unit : Nat) : Bool :=
  ((s.thread i).xsOf k).op.isSome || (unit == 1 && decide (s.coreNow < aget (fun _ => 0) s.cpu.hsh (coreOf i)))
    || (decide (unit < 2) && aget (fun _ => 0) s.cpu.xopAt (coreOf i * 2 + unit) == s.coreNow + 1)

/-- An XOP issues, or waits (R161, R162); t7 has no CRY (R152). -/
def State.xop (s : State) (h : Hart) (k : BitVec 3) (unit fn : Nat) (ra rb : BitVec 5) : State :=
  let word := encX k.toNat unit ra.toNat rb.toNat fn
  s.issueP h word true true (fun i s =>
    let a := (s.thread i).get ra.toNat
    let b := (s.thread i).get rb.toNat
    if thrOf i = 7 ∧ unit = 2 then .trap 0 word
    else if s.xopBlocked i k.toNat unit then .wait s (.xop k.toNat unit fn a b)
    else .next (s.xopAccept i k.toNat unit fn a b))

/-- XOP_RESUME: a waiting XOP is accepted. -/
def State.xopResume (s : State) (i : Nat) : State :=
  match (s.thread i).run with
  | .waiting (.xop k unit fn a b) => if s.xopBlocked i k unit then s else (s.xopAccept i k unit fn a b).wake i
  | _ => s

/-- An operation that waited for a tail is computed once the tail is written, for the coach it was issued for and under the lock that
    its thread held then, which it keeps from passing on (R164, R165). -/
def State.xopTail (s : State) (i k : Nat) : State :=
  let x := (s.thread i).xsOf k
  match x.op with
  | some o =>
    if o.tail ∧ o.due = none then
      match s.cryBody i o.coach (o.fn == 3) o.a o.b with
      | (some r, s) => s.modThread i (fun t => t.setXs k { x with op := some { o with due := some (s.coreNow + r.lat), words := r.words, late := r.late, src := r.src, tail := false } })
      | (none, _) => s
    else s
  | none => s

/-- A source that an operation of thread i raises with its answer: of CRY with station, owner and context (Table 16.11). -/
def State.lateRaise (s : State) (i src : Nat) : State :=
  if src = Src.cryptoAuth ∨ src = Src.cryptoPn then s.raiseU src [stnOf i + i * 65536, (s.cry (stnOf i)).ctx] (unitId 6 (stnOf i))
  else s.raise src

/-- XOP_RESULT: the result becomes readable and xs clears (R161); a result of a returned thread is discarded (R31). -/
def State.xopResult (s : State) (i k : Nat) : State :=
  let s := s.xopTail i k
  let x := (s.thread i).xsOf k
  match x.op with
  | some o => match o.due, o.late with
    | some d, none =>
      let s := s.advance (d * coreU)
      let s := match o.src with
        | some c => s.lateRaise i c
        | none => s
      let s := s.modThread i (fun t => t.setXs k { op := none, words := if o.discarded then x.words else o.words })
      let s := match o.coach with
        | some q => if o.words.getD 3 0 = 2 ∧ !o.discarded then s.dropCoach q 12 3 else s
        | none => s
      s.settleCry (stnOf i)
    | _, _ => s
  | none => s

/-- XOP_LATE_ERROR: xs clears, STN_XERRn records it, and the thread takes trap XOP (R163). -/
def State.xopLate (s : State) (i k : Nat) : State :=
  let s := s.xopTail i k
  let x := (s.thread i).xsOf k
  match x.op with
  | some o => match o.late with
    | some e =>
      let s := s.advance (o.due.getD (o.issued + 2) * coreU)
      let s := match o.src with
        | some c => s.lateRaise i c
        | none => s
      let a := stn2R (stnOf i) 0x18
      let s := ((s.setFld a 0 8 e).setFld a 8 2 o.unit).setFld a 10 12 i
      let s := s.count a 22 10
      let s := s.modThread i (fun t => t.setXs k { op := none, words := if o.discarded then x.words else [0, 0, 0, BitVec.ofNat 64 e] })
      let s := s.settleCry (stnOf i)
      let t := s.thread i
      let value := o.unit + k * 16 + e * 256
      if o.discarded then s
      else if t.run = .free ∨ t.run = .quit then s.sendItem (coreOf i) (trapItem 6 (thrOf i) true t.pc.toNat value)
      else s.trapThread i 6 true value
    | none => s
  | none => s

/-- XGET (R161). -/
def State.xget (s : State) (i rd k w : Nat) : Eff :=
  let x := (s.thread i).xsOf k
  if x.op.isSome then .wait s (.xget rd k w) else .next (s.modThread i (fun t => t.put rd (x.words.getD w 0)))

/-- XGET_RESUME. -/
def State.xgetResume (s : State) (i : Nat) : State :=
  match (s.thread i).run with
  | .waiting (.xget rd k w) =>
    let x := (s.thread i).xsOf k
    if x.op.isSome then s else (s.modThread i (fun t => t.put rd (x.words.getD w 0))).wake i
  | _ => s

/-- CRY_LOCK_GRANT: the lock is released and the next waiter holds it (R165). -/
def State.cryGrant (s : State) (n : Nat) : State :=
  let s := s.settleCry n
  let c := s.cry n
  if c.holder.isSome then s
  else match c.queue with
    | [] => s
    | (i, k, ctx) :: rest =>
      let s := s.nextCycle (c.freedAt == some s.coreNow)
      let s := s.setCry n { c with holder := some i, ctx := ctx, releasing := false, queue := rest, took := none }
      let x := (s.thread i).xsOf k
      s.modThread i (fun t => t.setXs k { x with op := x.op.map (fun (o : XOp) => { o with due := some (s.coreNow + 2), words := [0, 0, 0, 0] }) })

/-- A fence of CRY: the lock is released, the queue emptied with ABSENT, the context dropped (R167). -/
def State.cryFence (s : State) (n : Nat) : State :=
  let c := s.cry n
  let s := c.queue.foldl (fun s w => s.modThread w.1 (fun t =>
    let x := t.xsOf w.2.1
    t.setXs w.2.1 { x with op := x.op.map (fun (o : XOp) => { o with due := some (o.issued + 1), words := [0, 0, 0, 2] }) })) s
  s.setCry n {}

/-! ### Meanings -/

/-- XOP TAU NOW (Tables 6.3 to 6.5). -/
def execTauNow (h : Hart) (xs : BitVec 3) (ra rb : BitVec 5) (s : State) : Host.Outcome State Fault Refusal :=
  .next (s.xop h xs 0 0 ra rb)

/-- XOP TAU CONV (Tables 6.3 to 6.5). -/
def execTauConv (h : Hart) (xs : BitVec 3) (ra rb : BitVec 5) (s : State) : Host.Outcome State Fault Refusal :=
  .next (s.xop h xs 0 1 ra rb)

/-- XOP TAU ADDNS (Tables 6.3 to 6.5). -/
def execTauAddns (h : Hart) (xs : BitVec 3) (ra rb : BitVec 5) (s : State) : Host.Outcome State Fault Refusal :=
  .next (s.xop h xs 0 2 ra rb)

/-- XOP TAU DIFF (Tables 6.3 to 6.5). -/
def execTauDiff (h : Hart) (xs : BitVec 3) (ra rb : BitVec 5) (s : State) : Host.Outcome State Fault Refusal :=
  .next (s.xop h xs 0 3 ra rb)

/-- XOP TAU RESID (Tables 6.3 to 6.5). -/
def execTauResid (h : Hart) (xs : BitVec 3) (ra rb : BitVec 5) (s : State) : Host.Outcome State Fault Refusal :=
  .next (s.xop h xs 0 4 ra rb)

/-- XOP HSH CRC32C (Tables 6.3 to 6.5). -/
def execHshCrc32c (h : Hart) (xs : BitVec 3) (ra rb : BitVec 5) (s : State) : Host.Outcome State Fault Refusal :=
  .next (s.xop h xs 1 0 ra rb)

/-- XOP HSH CRC32 (Tables 6.3 to 6.5). -/
def execHshCrc32 (h : Hart) (xs : BitVec 3) (ra rb : BitVec 5) (s : State) : Host.Outcome State Fault Refusal :=
  .next (s.xop h xs 1 1 ra rb)

/-- XOP HSH CRC0 (Tables 6.3 to 6.5). -/
def execHshCrc0 (h : Hart) (xs : BitVec 3) (ra rb : BitVec 5) (s : State) : Host.Outcome State Fault Refusal :=
  .next (s.xop h xs 1 2 ra rb)

/-- XOP HSH HASH (Tables 6.3 to 6.5). -/
def execHshHash (h : Hart) (xs : BitVec 3) (ra rb : BitVec 5) (s : State) : Host.Outcome State Fault Refusal :=
  .next (s.xop h xs 1 3 ra rb)

/-- XOP CRY ACQ (Tables 6.3 to 6.5). -/
def execCryAcq (h : Hart) (xs : BitVec 3) (ra rb : BitVec 5) (s : State) : Host.Outcome State Fault Refusal :=
  .next (s.xop h xs 2 0 ra rb)

/-- XOP CRY REL (Tables 6.3 to 6.5). -/
def execCryRel (h : Hart) (xs : BitVec 3) (ra rb : BitVec 5) (s : State) : Host.Outcome State Fault Refusal :=
  .next (s.xop h xs 2 1 ra rb)

/-- XOP CRY TAG (Tables 6.3 to 6.5). -/
def execCryTag (h : Hart) (xs : BitVec 3) (ra rb : BitVec 5) (s : State) : Host.Outcome State Fault Refusal :=
  .next (s.xop h xs 2 2 ra rb)

/-- XOP CRY VERIFY (Tables 6.3 to 6.5). -/
def execCryVerify (h : Hart) (xs : BitVec 3) (ra rb : BitVec 5) (s : State) : Host.Outcome State Fault Refusal :=
  .next (s.xop h xs 2 3 ra rb)

/-- XOP CRY SYNC (Tables 6.3 to 6.5). -/
def execCrySync (h : Hart) (xs : BitVec 3) (ra rb : BitVec 5) (s : State) : Host.Outcome State Fault Refusal :=
  .next (s.xop h xs 2 4 ra rb)

/-- XOP_RESUME (R161, R162). -/
def execXopResume (n : Fin 16) (k : Fin 10) (t : Fin 8) (s : State) : Host.Outcome State Fault Refusal :=
  .next (s.xopResume (threadId n k t))

/-- XOP_RESULT (R161). -/
def execXopResult (n : Fin 16) (k : Fin 10) (t : Fin 8) (xs : Fin 8) (s : State) : Host.Outcome State Fault Refusal :=
  .next (s.xopResult (threadId n k t) xs)

/-- XOP_LATE_ERROR (R163). -/
def execXopLateError (n : Fin 16) (k : Fin 10) (t : Fin 8) (xs : Fin 8) (s : State) : Host.Outcome State Fault Refusal :=
  .next (s.xopLate (threadId n k t) xs)

/-- CRY_LOCK_GRANT (R165). -/
def execCryLockGrant (n : Fin 16) (s : State) : Host.Outcome State Fault Refusal :=
  .next (s.cryGrant n)

/-- XGET (Table 5.5). -/
def execXget (h : Hart) (rd : BitVec 5) (xs : BitVec 3) (word : BitVec 2) (s : State) : Host.Outcome State Fault Refusal :=
  .next (s.issueP h (encG rd.toNat xs.toNat word.toNat) true true (fun i s => s.xget i rd.toNat xs.toNat word.toNat))

/-- XGET_RESUME (R161). -/
def execXgetResume (n : Fin 16) (k : Fin 10) (t : Fin 8) (s : State) : Host.Outcome State Fault Refusal :=
  .next (s.xgetResume (threadId n k t))

end Sys2Proof.Machine
end

