-- ==== Sys2Proof/Machine/Clauses.lean ====
section
/-!
DEFINITION. Machine/Clauses.lean: clause groups and entries, visibility, searches (R178–R184), the tense log and clause updates
(R185–R187).
-/
namespace Sys2Proof.Machine

def grpCfg (g : Nat) : Nat := clauseB + 0x100 + g * 8
def grpKey (g : Nat) : Nat := clauseB + 0x104 + g * 8

def State.grpValid (s : State) (g : Nat) : Bool := s.bit (grpCfg g) 0
/-- Width of a group in bytes: W / 8 (R178). -/
def State.grpBytes (s : State) (g : Nat) : Nat := 12 * 2 ^ s.fld (grpCfg g) 1 2
/-- Entries of a group: TIERS × 4,096. -/
def State.grpEntries (s : State) (g : Nat) : Nat := s.fld (grpCfg g) 4 6 * 4096
/-- Blocks of a group: TIERS × W/96 × REPLICAS. -/
def State.grpBlocks (s : State) (g : Nat) : Nat := s.fld (grpCfg g) 4 6 * (s.grpBytes g / 12) * (s.fld (grpCfg g) 10 3 + 1)

def State.clause (s : State) (g a : Nat) : Clause := aget (fun _ => {}) s.cls.clauses (g * 2 ^ 18 + a)

def State.setClause (s : State) (g a : Nat) (c : Clause) : State :=
  { s with cls := { s.cls with clauses := aset (fun _ => {}) s.cls.clauses (g * 2 ^ 18 + a) c } }

/-! ### Tense fields and visibility (R180, R188) -/

def State.current (s : State) : Nat := s.fld clauseB 0 4
def State.pendingTense (s : State) : Nat := s.fld clauseB 4 4
def State.live (s : State) : Nat := s.fld clauseB 8 16
def State.commitBusy (s : State) : Bool := s.bit clauseB 27
def State.oldest (s : State) : Nat := s.fld (clauseB + 4) 0 4

/-- ord(x) of R180. -/
def State.ord (s : State) (x : Nat) : Nat := (x + 16 - s.oldest) % 16

def ctlValid (w : BitVec 16) : Bool := getField w 0 1 == 1
def ctlPriv (w : BitVec 16) : Bool := getField w 1 1 == 1
def ctlSettled (w : BitVec 16) : Bool := getField w 2 1 == 1
def ctlBorn (w : BitVec 16) : Nat := getField w 3 4
def ctlDead (w : BitVec 16) : Bool := getField w 7 1 == 1
def ctlDied (w : BitVec 16) : Nat := getField w 8 4

/-- An entry with control word `w` is visible to tense `c` (R180). -/
def State.visible (s : State) (w : BitVec 16) (c : Nat) : Bool :=
  ctlValid w && (ctlPriv w || ((ctlSettled w || decide (s.ord (ctlBorn w) ≤ s.ord c))
    && (!ctlDead w || decide (s.ord c < s.ord (ctlDied w)))))

/-- The control word of an insert under tense `t` (R185). -/
def bornWord (t : Nat) : BitVec 16 := BitVec.ofNat 16 (1 + t * 8)

/-- The control word marked DEAD in tense `t`. -/
def diedWord (w : BitVec 16) (t : Nat) : BitVec 16 := putField (putField w 7 1 1) 8 4 t

/-! ### Searches (R180, R183) -/

/-- The lowest visible matching address of a group under tense `c` (R180). -/
def State.clauseSearch (s : State) (g c key : Nat) : Option (Nat × Clause) :=
  (s.cls.clauses.find? (fun e => e.1 / 2 ^ 18 == g && s.visible e.2.control c && (key ^^^ e.2.value) &&& e.2.care == 0)).map
    (fun e => (e.1 % 2 ^ 18, e.2))

/-- The group or the engine is fenced (R183). -/
def State.clauseAbsent (s : State) (g : Nat) : Bool := s.absent (unitId 3 g) || s.absent (unitId 5 0)

def Clause.verb (c : Clause) : Nat := getField c.action 0 3
def Clause.mirror (c : Clause) : Nat := getField c.action 3 4
def Clause.classEn (c : Clause) : Bool := getField c.action 7 1 == 1
def Clause.cls (c : Clause) : Nat := getField c.action 8 3

/-- The result word of a leg search (R183). -/
def clauseWord (r : Option (Nat × Clause)) : Nat := match r with
  | none => 0
  | some (a, c) => a + 2 ^ 18 + c.verb * 2 ^ 19 + c.mirror * 2 ^ 22 + (if c.classEn then 2 ^ 26 else 0) + c.cls * 2 ^ 27
      + getField c.action 16 16 * 2 ^ 32

/-- VERB stands while DROP_REASON is not 0; a verb DROP sets CLAUSE (R41, R184). -/
def Coach.setVerb (c : Coach) (cyc v : Nat) : Coach :=
  if c.reason ≠ 0 then c else if v = 2 then c.drop cyc 2 5 else c.setFld 196 23 3 v

/-- An entry search writes the coach (R182, R184); a trapped time message keeps COPY (R80). -/
def Coach.entryResult (c : Coach) (cyc : Nat) (r : Option (Nat × Clause)) : Coach :=
  let put := fun (c : Coach) (v : Nat) => if c.trapped then c else c.setVerb cyc v
  match r with
  | none => put ((c.setFld 240 0 18 0).setFld 240 18 1 0) 0
  | some (a, e) =>
    let c := ((c.setFld 240 0 18 a).setFld 240 18 1 1).setFld 236 2 4 e.mirror
    let c := if e.classEn then c.setFld 192 24 3 e.cls else c
    put c e.verb

/-! ### The tense log (R185) -/

def State.addLog (s : State) (r : LogRec) : State :=
  let s := { s with cls := { s.cls with log := s.cls.log ++ [r] } }
  s.setFld (clauseB + 0xC) 0 17 s.cls.log.length

def State.dropLog (s : State) (p : LogRec → Bool) : State :=
  let s := { s with cls := { s.cls with log := s.cls.log.filter (fun r => !p r) } }
  s.setFld (clauseB + 0xC) 0 17 s.cls.log.length

/-- Tensed updates receive BUSY: the log is full, a commit is scheduled, or an undo runs (R185, R190). -/
def State.tenseLocked (s : State) : Bool := decide (65536 ≤ s.cls.log.length) || s.commitBusy || s.cls.undoing

/-! ### Clause updates (R185–R187) -/

def State.updSrc (s : State) : Nat := (s.reg (clauseB + 0x18)).toNat + s.fld (clauseB + 0x1C) 0 8 * 2 ^ 32
def State.updEntry (s : State) : Nat := s.fld (clauseB + 0x14) 0 18

/-- What BAD_ARG refuses at GO, for record `r` (R185). -/
def State.clauseBadArg (s : State) (op g entry : Nat) (r : List Byte) : Bool :=
  let w := s.grpBytes g
  op == 0 || 6 ≤ op || !s.grpValid g || decide (s.grpEntries g ≤ entry)
    || ((op == 1 || op == 3) && (le r 192 4 % 8 == 7 || bitsOf (le r 192 4) 11 5 != 0
      || ((r.take 96).drop w ++ ((r.drop 96).take 96).drop w ++ r.drop 196).any (· != 0)))

/-- The entry's STATE refusals of Table 7.6. -/
def clauseState (op : Nat) (c : Clause) : Bool := match op with
  | 1 => ctlValid c.control
  | 2 => !ctlValid c.control || ctlDead c.control || ctlPriv c.control
  | 3 => ctlValid c.control && !ctlPriv c.control
  | 4 => !ctlValid c.control || !ctlPriv c.control
  | _ => false

def State.lostEntries (s : State) (g : Nat) : List Nat := aget (fun _ => []) s.cls.privLost g

def State.setLost (s : State) (g : Nat) (l : List Nat) : State :=
  { s with cls := { s.cls with privLost := aset (fun _ => []) s.cls.privLost g l } }

/-- STATUS of an update at GO: 0 when it starts. A group fenced for lost privileged entries takes the PRIV_WRITE of each (R192). -/
def State.clauseStatus (s : State) (op g entry : Nat) (r : List Byte) : Nat :=
  if s.clauseBadArg op g entry r then 2
  else if s.clauseAbsent g ∧ ¬ (op = 3 ∧ (s.lostEntries g).contains entry = true ∧ s.absent (unitId 5 0) = false) then 6
  else if clauseState op (s.clause g entry) then 3
  else if (op = 1 ∨ op = 2) ∧ s.tenseLocked then 5 else 0

/-- The entry a record spells (R185). -/
def recordClause (r : List Byte) (control : BitVec 16) : Clause :=
  ⟨le r 0 96, le r 96 96, control, BitVec.ofNat 32 (le r 192 4)⟩

/-- The record of an entry (R185, Table 7.6 READ). -/
def Clause.record (c : Clause) : List Byte :=
  bytesLE 96 c.value ++ bytesLE 96 c.care ++ bytesLE 4 c.action.toNat ++ bytesLE 2 c.control.toNat

/-- Update slots that an operation takes (Table 7.6, R186; log entry 206): the W/96 blocks of an INSERT, for a PRIV_WRITE a slot before
    and one after them, one for the others. -/
def State.clauseSlots (s : State) (op g : Nat) : Nat := match op with
  | 1 => s.grpBytes g / 12
  | 3 => s.grpBytes g / 12 + 2
  | _ => 1

/-- Step 1 of PRIV_WRITE, its first slot: the entry is absent until the last (R186). -/
def State.clauseFirst (s : State) (u : Update) : State :=
  if u.op = 3 then
    let old := s.clause u.group u.entry
    s.setClause u.group u.entry { old with control := putField old.control 0 1 0 }
  else s

/-- A privileged entry is no longer lost; with the last of a group its fence ends (R192). -/
def State.refind (s : State) (g a : Nat) : State :=
  if !(s.lostEntries g).contains a then s
  else
    let l := (s.lostEntries g).filter (· ≠ a)
    let s := s.setLost g l
    if l.isEmpty && s.fenced (unitId 3 g) then s.liftFence (unitId 3 g) else s

/-- The effect of an update's last slot (Table 7.6): the control word is written, and INSERT and DELETE are logged. -/
def State.clauseLast (s : State) (u : Update) : State :=
  let old := s.clause u.group u.entry
  let t := s.pendingTense
  let key := u.group * 2 ^ 18 + u.entry
  match u.op with
  | 1 => (s.setClause u.group u.entry (recordClause u.record (bornWord t))).addLog ⟨t, true, 0, key⟩
  | 2 =>
    if ctlBorn old.control = t ∧ !ctlSettled old.control then
      s.setClause u.group u.entry { old with control := putField old.control 0 1 0 }
    else (s.setClause u.group u.entry { old with control := diedWord old.control t }).addLog ⟨t, false, 0, key⟩
  | 3 => (s.setClause u.group u.entry (recordClause u.record 3)).refind u.group u.entry
  | 4 => s.setClause u.group u.entry { old with control := putField old.control 0 1 0 }
  | _ => if u.jen then s else s.writeBytes s.updSrc old.record

/-- An operation starts: GO reads 1 until it is done (R185). -/
def State.clauseStart (s : State) (op g a : Nat) (r : List Byte) (jen : Bool) : State :=
  let u : Update := { op := op, group := g, entry := a, began := s.now, status := 0, need := s.clauseSlots op g, record := r, jen := jen }
  { s.setBit (clauseB + 0x10) 8 true with cls := { s.cls with upd := some u } }

/-- CLAUSE_UPD_CTL is written: OP and GROUP are taken, and GO starts the operation unless one runs (R185). -/
def State.clauseCtl (s : State) (v : Word) : State :=
  let c := clauseB + 0x10
  let busy := s.bit c 8
  let s := (s.setFld c 0 3 (getField v 0 3)).setFld c 3 5 (getField v 3 5)
  if getField v 8 1 = 0 ∨ busy then s
  else
    let op := getField v 0 3
    let g := getField v 3 5
    let r := s.cbytes s.updSrc 256
    let st := if s.updSrc % 256 ≠ 0 then 2 else s.clauseStatus op g s.updEntry r
    if st ≠ 0 then s.setFld c 12 3 st else s.clauseStart op g s.updEntry r false

/-- The update under way on a group that is fenced ends ABSENT (R185): no slot after the fence is written, and an entry whose control
    word has not been written stays as it was. -/
def State.clauseCut (s : State) (g : Nat) : State :=
  match s.cls.upd with
  | some u => if u.group = g then { s with cls := { s.cls with upd := some { u with status := 6 } } } else s
  | none => s

/-- CLAUSE_UPDATE_STALL: an operation has waited longer than STALL µs (R187). -/
def State.clauseStall (s : State) : State :=
  let lim := s.fld (clauseB + 0x20) 0 16
  match s.cls.upd with
  | some u => if lim ≠ 0 ∧ !u.stalled then
      let s := (s.advance (u.began + lim * usU)).raise Src.clauseUpdateStall
      { s with cls := { s.cls with upd := some { u with stalled := true } } } else s
  | none => s

end Sys2Proof.Machine
end

