-- ==== Sys2Proof/Machine/Tables.lean ====
section
/-!
DEFINITION. Machine/Tables.lean: lookups in table memory: FDB (R198, R199), LPM (R204, R205), streams (R206), port groups, and the
control words of stream entries (Tables 8.1 to 8.5).
-/
namespace Sys2Proof.Machine

def fdbBase : Nat := 0x30000000
def groupBase : Nat := 0x30800000
def strBase : Nat := 0x30900000
def strStBase : Nat := 0x30A00000
def rcvyBase : Nat := 0x30A40000
def filterBase : Nat := 0x30A60000
def meterBase : Nat := 0x30A70000
def gateBase : Nat := 0x30A90000

/-- Whether a region of table memory holds an uncorrectable error in [a, a + n). -/
def State.tableBad (s : State) (a n : Nat) : Bool := (List.range ((n + 7) / 8)).any (fun j => s.upset (a + j * 8))

/-- The 34-bit mask of port group k. -/
def State.groupMask (s : State) (k : Nat) : Nat := s.num (groupBase + k * 8) 8 % 2 ^ 34

/-! ### FDB -/

/-- The two buckets of a key of MAC and VID (R198). -/
def fdbBuckets (key : List Byte) : List Nat := [crc32c key % 65536, crc32 key % 65536]

/-- A 16-byte key of 8 key bytes. -/
def fdbKey (k : Nat) : List Byte := bytesLE 8 k ++ List.replicate 8 0

/-- The 16 entry addresses of the two buckets, bucket A first; both may be one. -/
def fdbSlots (k : Nat) : List Nat :=
  (fdbBuckets (fdbKey k)).flatMap (fun b => (List.range 8).map (fun j => fdbBase + (b * 8 + j) * 16))

def State.fdbValid (s : State) (a : Nat) : Bool := s.num (a + 12) 1 % 2 == 1
def State.fdbStatic (s : State) (a : Nat) : Bool := bitsOf (s.num (a + 8) 1) 7 1 == 1
def State.fdbPort (s : State) (a : Nat) : Nat := s.num (a + 8) 1 % 64
def State.ageNow (s : State) : Nat := s.fld fwdB 16 8

/-- FWD_AGE.LIMIT: 0 acts as 1 (R203). -/
def State.ageLimit (s : State) : Nat := max 1 (s.fld fwdB 8 8)

/-- A dynamic entry is young (R199). -/
def State.fdbYoung (s : State) (a : Nat) : Bool := decide ((s.ageNow + 256 - s.num (a + 9) 1) % 256 < s.ageLimit)

/-- The entry a lookup hits: VALID, equal key, STATIC or young (R199). -/
def State.fdbFind (s : State) (k : Nat) : Option Nat :=
  (fdbSlots k).find? (fun a => s.fdbValid a && s.num a 8 == k && (s.fdbStatic a || s.fdbYoung a))

/-- Dynamic entries of a port, and valid entries, change by `d` (R201). -/
def State.fdbCount (s : State) (a : Nat) (d : Int) : State :=
  let u := fwdB + 0x1C
  let s := s.setFld u 0 20 ((s.fld u 0 20 : Int) + d).toNat
  if s.fdbStatic a then s
  else
    let p := fwdB + 0x104 + s.fdbPort a * 8
    s.setFld p 0 20 ((s.fld p 0 20 : Int) + d).toNat

/-- An FDB entry is written whole or removed, and the counts follow. -/
def State.fdbPut (s : State) (a : Nat) (l : List Byte) : State :=
  let s := if s.fdbValid a then s.fdbCount a (-1) else s
  let s := s.setBytes a l
  if s.fdbValid a then s.fdbCount a 1 else s

def State.fdbClear (s : State) (a : Nat) : State := if s.fdbValid a then s.fdbPut a (List.replicate 16 0) else s

/-- The lowest slot free for a new entry (R201): not VALID, or dynamic and not young. -/
def State.fdbFree (s : State) (k : Nat) : Option Nat :=
  (fdbSlots k).find? (fun a => !s.fdbValid a || (!s.fdbStatic a && !s.fdbYoung a))

/-- The bytes of an entry (Table 8.3). -/
def fdbBytes (k port age data : Nat) (mcast static_ : Bool) : List Byte :=
  bytesLE 8 k ++ bytesLE 1 (port + (if mcast then 64 else 0) + (if static_ then 128 else 0)) ++ bytesLE 1 age ++ bytesLE 2 data
    ++ [1#8, 0#8, 0#8, 0#8]

/-! ### LPM -/

/-- Address length of a family in bits. -/
def famBits (f : Nat) : Nat := if f = 0 then 32 else 128

/-- The address bits a prefix covers, left-aligned; IPv4 addresses fill the last 4 of 16 bytes (R172, R204). -/
def prefixBits (f len addr : Nat) : Nat := if len = 0 then 0 else addr % 2 ^ famBits f / 2 ^ (famBits f - len)

/-- The longest prefix visible under tense `c` that covers the address (R204). -/
def State.lpmFind (s : State) (table fam addr c : Nat) : Option Prefix :=
  ((s.cls.prefixes.filter (fun p => p.table == table && p.family == fam && s.visible p.control c
    && prefixBits fam p.len p.addr == prefixBits fam p.len addr)).foldl (fun (b : Option Prefix) p => match b with
      | some x => if x.len < p.len then some p else b
      | none => some p) none)

/-- Units the tables hold (R204). -/
def State.lpmUnits (s : State) : Nat := (s.cls.prefixes.map (fun p => if p.family = 0 then 1 else 4)).sum

def State.showLpm (s : State) : State := s.setFld (fwdB + 0x20) 0 19 s.lpmUnits

/-! ### Streams -/

/-- Addresses of the 8 entries of a key's two buckets (R206). -/
def strSlots (key : List Byte) : List Nat :=
  ([crc32c key % 4096, crc32 key % 4096]).flatMap (fun b => (List.range 4).map (fun j => b * 4 + j))

def strAddr (i : Nat) : Nat := strBase + i * 64

def State.strControl (s : State) (i : Nat) : BitVec 16 := BitVec.ofNat 16 (s.num (strAddr i + 48) 2)

def State.setStrControl (s : State) (i : Nat) (w : BitVec 16) : State := s.setNum (strAddr i + 48) 2 w.toNat

/-- The visible entry with the key (R206). -/
def State.strFind (s : State) (key : List Byte) (c : Nat) : Option Nat :=
  (strSlots key).find? (fun i => s.visible (s.strControl i) c && s.bytes (strAddr i) 48 == key)

/-- Entries held: FWD_STR_USED. -/
def State.strCount (s : State) (d : Int) : State :=
  let u := fwdB + 0x24
  s.setFld u 0 15 ((s.fld u 0 15 : Int) + d).toNat

def State.strAct (s : State) (i : Nat) : Nat := s.num (strAddr i + 50) 1 % 4

/-! ### A tense-marked object, whatever table holds it (R189, R190) -/

/-- The control word behind a log record. -/
def State.logWord (s : State) (r : LogRec) : BitVec 16 := match r.kind with
  | 0 => (aget (fun _ => {}) s.cls.clauses r.key).control
  | 1 => s.strControl r.key
  | _ => match s.cls.prefixes[r.key]? with
    | some p => p.control
    | none => 0

/-- The control word changes; an entry that is no longer VALID becomes free. -/
def State.setLogWord (s : State) (r : LogRec) (w : BitVec 16) : State := match r.kind with
  | 0 =>
    let c : Clause := aget (fun _ => {}) s.cls.clauses r.key
    { s with cls := { s.cls with clauses := aset (fun _ => {}) s.cls.clauses r.key { c with control := w } } }
  | 1 => (if ctlValid w then s else s.strCount (-1)).setStrControl r.key w
  | _ => { s with cls := { s.cls with prefixes := s.cls.prefixes.modify r.key (fun p => { p with control := w }) } }

/-- Prefixes that are no longer VALID leave the tables, and the log's indexes follow. -/
def State.sweepPrefixes (s : State) : State :=
  let l : List (Prefix × Nat) := s.cls.prefixes.zipIdx
  let keep := l.filter (fun (p : Prefix × Nat) => ctlValid p.1.control)
  let follow := fun (r : LogRec) => if r.kind = 2 then
      (keep.findIdx? (fun (p : Prefix × Nat) => p.2 == r.key)).map (fun i => { r with key := i }) else some r
  let s := { s with cls := { s.cls with prefixes := keep.map (fun (p : Prefix × Nat) => p.1), log := s.cls.log.filterMap follow } }
  (s.setFld (clauseB + 0xC) 0 17 s.cls.log.length).showLpm

end Sys2Proof.Machine
end

