-- ==== Sys2Proof/Machine/Tenses.lean ====
section
/-!
DEFINITION. Machine/Tenses.lean: commit, abort, void, settling and draining of tenses (R188–R190), and forwarding updates (R213).
-/
namespace Sys2Proof.Machine

/-- The tense a coach takes that enters S0 at the CI0 instant `t` (R188). -/
def State.tenseAt (s : State) (t : Nat) : Nat :=
  match s.cls.commitAt with
  | some c => if s.path.start + c * coreU ≤ t then s.pendingTense else s.current
  | none => s.current

/-- A scheduled commit takes its instant once no update runs: the first CORE cycle that is a multiple of 4,096 and no earlier than
    r + 4,096 (R188). -/
def State.scheduleCommit (s : State) : State :=
  if s.commitBusy ∧ s.cls.commitAt = none ∧ s.cls.upd = none ∧ s.cls.fwdUpd = none then
    { s with cls := { s.cls with commitAt := some ((s.coreCycle + 4096 + 4095) / 4096 * 4096) } }
  else s

/-- A commit is requested (R188, R190): its Jenitor status. -/
def State.commitReq (s : State) : Nat × State :=
  if s.commitBusy then (3, s)
  else if s.cls.undoing then (5, s)
  else if 5 ≤ popCount 16 s.live + 1 then (5, s.raise Src.tenseExhausted)
  else (0, (s.setBit clauseB 27 true).scheduleCommit)

/-- ABORT (R190). -/
def State.abortReq (s : State) : Nat × State :=
  if s.commitBusy then (3, s) else (0, { s with cls := { s.cls with undoing := true } })

/-- A coach between its S0 entry and its release from S15. -/
def Coach.inStations (c : Coach) : Bool := match c.loc with
  | .station _ => true
  | _ => false

/-- Every live coach record. -/
def State.coachList (s : State) : List (Nat × Coach) := s.coaches.filterMap (fun e => e.2.map (fun c => (e.1, c)))

/-- VOID (R190): the oldest live tense other than CURRENT; its coaches are dropped at their release with TENSE_VOID. -/
def State.voidReq (s : State) : Nat × State :=
  if popCount 16 s.live ≤ 1 then (3, s)
  else
    let t := s.oldest
    let s : State := { s with cls := { s.cls with voided := t :: s.cls.voided } }
    (0, (s.coachList.filter (fun e => e.2.tense == t && e.2.inStations)).foldl (fun s e => s.dropCoach e.1 18 4) s)

/-- A write of CLAUSE_TENSE: more than one of COMMIT, ABORT and VOID performs none (R188). -/
def State.tenseWrite (s : State) (v : Word) : State :=
  match getField v 24 3 with
  | 1 => s.commitReq.2
  | 2 => s.abortReq.2
  | 4 => s.voidReq.2
  | _ => s

/-- The response body of TENSE_COMMIT: CURRENT, PENDING, LIVE (Table 14.2). -/
def State.tenseBody (s : State) : List Byte := bytesBE 1 s.current ++ bytesBE 1 s.pendingTense ++ bytesBE 2 s.live

/-- TENSE_COMMIT_EFFECT: at t_c PENDING becomes CURRENT (R188). -/
def State.commitEffect (s : State) : State :=
  match s.cls.commitAt with
  | none => s
  | some c =>
    let s := s.advance (s.path.start + c * coreU)
    let old := s.current
    let p := s.pendingTense
    let s := ((s.setFld clauseB 0 4 p).setFld clauseB 4 4 ((p + 1) % 16)).setFld clauseB 8 16 (withBit s.live p)
    let s := s.setBit clauseB 27 false
    let x := aset (fun _ => 0) s.cls.ceased old s.now
    let y := aset (fun _ => false) s.cls.drained old false
    let s : State := { s with cls := { s.cls with commitAt := none, ceased := x, drained := y } }
    let s := s.bumpGen (unitId 0xF 0)
    let s := s.answer (fun op b => op == 6 && be b 0 1 == 0) 0 s.tenseBody
    s.eventNotice 1

/-- TENSE_ABORT_DONE: inserts of the pending tense become free, and deletes are undone; privileged entries stand outside (R190). -/
def State.abortDone (s : State) : State :=
  if !s.cls.undoing then s
  else
    let t := s.pendingTense
    let l := s.cls.log.filter (fun r => r.tense == t)
    let s := l.foldl (fun s r =>
      let w := s.logWord r
      if ctlPriv w then s
      else if r.born then (if ctlValid w ∧ ctlBorn w = t ∧ !ctlSettled w then s.setLogWord r (putField w 0 1 0) else s)
      else if ctlDead w ∧ ctlDied w = t then s.setLogWord r (putField w 7 1 0) else s) s
    let s := (s.sweepPrefixes).dropLog (fun r => r.tense == t)
    let s := { s with cls := { s.cls with undoing := false } }
    s.bumpGen (unitId 0xF 0)

/-- The oldest live tense is not CURRENT and no coach carries it any more (R189). -/
def State.drainedOut (s : State) : Bool :=
  s.oldest != s.current && s.coachList.all (fun e => e.2.tense != s.oldest || !e.2.inStations)

/-- SETTLE_PASS_START (R189). -/
def State.settleStart (s : State) : State :=
  if s.drainedOut ∧ s.bit (clauseB + 4) 17 = false then s.setBit (clauseB + 4) 17 true else s

/-- The settle pass of tense t (R189): its inserts are SETTLED, the deletes of the next tense become free, its records go. -/
def State.settle1 (s : State) (t : Nat) : State :=
  let s := s.cls.log.foldl (fun s r =>
    let w := s.logWord r
    if ctlPriv w then s
    else if r.tense = t ∧ r.born ∧ ctlValid w ∧ ctlBorn w = t then s.setLogWord r (putField w 2 1 1)
    else if r.tense = (t + 1) % 16 ∧ !r.born ∧ ctlDead w ∧ ctlDied w = (t + 1) % 16 then s.setLogWord r (putField w 0 1 0) else s) s
  (s.sweepPrefixes).dropLog (fun r => r.tense == t)

/-- SETTLE_PASS_DONE: the tense retires (R189). -/
def State.settleDone (s : State) : State :=
  if s.bit (clauseB + 4) 17 then
    let t := s.oldest
    let s := (s.settle1 t).setBit (clauseB + 4) 17 false
    let s := s.setFld clauseB 8 16 (withoutBit s.live t)
    let s := s.setFld (clauseB + 4) 0 4 ((t + 1) % 16)
    let s := { s with cls := { s.cls with voided := s.cls.voided.filter (· ≠ t) } }
    s.bumpGen (unitId 0xF 0)
  else s

/-- TENSE_DRAIN_CHECK: once per µs, each draining tense against LIMIT (R189). -/
def State.drainCheck (s : State) : State :=
  let lim := s.fld (clauseB + 8) 0 16
  let s := s.advance (ceilTo usU (s.now + 1))
  if lim = 0 then s
  else (onesOf 16 s.live).foldl (fun s t =>
    if t ≠ s.current ∧ aget (fun _ => 0) s.cls.ceased t + lim * usU < s.now ∧ !(aget (fun _ => false) s.cls.drained t) then
      { s.raise Src.tenseDrain with cls := { s.cls with drained := aset (fun _ => false) s.cls.drained t true } }
    else s) s

/-- The clause operation ends: its effect is made unless a fence cut it short, STATUS is set and GO clears (R185); a commit that waited
    takes its instant. -/
def State.clauseFinish (s : State) : State :=
  match s.cls.upd with
  | none => s
  | some u =>
    let c := clauseB + 0x10
    let out := if u.op = 5 then (s.clause u.group u.entry).record else []
    let s := if u.status = 0 then s.clauseLast u else s
    let s : State := { (s.setFld c 12 3 u.status).setBit c 8 false with cls := { s.cls with upd := none } }
    ((if u.jen then s.answer (fun op b => op == 5 && be b 0 1 == 0) u.status out else s)).scheduleCommit

/-- The clause operation under way receives an update slot (R185). -/
def State.clauseSlot (s : State) : State :=
  match s.cls.upd with
  | none => s
  | some u =>
    let s := if u.had = 0 then s.clauseFirst u else s
    let s : State := { s with cls := { s.cls with upd := some { u with had := u.had + 1 } } }
    if u.need ≤ u.had + 1 then s.clauseFinish else s

/-! ### Forwarding updates (R213) -/

def fwdCtl : Nat := fwdB + 0x30
def State.fwdSrc (s : State) : Nat := (s.reg (fwdB + 0x34)).toNat + s.fld (fwdB + 0x38) 0 8 * 2 ^ 32

/-- Bytes of a record that an operation does not describe are 0 (R213): the spans it describes, up to the record's size. -/
def zeroOutside (r : List Byte) (size : Nat) (spans : List (Nat × Nat)) : Bool :=
  (List.range size).all (fun i => spans.any (fun p => p.1 ≤ i && decide (i < p.2)) || r.getD i 0 == 0)

/-- Bytes of an object of PARAM_WRITE, and how many objects of its kind there are. -/
def objSize (o : Nat) : Nat := match o with
  | 0 => 8 | 1 => 16 | 2 => 32 | 3 => 32 | _ => 576
def objCount (o : Nat) : Nat := match o with
  | 4 => 256 | _ => 4096
def objBase (o : Nat) : Nat := match o with
  | 0 => groupBase | 1 => filterBase | 2 => meterBase | 3 => rcvyBase | _ => gateBase
/-- Where an object lies from its base: a gate takes 1 KiB. -/
def objStride (o : Nat) : Nat := if o = 4 then 1024 else objSize o
/-- Where the object lies in its record. -/
def objAt (o : Nat) : Nat := if o = 4 then 64 else 8

/-- The key or prefix of a READ lies where the operation that writes the object has it: FDB and stream keys at byte 8, as an object
    of PARAM_WRITE does not describe (log entry 22). -/
def readKeyAt : Nat := 8

/-- A stream key out of form: a KIND outside 1 to 4, or a nonzero byte that is 0 or that its KIND does not use (R206; log entry 208). -/
def strKeyBad (r : List Byte) : Bool :=
  let k := le r 0 1
  k == 0 || 4 < k || le r 1 1 != 0 || (k != 4 && (slice r 10 38).any (· != 0))

/-- What BAD_ARG refuses at GO (R213). -/
def fwdBadArg (op : Nat) (r : List Byte) : Bool :=
  let b := fun i n => le r i n
  op == 0 || 10 < op || (match op with
    | 1 => bitsOf (b 6 2) 12 4 != 0 || b 12 4 / 2 != 0 || decide (33 < b 8 1 % 64 ∧ bitsOf (b 8 1) 6 1 = 0) || !zeroOutside r 64 [(0, 16)]
    | 2 => bitsOf (b 6 2) 12 4 != 0 || !zeroOutside r 64 [(0, 8)]
    | 3 => b 1 1 / 4 != 0 || b 2 2 / 4096 != 0 || !zeroOutside r 64 [(0, 4)]
    | 4 => b 0 1 / 32 != 0 || decide (famBits (bitsOf (b 0 1) 4 1) < b 1 1) || b 4 4 / 2 ^ 20 != 0 || !zeroOutside r 64 [(0, 2), (4, 8), (16, 32)]
    | 5 => b 0 1 / 32 != 0 || decide (famBits (bitsOf (b 0 1) 4 1) < b 1 1) || !zeroOutside r 64 [(0, 2), (16, 32)]
    | 6 => b 62 2 != 0 || strKeyBad r || bitsOf (b 48 2) 1 1 != 0 || bitsOf (b 48 2) 12 4 != 0 || b 50 1 / 4 != 0 || b 51 1 / 16 != 0
    | 7 => !zeroOutside r 64 [(0, 48)] || strKeyBad r
    | 8 => 4 < b 0 1 || decide (objCount (b 0 1) ≤ b 2 2) || !zeroOutside r (objAt (b 0 1) + max 56 (objSize (b 0 1))) [(0, 1), (2, 4), (objAt (b 0 1), objAt (b 0 1) + objSize (b 0 1))]
        || (b 0 1 == 0 && b 8 8 / 2 ^ 34 != 0)
    | 9 => decide (4096 ≤ b 2 2) || !zeroOutside r 64 [(2, 4)]
    | _ => match b 0 1 with
      | 5 => bitsOf (b (readKeyAt + 6) 2) 12 4 != 0 || !zeroOutside r 64 [(0, 1), (readKeyAt, readKeyAt + 8)]
      | 6 => strKeyBad (r.drop readKeyAt) || !zeroOutside r 64 [(0, 1), (readKeyAt, readKeyAt + 48)]
      | 7 => b readKeyAt 1 / 32 != 0 || decide (famBits (bitsOf (b readKeyAt 1) 4 1) < b (readKeyAt + 1) 1)
          || !zeroOutside r 64 [(0, 1), (readKeyAt, readKeyAt + 2), (readKeyAt + 16, readKeyAt + 32)]
      | _ => true)

/-- The engine an operation works on is fenced (R213). -/
def State.fwdAbsent (s : State) (op obj : Nat) : Bool := match op with
  | 1 => s.absent (unitId 5 1)
  | 2 => s.absent (unitId 5 1)
  | 3 => s.absent (unitId 5 1)
  | 4 => s.absent (unitId 5 2)
  | 5 => s.absent (unitId 5 2)
  | 8 => s.absent (unitId 5 (if obj = 0 then 1 else 3))
  | 10 => s.absent (unitId 5 (if obj = 5 then 1 else if obj = 7 then 2 else 3))
  | _ => s.absent (unitId 5 3)

/-- The prefix a record names: table, family, length, address. -/
def prefixOf (r : List Byte) : Nat × Nat × Nat × Nat :=
  let f := bitsOf (le r 0 1) 4 1
  (le r 0 1 % 16, f, le r 1 1, be r 16 16 % 2 ^ famBits f)

def State.prefixIx (s : State) (r : List Byte) (c : Nat) : Option Nat :=
  let (t, f, n, a) := prefixOf r
  s.cls.prefixes.findIdx? (fun p => p.table == t && p.family == f && p.len == n && s.visible p.control c
    && prefixBits f n p.addr == prefixBits f n a)

/-- The first slot of a stream key that holds no entry. -/
def State.strFree (s : State) (key : List Byte) : Option Nat := (strSlots key).find? (fun i => !ctlValid (s.strControl i))

/-- STATUS of an operation at GO: 0 when it starts (Table 8.7). -/
def State.fwdStatus (s : State) (op : Nat) (r : List Byte) : Nat :=
  let t := s.pendingTense
  let tensed := decide (4 ≤ op ∧ op ≤ 7)
  if fwdBadArg op r then 2
  else if s.fwdAbsent op (le r 0 1) then 6
  else if tensed && s.tenseLocked then 5
  else match op with
    | 1 => if ((fdbSlots (le r 0 8)).find? (fun a => s.fdbValid a && s.num a 8 == le r 0 8)).isNone ∧ (s.fdbFree (le r 0 8)).isNone then 7 else 0
    | 2 => if ((fdbSlots (le r 0 8)).find? (fun a => s.fdbValid a && s.num a 8 == le r 0 8)).isNone then 3 else 0
    | 4 => if (s.prefixIx r t).isSome then 3
        else if 262144 < s.lpmUnits + (if bitsOf (le r 0 1) 4 1 = 0 then 1 else 4) then 7 else 0
    | 5 => if (s.prefixIx r t).isNone then 3 else 0
    | 6 => if (s.strFind (r.take 48) t).isSome then 3 else if (s.strFree (r.take 48)).isNone then 7 else 0
    | 7 => if (s.strFind (r.take 48) t).isNone then 3 else 0
    | 10 => match le r 0 1 with
        | 5 => if ((fdbSlots (le r readKeyAt 8)).find? (fun a => s.fdbValid a && s.num a 8 == le r readKeyAt 8)).isNone then 3 else 0
        | 6 => if (s.strFind (slice r readKeyAt 48) s.current).isNone then 3 else 0
        | _ => if (s.prefixIx (slice r readKeyAt 56) s.current).isNone then 3 else 0
    | _ => 0

def State.rcvy (s : State) (r : Nat) : Rcvy := aget (fun _ => {}) s.cls.rcvys r
def State.setRcvy (s : State) (r : Nat) (x : Rcvy) : State :=
  { s with cls := { s.cls with rcvys := aset (fun _ => {}) s.cls.rcvys r x } }

/-- A meter's bytes in the unit of its buckets: kbit/s × 2^-48 ns × 10^-6. -/
def meterUnit : Nat := 8 * 1000000 * nsU

/-- The clock instance and the BASE of a gate list. -/
def gateCi (l : List Byte) : Nat := le l 0 1 % 16
def gateBaseOf (l : List Byte) : Nat := join16 (le l 8 6) (le l 4 4) 0

/-- The list that stands in table memory for gate g. -/
def State.qciList (s : State) (g : Nat) : List Byte := s.bytes (gateBase + g * 1024) 576

/-- The list of gate g in force when its instance reads `v`: the one that a list with a BASE still ahead replaces stays until then (R209). -/
def State.gateBytesOf (s : State) (g v : Nat) : List Byte :=
  let l := s.qciList g
  let old : List Byte := aget (fun _ => []) s.cls.oldGates g
  if v < gateBaseOf l ∧ le old 1 1 ≠ 0 then old else l

/-- An object of PARAM_WRITE takes its bytes, with what R208 to R210 add: a meter refills, a recovery instance takes any sequence
    number, a gate whose BASE lies ahead leaves the old list in force. -/
def State.paramWrite (s : State) (o ix : Nat) (l : List Byte) : State :=
  let a := objBase o + ix * objStride o
  match o with
  | 2 =>
    let s := s.setBytes a l
    let m : MeterSt := ⟨le l 4 4 * meterUnit, le l 12 4 * meterUnit, s.now⟩
    { s with cls := { s.cls with meters := aset (fun _ => {}) s.cls.meters ix m } }
  | 3 => (s.setBytes a l).setRcvy ix { s.rcvy ix with takeAny := true }
  | 4 =>
    let old := s.gateBytesOf ix ((s.fromCi0 (gateCi (s.qciList ix)) s.now).getD 0)
    let ahead := decide ((s.fromCi0 (gateCi l) s.now).getD 0 < gateBaseOf l)
    let s := s.setBytes a l
    { s with cls := { s.cls with oldGates := aset (fun _ => []) s.cls.oldGates ix (if ahead then old else []) } }
  | _ => s.setBytes a l

/-- FDB_FLUSH: matching dynamic entries go (Table 8.7). -/
def State.fdbFlush (s : State) (port flags vid : Nat) : State :=
  let rows := (s.mem.filter (fun e => decide (fdbBase ≤ e.1 ∧ e.1 < groupBase) && e.1 % 16 == 12)).map (fun e => e.1 - 12)
  rows.foldl (fun s a =>
    if s.fdbValid a && !s.fdbStatic a && (bitsOf flags 0 1 == 0 || s.fdbPort a == port) && (bitsOf flags 1 1 == 0 || s.num (a + 6) 2 == vid)
    then s.fdbClear a else s) s

/-- The effect of a forwarding update (Table 8.7). -/
def State.fwdApply (s : State) (op : Nat) (r : List Byte) : State :=
  let t := s.pendingTense
  match op with
  | 1 =>
    match ((fdbSlots (le r 0 8)).find? (fun a => s.fdbValid a && s.num a 8 == le r 0 8)).or (s.fdbFree (le r 0 8)) with
    | some a => s.fdbPut a (r.take 16)
    | none => s
  | 2 => match (fdbSlots (le r 0 8)).find? (fun a => s.fdbValid a && s.num a 8 == le r 0 8) with
    | some a => s.fdbClear a
    | none => s
  | 3 => s.fdbFlush (le r 0 1) (le r 1 1) (le r 2 2)
  | 4 =>
    let (tb, f, n, a) := prefixOf r
    let p : Prefix := ⟨tb, f, n, a, le r 4 4 % 2 ^ 20, bornWord t⟩
    let s := { s with cls := { s.cls with prefixes := s.cls.prefixes ++ [p] } }
    (s.addLog ⟨t, true, 2, s.cls.prefixes.length - 1⟩).showLpm
  | 5 => match s.prefixIx r t with
    | some i =>
      let w := match s.cls.prefixes[i]? with
        | some p => p.control
        | none => 0
      if ctlBorn w = t ∧ !ctlSettled w then (s.setLogWord ⟨t, false, 2, i⟩ (putField w 0 1 0)).sweepPrefixes
      else (s.setLogWord ⟨t, false, 2, i⟩ (diedWord w t)).addLog ⟨t, false, 2, i⟩
    | none => s
  | 6 => match s.strFree (r.take 48) with
    | some i =>
      let s := (s.setBytes (strAddr i) (r.take 64)).setStrControl i (bornWord t)
      ((s.setBytes (strStBase + i * 16) (List.replicate 16 0)).strCount 1).addLog ⟨t, true, 1, i⟩
    | none => s
  | 7 => match s.strFind (r.take 48) t with
    | some i =>
      let w := s.strControl i
      if ctlBorn w = t ∧ !ctlSettled w then s.setLogWord ⟨t, false, 1, i⟩ (putField w 0 1 0)
      else (s.setLogWord ⟨t, false, 1, i⟩ (diedWord w t)).addLog ⟨t, false, 1, i⟩
    | none => s
  | 8 => s.paramWrite (le r 0 1) (le r 2 2) (slice r (objAt (le r 0 1)) (objSize (le r 0 1)))
  | 9 => s.setRcvy (le r 2 2) { s.rcvy (le r 2 2) with takeAny := true }
  | _ => s

/-- The entry a READ finds (Table 8.7). -/
def State.fwdFound (s : State) (r : List Byte) : List Byte :=
  match le r 0 1 with
  | 5 => match (fdbSlots (le r readKeyAt 8)).find? (fun a => s.fdbValid a && s.num a 8 == le r readKeyAt 8) with
    | some a => s.bytes a 16
    | none => []
  | 6 => match s.strFind (slice r readKeyAt 48) s.current with
    | some i => s.bytes (strAddr i) 64
    | none => []
  | _ => match (s.prefixIx (slice r readKeyAt 56) s.current).bind (fun i => s.cls.prefixes[i]?) with
    | some p => bytesLE 1 (p.table + p.family * 16) ++ bytesLE 1 p.len ++ [0#8, 0#8] ++ bytesLE 4 p.nh ++ List.replicate 8 0 ++ bytesBE 16 p.addr
    | none => []

/-- The search engine whose slots an operation takes (R213). -/
def fwdEngine (op obj : Nat) : Nat := match op with
  | 4 => 2 | 5 => 2 | 6 => 3 | 7 => 3 | 9 => 3
  | 8 => if obj = 0 then 1 else 3
  | 10 => if obj = 5 then 1 else if obj = 7 then 2 else 3
  | _ => 1

/-- An operation starts: GO reads 1 until it is done (R213). -/
def State.fwdStart (s : State) (op : Nat) (r : List Byte) (jen : Bool) : State :=
  let u : Update := { op := op, group := if op = 8 ∨ op = 10 then le r 0 1 else 0, entry := 0, began := s.now, status := 0, record := r, jen := jen }
  { s.setBit fwdCtl 8 true with cls := { s.cls with fwdUpd := some u } }

/-- FWD_UPD_CTL is written (R213). -/
def State.fwdCtlWrite (s : State) (v : Word) : State :=
  let busy := s.bit fwdCtl 8
  let s := s.setFld fwdCtl 0 4 (getField v 0 4)
  if getField v 8 1 = 0 ∨ busy then s
  else
    let op := getField v 0 4
    let r := s.cbytes s.fwdSrc 640
    let st := if s.fwdSrc % 64 ≠ 0 then 2 else s.fwdStatus op r
    if st ≠ 0 then s.setFld fwdCtl 12 3 st else s.fwdStart op r false

/-- The forwarding operation ends: its effect is made unless a fence cut it short, STATUS is set and GO clears (R213). An FDB_WRITE that
    learning has left without a slot since GO is DENIED. -/
def State.fwdFinish (s : State) : State :=
  match s.cls.fwdUpd with
  | none => s
  | some u =>
    let st := if u.status = 0 ∧ u.op = 1 then s.fwdStatus 1 u.record else u.status
    let out := if u.op = 10 then s.fwdFound u.record else []
    let s := if st ≠ 0 then s else if u.op = 10 then (if u.jen then s else s.writeBytes s.fwdSrc out) else s.fwdApply u.op u.record
    let s : State := { (s.setFld fwdCtl 12 3 st).setBit fwdCtl 8 false with cls := { s.cls with fwdUpd := none } }
    ((if u.jen then s.answer (fun op b => op == 5 && be b 0 1 == 1) st out else s)).scheduleCommit

/-- The forwarding operation under way is one of engine `eng`. -/
def State.fwdPending (s : State) (eng : Nat) : Bool := s.cls.fwdUpd.any (fun u => fwdEngine u.op u.group == eng)

/-- The engine is fenced while an operation is under way: it ends ABSENT, and nothing is written (R213). -/
def State.fwdCut (s : State) (eng : Nat) : State :=
  match s.cls.fwdUpd with
  | some u => if fwdEngine u.op u.group = eng then { s with cls := { s.cls with fwdUpd := some { u with status := 6 } } } else s
  | none => s

/-! ### Meanings -/

/-- A write of CLAUSE_UPD_CTL with OP 1, GROUP and GO (Table 7.6). -/
def execClauseInsert (g : Fin 32) (s : State) : Host.Outcome State Fault Refusal :=
  .next ((s.clauseCtl (BitVec.ofNat 32 (1 + g * 8 + 256))))

/-- A write of CLAUSE_UPD_CTL with OP 2, GROUP and GO (Table 7.6). -/
def execClauseDelete (g : Fin 32) (s : State) : Host.Outcome State Fault Refusal :=
  .next ((s.clauseCtl (BitVec.ofNat 32 (2 + g * 8 + 256))))

/-- A write of CLAUSE_UPD_CTL with OP 3, GROUP and GO (Table 7.6). -/
def execPrivWrite (g : Fin 32) (s : State) : Host.Outcome State Fault Refusal :=
  .next ((s.clauseCtl (BitVec.ofNat 32 (3 + g * 8 + 256))))

/-- A write of CLAUSE_UPD_CTL with OP 4, GROUP and GO (Table 7.6). -/
def execPrivClear (g : Fin 32) (s : State) : Host.Outcome State Fault Refusal :=
  .next ((s.clauseCtl (BitVec.ofNat 32 (4 + g * 8 + 256))))

/-- A write of CLAUSE_UPD_CTL with OP 5, GROUP and GO (Table 7.6). -/
def execClauseRead (g : Fin 32) (s : State) : Host.Outcome State Fault Refusal :=
  .next ((s.clauseCtl (BitVec.ofNat 32 (5 + g * 8 + 256))))

/-- CLAUSE_UPDATE_STALL (R187). -/
def execClauseUpdateStall (s : State) : Host.Outcome State Fault Refusal :=
  .next (s.clauseStall)

/-- A write of CLAUSE_TENSE.COMMIT (R188). -/
def execClauseTenseCommit (s : State) : Host.Outcome State Fault Refusal :=
  .next (s.tenseWrite 0x01000000)

/-- A write of CLAUSE_TENSE.ABORT (R190). -/
def execClauseTenseAbort (s : State) : Host.Outcome State Fault Refusal :=
  .next (s.tenseWrite 0x02000000)

/-- A write of CLAUSE_TENSE.VOID (R190). -/
def execClauseTenseVoid (s : State) : Host.Outcome State Fault Refusal :=
  .next (s.tenseWrite 0x04000000)

/-- TENSE_COMMIT_EFFECT (R188). -/
def execTenseCommitEffect (s : State) : Host.Outcome State Fault Refusal :=
  .next (s.commitEffect)

/-- TENSE_ABORT_DONE (R190). -/
def execTenseAbortDone (s : State) : Host.Outcome State Fault Refusal :=
  .next (s.abortDone)

/-- SETTLE_PASS_START (R189). -/
def execSettlePassStart (s : State) : Host.Outcome State Fault Refusal :=
  .next (s.settleStart)

/-- SETTLE_PASS_DONE (R189). -/
def execSettlePassDone (s : State) : Host.Outcome State Fault Refusal :=
  .next (s.settleDone)

/-- TENSE_DRAIN_CHECK (R189). -/
def execTenseDrainCheck (s : State) : Host.Outcome State Fault Refusal :=
  .next (s.drainCheck)

/-- A write of FWD_UPD_CTL with OP 1 and GO (Table 8.7). -/
def execFdbWrite (s : State) : Host.Outcome State Fault Refusal :=
  .next (s.fwdCtlWrite 257)

/-- A write of FWD_UPD_CTL with OP 2 and GO (Table 8.7). -/
def execFdbDelete (s : State) : Host.Outcome State Fault Refusal :=
  .next (s.fwdCtlWrite 258)

/-- A write of FWD_UPD_CTL with OP 3 and GO (Table 8.7). -/
def execFdbFlush (s : State) : Host.Outcome State Fault Refusal :=
  .next (s.fwdCtlWrite 259)

/-- A write of FWD_UPD_CTL with OP 4 and GO (Table 8.7). -/
def execLpmAdd (s : State) : Host.Outcome State Fault Refusal :=
  .next (s.fwdCtlWrite 260)

/-- A write of FWD_UPD_CTL with OP 5 and GO (Table 8.7). -/
def execLpmDelete (s : State) : Host.Outcome State Fault Refusal :=
  .next (s.fwdCtlWrite 261)

/-- A write of FWD_UPD_CTL with OP 6 and GO (Table 8.7). -/
def execStrInsert (s : State) : Host.Outcome State Fault Refusal :=
  .next (s.fwdCtlWrite 262)

/-- A write of FWD_UPD_CTL with OP 7 and GO (Table 8.7). -/
def execStrDelete (s : State) : Host.Outcome State Fault Refusal :=
  .next (s.fwdCtlWrite 263)

/-- A write of FWD_UPD_CTL with OP 8 and GO (Table 8.7). -/
def execParamWrite (s : State) : Host.Outcome State Fault Refusal :=
  .next (s.fwdCtlWrite 264)

/-- A write of FWD_UPD_CTL with OP 9 and GO (Table 8.7). -/
def execFrerReset (s : State) : Host.Outcome State Fault Refusal :=
  .next (s.fwdCtlWrite 265)

/-- A write of FWD_UPD_CTL with OP 10 and GO (Table 8.7). -/
def execFwdRead (s : State) : Host.Outcome State Fault Refusal :=
  .next (s.fwdCtlWrite 266)

end Sys2Proof.Machine
end

