-- ==== Sys2Proof/Machine/Search.lean ====
section
/-!
DEFINITION. Machine/Search.lean: search slots and requests (R32, R156, R181–R183, R197–R204), learning and aging (R200–R203), the
clause scrubber and block sparing (R192, R193), and the entry search (R182).
-/
namespace Sys2Proof.Machine

/-! ### Slots (R16, R181) -/

/-- The wheel of a kind and instance (Table 15.5). -/
def State.wheel (s : State) (kind inst : Nat) : Option Wheel := s.image.tt.wheels.find? (fun w => w.kind == kind && w.inst == inst)

/-- SRCH cycles since packet path start, rounded up. -/
def State.srchCycle (s : State) : Nat := (s.now - s.path.start + srchU - 1) / srchU

/-- The next slot of engine `eng`: the SRCH cycle in which it begins, and its owner; none where no search wheel turns. -/
def State.nextSlot (s : State) (eng : Nat) : Option (Nat × Nat) :=
  match s.wheel 1 eng with
  | none => none
  | some w =>
    if w.pos.isEmpty || !s.pathRun then none
    else
      let m := max (aget (fun _ => 0) s.cpu.lastSlot eng) s.srchCycle
      some (m, w.pos.getD (m % w.pos.length) 0xFF)

/-- The slot that begins in SRCH cycle `m` is served; time reaches it. -/
def State.takeSlot (s : State) (eng m : Nat) : State :=
  let s := s.advance (s.path.start + m * srchU)
  { s with cpu := { s.cpu with lastSlot := aset (fun _ => 0) s.cpu.lastSlot eng (m + 1) } }

/-- Cycles of CORE from the start of a slot until its result is readable (R181, Table 8.2). -/
def State.latency (s : State) (q : Srq) : Nat := match q.eng with
  | 0 => if s.bit (grpCfg (getField q.b 0 5)) 3 then 22 else 30
  | 1 => 22
  | 2 => 34
  | 3 => 26
  | _ => 14

/-! ### Requests (R32, R156, R183, R197) -/

/-- A result word of a status alone (Table 8.2). -/
def statusWord (st : Nat) : DWord := BitVec.ofNat 64 (st * 2 ^ 60)

/-- Bytes of the key that a request names (R183, Table 8.2). -/
def State.keyLen (s : State) (eng : Nat) (b : DWord) : Nat := match eng with
  | 0 => s.grpBytes (getField b 0 5)
  | 3 => 48
  | 4 => 0
  | _ => 16

/-- The form of a request, its key apart (R183, R197). -/
def State.srqForm (s : State) (eng : Nat) (a b : DWord) : Bool := match eng with
  | 0 => b.toNat < 32 && s.grpValid (getField b 0 5) && a.toNat % 8 == 0
  | 1 => b.toNat < 4
  | 2 => b.toNat < 64
  | 3 => b.toNat == 0
  | _ => b.toNat < 8 && decide (1 ≤ b.toNat ∧ b.toNat ≤ 4) && a.toNat % 8 == 0 && decide (a.toNat + 8 * b.toNat ≤ 0x400000)

/-- Bits of the key that are marked 0 (R198, R206). -/
def keyForm (eng : Nat) (k : List Byte) : Bool := match eng with
  | 1 => le k 6 2 < 4096 && le k 8 8 == 0
  | 3 => le k 1 1 == 0
  | _ => true

/-- The key of a well-formed request: RANGE (3) or ABSENT (2) where it cannot be read. -/
def State.srqKey (s : State) (i eng : Nat) (a b : DWord) : Except Nat (List Byte) :=
  if !s.srqForm eng a b then .error 3
  else match s.localBytes i a.toNat (s.keyLen eng b) with
    | .ok k => if keyForm eng k then .ok k else .error 3
    | .error e => if e = 0x82 then .error 2 else if eng = 4 then .ok [] else .error 3

/-- S_n: STN_CAPn (R32). -/
def State.searchCap (s : State) (n : Nat) : Nat := s.fld (stnR n 0) 24 4

/-- A result arrives on ch(2 + port) of thread i. -/
def State.pushResult (s : State) (i port : Nat) (l : List DWord) : State :=
  s.setResult (i * 4 + port) ((s.result (i * 4 + port)).pushItem l)

/-- A result written in the issue cycle: readable from the next CORE cycle (R32). -/
def State.replyNow (s : State) (i port : Nat) (w : DWord) : State :=
  s.setResult (i * 4 + port) ((s.result (i * 4 + port)).write s.coreNow w true).2

/-- Whether a request asks for APPLY. -/
def Srq.applies (q : Srq) : Bool := match q.eng with
  | 1 => getField q.b 0 1 == 1
  | 2 => getField q.b 5 1 == 1
  | _ => false

/-- A request whose unit is absent (R197, R373). -/
def Srq.absent (q : Srq) : Srq :=
  let wants := q.eng == 0 || q.applies || (q.eng == 1 && getField q.b 1 1 == 1)
  { q with words := [statusWord 2], apply := if q.applies then some (3, 0, 0) else if wants then some (4, 0, 0) else none,
           learned := false }

/-- What APPLY, LEARN and ABSENT write into the coach (R183, R197, R199, R204). -/
def State.applyResult (s : State) (q : Srq) : State :=
  let st := if q.eng = 1 then 19 else 21
  let s := if q.learned then s.modCoach q.coach (fun c => c.setFld 240 25 1 1) else s
  match q.apply with
  | none => s
  | some (1, data, mask) => s.modCoach q.coach (fun c => ((c.setFld 240 st 2 1).setFld 244 0 32 data).setMask (c.mask ||| mask))
  | some (2, _, _) => s.modCoach q.coach (fun c => c.setFld 240 st 2 2)
  | some (3, _, _) => (s.modCoach q.coach (fun c => c.setFld 240 st 2 3)).dropCoach q.coach 12 3
  | some _ => s.dropCoach q.coach 12 3

/-- The engine, or for a clause search the group, is fenced (R183, R197). -/
def State.engineAbsent (s : State) (q : Srq) : Bool :=
  if q.eng = 0 then s.clauseAbsent (getField q.b 0 5) else s.absent (unitId 5 q.eng)

/-- A well-formed request has been counted: it is sent, or answered BUDGET beyond the S_n-th, or ABSENT where its unit is fenced or a
    word of its key has an uncorrectable error (R32, R197, R373). `bad` tells of such a word. -/
def State.srqCounted (s : State) (q : Srq) (count : Nat) (bad : Bool) : State :=
  let n := stnOf q.thread
  if s.searchCap n < count then ((s.count (stnR n 0x1C) 0 32).raise (Src.stnBudget n)).replyNow q.thread q.port (statusWord 1)
  else if bad then ((s.raise (eccSrc q.a.toNat)).applyResult q.absent).replyNow q.thread q.port (statusWord 2)
  else if s.engineAbsent q then (s.applyResult q.absent).replyNow q.thread q.port (statusWord 2)
  else { s with cpu := { s.cpu with reqs := s.cpu.reqs ++ [q] } }

/-- The form of a request is checked, then it is counted, then it is sent (R32). -/
def State.srqSend (s : State) (i eng port : Nat) (a b : DWord) : State :=
  match (s.thread i).binding with
  | none => s.replyNow i port (statusWord 3)
  | some k => match s.coach k with
    | none => s.replyNow i port (statusWord 3)
    | some c =>
      let counted := s.setCoach k { c with searches := c.searches + 1 }
      let q : Srq := { eng := eng, thread := i, port := port, coach := k, a := a, b := b, key := [] }
      match s.srqKey i eng a b with
      | .error e => if e = 2 then counted.srqCounted q (c.searches + 1) true else s.replyNow i port (statusWord e)
      | .ok key => counted.srqCounted { q with key := key } (c.searches + 1) false

/-- Places of R156 taken on a port: requests whose result has not arrived, discarded ones too, and items held. -/
def State.srqPlaces (s : State) (i port : Nat) : Nat :=
  (s.cpu.reqs.filter (fun q => q.thread == i && q.port == port)).length + (s.result (i * 4 + port)).items

/-- An SRQ issues, or waits for a place (R156); a trap condition in t7 (R152). -/
def State.srq (s : State) (h : Hart) (eng : Nat) (port : BitVec 2) (ra rb : BitVec 5) : State :=
  let word := encQ eng port.toNat ra.toNat rb.toNat
  s.issueP h word true true (fun i s =>
    let a := (s.thread i).get ra.toNat
    let b := (s.thread i).get rb.toNat
    if thrOf i = 7 then .trap 0 word
    else if 4 ≤ s.srqPlaces i port.toNat then .wait s (.srq eng port.toNat a b)
    else .next (s.srqSend i eng port.toNat a b))

/-- SRQ_RESUME: a place is free (R156). -/
def State.srqResume (s : State) (i : Nat) : State :=
  match (s.thread i).run with
  | .waiting (.srq eng port a b) => if 4 ≤ s.srqPlaces i port then s else (s.srqSend i eng port a b).wake i
  | _ => s

/-! ### Learning (R200, R201) -/

def State.lrnCount (s : State) (o : Nat) : State := s.count (fwdB + o) 0 32
def State.learnFail (s : State) : State := (s.lrnCount 0x14).raise Src.learnFail
def State.showLearn (s : State) : State := s.setFld (fwdB + 8) 0 11 s.cls.learn.length

/-- Dynamic entries that are young, or STATIC, with a key: what a learn finds. -/
def State.learnQueue (s : State) (k key : Nat) (c : Coach) : Bool × State :=
  let put := fun (s : State) =>
    if 1024 ≤ s.cls.learn.length then (false, s.learnFail)
    else
      let it : Learn := ⟨k, key, c.inPort, c.verdict⟩
      let s : State := { s with cls := { s.cls with learn := s.cls.learn ++ [it] } }
      (true, s.showLearn)
  match s.fdbFind key with
  | some a =>
    if s.fdbStatic a then (false, if s.fdbPort a ≠ c.inPort then s.lrnCount 0x18 else s)
    else if s.fdbPort a = c.inPort ∧ s.num (a + 9) 1 = s.ageNow then (true, s)
    else put s
  | none =>
    let max := s.fld (fwdB + 0x100 + c.inPort * 8) 5 20
    if max ≠ 0 ∧ max ≤ s.fld (fwdB + 0x104 + c.inPort * 8) 0 20 then (false, s.learnFail) else put s

/-- The key that a LEARN learns: the coach's source address with the VID of the request's key (R200). -/
def Coach.sourceKey (c : Coach) (key : List Byte) : Nat := fromLE (c.bytes 6 6) + le key 6 2 * 2 ^ 48

/-- LEARN of a request for coach k with the VID of its key (R200): LRN_Q. -/
def State.learn (s : State) (k : Nat) (key : List Byte) : Bool × State :=
  match s.coach k with
  | none => (false, s)
  | some c =>
    let src := fromLE (c.bytes 6 6)
    let s := s.setCoach k { c with learnt := true }
    if c.learnt ∨ 32 < c.inPort ∨ s.bit (fwdB + 0x100 + c.inPort * 8) 0 = false ∨ src % 2 = 1 ∨ src = 0 then (false, s)
    else s.learnQueue k (c.sourceKey key) { c with learnt := true }

/-- The item at the head of the learn queue runs, once its coach's verdict is final (R201). -/
def State.learnRun (s : State) : State :=
  match s.cls.learn with
  | [] => s
  | it :: rest => match it.verdict with
    | none => s
    | some v =>
      let s : State := { s with cls := { s.cls with learn := rest } }
      let s := s.showLearn
      if v ≠ 0 then s
      else match s.fdbFind it.key with
        | some a =>
          if s.fdbStatic a then s
          else if s.fdbPort a = it.port then s.setNum (a + 9) 1 s.ageNow
          else
            let l := patch (s.bytes a 16) 8 (bytesLE 1 it.port ++ bytesLE 1 s.ageNow)
            ((s.fdbPut a l).lrnCount 0x10).raise Src.learnMove
        | none => match s.fdbFree it.key with
          | some a => (s.fdbPut a (fdbBytes it.key it.port s.ageNow 0 false false)).lrnCount 0xC
          | none => s.learnFail

/-! ### Serving a request -/

/-- A word that an FDB request reads has an uncorrectable error (R197): a bucket of its key, of the source address it learns, or the mask
    of the port group it applies. -/
def State.fdbBad (s : State) (q : Srq) (c : Coach) : Bool :=
  let key := le q.key 0 8
  let group := match s.fdbFind key with
    | some a => q.applies && bitsOf (s.num (a + 8) 1) 6 1 == 1 && s.tableBad (groupBase + s.num (a + 10) 2 % 4096 * 8) 8
    | none => false
  (fdbSlots key).any (fun a => s.tableBad a 16) || group
    || (getField q.b 1 1 == 1 && (fdbSlots (c.sourceKey q.key)).any (fun a => s.tableBad a 16))

/-- What a request finds in its slot: result words, what APPLY writes, LRN_Q. `bad` tells of an uncorrectable error in a word read. -/
def State.serve (s : State) (q : Srq) (bad : Bool) : Srq × State :=
  let c := (s.coach q.coach).getD {}
  let ap := q.applies
  let absent := fun (s : State) => (q.absent, s)
  match q.eng with
  | 0 =>
    let g := getField q.b 0 5
    if s.clauseAbsent g then absent s
    else
      let r := s.clauseSearch g c.tense (fromLE q.key)
      if bad && r.isSome then absent (s.raise Src.clauseSoft [g, (r.map (·.1)).getD 0])
      else ({ q with words := [BitVec.ofNat 64 (clauseWord r)] }, s)
  | 1 =>
    let key := le q.key 0 8
    if s.absent (unitId 5 1) then absent s
    else if bad || s.fdbBad q c then absent (s.raise Src.fdbEcc)
    else
      let (lrn, s) := if getField q.b 1 1 = 1 then s.learn q.coach q.key else (false, s)
      let l := if lrn then 512 else 0
      match s.fdbFind key with
      | some a =>
        let flags := s.num (a + 8) 1
        let data := s.num (a + 10) 2
        let mask := if bitsOf flags 6 1 = 1 then s.groupMask (data % 4096) else 2 ^ (flags % 64)
        let w := flags % 64 + 64 + bitsOf flags 7 1 * 128 + bitsOf flags 6 1 * 256 + l + data * 65536
        ({ q with words := [BitVec.ofNat 64 w], apply := if ap then some (1, data, mask) else none, learned := lrn }, s)
      | none => ({ q with words := [BitVec.ofNat 64 l], apply := if ap then some (2, 0, 0) else none, learned := lrn }, s)
  | 2 =>
    if s.absent (unitId 5 2) then absent s
    else if bad then absent (s.raise Src.trieEcc)
    else match s.lpmFind (getField q.b 0 4) (getField q.b 4 1) (be q.key 0 16) c.tense with
      | some p => ({ q with words := [BitVec.ofNat 64 (p.nh + 2 ^ 20 + p.len * 2 ^ 21)], apply := if ap then some (1, p.nh, 0) else none }, s)
      | none => ({ q with words := [0], apply := if ap then some (2, 0, 0) else none }, s)
  | 3 =>
    if s.absent (unitId 5 3) then absent s
    else if bad ∨ (strSlots q.key).any (fun i => s.tableBad (strAddr i) 64) then absent (s.raise Src.streamEcc)
    else match s.strFind q.key c.tense with
      | some i => ({ q with words := [BitVec.ofNat 64 (i + 2 ^ 14 + s.strAct i * 2 ^ 15)] }, s)
      | none => ({ q with words := [0] }, s)
  | _ =>
    let a := 0x30C00000 + q.a.toNat
    let n := q.b.toNat
    if s.absent (unitId 5 4) then absent s
    else if bad ∨ s.tableBad a (8 * n) then absent (s.raise Src.hashEcc)
    else ({ q with words := (List.range n).map (fun j => BitVec.ofNat 64 (s.cnum (a + 8 * j) 8)) ++ [0] }, s)

/-- How many requests of an owner fit the slot, in order (R181, R197): `used` counts places, `copies` the copies of each group. -/
def State.fitting (s : State) (eng : Nat) : List Srq → Nat → Map Nat → Nat
  | [], _, _ => 0
  | q :: t, used, copies =>
    match eng with
    | 0 =>
      let g := getField q.b 0 5
      let k := aget (fun _ => 0) copies g
      if used < 8 ∧ k < s.fld (grpCfg g) 10 3 + 1 then 1 + State.fitting s eng t (used + 1) (aset (fun _ => 0) copies g (k + 1)) else 0
    | 1 =>
      let p := if getField q.b 1 1 = 1 then 2 else 1
      if used + p ≤ 4 then 1 + State.fitting s eng t (used + p) copies else 0
    | _ => if used < 2 then 1 + State.fitting s eng t (used + 1) copies else 0

/-- The positions of a station's unserved requests of an engine. -/
def State.waiting (s : State) (eng n : Nat) : List (Srq × Nat) :=
  s.cpu.reqs.zipIdx.filter (fun (p : Srq × Nat) => p.1.eng == eng && stnOf p.1.thread == n && p.1.ready.isNone)

/-! ### Clause blocks: scrub and sparing (R192, R193, R377) -/

def spareR : Nat := clauseB + 0x2C

def State.blockPhys (s : State) (b : Nat) : Nat := aget (fun b => b) s.cls.blocks b

/-- The group that logical block b serves: groups take blocks in ascending order. -/
def State.blockGroup (s : State) (b : Nat) : Option Nat :=
  (List.range 32).find? (fun g => s.grpValid g &&
    (let lo := ((List.range g).map (fun j => if s.grpValid j then s.grpBlocks j else 0)).sum
     decide (lo ≤ b ∧ b < lo + s.grpBlocks g)))

/-- Physical blocks that can take a logical block. -/
def State.spareBlocks (s : State) : List Nat :=
  let used := (List.range 48).map s.blockPhys
  (List.range 52).filter (fun p => !used.contains p && !s.cls.blockBad.contains p && s.cls.blockTesting != some p
    && (s.cls.blockMove.map (·.2)) != some p)

/-- CLAUSE_SPARE shows the spares; SPARE_LOW is raised when the last one goes (R193). -/
def State.showSpare (s : State) : State :=
  let k := s.spareBlocks.length
  let was := s.fld spareR 0 3
  let s := ((s.setFld spareR 0 3 k).setFld spareR 3 3 s.cls.blockBad.length).setBit spareR 6 s.cls.blockMove.isSome
  if was ≠ 0 ∧ k = 0 then s.raise Src.spareLow else s

/-- Logical block b is to be spared once the move under way is over (R193). -/
def State.blockWait (s : State) (b : Nat) : State :=
  if s.cls.blockMove.map (·.1) = some b ∨ s.cls.blockWaits.contains b then s
  else { s with cls := { s.cls with blockWaits := s.cls.blockWaits ++ [b] } }

/-- Logical block b begins to move to a spare: whether it could (R193). -/
def State.blockMoveStart (s : State) (b : Nat) (retire : Bool) : Bool × State :=
  match s.cls.blockMove, s.spareBlocks with
  | none, p :: _ =>
    let s := (s.unitState (unitId 4 (s.blockPhys b)) 3).unitState (unitId 4 p) 3
    let s : State := { s with cls := { s.cls with blockMove := some (b, p), blockReady := false, blockRetire := retire } }
    (true, s.showSpare)
  | _, _ => (false, s)

/-- CLAUSE_BLOCK_COPY_DONE: the shadow has been copied; the spare serves from the next epoch boundary (R193). -/
def State.blockCopied (s : State) : State :=
  if s.cls.blockMove.isSome then { s with cls := { s.cls with blockReady := true } } else s

/-- Logical block b is to be spared (R193): now, or once the move under way is over. -/
def State.blockSpare (s : State) (b : Nat) : State :=
  if s.cls.blockMove.isSome then s.blockWait b else (s.blockMoveStart b true).2

/-- The next block that waits to be spared begins its move (R193). -/
def State.blockNextMove (s : State) : State := match s.cls.blockWaits with
  | [] => s
  | b :: rest => ({ s with cls := { s.cls with blockWaits := rest } }.blockMoveStart b true).2

/-- The switch at an epoch boundary (R193, R377): the outgoing block is retired, or goes to its self-test. -/
def State.blockSwitch (s : State) : State :=
  match s.cls.blockMove with
  | none => s
  | some (b, p) =>
    if !s.cls.blockReady then s
    else
      let old := s.blockPhys b
      let retire := s.cls.blockRetire
      let s : State := { s with cls := { s.cls with blocks := aset (fun b => b) s.cls.blocks b p, blockMove := none, blockReady := false,
                                                    blockTesting := if retire then s.cls.blockTesting else some old,
                                                    blockBad := if retire then s.cls.blockBad ++ [old] else s.cls.blockBad } }
      let s := s.unitState (unitId 4 p) 0
      let s := if retire then s.retirePart (unitId 4 old) Src.clauseSpared else s.unitState (unitId 4 old) 5
      (((s.raiseU Src.clauseSpared [] (unitId 4 p)).migrationNotice (unitId 4 p) old p 0).showSpare).blockNextMove

/-- CLAUSE_BLOCK_TEST_DONE: the outgoing block of a rotation passes its self-test, or is retired (R377). -/
def State.blockTested (s : State) (ok : Bool) : State :=
  match s.cls.blockTesting with
  | none => s
  | some p =>
    let s : State := { s with cls := { s.cls with blockTesting := none } }
    (if ok then s.unitState (unitId 4 p) 4
     else
      let s : State := { s with cls := { s.cls with blockBad := s.cls.blockBad ++ [p] } }
      s.retirePart (unitId 4 p) Src.clauseSoft).showSpare

/-- BLOCK_ROTATION: the next logical block moves, while at least 2 spares are free (R377). -/
def State.blockRotate (s : State) : State :=
  if s.bit (fltB + 0x80) 17 ∧ 2 ≤ s.fld spareR 0 3 ∧ s.cls.blockTesting = none then
    let (ok, s) := s.blockMoveStart s.cls.blockNext false
    if ok then { s with cls := { s.cls with blockNext := (s.cls.blockNext + 1) % 48 } } else s
  else s

/-- A soft error of block b is counted, and a block that reaches SOFT_LIM in one pass is spared (R192, R193). -/
def State.softError (s : State) (b g entry : Nat) : State :=
  let r := clauseB + 0x28
  let s := ((s.count r 0 16).setFld r 16 6 b).raise Src.clauseSoft [g + b * 256, entry]
  let n := aget (fun _ => 0) s.cls.softs b + 1
  let s : State := { s with cls := { s.cls with softs := aset (fun _ => 0) s.cls.softs b n } }
  let lim := s.fld (clauseB + 0x24) 16 8
  if lim = 0 ∨ n < lim then s else s.blockSpare b

/-- The scrubber compares the next row of the next block with its shadow (R192). -/
def State.clauseScrub (s : State) (e : SlotErr) : State :=
  let k := s.cls.scrubAt
  let b := k / 4096
  let start := if k = 0 then s.now else s.cls.scrubStart
  let last := decide (k + 1 = 48 * 4096)
  let s : State := { s with cls := { s.cls with scrubAt := if last then 0 else k + 1, scrubStart := start,
                                                softs := if k = 0 then [] else s.cls.softs } }
  let s := if last then s.setFld (clauseB + 0x24) 0 16 (satur 16 ((s.now - start) / msU)) else s
  match s.blockGroup b with
  | none => if e = .soft then s.softError b 0xFF (k % 4096) else s
  | some g =>
    let lo := ((List.range g).map (fun j => if s.grpValid j then s.grpBlocks j else 0)).sum
    let a := (b - lo) % (s.fld (grpCfg g) 4 6 * (s.grpBytes g / 12)) / (s.grpBytes g / 12) * 4096 + k % 4096
    match e with
    | .soft => s.softError b g a
    | .shadowUncorr =>
      let c := s.clause g a
      if ctlValid c.control ∧ ctlPriv c.control then s.setLost g (if (s.lostEntries g).contains a then s.lostEntries g else s.lostEntries g ++ [a])
      else if ctlValid c.control then
        (s.setClause g a { c with control := putField c.control 0 1 0 }).raise Src.clauseSoft [g + b * 256, a]
      else s
    | _ => s

/-! ### Aging (R203) -/

/-- NOW advances and a pass begins. -/
def State.agePassStart (s : State) : State :=
  let s := s.setFld fwdB 16 8 ((s.ageNow + 1) % 256)
  { s with cls := { s.cls with agePass := true, ageNext := 0, ageStart := s.now, ageHeld := false } }

/-- The pass reads one bucket: dynamic entries that are not young go (R203). -/
def State.ageStep (s : State) : State :=
  if !s.cls.agePass then s
  else
    let b := s.cls.ageNext
    let s := (List.range 8).foldl (fun s j =>
      let a := fdbBase + (b * 8 + j) * 16
      if s.fdbValid a && !s.fdbStatic a && !s.fdbYoung a then s.fdbPut a (patch (s.bytes a 16) 12 [0#8]) else s) s
    if b = 65535 then
      let s := s.setFld (fwdB + 4) 0 16 (satur 16 ((s.now - s.cls.ageStart) / msU))
      if s.cls.ageHeld then s.agePassStart else { s with cls := { s.cls with agePass := false } }
    else { s with cls := { s.cls with ageNext := b + 1 } }

/-- AGE_TICK (R203). -/
def State.ageTick (s : State) : State :=
  let t := s.fld fwdB 0 8
  if t = 0 then s
  else
    let s := s.advance (s.cls.ageTickAt + t * secU)
    let s : State := { s with cls := { s.cls with ageTickAt := s.cls.ageTickAt + t * secU } }
    if s.cls.agePass then
      let s := (s.latch (fwdB + 4) 16).raise Src.ageScanLate
      { s with cls := { s.cls with ageHeld := true } }
    else s.agePassStart

/-- A write of FWD_AGE restarts the tick count (R203). -/
def State.ageWrite (s : State) (v : Word) : State :=
  let s := s.setFld fwdB 0 16 (getField v 0 16)
  { s with cls := { s.cls with ageTickAt := s.now } }

/-! ### SEARCH_RESULT -/

/-- The reply of a unit fenced since the request was served is ABSENT (R183, R197, R373). -/
def State.staleReply (s : State) (q : Srq) : Srq :=
  if s.engineAbsent q then q.absent else q

/-- SEARCH_RESULT: the served request of engine `eng` that is due first becomes readable (R181). -/
def State.searchResult (s : State) (eng : Nat) : State :=
  let l := s.cpu.reqs.zipIdx.filter (fun (p : Srq × Nat) => p.1.eng == eng && p.1.ready.isSome)
  let due := l.foldl (fun (b : Option (Srq × Nat)) p => match b with
    | some x => if p.1.ready.getD 0 < x.1.ready.getD 0 then some p else b
    | none => some p) none
  match due with
  | none => s
  | some (q, ix) =>
    let s := s.advance (s.path.start + q.ready.getD 0 * coreU)
    let q := s.staleReply q
    let s : State := { s with cpu := { s.cpu with reqs := s.cpu.reqs.eraseIdx ix } }
    let s := s.applyResult q
    if q.discarded then s else s.pushResult q.thread q.port q.words

/-! ### The entry search (R182) -/

/-- The FAB edge of a coach's entry into station S0 (R43). -/
def State.s0Fab (s : State) (c : Coach) : Nat := ceilTo fabU (c.tsIn + s.fld (pathR c.inPort 4) 0 12 * fabU)
/-- The CORE edge of that entry (R44). -/
def State.s0Core (s : State) (c : Coach) : Nat := ceilTo coreU (s.s0Fab c)

/-- The CORE edge at which coach c enters station S0: that of R44, or where the lens delays it the edge fixed when LENS became final
    (R43, R47). -/
def State.entryEdge (s : State) (c : Coach) : Nat := c.entryAt.getD (s.s0Core c)

def parseR (p : Nat) : Nat := parseB + 0x100 + p * 4

/-- The key of group g from a parse vector (R180). -/
def State.vectorKey (s : State) (g : Nat) (v : List Byte) : List Byte :=
  (List.range (s.grpBytes g / 12)).flatMap (fun i => slice v (12 * s.fld (grpKey g) (3 * i) 3) 12)

/-- The entry search has set CLASS: a coach of a reserved class holds its cells as such from here on (R217, R240). -/
def State.takeReserve (s : State) (q : Nat) : State := match s.coach q with
  | none => s
  | some c =>
    if c.resCells = 0 ∧ s.resClass c.inPort c.cls then
      let n := 1 + c.cells.length
      ({ s with pool := { s.pool with heldRes := s.pool.heldRes + n } }).setCoach q { c with resCells := n }
    else s

/-- The entry search of coach q ends with this result (R182). -/
def State.entryWrite (s : State) (q : Nat) (c : Coach) (r : Option (Nat × Clause)) : State :=
  (s.setCoach q (c.entryResult s.coreNow r)).takeReserve q

/-- The owner in whose name the ingress searches of a coach are made: station 0, on no result port. -/
def entryThread : Nat := 79
def entryPort : Nat := 4
def Srq.isEntry (q : Srq) : Bool := q.port == entryPort

/-- An ingress search of coach k is still to be made in engine `eng`. -/
def State.askedOf (s : State) (eng k : Nat) : Bool := s.cpu.reqs.any (fun q => q.isEntry && q.eng == eng && q.coach == k)

/-- The parse vector of coach k is complete: its entry search counts as issued (R182), and ends at once where it ends RANGE, BUDGET or
    ABSENT. -/
def State.askEntry (s : State) (k : Nat) : State :=
  match s.coach k with
  | none => s
  | some c =>
    if c.loc ≠ .parser ∨ c.entrySearched ∨ s.bit (parseR c.inPort) 5 = false then s
    else
      let g := s.fld (parseR c.inPort) 0 5
      let c := { c with entrySearched := true, searches := if s.grpValid g then c.searches + 1 else c.searches }
      if !s.grpValid g then s.entryWrite k c none
      else if s.searchCap 0 < c.searches then ((s.entryWrite k c none).count (stnR 0 0x1C) 0 32).raise (Src.stnBudget 0)
      else if s.clauseAbsent g then s.setCoach k (c.drop s.coreNow 12 3)
      else
        let q : Srq := { eng := 0, thread := entryThread, port := entryPort, coach := k, a := 0, b := BitVec.ofNat 64 g,
                         key := s.vectorKey g c.vector }
        let s := s.setCoach k c
        { s with cpu := { s.cpu with reqs := s.cpu.reqs ++ [q] } }

/-! ### Meanings -/

/-- SRQ CLAUSE (R183). -/
def execSrqClause (h : Hart) (port : BitVec 2) (ra rb : BitVec 5) (s : State) : Host.Outcome State Fault Refusal :=
  .next (s.srq h 0 port ra rb)

/-- SRQ FDB (R197, R199, R200). -/
def execSrqFdb (h : Hart) (port : BitVec 2) (ra rb : BitVec 5) (s : State) : Host.Outcome State Fault Refusal :=
  .next (s.srq h 1 port ra rb)

/-- SRQ LPM (R197, R204). -/
def execSrqLpm (h : Hart) (port : BitVec 2) (ra rb : BitVec 5) (s : State) : Host.Outcome State Fault Refusal :=
  .next (s.srq h 2 port ra rb)

/-- SRQ STREAM (R197, R206). -/
def execSrqStream (h : Hart) (port : BitVec 2) (ra rb : BitVec 5) (s : State) : Host.Outcome State Fault Refusal :=
  .next (s.srq h 3 port ra rb)

/-- SRQ TREAD (R197). -/
def execSrqTread (h : Hart) (port : BitVec 2) (ra rb : BitVec 5) (s : State) : Host.Outcome State Fault Refusal :=
  .next (s.srq h 4 port ra rb)

/-- SRQ_RESUME (R156). -/
def execSrqResume (n : Fin 16) (k : Fin 10) (t : Fin 8) (s : State) : Host.Outcome State Fault Refusal :=
  .next (s.srqResume (threadId n k t))

/-- SEARCH_RESULT (R181). -/
def execSearchResult (eng : Fin 5) (s : State) : Host.Outcome State Fault Refusal :=
  .next (s.searchResult eng)

/-- CLAUSE_BLOCK_COPY_DONE (R193). -/
def execClauseBlockCopyDone (s : State) : Host.Outcome State Fault Refusal := .next s.blockCopied

/-- CLAUSE_BLOCK_TEST_DONE (R377). -/
def execClauseBlockTestDone (ok : Bool) (s : State) : Host.Outcome State Fault Refusal := .next (s.blockTested ok)

/-- BLOCK_ROTATION (R377). -/
def execBlockRotation (s : State) : Host.Outcome State Fault Refusal := .next s.blockRotate

/-- AGE_TICK (R203). -/
def execAgeTick (s : State) : Host.Outcome State Fault Refusal := .next s.ageTick

/-- A write of FWD_AGE (R203). -/
def execAgeTickWrite (v : Word) (s : State) : Host.Outcome State Fault Refusal := .next (s.ageWrite v)

end Sys2Proof.Machine
end

