-- ==== Sys2Proof/Machine/Streams.lean ====
section
/-!
DEFINITION. Machine/Streams.lean: the ingress stream search with its filters, gates and meters (R207–R209), sequence generation and
recovery (R210), the latent check (R211) and writes of FWD_PORTp (R207).
-/
namespace Sys2Proof.Machine

def fwdPort (p : Nat) : Nat := fwdB + 0x100 + p * 8

/-- SKIND of a port: 5 to 7 act as 0 (Table 8.9). -/
def skindOf (v : Nat) : Nat := if v ≤ 4 then v else 0

/-- A write of FWD_PORTp: SKIND keeps its value where the port would make more ingress searches than S_0 (R207). -/
def State.fwdPortWrite (s : State) (p : Nat) (v : Word) : State :=
  let old := s.fld (fwdPort p) 2 3
  let new := getField v 2 3
  let searches := (if s.bit (parseR p) 5 then 1 else 0) + 1
  let refused := skindOf old == 0 && skindOf new != 0 && decide (s.searchCap 0 < searches)
  let s := s.setFld (fwdPort p) 0 25 (getField v 0 25)
  if refused then s.setFld (fwdPort p) 2 3 old else s

/-! ### Counters in table memory -/

/-- A 4-byte count in memory grows by 1, saturating. -/
def State.memCount (s : State) (a : Nat) : State := s.setNum a 4 (satur 32 (s.num a 4 + 1))

/-! ### 802.1Qci (R208, R209) -/

/-- The entry whose interval holds offset `o` (2^-16 ns): entries begin in order, and the last one holds on. -/
def gateEntry (l : List Byte) (o : Nat) : Nat → Nat → Nat → Nat
  | 0, e, _ => e
  | fuel + 1, e, start =>
    let stop := start + le l (64 + 8 * e) 4 * 2 ^ 16
    if le l 1 1 ≤ e + 1 ∨ o < stop then e else gateEntry l o fuel (e + 1) stop

/-- Whether a gate is open at value v of its instance, and its IPV (R209). -/
def qciGate (l : List Byte) (v : Nat) : Bool × Nat :=
  let base := gateBaseOf l
  let cycle := le l 16 4 * 2 ^ 16
  if v < base ∨ le l 1 1 = 0 then (bitsOf (le l 0 1) 4 1 == 1, 15)
  else
    let b := le l (64 + 8 * gateEntry l ((v - base) % cycle) 64 0 0 + 4) 1
    (bitsOf b 0 1 == 1, bitsOf b 1 4)

/-- S of R208: LEN + 4 when final, else the announced length, else `max`. -/
def Coach.sdu (c : Coach) (max : Nat) : Nat :=
  if c.lenFinal then c.len + 4
  else if c.parsed.ip = 4 then c.parsed.l3 + fromBE (c.bytes (c.parsed.l3 + 2) 2) + 4
  else if c.parsed.ip = 6 then c.parsed.l3 + fromBE (c.bytes (c.parsed.l3 + 4) 2) + 40 + 4
  else max

/-- The buckets of a meter refilled up to the CI0 instant `t` (R208). -/
def State.meterFill (s : State) (m t : Nat) : MeterSt :=
  let a := meterBase + m * 32
  let x : MeterSt := aget (fun _ => {}) s.cls.meters m
  let d := t - x.last
  ⟨min (x.c + s.num a 4 * d) (s.num (a + 4) 4 * meterUnit), min (x.e + s.num (a + 8) 4 * d) (s.num (a + 12) 4 * meterUnit), max t x.last⟩

/-- The meter step for coach c: S bytes at instant `t` (R208). -/
def State.meterStep (s : State) (m size t : Nat) (c : Coach) : Coach × State :=
  let a := meterBase + m * 32
  let x := s.meterFill m t
  let need := size * meterUnit
  let flags := s.num (a + 16) 1
  let put := fun (s : State) (x : MeterSt) => { s with cls := { s.cls with meters := aset (fun _ => {}) s.cls.meters m x } }
  let red := fun (s : State) =>
    let c := c.setFld 240 26 1 1
    (if bitsOf flags 0 1 = 1 then c.drop s.coreNow 3 5 else c, (s.memCount (a + 20)).raise Src.qciMeterRed)
  if need ≤ x.c then (c, put s { x with c := x.c - need })
  else if need ≤ x.e then
    let s := put s { x with e := x.e - need }
    if bitsOf flags 1 1 = 1 then red s else (c, s)
  else red (put s x)

/-- The gate step (R208): GATE is read at TS_IN in the clock instance of the list in force (R209). -/
def State.gateStep (s : State) (f g : Nat) (c : Coach) : Bool × Coach × State :=
  let (w, _, s) := s.stampIn (gateCi (s.qciList g)) c.tsIn
  let l := s.gateBytesOf g w
  let (v, _, s) := s.stampIn (gateCi l) c.tsIn
  let (isOpen, ipv) := qciGate l v
  if isOpen then (true, if ipv ≤ 7 then c.setFld 192 24 3 ipv else c, s)
  else (false, (c.setFld 240 27 1 1).drop s.coreNow 4 5, (s.memCount (filterBase + f * 16 + 12)).raise Src.qciGate)

/-- Filter f on coach c (R208). -/
def State.qciFilter (s : State) (f : Nat) (c : Coach) : Coach × State :=
  let a := filterBase + f * 16
  let max := s.num a 2
  let size := c.sdu max
  let blocked := bitsOf (s.num (a + 2) 1) 1 1 == 1
  let big := decide (max ≠ 0 ∧ max < size)
  if blocked || big then
    let s := s.memCount (a + 8)
    let s := if big && bitsOf (s.num (a + 2) 1) 0 1 == 1 then s.setNum (a + 2) 1 (withBit (s.num (a + 2) 1) 1) else s
    (c.drop s.coreNow 14 5, s)
  else
    let g := s.num (a + 4) 2
    let m := s.num (a + 6) 2
    let (pass, c, s) := if g = 0 then (true, c, s) else s.gateStep f (g % 256) c
    if !pass || m = 0 then (c, s) else s.meterStep (m % 4096) size (s.entryEdge c) c

/-! ### INGRESS_STREAM_SEARCH (R207) -/

/-- The key of a coach for a KIND (R206, R207). -/
def Coach.streamKey (c : Coach) (kind : Nat) : List Byte :=
  let v := c.vector
  let mac := c.bytes (if kind = 2 then 6 else 0) 6
  let ip := if kind = 4 then
      slice v 36 32 ++ [BitVec.ofNat 8 (le v 29 1 / 4), v.getD 28 0] ++ slice v 24 4
    else List.replicate 38 0
  [BitVec.ofNat 8 kind, 0#8] ++ mac ++ bytesLE 2 (c.parsed.vlan.getD 0) ++ ip

/-- What a hit on entry i writes (R207, R208). -/
def State.streamHit (s : State) (i : Nat) (c : Coach) : Coach × State :=
  let a := strAddr i
  let act := s.strAct i
  let s := s.memCount (strStBase + i * 16 + 4)
  let c := (((c.setFld 228 0 14 i).setFld 240 23 2 1).setFld 228 30 2 act)
  let c := match c.parsed.rtag with
    | some o => if act = 2 ∨ act = 3 then c.setFld 228 14 16 (fromBE (c.bytes (o + 4) 2)) else c
    | none => c
  let c := { c with stream := some i }
  let f := s.num (a + 54) 2
  let (c, s) := if f = 0 then (c, s) else s.qciFilter (f % 4096) c
  let lofs := s.num (a + 56) 4
  if lofs = 0 then (c, s)
  else
    let (v, st, s) := s.stampIn (s.num (a + 51) 1 % 16) c.tsIn
    if st = .ok then ((c.setFld 248 0 32 ((ns16 v + lofs) % 1000000000)).setFld 236 29 1 1, s) else (c, s)

/-- A stream search of coach c ends ABSENT (R207). -/
def Coach.streamAbsent (c : Coach) (cyc : Nat) : Coach := (c.setFld 240 23 2 3).drop cyc 12 3

/-- The parse vector of coach k is complete: the stream search of its port counts as issued, and ends at once where it ends BUDGET or
    ABSENT (R207). -/
def State.askStream (s : State) (k : Nat) : State :=
  match s.coach k with
  | none => s
  | some c =>
    let kind := skindOf (s.fld (fwdPort c.inPort) 2 3)
    if c.loc ≠ .parser ∨ c.streamSearched ∨ kind = 0 ∨ (c.kind ≠ 0 ∧ c.kind ≠ 2) then s
    else
      let c := { c with streamSearched := true, searches := c.searches + 1 }
      if s.searchCap 0 < c.searches then
        ((s.setCoach k (c.setFld 240 23 2 2)).count (stnR 0 0x1C) 0 32).raise (Src.stnBudget 0)
      else if s.absent (unitId 5 3) then s.setCoach k (c.streamAbsent s.coreNow)
      else
        let q : Srq := { eng := 3, thread := entryThread, port := entryPort, coach := k, a := 0, b := 0, key := c.streamKey kind }
        let s := s.setCoach k c
        { s with cpu := { s.cpu with reqs := s.cpu.reqs ++ [q] } }

/-- The ingress searches of coach k are issued, the entry search first (R182, R207). -/
def State.askIngress (s : State) (k : Nat) : State := (s.askEntry k).askStream k

/-- An ingress search in its slot: its result is written into the coach (R182, R207). `bad` tells of an uncorrectable error in a word
    read. -/
def State.serveEntry (s : State) (q : Srq) (bad : Bool) : State :=
  match s.coach q.coach with
  | none => s
  | some c =>
    let t := s.tenseAt (s.entryEdge c)
    if q.eng = 0 then
      let g := getField q.b 0 5
      let r := s.clauseSearch g t (fromLE q.key)
      if s.clauseAbsent g then s.setCoach q.coach (c.drop s.coreNow 12 3)
      else if bad && r.isSome then
        (s.setCoach q.coach (c.drop s.coreNow 12 3)).raise Src.clauseSoft [g, (r.map (·.1)).getD 0]
      else s.entryWrite q.coach c r
    else if s.absent (unitId 5 3) then s.setCoach q.coach (c.streamAbsent s.coreNow)
    else if bad || (strSlots q.key).any (fun i => s.tableBad (strAddr i) 64) then
      (s.setCoach q.coach (c.streamAbsent s.coreNow)).raise Src.streamEcc
    else match s.strFind q.key t with
      | none => s.setCoach q.coach (c.setFld 240 23 2 2)
      | some i => let (c, s) := s.streamHit i c; s.setCoach q.coach c

/-! ### 802.1CB (R210, R211) -/

/-- The recovery of instance r for sequence number `sq` (none: untagged), at CI0 instant `t`: none where it passes, else the drop
    reason (R210). -/
def State.recover (s : State) (r : Nat) (sq : Option Nat) (t : Nat) : Option Nat × State :=
  let a := rcvyBase + r * 32
  let x := s.rcvy r
  let flags := s.num a 1
  let len := s.num (a + 1) 1
  let reset := s.num (a + 2) 2
  let x := if 0 < reset ∧ x.last + reset * msU < t then { x with takeAny := true, resets := x.resets + 1 } else x
  let pass := fun (x : Rcvy) => (none, ((s.setRcvy r { x with last := t, passed := x.passed + 1 }).memCount (a + 8)))
  let dup := fun (x : Rcvy) => { x with dup := x.dup + 1 }
  match sq with
  | none => if bitsOf flags 1 1 = 1 then pass x else (some 1, (s.setRcvy r x).memCount (a + 20))
  | some q =>
    if x.takeAny then pass { x with seq := q, hist := 1, takeAny := false }
    else if bitsOf flags 0 1 = 1 then
      if q = x.seq then (some 9, s.setRcvy r (dup x)) else pass { x with seq := q }
    else
      let d : Int := (((q : Int) - x.seq + 32768) % 65536) - 32768
      if (len : Int) ≤ d ∨ d ≤ -(len : Int) then (some 9, ((s.setRcvy r x).memCount (a + 16)).raise Src.frerRogue)
      else if 0 < d then pass { x with hist := ((x.hist * 2 ^ d.toNat) ||| 1) % 2 ^ len, seq := q }
      else if x.hist.testBit (-d).toNat then (some 9, (s.setRcvy r (dup x)).memCount (a + 12))
      else pass { x with hist := x.hist ||| 2 ^ (-d).toNat }

/-- FRER at release from S15 (R210): the coach as the enqueue stage goes on with it, or the reason it is discarded for. -/
def State.frer (s : State) (c : Coach) : Coach × Option Nat × State :=
  let act := c.frerAct
  if c.streamSt ≠ 1 ∨ c.reason ≠ 0 then (c, none, s)
  else if s.absent (unitId 5 3) ∧ (act = 1 ∨ act = 2) then (c, some 12, s)
  else match act with
    | 1 =>
      let a := strStBase + c.streamIx * 16
      let g := s.num a 2
      (c.setFld 228 14 16 g, none, s.setNum a 2 ((g + 1) % 65536))
    | 2 =>
      let r := s.num (strAddr c.streamIx + 52) 2 % 4096
      let (d, s) := s.recover r (c.parsed.rtag.map (fun _ => c.frerSeq)) s.now
      (c, d, s)
    | _ => (c, none, s)

/-- FRER_LATENT_CHECK (R211): an instance that has passed and discarded nothing differs by nothing. -/
def State.latentCheck (s : State) : State :=
  let ms := s.fld (fwdB + 0x28) 0 16
  if ms = 0 then s
  else
    let s := s.advance (s.cls.latAt + ms * msU)
    let s : State := { s with cls := { s.cls with latAt := s.cls.latAt + ms * msU } }
    s.cls.rcvys.foldl (fun s e =>
      let a := rcvyBase + e.1 * 32
      let paths := s.num (a + 4) 1
      let diff : Int := ((paths : Int) - 1) * e.2.passed - e.2.dup
      let s := s.setRcvy e.1 { s.rcvy e.1 with passed := 0, dup := 0 }
      if 2 ≤ paths ∧ paths ≤ 8 ∧ s.num (a + 6) 2 < diff.natAbs then s.raise Src.frerLatent else s) s

/-! ### Meanings -/

/-- FRER_LATENT_CHECK (R211). -/
def execFrerLatentCheck (s : State) : Host.Outcome State Fault Refusal := .next s.latentCheck

/-- A write of FWD_PORTp (R207). -/
def execFwdPortSkindWrite (p : Fin 34) (v : Word) (s : State) : Host.Outcome State Fault Refusal := .next (s.fwdPortWrite p v)

end Sys2Proof.Machine
end

