-- ==== Sys2Proof/Machine/Slots.lean ====
section
/-!
DEFINITION. Machine/Slots.lean: what a search slot does (R181, R197): the owner's requests in their order of issue, the ingress searches
of station 0 among them (R182, R207), or an update, a learn item, the scrubber or the aging pass (R185, R192, R201–R203, R213).
-/
namespace Sys2Proof.Machine

/-- Whether request q is the one that meets an uncorrectable word of its slot: of clause searches one that hits (R183). -/
def State.meets (s : State) (q : Srq) : Bool :=
  if q.eng = 0 then
    let t := (s.coach q.coach).map (fun c => if q.isEntry then s.tenseAt (s.entryEdge c) else c.tense)
    (s.clauseSearch (getField q.b 0 5) (t.getD 0) (fromLE q.key)).isSome
  else true

/-- One request of the slot of SRCH cycle m; an ingress search is then over. -/
def State.serveOne (s : State) (m ix : Nat) (q : Srq) (bad : Bool) : State :=
  if q.isEntry then
    let s := s.serveEntry q bad
    { s with cpu := { s.cpu with reqs := s.cpu.reqs.set ix { q with ready := some 0 } } }
  else
    let (q, s) := s.serve q bad
    let q := { q with ready := some (2 * m + s.latency q) }
    { s with cpu := { s.cpu with reqs := s.cpu.reqs.set ix q } }

/-- The owner's requests that fit the slot of SRCH cycle m start in it (R181); the first that can meets the uncorrectable word that
    `bad` tells of. -/
def State.serveOwner (s : State) (eng n m : Nat) (bad : Bool) : State :=
  let l := s.waiting eng n
  let k := s.fitting eng (l.map (·.1)) 0 []
  let (_, s) := (l.take k).foldl (fun (acc : Bool × State) p =>
    let hit := acc.1 && acc.2.meets p.1
    (acc.1 && !hit, acc.2.serveOne m p.2 p.1 hit)) (bad, s)
  { s with cpu := { s.cpu with reqs := s.cpu.reqs.filter (fun q => !(q.isEntry && q.ready.isSome)) } }

/-- Owner codes of Table 15.5. -/
def ownerUpdate : Nat := 0xC2
def ownerScrub : Nat := 0xC3

/-- An FDB slot goes to the operation under way, else to the learn item at the head (R201, R213): whether there was one. -/
def State.fdbSlot (s : State) : Bool × State :=
  if s.fwdPending 1 then (true, s.fwdFinish)
  else if s.cls.learn.head?.any (fun it => it.verdict.isSome) then (true, s.learnRun)
  else (false, s)

/-- A slot of engine `eng` that serves no station (R181): an UPDATE, IDLE or stolen slot goes to updates first, a SCRUB slot to the
    scrubber. `e` tells what the scrubber meets. -/
def State.freeSlot (s : State) (eng owner : Nat) (e : SlotErr) : State :=
  match eng with
  | 0 => if s.cls.upd.isSome && owner != ownerScrub then s.clauseSlot else s.clauseScrub e
  | 1 =>
    if owner = ownerScrub then (if s.cls.agePass then s.ageStep else s.fdbSlot.2)
    else
      let (done, u) := s.fdbSlot
      if done then u else if owner = ownerUpdate then s else s.ageStep
  | _ => if s.fwdPending eng then s.fwdFinish else s

/-- The next slot of engine `eng` (R181). -/
def State.slotServe (s : State) (eng : Nat) (e : SlotErr) : State :=
  match s.nextSlot eng with
  | none => s
  | some (m, o) =>
    let s := s.takeSlot eng m
    if 0x80 ≤ o ∧ o < 0x90 ∧ !(s.waiting eng (o - 0x80)).isEmpty then s.serveOwner eng (o - 0x80) m (e == .uncorr)
    else s.freeSlot eng o e

/-- Slots of engine `eng` in turn, at most `fuel`, until `stop` holds. -/
def State.slotsUntil (eng : Nat) (stop : State → Bool) : Nat → State → State
  | 0, s => s
  | fuel + 1, s => if stop s then s else State.slotsUntil eng stop fuel (s.slotServe eng .clean)

/-- Turns of a wheel within which a wait for a slot is looked for (log entry 206). -/
def State.slotFuel (s : State) (eng turns : Nat) : Nat := match s.wheel 1 eng with
  | some w => w.pos.length * (turns + 1)
  | none => 0

/-- CLAUSE_UPDATE_DONE: the operation receives the slots it still needs, and ends with the last (R185). -/
def State.clauseDone (s : State) : State :=
  match s.cls.upd with
  | none => s
  | some u =>
    if u.status ≠ 0 then s.clauseFinish
    else (State.slotsUntil 0 (fun s => s.cls.upd.isNone) (s.slotFuel 0 u.need) s).clauseFinish

/-- FWD_UPDATE_DONE (R213). -/
def State.fwdDone (s : State) : State :=
  match s.cls.fwdUpd with
  | none => s
  | some u =>
    let eng := fwdEngine u.op u.group
    if u.status ≠ 0 then s.fwdFinish
    else (State.slotsUntil eng (fun s => s.cls.fwdUpd.isNone) (s.slotFuel eng 1) s).fwdFinish

/-- LEARN_ITEM_RUN: the item at the head runs in the next slot it can have, once its coach's verdict is final (R201). -/
def State.learnItem (s : State) : State :=
  match s.cls.learn.head? with
  | none => s
  | some it =>
    if it.verdict.isNone then s
    else
      let s := State.slotsUntil 1 (fun s => s.cls.learn.head? != some it) (s.slotFuel 1 1) s
      if s.cls.learn.head? = some it then s.learnRun else s

/-- ENTRY_SEARCH of coach k: slots of the clause wheel until the one of station 0 that serves it (R182). -/
def State.entrySearch (s : State) (k : Nat) : State :=
  let s := s.askEntry k
  State.slotsUntil 0 (fun s => !s.askedOf 0 k) (s.slotFuel 0 s.cpu.reqs.length) s

/-- INGRESS_STREAM_SEARCH of coach k (R207). -/
def State.streamSearch (s : State) (k : Nat) : State :=
  let s := s.askStream k
  State.slotsUntil 3 (fun s => !s.askedOf 3 k) (s.slotFuel 3 s.cpu.reqs.length) s

/-! ### Meanings -/

/-- LEARN_ITEM_RUN (R201). -/
def execLearnItemRun (s : State) : Host.Outcome State Fault Refusal := .next s.learnItem

/-- ENTRY_SEARCH (R182). -/
def execEntrySearch (q : BitVec 32) (s : State) : Host.Outcome State Fault Refusal := .next (s.entrySearch q.toNat)

/-- INGRESS_STREAM_SEARCH (R207). -/
def execIngressStreamSearch (q : BitVec 32) (s : State) : Host.Outcome State Fault Refusal := .next (s.streamSearch q.toNat)

/-- CLAUSE_UPDATE_DONE (R185). -/
def execClauseUpdateDone (s : State) : Host.Outcome State Fault Refusal := .next s.clauseDone

/-- FWD_UPDATE_DONE (R213). -/
def execFwdUpdateDone (s : State) : Host.Outcome State Fault Refusal := .next s.fwdDone

end Sys2Proof.Machine
end

