-- ==== Sys2Proof/Machine/Parser.lean ====
section
/-!
DEFINITION. Machine/Parser.lean: the header parser (R169–R171) and the parse vector (R172), as functions of the head window.
-/
namespace Sys2Proof.Machine

/-- Why parsing ended: at a header not listed, with ERR (R170), with DEEP (R169). -/
inductive ParseEnd where
  | go | stop | err | deep
  deriving DecidableEq, Repr

/-- What the parser has found so far. `pos` is the next byte: the type field in the L2 part, the next header after it. -/
structure Scan where
  pos : Nat := 12
  fin : ParseEnd := .go
  tcis : List Nat := []
  sec : Option Nat := none
  /-- A SecTAG was present, read or not (Table 7.2). -/
  secSeen : Bool := false
  rtag : Option Nat := none
  /-- Where the outer 802.1Q tag begins, and the end of the 802.1Q tags, where the R-TAG edit inserts. -/
  tagAt : Nat := 12
  tagEnd : Nat := 12
  l2 : Nat := 0
  /-- The body ends before the Ethernet header does. -/
  short : Bool := false
  ip : Nat := 0
  arp : Bool := false
  l3 : Nat := 0xFFFF
  l4 : Nat := 0xFFFF
  /-- L4 in the vector: 0 none, 1 UDP, 2 TCP, 3 ICMP, 4 ICMPv6, 5 other. -/
  l4k : Nat := 0
  proto : Option Nat := none
  frag : Bool := false
  later : Bool := false
  ptp : Nat := 0xFFFF
  ptpUdp : Option Nat := none
  avtp : Option Nat := none
  /-- The first ACF message header of a TSCF or NTSCF header. -/
  acf : Option Nat := none
  deriving DecidableEq, Repr

/-- One L2 header (R169, R170): at most two tags, one SecTAG and one R-TAG. `len` is the body's length. -/
def scanL2 (b : List Byte) (len : Nat) (x : Scan) : Scan :=
  let p := x.pos
  let t := be b p 2
  if len < p + 2 then { x with fin := .err }
  else if t = 0x8100 ∨ t = 0x88A8 then
    if 2 ≤ x.tcis.length then { x with fin := .deep }
    else if len < p + 6 then { x with fin := .err }
    else { x with pos := p + 4, tcis := x.tcis ++ [be b (p + 2) 2], tagEnd := p + 4,
                  tagAt := if x.tcis.isEmpty then p else x.tagAt }
  else if t = 0x88E5 then
    let tci := be b (p + 2) 1
    let n := if bitsOf tci 5 1 = 1 then 16 else 8
    if x.sec.isSome then { x with fin := .deep }
    else
      let x := { x with secSeen := true }
      if len < p + n ∨ bitsOf tci 7 1 = 1 ∨ (bitsOf tci 5 1 = 1 ∧ be b (p + 3) 1 ≠ 0) then { x with fin := .err }
      else { x with pos := p + n, sec := some p, fin := if bitsOf tci 3 1 = 1 then .stop else .go }
  else if t = 0xF1C1 then
    if x.rtag.isSome then { x with fin := .deep }
    else if len < p + 8 then { x with fin := .err }
    else { x with pos := p + 6, rtag := some p }
  else { x with l2 := p + 2 }

/-- The L2 headers in turn; `l2` is set where they end. -/
def walkL2 (b : List Byte) (len : Nat) : Nat → Scan → Scan
  | 0, x => x
  | n + 1, x =>
    if x.fin = .go ∧ x.l2 = 0 then walkL2 b len n (scanL2 b len x) else x

/-- Whether a header of the network part can be read at `x.pos` with `fix` bytes: else DEEP (it is not recognised, R169),
or ERR (recognised and beyond the body, R170). "Within 64 bytes" is read as among the first 64 bytes (DEDUCED, log 26). -/
def Scan.room (x : Scan) (len fix : Nat) : ParseEnd :=
  if x.l2 + 64 ≤ x.pos ∨ 192 < x.pos + fix then .deep else if len < x.pos + fix then .err else .go

/-- A PTP message at `p` (Table 7.1): versionPTP 2, otherwise not PTP. -/
def scanPtp (b : List Byte) (len : Nat) (udp : Option Nat) (x : Scan) : Scan :=
  let p := x.pos
  if len < p + 2 ∨ be b (p + 1) 1 % 16 ≠ 2 then { x with fin := .stop }
  else match x.room len 34 with
    | .go => { x with ptp := p, ptpUdp := udp, pos := p + 34, fin := .stop }
    | e => { x with fin := e }

/-- UDP, TCP, ICMP and ICMPv6 (Table 7.1). -/
def scanL4 (b : List Byte) (len proto : Nat) (x : Scan) : Scan :=
  let p := x.pos
  if x.later then { x with fin := .stop }
  else match proto with
    | 17 => match x.room len 8 with
      | .go =>
        let x := { x with l4 := p, l4k := 1, proto := some 17, pos := p + 8 }
        let d := be b (p + 2) 2
        if d = 319 ∨ d = 320 then scanPtp b len (some p) x else { x with fin := .stop }
      | e => { x with fin := e }
    | 6 => match x.room len 20 with
      | .go =>
        let off := be b (p + 12) 1 / 16
        if off < 5 ∨ len < p + 4 * off then { x with fin := .err }
        else { x with l4 := p, l4k := 2, proto := some 6, pos := p + 4 * off, fin := .stop }
      | e => { x with fin := e }
    | q => if q = 1 ∨ q = 58 then
        match x.room len 4 with
        | .go => { x with l4 := p, l4k := if q = 1 then 3 else 4, proto := some q, pos := p + 4, fin := .stop }
        | e => { x with fin := e }
      else { x with l4k := 5, proto := some q, fin := .stop }

/-- IPv6 extension headers: at most two; 50 and 51 end parsing (Table 7.1). -/
def scanExt (b : List Byte) (len : Nat) : Nat → Nat → Scan → Nat × Scan
  | 0, nh, x => if nh = 0 ∨ nh = 43 ∨ nh = 44 ∨ nh = 60 then (nh, { x with fin := .deep }) else (nh, x)
  | n + 1, nh, x =>
    if nh = 0 ∨ nh = 43 ∨ nh = 44 ∨ nh = 60 then
      match x.room len 8 with
      | .go =>
        let p := x.pos
        let size := if nh = 44 then 8 else 8 * (be b (p + 1) 1 + 1)
        if len < p + size then (nh, { x with fin := .err })
        else
          let x := if nh = 44 then { x with frag := true, later := x.later || decide (be b (p + 2) 2 / 8 ≠ 0) } else x
          scanExt b len n (be b p 1) { x with pos := p + size }
      | e => (nh, { x with fin := e })
    else (nh, x)

/-- The ones'-complement sum over a header is all ones when its checksum is right. -/
def ipSumOk (l : List Byte) : Bool := ocSum l == 65535

/-- IPv4 and IPv6 (R169, R170). -/
def scanIp (b : List Byte) (len t : Nat) (x : Scan) : Scan :=
  let p := x.pos
  if t = 0x0800 then
    if len ≤ p ∨ be b p 1 / 16 ≠ 4 then { x with fin := .stop }
    else match x.room len 20 with
      | .go =>
        let ihl := be b p 1 % 16
        if ihl < 5 ∨ len < p + 4 * ihl ∨ !ipSumOk (slice b p (4 * ihl)) ∨ len < p + be b (p + 2) 2 then { x with fin := .err }
        else
          let f := be b (p + 6) 2
          let proto := be b (p + 9) 1
          scanL4 b len proto { x with ip := 4, l3 := p, pos := p + 4 * ihl, proto := some proto,
                                      frag := decide (f % 0x4000 ≠ 0), later := decide (f % 0x2000 ≠ 0) }
      | e => { x with fin := e }
  else
    if len ≤ p ∨ be b p 1 / 16 ≠ 6 then { x with fin := .stop }
    else match x.room len 40 with
      | .go =>
        if len < p + 40 + be b (p + 4) 2 then { x with fin := .err }
        else
          let (nh, x) := scanExt b len 2 (be b (p + 6) 1) { x with ip := 6, l3 := p, pos := p + 40 }
          let x := { x with proto := some nh }
          if x.fin ≠ .go then x
          else if nh = 50 ∨ nh = 51 then { x with fin := .stop } else scanL4 b len nh x
      | e => { x with fin := e }

/-- The network part (R169). -/
def scanNet (b : List Byte) (len : Nat) (x : Scan) : Scan :=
  let t := be b x.pos 2
  let x := { x with pos := x.l2 }
  if t = 0x0800 ∨ t = 0x86DD then scanIp b len t x
  else if t = 0x0806 then
    match x.room len 28 with
    | .go =>
      if be b (x.pos + 4) 1 ≠ 6 ∨ be b (x.pos + 5) 1 ≠ 4 then { x with fin := .err }
      else { x with arp := true, l3 := x.pos, pos := x.pos + 28, fin := .stop }
    | e => { x with fin := e }
  else if t = 0x88F7 then scanPtp b len none x
  else if t = 0x22F0 then
    let sub := be b x.pos 1
    let n := if sub = 0x05 then 24 else 12
    match x.room len n with
    | .go =>
      let x := { x with avtp := some x.pos, pos := x.pos + n }
      if sub = 0x05 ∨ sub = 0x82 then
        match x.room len 2 with
        | .go => { x with acf := some x.pos, pos := x.pos + 2, fin := .stop }
        | e => { x with fin := e }
      else { x with fin := .stop }
    | e => { x with fin := e }
  else { x with fin := .stop }

/-- The walk over the body of an ETH or INJECT coach. -/
def scanBody (b : List Byte) (len : Nat) : Scan :=
  if len < 14 then { fin := .err, short := true }
  else
    let x := walkL2 b len 6 {}
    if x.fin = .go then scanNet b len x else x

/-- PARSE_FLAGS (Table 7.2), LENS_SKIP aside. -/
def Scan.flags (x : Scan) : Nat :=
  (if x.fin = .err then 1 else 0) + (if x.fin = .deep then 2 else 0) + (if x.frag then 4 else 0)
    + (if x.ptp = 0xFFFF then 0 else 8) + (if x.avtp.isSome then 16 else 0) + (if x.secSeen then 64 else 0)

/-- The parse vector (Table 7.3) of an ETH or INJECT coach; LENS is added when it is final. -/
def Scan.vector (x : Scan) (b : List Byte) (port kind flags : Nat) : List Byte :=
  let z := fun (n : Nat) => List.replicate n (0#8)
  let four := x.ip == 4
  let tci := fun (i : Nat) => bytesBE 2 (x.tcis.getD i 0)
  let l3 := if x.ip = 4 then 1 else if x.ip = 6 then 2 else if x.arp then 3 else 0
  let l4 := x.l4k
  let c0 := [BitVec.ofNat 8 port, BitVec.ofNat 8 kind, BitVec.ofNat 8 flags,
      BitVec.ofNat 8 (l3 + l4 * 4 + x.tcis.length * 32 + (if x.rtag.isSome then 128 else 0))]
    ++ tci 0 ++ tci 1 ++ (if x.l2 = 0 then z 2 else slice b (x.l2 - 2) 2) ++ z 2
  let ports := if l4 = 1 ∨ l4 = 2 then slice b x.l4 4 else z 4
  let c2 := ports ++ [BitVec.ofNat 8 (x.proto.getD 0)]
    ++ (if four then slice b (x.l3 + 1) 1 ++ slice b (x.l3 + 8) 1
        else if x.ip = 6 then [BitVec.ofNat 8 (be b x.l3 2 / 16 % 256)] ++ slice b (x.l3 + 7) 1 else z 2)
    ++ (if l4 = 2 then slice b (x.l4 + 13) 1 else z 1)
    ++ (if l4 = 3 ∨ l4 = 4 then slice b x.l4 2
        else match x.acf with
          | some p => slice b p 2
          | none => z 2)
    ++ (match x.rtag with
        | some p => slice b (p + 4) 2
        | none => z 2)
  let ips := if four then z 12 ++ slice b (x.l3 + 12) 4 ++ z 12 ++ slice b (x.l3 + 16) 4 ++ z 4
    else if x.ip = 6 then slice b (x.l3 + 8) 32 ++ bytesBE 4 (be b x.l3 4 % 2 ^ 20) else z 36
  let c6 := if x.ptp ≠ 0xFFFF then slice b x.ptp 12
    else match x.avtp with
      | some p => slice b p 12
      | none => if x.arp then slice b (x.l3 + 14) 4 ++ slice b (x.l3 + 24) 4 ++ slice b (x.l3 + 6) 2 ++ z 2
          else if l4 = 1 ∧ x.fin ≠ .err then slice b (x.l4 + 8) 12 else z 12
  let c7 := match x.sec with
    | some p => if bitsOf (be b (p + 2) 1) 5 1 = 1 then slice b (p + 2) 12 else slice b (p + 2) 6 ++ z 6
    | none => z 12
  c0 ++ (if x.short then z 12 else slice b 0 12) ++ c2 ++ ips ++ c6 ++ c7

/-- The vector of a RAW coach: its raw header alone (Table 7.3). -/
def rawVector (b : List Byte) (port : Nat) : List Byte :=
  [BitVec.ofNat 8 port, 1#8] ++ List.replicate 10 0 ++ slice b 4 12 ++ List.replicate 72 0

/-- The offsets kept with the coach. -/
def Scan.parsed (x : Scan) : Parsed :=
  { ethType := x.tagEnd, l3 := x.l3, l4 := x.l4, payload := x.pos, ptp := x.ptp, macsec := x.sec.isSome,
    vlan := x.tcis.head?.map (· % 4096), vlanAt := x.tagAt, pcp := x.tcis.head?.getD 0 / 8192, rtag := x.rtag, ip := x.ip, frag := x.later,
    ptpUdp := x.ptpUdp }

end Sys2Proof.Machine
end

