-- ==== Sys2Proof/Machine/Frame.lean ====
section
/-!
DEFINITION. Machine/Frame.lean: frames at ingress: stamps, admission, the building of a coach, its tail and verdict, the lens
(R19, R38–R51, R61, R80, R81, R90, R173, R191, R240).
-/
namespace Sys2Proof.Machine

/-- L_n in CORE cycles. -/
def State.latOf (s : State) (n : Nat) : Nat := s.fld (stnR n 4) 0 13

/-- T_cap of a symbol that passes the capture point of the port's lane number `lane` at CI0 instant t: held at the 1/64-tick phase and
    referred to the port's first lane (R89). -/
def State.captureIn (s : State) (p t lane : Nat) : Int := ((t / stepU : Nat) - (s.egrPort p).skews.getD lane 0) * (stepU : Nat)

/-- TS_IN in CI0 (R90), in 2^-48 ns; port 33 has no lane (R45). -/
def State.tsInOf (s : State) (p t : Nat) (lane : Nat := 0) : Nat :=
  if p = 33 then t
  else
    let l := s.portLane p
    let d := s.sfld (lcalR l 0) 0 32 + s.sfld (lcalR l 8) 0 16 - s.sfld (lcalR l 4) 0 32 + s.sfld (extR p 0) 0 32
    (s.captureIn p t lane - d * 2 ^ 40).toNat

/-! ### Buckets counted in coaches -/

/-- A bucket of `cap` units refilled at `rate` units per 2^-48 ns up to now. -/
def Bucket.refill (b : Bucket) (rate cap now : Nat) : Bucket := ⟨min (cap : Int) (b.credit + (rate * (now - b.last) : Nat)), now⟩

/-- One token of `unit` is taken, when the bucket holds it. -/
def Bucket.take (b : Bucket) (unit : Nat) : Bool × Bucket :=
  if (unit : Int) ≤ b.credit then (true, { b with credit := b.credit - unit }) else (false, b)

/-- The admission meter of port p for a coach of class `cls` (R19, R24). -/
def State.admits (s : State) (p cls : Nat) : Bool × State :=
  if s.path.degraded ∧ s.resClass p cls then (true, s)
  else
    let rate := if s.path.degraded then s.fld (admitR p 4) 0 20 else s.fld (admitR p 0) 0 20
    if rate = 0 then (false, s)
    else
      let b : Bucket := aget (fun _ => {}) s.meters p
      let (ok, b) := (b.refill (rate * 4096) (s.fld (admitR p 0) 20 12 * secU) s.now).take secU
      (ok, { s with meters := aset (fun _ => {}) s.meters p b })

/-- Degraded admission begins at `t` (R24): until then every bucket has filled at its undegraded rate. -/
def State.degradeMeters (s : State) (t : Nat) : State :=
  if s.path.degraded then s
  else
    let fill := fun (m : Map Bucket) (p : Nat) =>
      let rate := s.fld (admitR p 0) 0 20
      if rate = 0 then m
      else aset (fun _ => {}) m p ((aget (fun _ => {}) m p : Bucket).refill (rate * 4096) (s.fld (admitR p 0) 20 12 * secU) t)
    { s with meters := (List.range 34).foldl fill s.meters, path := { s.path with degraded := true } }

/-- PARSE_LIM_PARSE or PARSE_LIM_MISS (R191). -/
def missR (isParse : Bool) : Nat := parseB + (if isParse then 0xC else 8)

def State.setMiss (s : State) (isParse : Bool) (b : Bucket) : State :=
  if isParse then { s with cls := { s.cls with parse := b } } else { s with cls := { s.cls with miss := b } }

/-- A bucket of the miss path as it stands now: one whose RATE is 0 holds no tokens (R191). -/
def State.missBucket (s : State) (isParse : Bool) : Bucket :=
  let rate := s.fld (missR isParse) 0 16
  let b := if isParse then s.cls.parse else s.cls.miss
  if rate = 0 then ⟨0, s.now⟩ else b.refill rate (s.fld (missR isParse) 16 16 * msU) s.now

/-- A coach takes a token of the miss path. -/
def State.missToken (s : State) (isParse : Bool) : Bool × State :=
  let (ok, b) := (s.missBucket isParse).take msU
  (ok && decide (s.fld (missR isParse) 0 16 ≠ 0), s.setMiss isParse b)

/-! ### PTP at ingress (R80, R81) -/

/-- What Table 3.4 does with a received PTP message. -/
inductive PtpFate where
  | pass | trap | drop
  deriving DecidableEq, Repr

/-- Table 3.4; a message type that it does not list passes on as an ordinary frame. -/
def ptpFate (tc msg : Nat) (peer : Bool) : PtpFate :=
  if peer then .trap
  else match tc with
    | 0 => if msg ≤ 3 ∨ (8 ≤ msg ∧ msg ≤ 0xD) then .trap else .pass
    | 2 => if msg = 1 ∨ msg = 9 then .drop else if msg = 2 ∨ msg = 3 ∨ msg = 0xA then .trap else .pass
    | _ => .pass

/-- A trapped message is counted in its 1 ms window: whether it lies within TIME_TRAP.RATE (R81). -/
def State.trapCounts (s : State) : Bool × State :=
  let w := s.now / msU
  let n := (if s.time.trapWindow = w then s.time.trapCount else 0) + 1
  let s : State := { s with time := { s.time with trapWindow := w, trapCount := n } }
  if n ≤ s.fld (timeB + 0x18) 0 16 then (true, s) else (false, s.raise Src.ptpTrapRate)

/-- The parser's handling of a PTP message of coach c (R80, R81). -/
def State.ptpIngress (s : State) (c : Coach) (b : List Byte) : Coach × State :=
  if c.parsed.ptp = 0xFFFF ∨ c.kind ≠ 0 then (c, s)
  else match ptpFate (s.tcMode c.inPort) (be b c.parsed.ptp 1 % 16) (be b 0 6 == 0x0180C200000E) with
    | .pass => (c, s)
    | .drop => (c.drop s.coreNow 2 5, s)
    | .trap =>
      let (ok, s) := s.trapCounts
      if ok then ({ (c.setVerb s.coreNow 3).setMask 0 with trapped := true }, s) else (c.drop s.coreNow 3 5, s)

/-! ### The lens (R173) -/

def lensR (k o : Nat) : Nat := parseB + 0x400 + k * 0x40 + o

/-- Pattern k as 16 value bytes and 16 mask bytes, and its length; 0 disables it (Table 7.8). -/
def State.lensPattern (s : State) (k : Nat) : List Byte × List Byte × Nat :=
  let w := fun (o : Nat) => (List.range 4).flatMap (fun i => bytesLE 4 (s.reg (lensR k (o + 4 * i))).toNat)
  let n := s.fld (lensR k 0x20) 0 5
  (w 0, w 0x10, if n ≤ 16 then n else 0)

/-- Whether the pattern stands at some offset of the range. -/
def lensHit (v m : List Byte) (n : Nat) (r : List Byte) : Bool :=
  0 < n && (List.range (r.length + 1 - n)).any (fun o =>
    (List.range n).all (fun i => (r.getD (o + i) 0) &&& (m.getD i 0) == (v.getD i 0) &&& (m.getD i 0)))

/-- DEPTH: below 16 acts as 16, above 9,216 as 9,216. -/
def State.lensDepth (s : State) : Nat := max 16 (min 9216 (s.fld (parseB + 4) 0 14))

/-! ### Building a coach (R38–R40, R169–R173) -/

/-- A parse error is counted, with the window of PARSE_CTL.ERR_LIM (R191). -/
def State.parseError (s : State) : State :=
  let s := s.count (parseB + 0x14) 0 32
  let w := s.now / msU
  let same := decide (s.cls.errWindow = w)
  let n := if same then s.cls.errCount + 1 else 1
  let told := same && s.cls.errRaised
  let lim := s.fld parseB 0 16
  let now := decide (lim ≠ 0 ∧ lim < n) && !told
  let s : State := { s with cls := { s.cls with errWindow := w, errCount := n, errRaised := told || now } }
  if now then s.raise Src.parseErrRate else s

/-- The stamp fields (Table 2.1): TS_IN in the port's own instance (R61). -/
def State.stampCoach (s : State) (c : Coach) : Coach × State :=
  let ci := s.portCi c.inPort
  let (v, _, s) := s.stampIn ci c.tsIn
  ((((c.setFld 204 0 32 (ns16 v)).setFld 208 0 32 (sec16 v)).setFld 212 0 16 (frac16 v)).setFld 212 16 4 ci, s)

/-- The coach whose head window is `body`, of a frame body of `len` bytes, in P0 cell `cell`: `draw` holds CLASS, TRAIN, DPRI and
    ATOMIC, whose source the spec does not give. -/
def coachOf (p kind ts cell seq : Nat) (draw : BitVec 26) (reserved : Bool) (body : List Byte) : Coach :=
  let head := slice body 0 192
  let c : Coach := { raw := BitVec.ofNat 2048 (fromLE head), tsIn := ts, cell := cell, resCells := if reserved then 1 else 0,
                     got := min body.length 192 }
  let c := (((c.setFld 192 14 6 p).setFld 192 24 3 (getField draw 0 3)).setFld 192 27 3 kind).setFld 200 0 32 seq
  let c := ((c.setFld 196 0 20 (getField draw 3 20)).setFld 196 20 2 (getField draw 23 2)).setFld 196 22 1 (getField draw 25 1)
  (c.setFld 216 0 19 0x7FFFF).setFld 220 0 32 (crc32c head)

/-- Parsing of coach c (R169–R172): flags, offsets and vector. -/
def Coach.parse (c : Coach) (len : Nat) (body : List Byte) : Coach :=
  if c.kind = 1 then { c with vector := rawVector body c.inPort, parsed := { payload := 16 } }
  else
    let x := scanBody (slice body 0 192) len
    { c.setFld 236 22 7 x.flags with vector := x.vector (slice body 0 192) c.inPort c.kind x.flags, parsed := x.parsed }

/-- The patterns that the scan of a frame of port p uses, as they stand now (R174): a pattern that LENS_MASK leaves out has length 0. -/
def State.lensPatterns (s : State) (p : Nat) : List (List Byte × List Byte × Nat) :=
  (List.range 16).map (fun k => let x := s.lensPattern k; if s.bit (parseR p) (16 + k) then x else (x.1, x.2.1, 0))

/-- Lens admission (R173): the frame waits for its scan, which begins here, or is not scanned where the store is full. -/
def State.lensAdmit (s : State) (c : Coach) (len : Nat) : Coach × State :=
  if !c.lens then (c, s)
  else if 262144 < s.cls.lensHeld + len then
    let f := c.fld 236 22 7 ||| 32
    ({ c.setFld 236 22 7 f with vector := patch c.vector 2 [BitVec.ofNat 8 f] }, (s.count (parseB + 0x1C) 0 32).raise Src.lensOverrun)
  else ({ c with lensDone := false, lensSize := len, lensPats := s.lensPatterns c.inPort },
        { s with cls := { s.cls with lensHeld := s.cls.lensHeld + len } })

/-- Everything the parser does with an admitted frame that has its coach cell; the SEQ of the coach. -/
def State.buildCoach (s : State) (p kind ts cell : Nat) (draw : BitVec 26) (reserved : Bool) (body : List Byte) (len : Nat) :
    Nat × State :=
  let q := s.path.nextSeq
  let s : State := { s with path := { s.path with nextSeq := (q + 1) % 2 ^ 32 } }
  let c := (coachOf p kind ts cell q draw reserved body).parse len body
  let c := { c with cutIn := decide (p < 32) && s.bit (pathR p 0) 0, lens := s.bit (parseR p) 6, total := len }
  let (c, s) := s.stampCoach c
  let s := if c.fld 236 22 1 = 1 then s.parseError else s
  let c := if s.bit (parseR p) 5 then c else c.setVerb s.coreNow 1
  let (c, s) := s.ptpIngress c body
  let (c, s) := s.lensAdmit c len
  (q, if c.lensDone then (s.setCoach q c).askIngress q else s.setCoach q c)

/-- A coach of port p with CLASS `cls` may take cells from the reserve of R217 now: its class is reserved, and no entry search is still
    to set it (log entry 190). -/
def State.reservedNow (s : State) (p cls : Nat) : Bool := s.resClass p cls && !s.bit (parseR p) 5

/-- Admission, the coach cell and the coach of a frame at port p: none where it is refused, counted under R231. -/
def State.admitFrame (s : State) (p kind ts : Nat) (body : List Byte) (len : Nat) : Option Nat × State :=
  let (draw, s) := s.fresh 26
  let cls := getField draw 0 3
  match s.admits p cls with
  | (false, s) => (none, (s.count (admitR p 8) 0 32).countDrop p 8 3)
  | (true, s) =>
    let res := s.reservedNow p cls
    match s.takeCell p res with
    | (none, s) => (none, s.countDrop p 8 5)
    | (some cell, s) => let (q, s) := s.buildCoach p kind ts cell draw res body len; (some q, s)

/-- The frames that port p is receiving, the last begun first. -/
def State.rxList (s : State) (p : Nat) : List Rx := aget (fun _ => []) s.cls.rx p

def State.setRxList (s : State) (p : Nat) (l : List Rx) : State :=
  { s with cls := { s.cls with rx := aset (fun _ => []) s.cls.rx p l } }

/-- The coach of the frame whose bytes arrive at port p. -/
def State.rxOf (s : State) (p : Nat) : Option Nat := (s.rxList p).head?.bind (·.coach)

/-- A frame may begin at port p: none is being received, or on a line port one preemptable frame, which an express frame interrupts
    (R225). -/
def State.rxFree (s : State) (p : Nat) : Bool := match s.rxList p with
  | [] => true
  | [_] => decide (p < 32)
  | _ => false

/-- A port takes frames: the path runs, its link is up, and it is not fenced. -/
def State.portOpen (s : State) (p : Nat) : Bool :=
  s.pathRun && s.bit (egrPR p 4) 0 && !s.absent (unitId 0xA p)

/-- FRAME_RECEIVE: a frame of `len` body bytes whose head window is `head` reaches port p; the symbol of its timestamp point passes the
    capture point of lane number `lane` of the port at CI0 instant `t`. A frame that Jenitor takes off builds no coach (R320). -/
def State.frameReceive (s : State) (p t len lane : Nat) (head : List Byte) : State :=
  let s := s.advance t
  if !s.portOpen p || !s.rxFree p || (s.jenAt p head).isSome then s
  else
    let (q, s) := s.admitFrame p 0 (s.tsInOf p t lane) (head.take 192) len
    s.setRxList p (⟨q, head.take 192⟩ :: s.rxList p)

/-! ### The rest of the body (R48, R51, R240) -/

/-- The CI0 instant of the FAB cycle in which the verdict on a frame of port p becomes final, its last byte having reached the PMA at t
    (R48). -/
def State.verdictInstant (s : State) (p t : Nat) : Nat :=
  let r := s.portRate p
  let a := t + s.fld (pathR p 4) 0 12 * fabU
  (if r = 0 then a / fabU else (a * r - 1568 * nsU) / (r * fabU)) * fabU

/-- The learn items of coach q learn its verdict (R201), whether or not the coach is still there. -/
def State.learnVerdict (s : State) (q reason : Nat) : State :=
  { s with cls := { s.cls with learn := s.cls.learn.map (fun (it : Learn) =>
      if it.coach = q ∧ it.verdict = none then { it with verdict := some reason } else it) } }

/-- The release of a coach that is in station n falls in a later CORE cycle than the present one (R49). -/
def State.beforeRelease (s : State) (n : Nat) (c : Coach) : Bool := decide (s.coreNow < (c.tIn + s.latOf n * coreU) / coreU)

/-- The verdict of coach q becomes final: 0 passed, else its drop reason (R48, R49). One that comes in the release cycle is left to the
    next station, or to the copies. -/
def State.verdict (s : State) (q reason : Nat) : State :=
  let s := s.learnVerdict q reason
  match s.coach q with
  | none => s
  | some c =>
    let body := s.bodyBytes c c.got
    let c := if c.kind = 1 then c else c.setFld 192 0 14 c.got
    let c := (c.setFld 216 19 10 c.cells.length).setFld 224 0 32 (crc32c (body.drop 192) % (if 192 < c.got then 2 ^ 32 else 1))
    let c := { c with verdict := some reason, verdictAt := s.now / fabU }
    let s := s.setCoach q c
    match c.loc with
    | .parser =>
      if reason = 0 then s
      else
        let c := c.drop s.coreNow reason 1
        let s : State := { s with cls := { s.cls with lensHeld := s.cls.lensHeld - c.lensSize } }
        s.leaveDropped q c
    | .station n => if reason = 0 || !s.beforeRelease n c then s else s.dropCoach q reason 1
    | .egress => if reason = 0 then s.settleCopies q else s.failCopies q reason

/-- Body bytes of coach q arrive; each 256 take a chain cell. A refused cell fails the verdict with NO_CELLS (R240). -/
def State.bodyCell (s : State) (p q : Nat) (bytes : List Byte) : Bool × State :=
  match s.coach q with
  | none => (false, s)
  | some c =>
    let l := bytes.take (min 256 (9212 + (if c.kind = 1 then 8000 else 0) - c.got))
    if l.isEmpty ∨ c.verdict.isSome then (true, s)
    else match s.takeCell p (c.resCells != 0) with
      | (none, s) => (false, s.verdict q 5)
      | (some i, s) =>
        let s := s.setBytes (s.bufAddr 0 i) (slice l 0 256)
        let c := if c.cells.isEmpty then c.setFld 216 0 19 i else c
        let cells := c.cells ++ [i]
        let c := { c.setFld 216 19 10 cells.length with cells := cells, got := c.got + l.length,
                                                        resCells := if c.resCells = 0 then 0 else c.resCells + 1 }
        (true, s.setCoach q c)

/-- BODY_CELL_ARRIVAL: the next body bytes, at most 256, of the frame that port p is receiving. -/
def State.bodyArrive (s : State) (p : Nat) (bytes : List Byte) : State :=
  match s.rxList p with
  | [] => s
  | x :: rest =>
    let s := s.setRxList p ({ x with body := x.body ++ bytes } :: rest)
    match x.coach with
    | some q => (s.bodyCell p q bytes).2
    | none => s

/-- The reason of the verdict on a frame of port p with the body `body` (R48): the first in the list stands. On a port that terminates
    MACsec the length and the FCS are those of the protected frame, and the ICV joins them (R51). -/
def State.verdictReason (s : State) (p : Nat) (body : List Byte) (v : Verdict) : Nat :=
  let wire := if s.macsecOn p then Config.macsecProtect p body else body
  if v.linkLost then 15
  else if 9212 < wire.length then 14
  else if v.icvBad && s.macsecOn p then 16
  else if wire.length < 60 || v.symbol || v.fragment || v.fcs != BitVec.ofNat 32 (crc32 wire) then 1 else 0

/-- VERDICT_FINAL of the frame whose bytes port p is receiving, T_last being CI0 instant t (R48): the reception ends. A frame that a
    refused chain cell has already failed keeps that verdict (R240). -/
def State.verdictFinal (s : State) (p t : Nat) (v : Verdict) : State :=
  let s := s.advance (s.verdictInstant p t)
  match s.rxList p with
  | [] => s
  | x :: rest =>
    let s := s.setRxList p rest
    match x.coach with
    | none => s
    | some q => if ((s.coach q).bind (·.verdict)).isSome then s else s.verdict q (s.verdictReason p x.body v)

/-! ### The end of the lens scan (R173) -/

/-- How long after LENS is final a coach of port p enters station S0: where the port makes ingress searches, the 64 SRCH cycles within
    which station 0 has a slot and the longest latency of a search (R181, R182; log entry 207). -/
def State.searchLag (s : State) (p : Nat) : Nat :=
  if s.bit (parseR p) 5 || skindOf (s.fld (fwdPort p) 2 3) != 0 then (64 * 2 + 30) * coreU else 0

/-- LENS_SCAN_DONE of coach q: bit k tells whether enabled pattern k lies in the scan range. The scan ends with the body or at DEPTH. -/
def State.lensScan (s : State) (q : Nat) : State :=
  match s.coach q with
  | none => s
  | some c =>
    if c.lensDone || (c.verdict.isNone && decide (c.got < s.lensDepth)) then s
    else
      let r := ((s.bodyBytes c c.got).take s.lensDepth).drop c.parsed.payload
      let hit := fun (k : Nat) => match c.lensPats[k]? with
        | some (v, m, n) => lensHit v m n r
        | none => false
      let w := ((List.range 16).map (fun k => if hit k then 2 ^ k else 0)).sum
      let c := { c.setFld 236 6 16 w with lensDone := true, lensSize := 0, vector := patch c.vector 10 (bytesLE 2 w),
                                          entryAt := some (max (s.s0Core c) (ceilTo coreU s.now + s.searchLag c.inPort)) }
      let s : State := { s with cls := { s.cls with lensHeld := s.cls.lensHeld - ((s.coach q).getD {}).lensSize } }
      (s.setCoach q c).askIngress q

/-! ### Meanings -/

/-- FRAME_RECEIVE (R38, R43). -/
def execFrameReceive (p : Fin 34) (t len : Nat) (head : FrameHead) (s : State) : Host.Outcome State Fault Refusal :=
  .next (s.frameReceive p t len head.lane head.bytes)

/-- BODY_CELL_ARRIVAL (R240). -/
def execBodyCellArrival (p : Fin 34) (bytes : List Byte) (s : State) : Host.Outcome State Fault Refusal := .next (s.bodyArrive p bytes)

/-- VERDICT_FINAL (R48). -/
def execVerdictFinal (p : Fin 34) (t : Nat) (v : Verdict) (s : State) : Host.Outcome State Fault Refusal :=
  .next (s.verdictFinal p t v)

/-- LENS_SCAN_DONE (R173). -/
def execLensScanDone (q : BitVec 32) (s : State) : Host.Outcome State Fault Refusal := .next (s.lensScan q.toNat)

end Sys2Proof.Machine
end

