-- ==== Sys2Proof/Machine/Stations.lean ====
section
/-!
DEFINITION. Machine/Stations.lean: stations, couplers, the dispatcher and the egress enqueue stage (R20, R29–R34, R41–R45, R54, R55,
R158, R159, R191, R210, R212).
-/
namespace Sys2Proof.Machine

def State.stn (s : State) (n : Nat) : StnSt := aget (fun _ => {}) s.stns n

def State.setStn (s : State) (n : Nat) (x : StnSt) : State := { s with stns := aset (fun _ => {}) s.stns n x }

/-- D_n in CORE cycles. -/
def State.dBound (s : State) (n : Nat) : Nat := s.fld (stnR n 8) 8 12

/-! ### Entry into a station (R20, R43, R44) -/

/-- Coach q joins the order of station n by its entry instant; `before` tells which coaches already there go first. -/
def insertOrder (before : Nat → Bool) (q : Nat) : List Nat → List Nat
  | [] => [q]
  | a :: t => if before a then a :: insertOrder before q t else q :: a :: t

/-- Coach q enters station n at the CORE edge `t`: a full coupler drops it (R20), and the fields of the dispatcher are taken. -/
def State.enterStation (s : State) (n q t : Nat) : State :=
  match s.coach q with
  | none => s
  | some c =>
    let x := s.stn n
    if 256 ≤ x.order.length then
      let s := s.raise Src.couplerFull
      s.leaveDropped q (c.drop s.coreNow 8 2)
    else
      let c := { c with loc := .station n, tIn := t, train := c.fld 196 0 20, dpri := c.fld 196 20 2, atomic := c.fld 196 22 1 == 1,
                        server := none, complete := false, issued := 0, overW := false, overB := false, stallRaised := false,
                        searches := if n = 0 then c.searches else 0 }
      let before := fun (a : Nat) => match s.coach a with
        | some d => d.tIn < t || (d.tIn == t && (n != 0 || d.inPort ≤ c.inPort))
        | none => true
      (s.setStn n { x with order := insertOrder before q x.order }).setCoach q c

/-- Coach c of SEQ q may enter station S0: LENS is final (R47), its ingress searches are made (R182, R207), and a frame of at most 196
    bytes has been judged (R48). -/
def State.mayEnter (s : State) (q : Nat) (c : Coach) : Bool :=
  s.pathRun && decide (c.loc = .parser) && c.lensDone && !(s.askedOf 0 q || s.askedOf 3 q)
    && !(c.kind == 0 && decide (c.total ≤ 192) && c.verdict.isNone)

/-- COACH_ENTER_S0 of coach q: TENSE is the tense in force (R188). -/
def State.enterS0 (s : State) (q : Nat) : State :=
  match s.coach q with
  | none => s
  | some c =>
    if !s.mayEnter q c then s
    else
      let t := s.entryEdge c
      let s := s.advance t
      (s.setCoach q (c.setFld 192 20 4 (s.tenseAt t))).enterStation 0 q t

/-! ### The enqueue stage (R54, R55, R191, R210, R212) -/

/-- Bits of the port targets of a verb that forwards (R212). -/
def State.forwardMask (s : State) (c : Coach) : Nat :=
  let split := if c.streamSt = 1 then s.num (strAddr c.streamIx + 60) 2 % 4096 else 0
  let m := c.mask ||| (if split = 0 then 0 else s.groupMask split)
  if c.inPort = 33 ∨ s.bit (fwdPort c.inPort) 1 then m else withoutBit m c.inPort

/-- The port targets of the coach's verb (Table 7.5), port 33 of the miss path apart. -/
def State.portTargets (s : State) (c : Coach) : Nat := match c.verb with
  | 1 => s.forwardMask c
  | 3 => 2 ^ 33
  | 5 => s.forwardMask c ||| 2 ^ 33
  | 6 => s.forwardMask c
  | _ => 0

/-- The mirror session of the coach's verb that has a target (R248): none where it has none. -/
def State.mirrorTarget (s : State) (c : Coach) : Option Nat :=
  let m := c.mirror
  if (c.verb = 4 ∨ c.verb = 6) ∧ m ≠ 0 ∧ (s.bit (rewB + 0x100 + m * 4) 0 ∨ s.fld (rewB + 0x100 + m * 4) 1 6 ≤ 33) then some m else none

/-- The mirror session m is tried: whether it accepts. -/
def State.tryMirror (s : State) (q m : Nat) : Bool × State :=
  let a := rewB + 0x100 + m * 4
  if s.bit a 0 then s.rewAccept q m else s.tryTarget q (s.fld a 1 6) (s.fld a 7 3) true

/-- The port targets in turn: the masks that accepted and refused. -/
def State.tryPorts (s : State) (q cls : Nat) : List Nat → Nat → Nat → Nat × Nat × State
  | [], yes, no => (yes, no, s)
  | p :: t, yes, no =>
    let (ok, s) := s.tryTarget q p cls false
    if ok then State.tryPorts s q cls t (yes ||| 2 ^ p) no else State.tryPorts s q cls t yes (no ||| 2 ^ p)

/-- The port that a mirror session copies to, as a mask of one bit; 0 for the rewind store and for no session (R248). -/
def State.mirrorMask (s : State) (m : Option Nat) : Nat := match m with
  | some m => if s.bit (rewB + 0x100 + m * 4) 0 then 0 else 2 ^ s.fld (rewB + 0x100 + m * 4) 1 6
  | none => 0

/-- The outcome of the targets is written back, and a coach that no target holds leaves (R54, R55). The destination port of the mirror
    session `m` is one of the targets of both masks. -/
def State.settleTargets (s : State) (q yes no : Nat) (m : Option Nat) (mirrorOk : Bool) : State :=
  let bit := s.mirrorMask m
  let gone := no ||| (if m.isSome && !mirrorOk then bit else 0)
  let s := s.modCoach q (fun c =>
    ((c.setMask (yes ||| (if mirrorOk then bit else 0))).setFld 240 28 1 (if no = 0 then 0 else 1)).setFld 240 29 1
      (if m.isSome && !mirrorOk then 1 else 0))
  let taken := popCount 34 yes + (if mirrorOk then 1 else 0)
  let refused := popCount 34 no + (if m.isSome && !mirrorOk then 1 else 0)
  let s := if 0 < taken ∧ 0 < refused then s.raise Src.replicaPartial [q, gone % 2 ^ 32, gone / 2 ^ 32] else s
  match s.coach q with
  | none => s
  | some c =>
    if taken ≠ 0 then s
    else
      let s := if 2 ≤ refused then s.countDrop c.inPort 8 19 else s
      s.freeCoach q c

/-- The targets that would accept count a coach of the miss path as delivered (R191): port 33 holds its copy. -/
def State.missCount (s : State) (q : Nat) : State := match s.coach q with
  | some _ => s.count (parseB + 0x10) 0 32
  | none => s

/-- Every target of coach q is tried in the cycle of its release from S15. -/
def State.tryTargets (s : State) (q : Nat) (c : Coach) (ports : Nat) : State :=
  let (yes, no, s) := s.tryPorts q c.cls (onesOf 34 ports) 0 0
  match s.mirrorTarget c with
  | none => s.settleTargets q yes no none false
  | some m => let (ok, s) := s.tryMirror q m; s.settleTargets q yes no (some m) ok

/-- VERB NONE at egress enqueue: port 33 alone, through the miss path (R191). -/
def State.missPath (s : State) (q : Nat) (c : Coach) : State :=
  let isParse := c.fld 236 22 1 == 1
  match s.missToken isParse with
  | (true, s) => (s.tryTargets q c (2 ^ 33)).missCount q
  | (false, s) =>
    let s := (s.count (parseB + 0x18) 0 32).raise Src.missLimit
    s.leaveDropped q (c.drop s.coreNow (if isParse then 17 else 11) 5)

/-- The egress enqueue stage takes coach q (R210, Table 7.5). -/
def State.enqueueStage (s : State) (q : Nat) (c : Coach) : State :=
  let (c, gone, s) := s.frer { c with loc := .egress }
  match gone with
  | some r => s.leaveDropped q (c.drop s.coreNow r 5)
  | none =>
    let s := s.setCoach q c
    if c.verb = 0 then s.missPath q c
    else
      let ports := s.portTargets c
      if ports = 0 ∧ (s.mirrorTarget c).isNone then s.leaveDropped q (c.drop s.coreNow 2 5) else s.tryTargets q c ports

/-! ### Release (R30, R34, R41) -/

/-- The thread that serves coach q in station n, when it still does. -/
def State.serverOf (s : State) (n q : Nat) (c : Coach) : Option Nat := match c.server with
  | some (k, t) => let i := threadId n k t; if (s.thread i).binding = some q then some i else none
  | none => none

/-- Complete by the end of the CORE cycle before `cyc` (R30). -/
def Coach.completeBy (c : Coach) (cyc : Nat) : Bool := c.complete && decide (c.completeAt < cyc)

/-- Its drop reason was set in CORE cycle `cyc` or after. -/
def Coach.droppedFrom (c : Coach) (cyc : Nat) : Bool := match c.dropBy with
  | some by_ => c.reason != 0 && decide (cyc ≤ by_.1)
  | none => false

/-- A late coach is dropped with BUDGET and counted (R30). The coupler is one of the writers of the release cycle, ranked by R41. -/
def State.lateCoach (s : State) (n q : Nat) (c : Coach) : State :=
  let c := { c with dropBy := c.dropBy.map (fun (e : Nat × Nat) => (s.coreNow, e.2)) }
  let s := s.setCoach q (c.drop s.coreNow 8 2)
  (s.count (stnR n 0x14) 0 32).raise (Src.stnBudget n)

/-- A failing verdict that arrived in the release cycle applies in the next station, or to each copy (R49). -/
def State.lateVerdict (s : State) (n q : Nat) : State := match (s.coach q).bind (·.verdict) with
  | some r => if r = 0 then s else if n < 15 then s.dropCoach q r 1 else s.failCopies q r
  | none => s

/-- The oldest coach of station n leaves its coupler at the CORE edge of t_in + L_n (R30). It is late when it was not complete by the end
    of the cycle before and had no drop reason by then; a reason set in the release cycle itself does not keep it from being late
    (R34). -/
def State.releaseCoach (s : State) (n q : Nat) (c : Coach) : State :=
  let t := c.tIn + s.latOf n * coreU
  let s := s.advance t
  let done := c.completeBy (t / coreU)
  let late := !done && (c.reason == 0 || c.droppedFrom (t / coreU))
  let s := if late then s.lateCoach n q c else s
  let s := match (if done then none else s.serverOf n q c) with
    | some i => s.returnServer i q true
    | none => s
  match s.coach q with
  | none => s
  | some c =>
    if c.reason ≠ 0 then s.leaveDropped q c
    else if n < 15 then (s.enterStation (n + 1) q t).lateVerdict n q
    else (s.enqueueStage q c).lateVerdict n q

/-- COUPLER_RELEASE of station n. -/
def State.couplerRelease (s : State) (n : Nat) : State :=
  let x := s.stn n
  match x.order with
  | [] => s
  | q :: rest =>
    let s := s.setStn n { x with order := rest }
    match s.coach q with
    | none => s
    | some c => s.releaseCoach n q c

/-! ### Dispatch (R33, R158, R159) -/

/-- The coaches of station n in coupler order. -/
def State.stationCoaches (s : State) (n : Nat) : List (Nat × Coach) := (s.stn n).order.filterMap (fun q => (s.coach q).map (fun c => (q, c)))

/-- In service in the station in CORE cycle `cyc`: taken from ch0 and not complete before it (R45, R158). -/
def Coach.inService (c : Coach) (cyc : Nat) : Bool := c.server.isSome && !c.completeBy cyc

/-- Waiting in the dispatcher. -/
def Coach.isWaiting (c : Coach) : Bool := c.server.isNone

/-- Eligible coaches in coupler order (R158): `held` holds the atomic trains in service or waiting earlier. -/
def eligibleCoaches : List (Nat × Coach) → List Nat → List (Nat × Coach)
  | [], _ => []
  | e :: rest, held =>
    let c := e.2
    if !c.isWaiting then eligibleCoaches rest held
    else if c.atomic ∧ held.contains c.train then eligibleCoaches rest held
    else
      let held := if c.atomic then c.train :: held else held
      if c.reason ≠ 0 then eligibleCoaches rest held else e :: eligibleCoaches rest held

/-- The coach handed off next: the highest DPRI, then the earliest entry (R159). -/
def State.nextCoach (s : State) (n : Nat) : Option (Nat × Coach) :=
  let l := s.stationCoaches n
  let busy := (l.filter (fun e => e.2.inService s.coreNow && e.2.atomic)).map (·.2.train)
  (eligibleCoaches l busy).foldl (fun (b : Option (Nat × Coach)) e => match b with
    | some x => if x.2.dpri < e.2.dpri then some e else b
    | none => some e) none

/-- The lowest dispatch thread of core k of station n that waits on ch0. -/
def State.idleThread (s : State) (n k : Nat) : Option Nat :=
  (List.range 7).find? (fun t => s.isDispatch (threadId n k t) && (match (s.thread (threadId n k t)).run with
    | .waiting (.chrd _ ch) => ch == 0
    | _ => false))

/-- Coaches in service in core k of station n. -/
def State.coreLoad (s : State) (n k : Nat) : Nat :=
  ((s.stationCoaches n).filter (fun e => e.2.inService s.coreNow && (e.2.server.map (·.1)) == some k)).length

/-- The core chosen (R159): an in-service core with a candidate thread and the fewest coaches in service, then the lower slot. -/
def State.chooseCore (s : State) (n : Nat) : Option (Nat × Nat) :=
  let cand := (List.range 10).filterMap (fun k => match (s.core (n * 10 + k)).role with
    | .service slot => (s.idleThread n k).map (fun t => (s.coreLoad n k * 16 + slot, k, t))
    | _ => none)
  (cand.foldl (fun (b : Option (Nat × Nat × Nat)) e => match b with
    | some x => if e.1 < x.1 then some e else b
    | none => some e) none).map (·.2)

/-- Coach q is handed to thread t of core k: its CHRD on ch0 completes with the coach's SEQ (R121, R159). A thread that waits in the
    other leg goes on behind the leg entry of the leg that the coach runs (R35; log entry 14). -/
def State.handOff (s : State) (n q k t : Nat) (c : Coach) : State :=
  let i := threadId n k t
  match (s.thread i).run with
  | .waiting (.chrd rd _) =>
    let s := s.setCoach q { c with server := some (k, t) }
    let w := (s.now - c.tIn) / coreU
    let a := stn2R n 4
    let s := s.setFld a 20 12 (max (s.fld a 20 12) (satur 12 w))
    let h := s.legHalfAt c.tIn
    let s := (s.modThread i (fun x => { x.put rd (BitVec.ofNat 64 q) with binding := some q })).wake i
    s.modThread i (fun x => if x.pc.toNat / 0x8000 = h then x else { x with pc := BitVec.ofNat 16 (s.legEntry n h + 4) })
  | _ => s

/-- Hand-offs that the dispatcher of station n has made in the present CORE cycle. -/
def State.handedNow (s : State) (n : Nat) : Nat := if (s.stn n).handed.1 = s.coreNow then (s.stn n).handed.2 else 0

/-- DISPATCH in station n: one hand-off, of at most 4 in a CORE cycle (R159). The CHRD that takes the coach is its first counted
    instruction (R28). -/
def State.dispatch (s : State) (n : Nat) : State :=
  if 4 ≤ s.handedNow n then s
  else match s.nextCoach n, s.chooseCore n with
  | some (q, c), some (k, t) =>
    let s := s.setStn n { s.stn n with handed := (s.coreNow, s.handedNow n + 1) }
    (s.handOff n q k t c).countIssue n q
  | _, _ => s

/-- DISPATCH_STALL: the coach of station n that has waited longest, once it has waited more than D_n cycles (R33). -/
def State.dispatchStall (s : State) (n : Nat) : State :=
  match (s.stationCoaches n).find? (fun e => e.2.isWaiting && !e.2.stallRaised && e.2.reason == 0) with
  | none => s
  | some (q, c) =>
    if s.latOf n ≤ s.dBound n then s
    else
      let s := s.advance (c.tIn + (s.dBound n + 1) * coreU)
      (s.setCoach q { c with stallRaised := true }).raise Src.dispatchStall

/-! ### Registers of the stations -/

/-- STN_MONn: HARD keeps its value for 3; CLEAR sets the peak to 0, and the updates of its CORE cycle are lost (Table 1.17). -/
def State.monWrite (s : State) (n : Nat) (v : Word) : State :=
  let s := if getField v 0 2 = 3 then s else s.setFld (stnR n 8) 0 2 (getField v 0 2)
  if getField v 4 1 = 1 then (s.setStn n { s.stn n with cleared := some s.coreNow }).setFld (stnR n 0xC) 0 12 0 else s

/-! ### Meanings -/

/-- COACH_ENTER_S0 (R43). -/
def execCoachEnterS0 (q : BitVec 32) (s : State) : Host.Outcome State Fault Refusal := .next (s.enterS0 q.toNat)

/-- COUPLER_RELEASE (R30). -/
def execCouplerRelease (n : Fin 16) (s : State) : Host.Outcome State Fault Refusal := .next (s.couplerRelease n)

/-- DISPATCH (R159). -/
def execDispatch (n : Fin 16) (s : State) : Host.Outcome State Fault Refusal := .next (s.dispatch n)

/-- DISPATCH_STALL (R33). -/
def execDispatchStall (n : Fin 16) (s : State) : Host.Outcome State Fault Refusal := .next (s.dispatchStall n)

/-- A write of STN_MONn (R28). -/
def execStnMonClear (n : Fin 16) (v : Word) (s : State) : Host.Outcome State Fault Refusal := .next (s.monWrite n v)

/-- A read of STN_EPOCH_LO, or of STN_PATH_EPOCH_LO (R37). -/
def execStnEpochLoRead (path : Bool) (s : State) : Host.Outcome State Fault Refusal :=
  .next (if path then s.latchHi (stnB + 0x18) (stnB + 0x1C) else s.latchHi (stnB + 0x10) (stnB + 0x14))

end Sys2Proof.Machine
end

