-- ==== Sys2Proof/Machine/Raw.lean ====
section
/-!
DEFINITION. Machine/Raw.lean: raw carriage framing on lanes 24 to 31 (R175–R177). Stream bytes arrive with the commands; the unit
keeps those it has not consumed.
-/
namespace Sys2Proof.Machine

def rawR (j o : Nat) : Nat := parseB + 0x800 + j * 0x10 + o

def State.rawUnit (s : State) (j : Nat) : RawUnit := aget (fun _ => {}) s.cls.raws j

def State.setRaw (s : State) (j : Nat) (u : RawUnit) : State :=
  { s with cls := { s.cls with raws := aset (fun _ => {}) s.cls.raws j u } }

/-- STATE of a unit: 0 OFF, 1 HUNT, 2 CONFIRM, 3 LOCKED. -/
def State.rawState (s : State) (j : Nat) : Nat := s.fld (rawR j 4) 0 2

/-- STATE and COUNT as the register shows them. -/
def State.rawShow (s : State) (j st count : Nat) : State := (s.setFld (rawR j 4) 0 2 st).setFld (rawR j 4) 2 3 count

def rawSync : List Byte := [0xB7#8, 0xD1#8, 0x4E#8, 0x29#8]

/-- SYNC stands at stream offset `o`. -/
def RawUnit.sync (u : RawUnit) (o : Nat) : Bool := slice u.buf (o - u.base) 4 == rawSync

/-- LEN at stream offset `o` of a frame (R175): bytes 8 and 9 from its SYNC. -/
def RawUnit.len (u : RawUnit) (o : Nat) : Nat := be u.buf (o - u.base + 8) 2

def lenValid (n : Nat) : Bool := 1 ≤ n && n ≤ 16384

/-- The unit holds stream bytes up to offset `o`. -/
def RawUnit.has (u : RawUnit) (o : Nat) : Bool := o ≤ u.base + u.buf.length

/-- Bytes before offset `o` are no longer needed; those that are still to arrive are passed over as they come. -/
def RawUnit.consume (u : RawUnit) (o : Nat) : RawUnit :=
  let n := min (o - u.base) u.buf.length
  { u with buf := u.buf.drop n, base := u.base + n }

def RawUnit.feed (u : RawUnit) (l : List Byte) : RawUnit := { u with buf := u.buf ++ l }

/-- K and M of a unit: 0 acts as 3 and 2 (Table 7.8). -/
def State.rawK (s : State) (j : Nat) : Nat := let k := s.fld (rawR j 0) 1 3; if k = 0 then 3 else k
def State.rawM (s : State) (j : Nat) : Nat := let m := s.fld (rawR j 0) 4 3; if m = 0 then 2 else m

/-- The unit hunts from stream offset `o`. -/
def State.rawHunt (s : State) (j : Nat) (u : RawUnit) (o : Nat) : State :=
  (s.setRaw j ({ u with next := o, count := 0, misses := 0 }.consume o)).rawShow j 1 0

/-- A write of PARSE_RAWj_CFG (R176, R177): EN going to 1 enters HUNT; EN = 0 ends framing, and a frame delivered in part fails. -/
def State.rawCfgWrite (s : State) (j : Nat) (v : Word) : State :=
  let was := s.bit (rawR j 0) 0
  let s := s.setFld (rawR j 0) 0 7 (getField v 0 7)
  let u := s.rawUnit j
  if getField v 0 1 = 1 then (if was then s else (s.setRaw j {}).rawShow j 1 0)
  else if was then
    let s := match u.part with
      | some q => if ((s.coach q).bind (·.verdict)).isSome then s else s.verdict q 1
      | none => s
    ((s.setRaw j {}).rawShow j 0 0).setCause (Src.rawAlign j) false
  else s

/-- Units that the image enables enter HUNT (R176). -/
def State.rawStart (s : State) : State :=
  (List.range 8).foldl (fun s j => if s.bit (rawR j 0) 0 ∧ s.rawState j = 0 then (s.setRaw j {}).rawShow j 1 0 else s) s

/-- The first offset from `o` at which SYNC with a valid LEN stands, over `fuel` offsets. -/
def RawUnit.search (u : RawUnit) : Nat → Nat → Option Nat
  | 0, _ => none
  | fuel + 1, o => if u.has (o + 10) then (if u.sync o && lenValid (u.len o) then some o else u.search fuel (o + 1)) else none

/-- RAW_HUNT_MATCH: the stream goes on by `l`, and the first candidate from the hunt position enters CONFIRM (R176). -/
def State.rawMatch (s : State) (j : Nat) (l : List Byte) : State :=
  if s.rawState j ≠ 1 then s
  else
    let u := (s.rawUnit j).feed l
    match u.search (u.buf.length + 1) u.next with
    | some o => (s.setRaw j ({ u with cand := o, chain := o, count := 0, next := o + 20 + u.len o }.consume o)).rawShow j 2 0
    | none =>
      let o := max u.next (u.base + u.buf.length - 9)
      s.setRaw j ({ u with next := o }.consume o)

/-- RAW_CONFIRM_CHECK: the unit looks at the expected offset (R176). -/
def State.rawConfirm (s : State) (j : Nat) (l : List Byte) : State :=
  if s.rawState j ≠ 2 then s
  else
    let u := (s.rawUnit j).feed l
    let o := u.next
    if !u.has (o + 10) then s.setRaw j u
    else if u.sync o && lenValid (u.len o) then
      let n := u.count + 1
      if s.rawK j ≤ n then
        let frames := n + u.hunted + (if u.huntFrom < u.chain then 1 else 0)
        let s := (s.count (rawR j 8) 0 32 frames).setCause (Src.rawAlign j) false
        (s.setRaw j ({ u with count := 0, misses := 0, hunted := 0, lastLen := u.len o }.consume o)).rawShow j 3 0
      else (s.setRaw j ({ u with cand := o, count := n, next := o + 20 + u.len o }.consume o)).rawShow j 2 n
    else s.rawHunt j { u with hunted := u.hunted + (if u.count = 0 then 0 else u.count + 1) } (u.cand + 1)

/-- A miss at the expected offset (R177). -/
def State.rawMiss (s : State) (j : Nat) (u : RawUnit) : State :=
  let o := u.next
  let s := s.count (rawR j 0xC) 0 32
  let m := u.misses + 1
  if s.rawM j ≤ m then (s.rawHunt j { u with huntFrom := o + 1 } (o + 1)).levelSource (Src.rawAlign j) true
  else
    let n := if lenValid (u.len o) then u.len o else u.lastLen
    s.setRaw j ({ u with misses := m, next := o + 20 + n, lastLen := n }.consume (o + 20 + n))

/-- Chain cells are filled while the stream holds their bytes; `fuel` bounds the cells of a frame. -/
def State.rawFill (s : State) (j q o total : Nat) (u : RawUnit) : Nat → State
  | 0 => s
  | fuel + 1 => match s.coach q with
    | none => s
    | some c =>
      let n := min 256 (total - c.got)
      if total ≤ c.got ∨ c.verdict.isSome ∨ !u.has (o + c.got + n) then s
      else
        let (ok, s) := s.bodyCell (24 + j) q (slice u.buf (o + c.got - u.base) n)
        if ok then s.rawFill j q o total u fuel else s

/-- The verdict on the raw frame of unit j, its first sync bit at instant t, becomes final (R48, R177): `n` bytes from there its last
    byte reached the plane. A verdict that a refused cell has given stands. -/
def State.rawVerdict (s : State) (j q t n : Nat) (ok : Bool) : State :=
  let s := s.advance (s.verdictInstant (24 + j) (t + (if s.portRate (24 + j) = 0 then 0 else n * 8 * nsU / s.portRate (24 + j))))
  if ((s.coach q).bind (·.verdict)).isSome then s else s.verdict q (if ok then 0 else 1)

/-- The frame at the expected offset goes on: its cells, and its CRC-32C, in network order (R4), once it is complete (R175, R177). -/
def State.rawProceed (s : State) (j q : Nat) (u : RawUnit) : State :=
  let o := u.next
  let n := u.len o
  let s := s.rawFill j q o (16 + n) u 70
  if u.has (o + 20 + n) then
    let ok := crc32c (slice u.buf (o - u.base + 4) (12 + n)) == be u.buf (o - u.base + 16 + n) 4
    let s := s.rawVerdict j q u.partAt (20 + n) ok
    s.setRaw j ({ u with part := none, misses := 0, lastLen := n, next := o + 20 + n }.consume (o + 20 + n))
  else s.setRaw j { u with part := some q }

/-- RAW_FRAME_DELIVER: the stream goes on by `l`; in LOCKED the frame at the expected offset, whose first sync bit reached the
    plane at CI0 instant `t`, becomes a coach, goes on, or is a miss (R177). -/
def State.rawDeliver (s : State) (j t : Nat) (l : List Byte) : State :=
  if s.rawState j ≠ 3 then s
  else
    let u := (s.rawUnit j).feed l
    let o := u.next
    match u.part with
    | some q => s.rawProceed j q u
    | none =>
      if !u.has (o + 10) then s.setRaw j u
      else if !(u.sync o && lenValid (u.len o)) then s.rawMiss j u
      else
        let n := u.len o
        if !u.has (o + min 192 (16 + n)) then s.setRaw j u
        else
          let s := s.advance t
          let (q, s) := if s.pathRun && !s.absent (unitId 0xA (24 + j)) then
              s.admitFrame (24 + j) 1 (s.tsInOf (24 + j) t) (slice u.buf (o - u.base) (min 192 (16 + n))) (16 + n) else (none, s)
          match q with
          | some q => (s.modCoach q (fun c => c.setFld 192 0 14 (n % 16384))).rawProceed j q { u with partAt := t }
          | none =>
            if u.has (o + 20 + n) then s.setRaw j ({ u with misses := 0, lastLen := n, next := o + 20 + n }.consume (o + 20 + n))
            else s.setRaw j { u with part := some (2 ^ 32) }

/-! ### Meanings -/

/-- PARSE_RAWj_CFG.EN goes to 1 (R176): `v` is the word written. -/
def execRawEnable (j : Fin 8) (v : Word) (s : State) : Host.Outcome State Fault Refusal := .next (s.rawCfgWrite j (v ||| 1))

/-- EN = 0 is written (R177). -/
def execRawDisable (j : Fin 8) (v : Word) (s : State) : Host.Outcome State Fault Refusal := .next (s.rawCfgWrite j (v &&& 0xFFFFFFFE#32))

/-- RAW_HUNT_MATCH (R176). -/
def execRawHuntMatch (j : Fin 8) (l : List Byte) (s : State) : Host.Outcome State Fault Refusal := .next (s.rawMatch j l)

/-- RAW_CONFIRM_CHECK (R176). -/
def execRawConfirmCheck (j : Fin 8) (l : List Byte) (s : State) : Host.Outcome State Fault Refusal := .next (s.rawConfirm j l)

/-- RAW_FRAME_DELIVER (R177). -/
def execRawFrameDeliver (j : Fin 8) (t : Nat) (l : List Byte) (s : State) : Host.Outcome State Fault Refusal := .next (s.rawDeliver j t l)

end Sys2Proof.Machine
end

