-- ==== Sys2Proof/Machine/Yard.lean ====
section
/-!
DEFINITION. Machine/Yard.lean: the yard's scrubber and banks (R235–R237) and the requests of the buffer pool manager (R241–R246).
-/
namespace Sys2Proof.Machine

/-! ### Banks (R235, R237) -/

/-- The pool and buffer that hold yard word `w`. -/
def bufOfWord (w : Nat) : Nat × Nat :=
  if w < 2621440 then (0, w / 8) else if w < 2883584 then (1, (w - 2621440) / 64) else (2, (w - 2883584) / 512)

def State.bankPhys (s : State) (b : Nat) : Nat := aget (fun b => b) s.pool.bankMap b

def spareYardR : Nat := yardB + 0x10

/-- Physical banks that can take a logical bank: the module has 200. -/
def State.spareBanks (s : State) : List Nat :=
  let used := (List.range 192).map s.bankPhys
  (List.range 200).filter (fun p => !used.contains p && (s.unit (unitId 7 p)).state != 6 && (s.pool.bankMove.map (·.2)) != some p)

/-- YARD_SPARE shows the spares; SPARE_LOW when the last one goes. -/
def State.showBanks (s : State) : State :=
  let k := s.spareBanks.length
  let was := s.fld spareYardR 0 4
  let s := (s.setFld spareYardR 0 4 k).setBit spareYardR 8 s.pool.bankMove.isSome
  if was ≠ 0 ∧ k = 0 then s.raise Src.spareLow else s

/-- The copy of logical bank b into a spare begins: whether it could. -/
def State.bankMoveStart (s : State) (b : Nat) : Bool × State :=
  match s.pool.bankMove, s.spareBanks with
  | none, p :: _ =>
    let s := (s.unitState (unitId 7 (s.bankPhys b)) 3).unitState (unitId 7 p) 3
    let s : State := { s with pool := { s.pool with bankMove := some (b, p), bankReady := false } }
    (true, s.showBanks)
  | _, _ => (false, s)

/-- Logical bank b is to be moved (R237): now, or once the move under way is over. -/
def State.bankSpare (s : State) (b : Nat) : State :=
  if s.pool.bankMove.isNone then (s.bankMoveStart b).2
  else if s.pool.bankMove.map (·.1) = some b ∨ s.pool.bankWaits.contains b then s
  else { s with pool := { s.pool with bankWaits := s.pool.bankWaits ++ [b] } }

/-- The next bank that waits to be moved begins its move. -/
def State.bankNextMove (s : State) : State := match s.pool.bankWaits with
  | [] => s
  | b :: rest => ({ s with pool := { s.pool with bankWaits := rest } }.bankMoveStart b).2

/-- YARD_BANK_COPY_DONE: the spare serves from the next epoch boundary. -/
def State.bankCopied (s : State) : State :=
  if s.pool.bankMove.isSome then { s with pool := { s.pool with bankReady := true } } else s

/-- The switch at an epoch boundary: the outgoing bank is retired, and YARD_SPARED is raised (R237). -/
def State.bankSwitch (s : State) : State :=
  match s.pool.bankMove with
  | none => s
  | some (b, p) =>
    if !s.pool.bankReady then s
    else
      let old := s.bankPhys b
      let m := aset (fun b => b) s.pool.bankMap b p
      let s : State := { s with pool := { s.pool with bankMap := m, bankMove := none, bankReady := false } }
      let s := (s.unitState (unitId 7 p) 0).retirePart (unitId 7 old) Src.yardSpared
      let s := s.count spareYardR 4 4
      (((s.raiseU Src.yardSpared [] (unitId 7 p)).migrationNotice (unitId 7 p) old p 0).showBanks).bankNextMove

/-- The buffers of pool k with a word in logical bank b. -/
def State.bankBuffers (s : State) (b k : Nat) : List Nat :=
  let slots := poolSize k / 256
  let base := s.poolBase k / 256
  (List.range (s.poolCount k)).filter (fun i => (List.range (min slots 192)).any (fun j => bankOfWord ((base + i * slots + j) * 8) == b))

/-- Buffer i of pool k is withdrawn (R237). -/
def State.withdrawBuf (s : State) (k i : Nat) : State :=
  let p := s.pool1 k
  if p.withdrawn.contains i then s
  else
    let isFree := (s.heldAt k i).isNone
    let s := s.setPool1 k { p with withdrawn := p.withdrawn ++ [i], freed := p.freed.filter (· ≠ i) }
    let s := s.count (yardB + 0x14) 0 20
    if isFree then
      let f := s.poolFree k - 1
      let s := s.setFld (poolR k 0x0C) 0 20 f
      if f < s.fld (poolR k 0x18) 0 20 then s.setFld (poolR k 0x18) 0 20 f else s
    else s

/-- A bank that fails its self-test with no spare left is withdrawn with its buffers (R237). -/
def State.withdrawBank (s : State) (b : Nat) : State :=
  let s := (List.range 3).foldl (fun s k => (s.bankBuffers b k).foldl (fun s i => s.withdrawBuf k i) s) s
  (s.count spareYardR 9 4).levelSource Src.placementDegraded true

/-! ### Errors and the scrubber (R236) -/

/-- YARD_CORR: the count, the bank, and the limit that spares the bank (R236, R237). -/
def State.yardCorr (s : State) (w : Nat) : State :=
  let b := bankOfWord w
  let s := ((s.count yardB 0 16).setFld yardB 16 8 b).raise Src.yardCorr
  let n := aget (fun _ => 0) s.pool.bankErrs b + 1
  let s : State := { s with pool := { s.pool with bankErrs := aset (fun _ => 0) s.pool.bankErrs b n } }
  let lim := s.fld (yardB + 0xC) 16 8
  if lim ≠ 0 ∧ lim ≤ n then s.bankSpare b else s

/-- The coaches whose cells include buffer i of P0 read it with an uncorrectable error. -/
def State.markCells (s : State) (i : Nat) : State :=
  (s.coachList.filter (fun e => e.2.cell == i || e.2.cells.contains i)).foldl (fun s e => s.setCoach e.1 { e.2 with yardBad := true }) s

/-- YARD_UNCORR at word `w`: in a free buffer the word is rewritten as zero, in a held one it is left as it is (R236). -/
def State.yardUncorr (s : State) (w : Nat) : State :=
  let s := s.noteYard w
  let (k, i) := bufOfWord w
  match s.heldAt k i with
  | none =>
    let s : State := { s with pool := { s.pool with badWords := aset (fun _ => false) s.pool.badWords w false } }
    s.setBytes (w * 32) (List.replicate 32 0)
  | some _ =>
    let s : State := { s with pool := { s.pool with badWords := aset (fun _ => false) s.pool.badWords w true } }
    if k = 0 then s.markCells i else s

/-- YARD_SCRUB_STEP: the scrubber reads the next yard word, and meets in it what `e` says. -/
def State.yardScrub (s : State) (e : SlotErr) : State :=
  let w := s.pool.scrubAt
  let start := if w = 0 then s.now else s.pool.scrubStart
  let last := decide (w + 1 = 3145728)
  let errs := if w = 0 then [] else s.pool.bankErrs
  let s : State := { s with pool := { s.pool with scrubAt := if last then 0 else w + 1, scrubStart := start, bankErrs := errs } }
  let s := match e with
    | .soft => s.yardCorr w
    | .shadowCorr => s.yardCorr w
    | .uncorr => s.yardUncorr w
    | .shadowUncorr => s.yardUncorr w
    | .clean => s
  if last then s.setFld (yardB + 0xC) 0 16 (satur 16 ((s.now - start) / msU)) else s

/-! ### Requests (R241–R246) -/

/-- The owner id of a requester (R241); a packet-core thread and the image have no path to the manager. -/
def State.poolOwner (s : State) : Requester → Option Nat
  | .hart (.ctl c) => some (s.ctlOwner c)
  | .hart (.pkt _ _ _) => none
  | .session i => some (0xC00 + i)
  | .dma k => some (0xD00 + k)
  | .image => none

/-- A read of POOL_PkGET: the handle, or 0 where the request is refused. -/
def State.poolGetRead (s : State) (r : Requester) (k : Nat) : State :=
  match s.poolOwner r with
  | none => s.answerRead 0
  | some o => match s.poolGet k o with
    | (some (j, i), s) => s.answerRead (handleOf j i)
    | (none, s) => s.answerRead 0

/-- A write of POOL_PUT. -/
def State.poolPutWrite (s : State) (r : Requester) (v : Word) : State :=
  match s.poolOwner r with
  | none => s
  | some o => s.poolPut v.toNat o

/-- A write of POOL_GIVEc. -/
def State.poolGiveWrite (s : State) (r : Requester) (c : Nat) (v : Word) : State :=
  match s.poolOwner r with
  | none => s
  | some o => s.poolGive v.toNat o (s.fld (poolB + 0x120 + c * 8) 0 12)

/-- A write of POOL_PkMIN (R244). -/
def State.poolMinWrite (s : State) (k : Nat) (v : Word) : State :=
  if getField v 31 1 = 1 then s.setFld (poolR k 0x18) 0 20 (s.poolFree k) else s

/-- OWNER and USED of an audit entry: ports own entries 0 to 33. -/
def State.auditOwner (s : State) (e : Nat) : Nat × Bool := if e < 34 then (0xE00 + e, true) else ((s.auditAt e).owner, (s.auditAt e).used)

/-- A write of POOL_AUDIT_SEL loads the entry's snapshot (R246). -/
def State.auditSel (s : State) (v : Word) : State :=
  let e := getField v 0 8
  let x := s.auditAt e
  let (o, u) := s.auditOwner e
  let s := s.setFld (poolB + 0x180) 0 8 e
  let s := s.setReg (poolB + 0x184) (BitVec.ofNat 32 (o + (if u then 4096 else 0)))
  let s := s.setReg (poolB + 0x188) (BitVec.ofNat 32 (satur 16 x.oldestMs + x.oldestPool * 65536))
  (List.range 5).foldl (fun s k => s.setReg (poolB + 0x190 + k * 4) (BitVec.ofNat 32 (x.counts.getD k 0))) s

/-- Every held buffer in ascending order: pool, index, record, age in ms. -/
def State.heldList (s : State) : List (Nat × Nat × Held × Nat) :=
  s.pool.held.filterMap (fun e => e.2.map (fun h => (e.1 / 2 ^ 20, e.1 % 2 ^ 20, h, (s.stampMs + 2 ^ 32 - h.stamp) % 2 ^ 32)))

/-- A LEAK notice with POOL_LEAK_AGE (R246). -/
def State.leak (s : State) (owner k i age : Nat) : State :=
  (s.raise Src.poolLeakAge).notice 6 (bytesBE 2 owner ++ bytesBE 1 k ++ [0#8] ++ bytesBE 4 i ++ bytesBE 4 age)

/-- The leaks of a pass: once per owner and pool. -/
def State.leakPass (s : State) : List (Nat × Nat × Held × Nat) → List (Nat × Nat) → State
  | [], _ => s
  | (k, i, h, age) :: rest, seen =>
    let lim := s.fld (poolR k 0x10) 0 16
    if lim ≠ 0 ∧ lim < age ∧ !seen.contains (h.owner, k) then (s.leak h.owner k i age).leakPass rest ((h.owner, k) :: seen)
    else s.leakPass rest seen

/-- AUDIT_PASS_END at CI0 instant `t`: the duration, each entry's oldest buffer, and the leaks. -/
def State.auditPassEnd (s : State) (t : Nat) : State :=
  let s := s.advance t
  let l := s.heldList
  let s := s.leakPass l []
  let s := (List.range 256).foldl (fun s e =>
    let (o, u) := s.auditOwner e
    if !u then s
    else
      let best := ((l.filter (fun x => x.2.2.1.owner == o)).foldl (fun (b : Option (Nat × Nat)) x => match b with
        | some y => if y.1 < x.2.2.2 then some (x.2.2.2, x.1) else b
        | none => some (x.2.2.2, x.1)) none).getD (0, 0)
      s.setAudit e { s.auditAt e with oldestMs := best.1, oldestPool := best.2 }) s
  let s := s.setFld (poolB + 0x1A4) 0 16 (satur 16 ((s.now - s.pool.auditStart) / msU))
  { s with pool := { s.pool with auditStart := s.now } }

/-! ### Meanings -/

/-- YARD_BANK_COPY_DONE (R237). -/
def execYardBankCopyDone (s : State) : Host.Outcome State Fault Refusal := .next s.bankCopied

/-- POOL_GET (R241). -/
def execPoolGet (r : Requester) (k : Fin 5) (s : State) : Host.Outcome State Fault Refusal := .next (s.poolGetRead r k)

/-- POOL_PUT (R242). -/
def execPoolPut (r : Requester) (v : Word) (s : State) : Host.Outcome State Fault Refusal := .next (s.poolPutWrite r v)

/-- POOL_GIVE (R242). -/
def execPoolGive (r : Requester) (c : Fin 5) (v : Word) (s : State) : Host.Outcome State Fault Refusal := .next (s.poolGiveWrite r c v)

/-- POOL_MIN_CLEAR (R244). -/
def execPoolMinClear (k : Fin 5) (v : Word) (s : State) : Host.Outcome State Fault Refusal := .next (s.poolMinWrite k v)

/-- AUDIT_SEL_WRITE (R246). -/
def execAuditSelWrite (v : Word) (s : State) : Host.Outcome State Fault Refusal := .next (s.auditSel v)

/-- AUDIT_PASS_END (R246). -/
def execAuditPassEnd (t : Nat) (s : State) : Host.Outcome State Fault Refusal := .next (s.auditPassEnd t)

end Sys2Proof.Machine
end

