-- ==== Sys2Proof/Machine/Locks.lean ====
section
/-!
DEFINITION. Machine/Locks.lean: the lock unit (R296–R303).
-/
namespace Sys2Proof.Machine

/-- The owner id of a requester that can hold a lock (R296). -/
def State.ownerId (s : State) : Requester → Option Nat
  | .hart (.pkt n k t) => some (threadId n k t)
  | .hart (.ctl c) => some (s.ctlOwner c)
  | .session i => some (0xC00 + i)
  | .dma k => some (0xD00 + k)
  | .image => none

def State.lockEnt (s : State) (a : Nat) : Option LockEnt := s.cpu.locks.find? (fun e => e.addr == a)

/-- The table changes, and LOCK_STAT shows it. -/
def State.setLocks (s : State) (l : List LockEnt) : State :=
  { s with cpu := { s.cpu with locks := l } }.setFld (lockB + 4) 0 12 l.length

/-- LOCK_CFG.LEASE: 0 acts as 63 (R301). -/
def State.leaseCfg (s : State) : Nat := let l := s.fld lockB 0 14; if l = 0 then 63 else l

/-- Owners whose locks are leases (R298). -/
def leaseOwner (o : Nat) : Bool := o < 0x500 || (0xD00 ≤ o && o ≤ 0xD3F)

/-- The lock word of an owner (Table 12.4). -/
def lockWord (stuck : Bool) (lease owner : Nat) : Nat := 2 ^ 31 + (if stuck then 2 ^ 30 else lease * 65536) + owner

/-- An acquisition that is not performed: all ones and LOCK_CNT.FULL (R299). -/
def State.lockFull (s : State) : Nat × State := (0xFFFFFFFF, s.count (lockB + 8) 16 16)

/-- A read of the alias of the word at `a` by owner `o` (R298, R299): the value it returns. -/
def State.lockRead (s : State) (o a : Nat) : Nat × State :=
  if s.upset a then (s.raiseEcc a).lockFull
  else
    let w := s.cnum a 4
    if bitsOf w 31 1 = 1 then (w, s)
    else if 2048 ≤ s.cpu.locks.length ∧ (s.lockEnt a).isNone then s.lockFull
    else
      let stuck := !leaseOwner o
      let lease := s.leaseCfg
      let e : LockEnt := { addr := a, owner := o, stuck := stuck, left := lease, since := s.now }
      let s := s.writeNum a 4 (lockWord stuck lease o)
      (0, s.setLocks (s.cpu.locks.filter (fun x => x.addr != a) ++ [e]))

/-- The entry goes; the word becomes 0 only when OWNER there is still the recorded owner (R300). -/
def State.unlock (s : State) (e : LockEnt) : State :=
  let w := s.cnum e.addr 4
  let s := if w % 4096 = e.owner then s.writeNum e.addr 4 0 else s
  s.setLocks (s.cpu.locks.filter (fun x => x.addr != e.addr))

/-- A store of `v` to the alias of the word at `a` by owner `o` (R300). -/
def State.lockStore (s : State) (o a v : Nat) : State :=
  match s.lockEnt a with
  | none => s.count (lockB + 0xC) 0 16
  | some e =>
    if e.owner ≠ o then s.count (lockB + 0xC) 0 16
    else if v = 0 then s.unlock e
    else if !e.stuck ∧ bitsOf v 30 2 = 2 ∧ v % 4096 = o then
      let lease := if bitsOf v 16 14 = 0 then s.leaseCfg else bitsOf v 16 14
      let s := s.writeNum a 4 (lockWord false lease o)
      s.setLocks (s.cpu.locks.map (fun x => if x.addr = a then { x with left := lease } else x))
    else s.count (lockB + 0xC) 16 16

/-- LOCK_LAST records an expired or an aged lock. -/
def State.lockLast (s : State) (e : LockEnt) (aged : Bool) : State :=
  let s := s.setReg (lockB + 0x20) (BitVec.ofNat 32 e.addr)
  s.setReg (lockB + 0x24) (BitVec.ofNat 32 (e.addr / 2 ^ 32 % 256 + e.owner * 256 + (if aged then 2 ^ 20 else 0)))

/-- One lease expires (R301). -/
def State.expire (s : State) (e : LockEnt) : State :=
  let s := ((s.unlock e).count (lockB + 8) 0 16).lockLast e false
  s.raise Src.leaseExpired [e.addr % 2 ^ 32, e.addr / 2 ^ 32 % 256 + e.owner * 256]

/-- LEASE_TICK: the next multiple of 1.024 µs of CI0 (R301). -/
def State.leaseTick (s : State) : State :=
  let s := s.advance ((s.now / (1024 * nsU) + 1) * (1024 * nsU))
  let s := s.setLocks (s.cpu.locks.map (fun e => if e.stuck then e else { e with left := e.left - 1 }))
  (s.cpu.locks.filter (fun e => !e.stuck && e.left == 0)).foldl (fun s e => s.expire e) s

/-- STUCK_LOCK_CHECK: the next whole millisecond of CI0 (R302). -/
def State.stuckCheck (s : State) : State :=
  let s := s.advance ((s.now / msU + 1) * msU)
  let lim := s.fld lockB 16 16
  if lim = 0 then s
  else (s.cpu.locks.filter (fun e => e.stuck && !e.aged && e.since + lim * msU < s.now)).foldl (fun s e =>
    let s := s.setLocks (s.cpu.locks.map (fun x => if x.addr = e.addr then { x with aged := true } else x))
    (s.lockLast e true).raise Src.stuckLockAge [e.addr % 2 ^ 32, e.addr / 2 ^ 32 % 256 + e.owner * 256]) s

/-- A break of the lock at word address `a`: its STATUS (R302). -/
def State.breakLock (s : State) (a : Nat) : Nat × State :=
  if a % 4 ≠ 0 ∨ 2 ^ 39 ≤ a ∨ !s.lockPlace a then (2, s)
  else match s.lockEnt a with
    | some e => (0, s.unlock e)
    | none => (3, s)

/-- A write of LOCK_BREAK_CTL (R302). -/
def State.lockBreakWrite (s : State) (v : Word) : State :=
  if getField v 0 1 = 0 then s
  else
    let (st, s) := s.breakLock (s.reg2 (lockB + 0x10) (lockB + 0x14))
    s.setFld (lockB + 0x18) 1 3 st

/-- An acquisition by a requester through the alias of word `a`: the response is the word it returns (R298). -/
def State.lockAcquire (s : State) (r : Requester) (a : Nat) : State :=
  match s.ownerId r with
  | none => { s with resp := .error }
  | some o =>
    if a % 4 ≠ 0 ∨ !s.lockPlace a then { s with resp := .error }
    else let (v, s) := s.lockRead o a; s.answerRead v

/-- A store by a requester to the alias of word `a` (R300). -/
def State.lockAliasStore (s : State) (r : Requester) (a : Nat) (v : Word) : State :=
  match s.ownerId r with
  | none => { s with resp := .error }
  | some o => if a % 4 ≠ 0 ∨ !s.lockPlace a then { s with resp := .error } else (s.lockStore o a v.toNat).answerWrite

/-! ### Meanings -/

/-- LOCK_ACQUIRE (R298): `a` is the address of the lock word, without bit 39. -/
def execLockAcquire (r : Requester) (a : BitVec 39) (s : State) : Host.Outcome State Fault Refusal := .next (s.lockAcquire r a.toNat)

/-- LOCK_ALIAS_STORE (R300). -/
def execLockAliasStore (r : Requester) (a : BitVec 39) (v : Word) (s : State) : Host.Outcome State Fault Refusal :=
  .next (s.lockAliasStore r a.toNat v)

/-- LEASE_TICK (R301). -/
def execLeaseTick (s : State) : Host.Outcome State Fault Refusal := .next s.leaseTick

/-- STUCK_LOCK_CHECK (R302). -/
def execStuckLockCheck (s : State) : Host.Outcome State Fault Refusal := .next s.stuckCheck

/-- LOCK_BREAK_GO: a write of LOCK_BREAK_CTL with GO 1 (R302). -/
def execLockBreakGo (s : State) : Host.Outcome State Fault Refusal := .next (s.lockBreakWrite 1)

end Sys2Proof.Machine
end

