-- ==== Sys2Proof/Machine/Smc.lean ====
section
/-!
DEFINITION. Machine/Smc.lean: the siding memory controller (R262–R276): data slots, refresh, self-refresh, frequency changes, scrubbing
and the end of a channel's retirement.
-/
namespace Sys2Proof.Machine

/-- A DCTL cycle at data rate f: root PLL / 12, 24 or 48 (Table 17.1). -/
def dctlU (f : Nat) : Nat := 12 * 2 ^ f * rootU

def State.smcFreq (s : State) : Nat := s.fld (smcB + 4) 10 2

/-- Owner code of position i of a channel's wheel at the present rate: wheels start at position 0 at every epoch boundary, which is a
    multiple of their length (R15, R16, R270). Without a timetable every position is IDLE. -/
def State.dramPos (s : State) (ch i : Nat) : Nat :=
  match s.image.tt.wheels.find? (fun w => w.kind == 3 && w.inst == ch && w.freq == s.smcFreq) with
  | some w => w.pos.getD (i % max 1 w.pos.length) 0xFF
  | none => 0xFF

/-- Whether slot k of a channel is a data slot: four positions of one owner, and no REFRESH (R262). -/
def State.dataSlot (s : State) (ch k : Nat) : Bool :=
  let o := s.dramPos ch (4 * k)
  o != 0xD0 && (List.range 4).all (fun i => s.dramPos ch (4 * k + i) == o)

/-- The first data slot from k on; `fuel` bounds the search. -/
def State.slotFrom (s : State) (ch : Nat) : Nat → Nat → Option Nat
  | 0, _ => none
  | fuel + 1, k => if s.dataSlot ch k then some k else s.slotFrom ch fuel (k + 1)

/-- The class of an owner code: 0 CTL, 1 DMA, 2 REWIND, 3 RT. -/
def slotClass (o : Nat) : Option Nat :=
  if o = 0xD2 then some 0 else if o = 0xC0 then some 1 else if o = 0xC1 then some 2 else if o = 0xD1 then some 3 else none

/-- A channel serves data slots: it is in service, not in self-refresh, and no frequency change has begun (R269, R270, R275). -/
def State.chServes (s : State) (ch t : Nat) : Bool :=
  s.retiredCh != some ch && !s.smc.lost.contains ch && s.fld (smcB + 0xC) (16 + ch) 1 == 0 && !s.absent (unitId 8 ch)
    && (match s.smc.change with
      | some e => decide (t < e)
      | none => true)

/-- Burst p of a channel is poisoned: every later read of it reports DRAM_UNCORR again (R261). -/
def State.poison (s : State) (a : Nat) : State :=
  (List.range 8).foldl (fun s i => { s with cpu := { s.cpu with upsets := aset (fun _ => false) s.cpu.upsets (a / 64 * 8 + i) true } }) s

/-- What a read of burst p of a channel meets. -/
def State.dramError (s : State) (ch p : Nat) (e : SlotErr) : State := match e with
  | .clean => s
  | .soft => s.dramCorr ch p
  | .shadowCorr => s.dramCorr ch p
  | .shadowUncorr => let a := s.burstAddr ch p; (s.poison a).dramUncorr ch p a
  | .uncorr => let a := s.burstAddr ch p; (s.poison a).dramUncorr ch p a

/-- The scrubber reads the next burst of a channel (R272). -/
def State.dramScrub (s : State) (ch : Nat) (e : SlotErr) : State :=
  if s.smc.scrubDone.contains ch then s
  else
    let p := aget (fun _ => 0) s.smc.scrubAt ch
    let bad := s.burstBad (s.burstAddr ch p)
    let s := s.dramError ch p (if bad then .uncorr else e)
    let last := decide (p + 1 = 67108864)
    let s : State := { s with smc := { s.smc with scrubAt := aset (fun _ => 0) s.smc.scrubAt ch (if last then 0 else p + 1),
                                                  scrubDone := if last then ch :: s.smc.scrubDone else s.smc.scrubDone } }
    if s.fld (smcB + 4) 0 5 ≤ s.smc.scrubDone.length then
      let s := s.setFld (smcB + 0x20) 0 16 (satur 16 ((s.now - s.smc.scrubStart) / (60 * secU)))
      { s with smc := { s.smc with scrubDone := [], scrubStart := s.now, rowErrs := [] } }
    else s

/-- Class k of a channel is served in a slot: a request whose group's code burst is held, or first that code burst (R261, R267). -/
def State.serveClass (s : State) (ch k : Nat) (e : SlotErr) : State :=
  let l := s.smcQueue ch
  let writes := (l.filter (fun r => r.cls == k && r.write)).length
  let was := aget (fun _ => false) s.smc.drain (ch * 4 + k)
  let d := if 24 ≤ writes then true else if writes ≤ 8 then false else was
  let s : State := { s with smc := { s.smc with drain := aset (fun _ => false) s.smc.drain (ch * 4 + k) d } }
  match s.pickReq l k d with
  | none => s
  | some r =>
    let p := (s.dramBurst r.addr).2
    let held := aget (fun _ => []) s.smc.groups ch
    let groups := ((p / 32) :: held.filter (· ≠ p / 32)).take 64
    let had := held.contains (p / 32)
    let s : State := { s with smc := { s.smc with groups := aset (fun _ => []) s.smc.groups ch groups } }
    if had then
      let s := s.setSmcQueue ch (l.erase r)
      State.dramError { s with smc := { s.smc with lastReq := aset (fun _ => 0) s.smc.lastReq ch s.now } } ch p e
    else s

/-- DRAM_SLOT_SERVE in a channel: its next data slot serves its owner class, a class that borrows it, or the scrubber (R262). -/
def State.dramSlotServe (s : State) (ch : Nat) (e : SlotErr) : State :=
  let u := 4 * dctlU s.smcFreq
  let k0 := max (ceilTo u s.now / u) (aget (fun _ => 0) s.smc.slot ch)
  match s.slotFrom ch 4096 k0 with
  | none => s
  | some k =>
    if !s.chServes ch (k * u) then s
    else
      let s := s.advance (k * u)
      let s : State := { s with smc := { s.smc with slot := aset (fun _ => 0) s.smc.slot ch (k + 1) } }
      let l := s.smcQueue ch
      let queued := fun (c : Nat) => l.any (fun r => r.cls == c)
      let own := match slotClass (s.dramPos ch (4 * k)) with
        | some c => if queued c then some c else none
        | none => none
      match (match own with
        | some c => some c
        | none => (List.range 4).find? queued) with
      | some c => s.serveClass ch c e
      | none => s.dramScrub ch e

/-! ### Refresh (R263–R265) -/

/-- The start of the first REFRESH run at position i or after. -/
def State.runFrom (s : State) (ch : Nat) : Nat → Nat → Option Nat
  | 0, _ => none
  | fuel + 1, i =>
    if s.dramPos ch i = 0xD0 ∧ (i = 0 ∨ s.dramPos ch (i - 1) ≠ 0xD0) then some i else s.runFrom ch fuel (i + 1)

/-- The instant of the next REFRESH run of a channel at or after `t`. -/
def State.nextRun (s : State) (ch t : Nat) : Option Nat :=
  let u := dctlU s.smcFreq
  (s.runFrom ch 16385 (ceilTo u t / u)).map (· * u)

def State.refreshed (s : State) (ch : Nat) : State :=
  { s with smc := { s.smc with lastRefresh := aset (fun _ => 0) s.smc.lastRefresh ch s.now } }

/-- REFRESH_ISSUE: `issued` false when the refresh due in the run could not be issued. -/
def State.refreshIssue (s : State) (ch : Nat) (issued : Bool) : State :=
  match s.nextRun ch (s.now + 1) with
  | none => s
  | some t =>
    if s.fld (smcB + 0xC) (16 + ch) 1 = 1 ∨ s.retiredCh = some ch ∨ s.smc.change.any (fun e => decide (e ≤ t)) then s
    else
      let s := s.advance t
      if issued ∧ !s.absent (unitId 8 ch) then s.refreshed ch else s.raiseU Src.dramRefresh [] (unitId 8 ch)

def smcTherm : Nat := smcB + 0x10

/-- MR4_READ, once each 4 ms: the reports of all channels, two bits each. -/
def State.mr4Read (s : State) (rates : Word) : State :=
  let s := s.advance ((s.now / (4 * msU) + 1) * (4 * msU))
  let old := s.reg smcTherm
  let s := s.setReg smcTherm rates
  let r := fun (w : Word) (n : Nat) => getField w (2 * n) 2
  let s := s.setCause Src.dramThermal ((List.range 16).any (fun n => 2 ≤ r rates n))
  (List.range 16).foldl (fun s n =>
    if (r rates n = 2 ∧ r old n < 2) ∨ (r rates n = 3 ∧ r old n ≠ 3) then s.raiseU Src.dramThermal [] (unitId 8 n) else s) s

/-- Slots k to k + n - 1 of a channel all belong to the owners `l` (R265). -/
def State.slotsOwned (s : State) (ch k n : Nat) (l : List Nat) : Bool :=
  (List.range n).all (fun i => s.dataSlot ch (k + i) && l.contains (s.dramPos ch (4 * (k + i))))

/-- The slots that the extra refresh takes: the first run's length of consecutive slots from k on that are all IDLE, else all IDLE or
    CTL, else all IDLE, CTL or DMA, and end before slot `stop` (R265). -/
def State.extraSlots (s : State) (ch k n stop : Nat) : Option Nat :=
  [[0xFF], [0xFF, 0xD2], [0xFF, 0xD2, 0xC0]].findSome? (fun l =>
    ((List.range (stop - k)).map (· + k)).find? (fun j => decide (j + n ≤ stop) && s.slotsOwned ch j n l))

/-- EXTRA_REFRESH: at 4× an all-bank refresh from halfway between two runs on. -/
def State.extraRefresh (s : State) (ch : Nat) : State :=
  if s.fld smcTherm (2 * ch) 2 < 2 then s
  else
    let last := aget (fun _ => 0) s.smc.lastRefresh ch
    match s.nextRun ch (s.now + 1) with
    | none => s
    | some t =>
      let u := 4 * dctlU s.smcFreq
      let n := [75, 38, 19].getD s.smcFreq 75
      let half := max (max (ceilTo u ((last + t) / 2)) (ceilTo u s.now) / u) (aget (fun _ => 0) s.smc.slot ch)
      match s.extraSlots ch half n (t / u) with
      | none => s
      | some k =>
        let s := (s.advance (k * u)).refreshed ch
        { s with smc := { s.smc with slot := aset (fun _ => 0) s.smc.slot ch (k + n) } }

/-! ### Self-refresh (R269) -/

/-- CHn.STATE changes, and with it GEN of the channel (R331). -/
def State.setChState (s : State) (ch st : Nat) : State :=
  if s.fld (smcCh ch) 0 3 = st then s else (s.setFld (smcCh ch) 0 3 st).bumpGen (unitId 8 ch)

/-- A DMA channel of RT class is enabled. -/
def State.rtEnabled (s : State) : Bool :=
  (List.range 64).any (fun k => s.bit (dmaB + 0x1000 + k * 0x40) 0 && s.bit (dmaB + 0x1000 + k * 0x40) 5)

/-- SELF_REFRESH_ENTRY of an idle channel at its next REFRESH run. -/
def State.srEntry (s : State) (ch : Nat) : State :=
  let idle := s.fld (smcB + 0xC) 0 16
  let st := s.rewState
  if idle = 0 ∨ !(s.smcQueue ch).isEmpty ∨ st = 1 ∨ st = 2 ∨ st = 4 ∨ s.rtEnabled ∨ s.fld (smcCh ch) 0 3 ≠ 0 then s
  else match s.nextRun ch (max (s.now + 1) (aget (fun _ => 0) s.smc.lastReq ch + idle * usU)) with
    | none => s
    | some t =>
      if s.smc.change.any (fun e => decide (e ≤ t)) then s
      else ((s.advance t).setFld (smcB + 0xC) (16 + ch) 1 1).setChState ch 1

/-- SELF_REFRESH_EXIT: a request has arrived for the channel; it exits, and after the exit time refreshes. Slots serve again from the
    first that begins after the refresh (tXSR and tRFC of Table 11.6). -/
def State.srExit (s : State) (ch : Nat) : State :=
  if s.fld (smcCh ch) 0 3 = 1 ∧ !(s.smcQueue ch).isEmpty then
    let f := s.smcFreq
    let busy := ([308, 154, 77].getD f 0 + [299, 150, 75].getD f 0) * dctlU f
    let s := ((s.setFld (smcB + 0xC) (16 + ch) 1 0).setChState ch 0).refreshed ch
    let k := ceilTo (4 * dctlU f) (s.now + busy) / (4 * dctlU f)
    { s with smc := { s.smc with slot := aset (fun _ => 0) s.smc.slot ch (max k (aget (fun _ => 0) s.smc.slot ch)) } }
  else s

/-! ### Frequency change (R270, R271) -/

/-- A timing set is loaded for rate f (Tables 11.1, 11.6); what the spec does not give of it is free. -/
def State.loadSet (s : State) (i f : Nat) : State :=
  let (wl, s) := s.fresh 8
  let (t2, s) := s.fresh 24
  let s := s.setReg (tset i 0) (BitVec.ofNat 32 (f + 4))
  let s := s.setReg (tset i 1) (BitVec.ofNat 32 ([64, 40, 24].getD f 0 + wl.toNat * 256))
  let s := s.setReg (tset i 2) (BitVec.ofNat 32 t2.toNat)
  let s := s.setReg (tset i 3) (BitVec.ofNat 32 ([299, 150, 75].getD f 0 + [308, 154, 77].getD f 0 * 65536))
  let s := s.setReg (tset i 4) (BitVec.ofNat 32 ([300, 152, 76].getD f 0))
  (List.range 3).foldl (fun s w => let (v, s) := s.fresh 32; s.setReg (tset i (5 + w)) v) s

/-- A write of SMC_FREQ. -/
def State.freqWrite (s : State) (v : Word) : State :=
  let a := smcB + 8
  let s := s.setFld a 0 2 (getField v 0 2)
  if getField v 2 1 = 0 then s
  else
    let f := getField v 0 2
    if f = s.smcFreq ∨ f = 3 ∨ s.smc.change.isSome ∨ s.smc.retiring.isSome then s.setFld a 4 3 3
    else
      let i := 1 - s.fld (smcB + 4) 12 1
      let old := (List.range 8).map (fun w => s.reg (tset i w))
      let s := (s.loadSet i f).setBit (smcB + 4) 13 true
      { s with smc := { s.smc with change := some (ceilTo epochU (s.now + 10 * usU)), locked := false, target := f, go := some (s.now, old) } }

/-- At E the channels in service enter the change (Table 11.2); one in idle self-refresh stays there (R271). -/
def State.freqBegin (s : State) (t : Nat) : State :=
  if s.smc.change = some t then (List.range 16).foldl (fun s ch => if s.fld (smcCh ch) 0 3 = 0 then s.setChState ch 2 else s) s
  else s

/-- The DPHY PLL is on its way to the target rate (Table 11.2): CLK_STAT.DPHY reads 0. -/
def State.dphyUnlocked (s : State) : Bool := !s.smc.locked && s.smc.change.any (fun e => decide (e + usU / 2 ≤ s.now))

/-- DPHY_PLL_LOCK by E + 6.5 µs: the DPHY PLL, switched to the target rate at E + 0.5 µs, has locked. -/
def State.dphyLock (s : State) (t : Nat) : State :=
  match s.smc.change with
  | some e => if e + usU / 2 ≤ max s.now t ∧ max s.now t ≤ e + 13 * usU / 2 then
      let s := (s.advance t).setBit (clkB + 4) 4 true
      { s with smc := { s.smc with locked := true } } else s
  | none => s

/-- The window of a change ends: the channels serve again. -/
def State.freqEnd (s : State) (status : Nat) : State :=
  let s := (List.range 16).foldl (fun s ch => if s.fld (smcCh ch) 0 3 = 2 then (s.setChState ch 0).refreshed ch else s) s
  let s := (s.setBit (smcB + 4) 13 false).setFld (smcB + 8) 4 3 status
  { s with smc := { s.smc with change := none, locked := false, slot := [] } }

/-- FREQ_CHANGE_COMPLETE at E + 8 µs. -/
def State.freqComplete (s : State) : State :=
  match s.smc.change with
  | some e => if s.smc.locked then
      let s := s.advance (e + 8 * usU)
      let s := (s.setFld (smcB + 4) 10 2 s.smc.target).setFld (smcB + 4) 12 1 (1 - s.fld (smcB + 4) 12 1)
      s.freqEnd 0 else s
  | none => s

/-- FREQ_CHANGE_FAIL: no lock by E + 6.5 µs; the window ends at the former rate, at an instant up to E + 16 µs that the spec leaves open
    (log entry 84). -/
def State.freqFail (s : State) : State :=
  match s.smc.change with
  | some e => if s.smc.locked then s
      else
        let s := ((s.advance (e + 13 * usU / 2)).count (smcB + 8) 8 8).raise Src.dphyPll
        let (d, s) := s.freshBelow (19 * usU / 2 + 1)
        (s.advance (e + 13 * usU / 2 + d)).freqEnd 6
  | none => s

/-! ### Retirement (R274, R275) -/

/-- A write of SMC_RETIRE. -/
def State.retireWrite (s : State) (v : Word) : State :=
  let a := smcRetireR
  let s := (s.setFld a 0 4 (getField v 0 4)).setFld a 16 8 (getField v 16 8)
  if getField v 4 1 = 0 then s
  else
    let s := s.cutGo
    if s.smc.change.isSome then s.setFld a 5 3 3
    else
      let (ok, s) := s.retireChannel (getField v 0 4)
      s.setFld a 5 3 (if ok then 0 else 3)

/-- RETIRE_COPY_DONE. -/
def State.retireCopied (s : State) : State :=
  if s.smc.retiring.isSome then { s with smc := { s.smc with copied := true } } else s

/-- The switch to the 15-channel mapping at an epoch boundary (Table 11.3). -/
def State.channelSwitch (s : State) : State :=
  match s.smc.retiring with
  | none => s
  | some x =>
    if !s.smc.copied then s
    else
      let s : State := { s with smc := { s.smc with retiring := none, copied := false, lost := x :: s.smc.lost } }
      let a := smcB + 4
      let s := (((s.setBit a 14 false).setFld a 5 4 x).setBit a 9 true).setFld a 0 5 15
      let l := s.smcQueue x
      let s := l.foldl (fun s r => s.dramReq r.cls r.write r.addr) (s.setSmcQueue x [])
      let s := ((s.setFld (smcCh x) 0 3 4).retirePart (unitId 8 x) Src.dramRetire).raiseU Src.dramRetire [] (unitId 8 x)
      if s.bit smcB 4 then s else (s.setCause Src.placementDegraded true).raise Src.placementDegraded

/-! ### Meanings -/

/-- DRAM_SLOT_SERVE (R262, R267): `e` is what the burst meets. -/
def execDramSlotServe (ch : Fin 16) (e : SlotErr) (s : State) : Host.Outcome State Fault Refusal := .next (s.dramSlotServe ch e)

/-- REFRESH_ISSUE (R263, R265). -/
def execRefreshIssue (ch : Fin 16) (issued : Bool) (s : State) : Host.Outcome State Fault Refusal := .next (s.refreshIssue ch issued)

/-- MR4_READ (R265). -/
def execMr4Read (rates : Word) (s : State) : Host.Outcome State Fault Refusal := .next (s.mr4Read rates)

/-- EXTRA_REFRESH (R265). -/
def execExtraRefresh (ch : Fin 16) (s : State) : Host.Outcome State Fault Refusal := .next (s.extraRefresh ch)

/-- SELF_REFRESH_ENTRY (R269). -/
def execSelfRefreshEntry (ch : Fin 16) (s : State) : Host.Outcome State Fault Refusal := .next (s.srEntry ch)

/-- SELF_REFRESH_EXIT (R269). -/
def execSelfRefreshExit (ch : Fin 16) (s : State) : Host.Outcome State Fault Refusal := .next (s.srExit ch)

/-- SMC_FREQ_GO: a write of SMC_FREQ with GO 1 (R270, R271). -/
def execSmcFreqGo (v : Word) (s : State) : Host.Outcome State Fault Refusal := .next (s.freqWrite (v ||| 4))

/-- DPHY_PLL_LOCK (R270). -/
def execDphyPllLock (t : Nat) (s : State) : Host.Outcome State Fault Refusal := .next (s.dphyLock t)

/-- FREQ_CHANGE_COMPLETE (R270). -/
def execFreqChangeComplete (s : State) : Host.Outcome State Fault Refusal := .next s.freqComplete

/-- FREQ_CHANGE_FAIL (R271). -/
def execFreqChangeFail (s : State) : Host.Outcome State Fault Refusal := .next s.freqFail

/-- SMC_RETIRE_GO: a write of SMC_RETIRE with GO 1 (R274). -/
def execSmcRetireGo (v : Word) (s : State) : Host.Outcome State Fault Refusal := .next (s.retireWrite (v ||| 16))

/-- RETIRE_COPY_DONE (R275). -/
def execRetireCopyDone (s : State) : Host.Outcome State Fault Refusal := .next s.retireCopied

end Sys2Proof.Machine
end

