-- ==== Sys2Proof/Machine/Tasks.lean ====
section
/-!
DEFINITION. Machine/Tasks.lean: the ready lists (R288–R291), interrupt lines, WFI and watchdogs of the control cores (R292–R295), and
the invalidation of the I/O TLB (R286).
-/
namespace Sys2Proof.Machine

/-! ### Slots (R288, R289) -/

def slotCfgR (t : Nat) : Nat := taskB + 0x1000 + t * 8
def slotStR (t : Nat) : Nat := taskB + 0x1004 + t * 8

/-- STATE of a slot: 0 FREE, 1 IDLE, 2 READY, 3 RUNNING. -/
def State.slotState (s : State) (t : Nat) : Nat := s.fld (slotStR t) 0 2
def State.slotPrio (s : State) (t : Nat) : Nat := s.fld (slotCfgR t) 0 5
def State.slotAtomic (s : State) (t : Nat) : Bool := s.bit (slotCfgR t) 5
def State.slotFlow (s : State) (t : Nat) : Nat := s.fld (slotCfgR t) 16 16

/-- A slot changes state, and TASK_STAT follows. -/
def State.setSlot (s : State) (t st : Nat) : State :=
  let old := s.slotState t
  let a := taskB + 0x20
  let s := if old = 0 ∧ st ≠ 0 then s.setFld a 0 11 (s.fld a 0 11 - 1) else if old ≠ 0 ∧ st = 0 then s.setFld a 0 11 (s.fld a 0 11 + 1) else s
  let s := if old = 2 ∧ st ≠ 2 then s.setFld a 11 11 (s.fld a 11 11 - 1) else if old ≠ 2 ∧ st = 2 then s.setFld a 11 11 (s.fld a 11 11 + 1) else s
  s.setFld (slotStR t) 0 2 st

def State.readyList (s : State) (p : Nat) : List Nat := aget (fun _ => []) s.cpu.ready p

def State.setReady (s : State) (p : Nat) (l : List Nat) : State :=
  { s with cpu := { s.cpu with ready := aset (fun _ => []) s.cpu.ready p l } }

/-- A slot joins the tail or rejoins the head of its list as READY. -/
def State.toReady (s : State) (t : Nat) (head : Bool) : State :=
  let p := s.slotPrio t
  (s.setReady p (if head then t :: s.readyList p else s.readyList p ++ [t])).setSlot t 2

/-- TASK_REFUSE.STATE counts an operation that is not performed. -/
def State.taskRefuse (s : State) : State := s.count (taskB + 0x24) 0 16

/-- Whether slot t runs on core c. -/
def State.runsOn (s : State) (c t : Nat) : Bool := s.slotState t == 3 && s.fld (slotStR t) 4 2 == c

/-- The slot that core c runs. -/
def State.slotOf (s : State) (c : Nat) : Option Nat := (List.range 1024).find? (fun t => s.runsOn c t)

/-- Slots RUNNING on some core. -/
def State.runningSlots (s : State) : List Nat := (List.range 4).filterMap s.slotOf

/-- A READY slot is eligible (R290). -/
def State.slotEligible (s : State) (t : Nat) : Bool :=
  !s.slotAtomic t || s.runningSlots.all (fun x => x == t || !s.slotAtomic x || s.slotFlow x != s.slotFlow t)

/-- The first eligible slot of the highest level. -/
def State.bestSlot (s : State) : Option Nat :=
  (List.range 32).reverse.findSome? (fun p => (s.readyList p).find? s.slotEligible)

/-! ### Operations (Table 12.2) -/

/-- The control core that makes an access. -/
def coreReq : Requester → Option Nat
  | .hart (.ctl c) => some c
  | _ => none

/-- ALLOC: the lowest FREE slot becomes IDLE. -/
def State.taskAlloc (s : State) : State :=
  match (List.range 1024).find? (fun t => s.slotState t == 0) with
  | some t => (s.setSlot t 1).answerRead (2 ^ 31 + t)
  | none => (s.taskRefuse.raise Src.taskFull).answerRead 0

/-- POST. -/
def State.taskPost (s : State) (t : Nat) : State := match s.slotState t with
  | 0 => s.taskRefuse
  | 1 => s.toReady t false
  | 2 => s.count (taskB + 0x24) 16 16
  | _ => s.setBit (slotStR t) 2 true

/-- TAKE by a control core. -/
def State.taskTake (s : State) (r : Requester) : State :=
  match coreReq r with
  | none => s.answerRead 0
  | some c =>
    if (s.slotOf c).isSome then s.taskRefuse.answerRead 0
    else match s.bestSlot with
      | none => s.answerRead 0
      | some t =>
        let p := s.slotPrio t
        let s := (s.setReady p ((s.readyList p).filter (· ≠ t))).setSlot t 3
        let s := s.setFld (slotStR t) 4 2 c
        (s.setSys c 0xB (putField (s.sysReg c 0xB) 0 10 t)).answerRead (2 ^ 31 + t)

/-- YIELD and PREEMPT: the running slot returns to the tail or to the head of its list. -/
def State.taskReturn (s : State) (r : Requester) (t : Nat) (head : Bool) : State :=
  match coreReq r with
  | none => s
  | some c => if s.runsOn c t then (s.setBit (slotStR t) 2 false).toReady t head else s.taskRefuse

/-- DONE. -/
def State.taskDone (s : State) (r : Requester) (t : Nat) : State :=
  match coreReq r with
  | none => s
  | some c =>
    if !s.runsOn c t then s.taskRefuse
    else if s.bit (slotStR t) 2 then (s.setBit (slotStR t) 2 false).toReady t false
    else s.setSlot t 1

/-- FREE. -/
def State.taskFree (s : State) (t : Nat) : State := if s.slotState t = 1 then s.setSlot t 0 else s.taskRefuse

/-- A write of TASK_SLOTs_CFG: performed while the slot is FREE or IDLE. -/
def State.slotCfgWrite (s : State) (t : Nat) (v : Word) : State :=
  if s.slotState t ≤ 1 then s.setReg (slotCfgR t) (v &&& 0xFFFF003F#32) else s

/-! ### Interrupt lines (R292, R293) -/

/-- Line 0 on core c (R293). -/
def State.preemptLine (s : State) (c : Nat) : Bool :=
  match s.slotOf c, s.bestSlot with
  | some t, some b =>
    let lower := (List.range 4).any (fun k => match s.slotOf k with
      | some x => s.slotPrio x < s.slotPrio t || (s.slotPrio x == s.slotPrio t && k < c)
      | none => false)
    s.slotPrio t < s.slotPrio b && !lower
  | _, _ => false

/-- A register behind line TIME holds what firmware has not read (log entry 13): VALID of the PPS inputs, STATE of the instances. -/
def State.timeSeen (s : State) (a lo len : Nat) : Bool := s.fld a lo len == aget (fun _ => 0) s.cpu.seen a

/-- Firmware reads the register at `a`: line TIME takes its present value as seen. -/
def State.markSeen (s : State) (a : Nat) : State :=
  let v := if a = ppsiR 0 4 ∨ a = ppsiR 1 4 then some (s.fld a 0 1) else if (List.range 9).any (fun n => a == ciR n 0x3C) then some (s.fld a 0 2) else none
  match v with
  | some v => { s with cpu := { s.cpu with seen := aset (fun _ => 0) s.cpu.seen a v } }
  | none => s

def State.timeLine (s : State) : Bool :=
  !s.time.txts.isEmpty || (List.range 2).any (fun k => !s.timeSeen (ppsiR k 4) 0 1)
    || (List.range 8).any (fun n => !s.timeSeen (ciR (n + 1) 0x3C) 0 2)

def dmaR (k o : Nat) : Nat := dmaB + 0x1000 + k * 0x40 + o

/-- The channel that DMA_RXMAP names for class c (Table 13.4). -/
def State.rxMap (s : State) (c : Nat) : Nat := if c < 5 then s.fld (dmaB + 0x10) (6 * c) 6 else s.fld (dmaB + 0x14) (6 * c - 30) 6

def State.dmaBase (s : State) (k : Nat) : Nat := (s.reg (dmaR k 0xC)).toNat + s.fld (dmaR k 0x28) 0 8 * 2 ^ 32
def State.dmaCount (s : State) (k : Nat) : Nat := s.fld (dmaR k 0x10) 0 13
def State.dmaHead (s : State) (k : Nat) : Nat := s.fld (dmaR k 0x14) 0 12

/-- Word 0 of descriptor i of channel k. -/
def State.descWord (s : State) (k i : Nat) : Nat := s.cnum (s.dmaBase k + i * 32) 4

/-- A receive ring holds a completed frame between SEEN and HEAD (R315). -/
def State.ringPending (s : State) (k : Nat) : Bool :=
  let n := s.dmaCount k
  let seen := s.fld (dmaR k 0x1C) 0 12
  s.bit (dmaR k 0) 0 && s.fld (dmaR k 0) 1 2 == 2 && n != 0 &&
    (List.range ((s.dmaHead k + n - seen) % n)).any (fun i =>
      let w := s.descWord k ((seen + i) % n)
      bitsOf w 31 1 == 0 && bitsOf w 18 1 == 1)

/-- Line FAULT: a pending source has IRQ 1 (R367). -/
def State.faultLine (s : State) : Bool := (List.range 256).any (fun x => s.bit (pendR (x / 32)) (x % 32) && s.bit (srcR x) 4)

/-- The condition of line j on core c (Table 12.3). No Jenitor command is for firmware, so line 7 is never pending. -/
def State.linePending (s : State) (c j : Nat) : Bool :=
  let routed := fun (k : Nat) => s.fld (ctlB + 0x20) (2 * k) 2 == c
  match j with
  | 0 => s.preemptLine c
  | 1 => (s.slotOf c).isNone && s.bestSlot.isSome
  | 6 => routed 4 && s.faultLine
  | 8 => routed 6 && s.timeLine
  | 9 => routed 7 && !s.tio.evtq.isEmpty
  | 10 => routed 8 && (List.range 8).any (fun k => s.ringPending (s.rxMap k))
  | 11 => (s.ctlc c).half
  | _ => if 2 ≤ j ∧ j ≤ 5 then routed (j - 2) && s.fld (dmaB + (j - 2) * 4) 0 16 != 0
      else if 16 ≤ j ∧ j ≤ 31 then s.bit (ctlB + 4 + c * 8) (j - 16) else false

/-- CTL_IRQ_PENDc. -/
def State.irqPend (s : State) (c : Nat) : Nat := ((List.range 32).map (fun j => if s.linePending c j then 2 ^ j else 0)).sum

/-- The lowest pending line that IMASK enables. -/
def State.irqLine (s : State) (c : Nat) : Option Nat :=
  (List.range 32).find? (fun j => getField (s.sysReg c 0xC) j 1 == 1 && s.linePending c j)

/-- WFI completes (R141). -/
def State.wfiDone (s : State) (c : Nat) : State := s.modCtlc c (fun x => { x with waiting := false, pc := some (x.pcOf + 4) })

/-- CTL_INTERRUPT: trap INTERRUPT with the lowest line in EVAL (R292). -/
def State.interrupt (s : State) (c : Nat) : State :=
  match s.irqLine c with
  | some j =>
    if s.ctlRuns c && s.intEnable c then
      let s := if (s.ctlc c).waiting then s.wfiDone c else s
      s.trapCtl c 19 true j
    else s
  | none => s

/-- WFI: it completes at once where an enabled line is pending, whatever IE holds (R141, R292). -/
def State.wfi (s : State) (c : Nat) : Eff := if (s.irqLine c).isSome then .next s else .wait s .wfi

/-- WFI_WAKE. -/
def State.wfiWake (s : State) (c : Nat) : State :=
  if (s.ctlc c).waiting ∧ (s.irqLine c).isSome then s.wfiDone c else s

/-! ### Watchdogs (R295) -/

def wdogR (c : Nat) : Nat := ctlB + 0x40 + c * 4
def State.wdogMs (s : State) (c : Nat) : Nat := max 1 (s.fld (wdogR c) 0 16)

/-- A write of CTL_WDOGc: KICK restarts the count, and so does EN going to 1. -/
def State.wdogWrite (s : State) (c : Nat) (v : Word) : State :=
  let was := s.bit (wdogR c) 16
  let s := s.setFld (wdogR c) 0 17 (getField v 0 17)
  if getField v 17 1 = 1 ∨ (!was ∧ getField v 16 1 = 1) then
    s.modCtlc c (fun x => { x with kicked := s.now, half := false, expired := false })
  else s

/-- WATCHDOG_HALF. -/
def State.wdogHalf (s : State) (c : Nat) : State :=
  let x := s.ctlc c
  if s.bit (wdogR c) 16 ∧ !x.half ∧ !x.expired then
    (s.advance (x.kicked + s.wdogMs c * msU / 2)).modCtlc c (fun x => { x with half := true })
  else s

/-- WATCHDOG_EXPIRE. -/
def State.wdogExpire (s : State) (c : Nat) : State :=
  let x := s.ctlc c
  if s.bit (wdogR c) 16 ∧ !x.expired then
    ((s.advance (x.kicked + s.wdogMs c * msU)).modCtlc c (fun x => { x with half := true, expired := true })).raise Src.ctlWatchdog [c]
  else s

/-! ### I/O TLB (R286) -/

/-- A write of MMU_IOTLBI. -/
def State.iotlbWrite (s : State) (v : Word) : State :=
  let a := mmuB + 8
  let busy := s.bit a 0
  let s := (s.setFld a 1 1 (getField v 1 1)).setFld a 8 8 (getField v 8 8)
  if busy ∨ getField v 0 1 = 0 then s
  else
    let va := (s.reg (mmuB + 0xC)).toNat + s.fld (mmuB + 0x10) 0 7 * 2 ^ 32
    { s.setBit a 0 true with dma := { s.dma with iotlbGo := some ⟨getField v 1 1 == 1, getField v 8 8, va⟩ } }

/-- IOTLB_INVALIDATE_DONE: all entries, or the page of MMU_IOTLBI_VA under ASID, as they stood at GO. -/
def State.iotlbDone (s : State) : State := match s.dma.iotlbGo with
  | some g =>
    let l := if g.all then [] else s.dma.iotlb.filter (fun e => !e.hits g.asid g.va)
    ({ s with dma := { s.dma with iotlb := l, iotlbGo := none } } : State).setBit (mmuB + 8) 0 false
  | none => s

/-! ### Meanings -/

/-- TASK_ALLOC (R289). -/
def execTaskAlloc (s : State) : Host.Outcome State Fault Refusal := .next s.taskAlloc

/-- TASK_POST (R289). -/
def execTaskPost (t : Fin 1024) (s : State) : Host.Outcome State Fault Refusal := .next (s.taskPost t)

/-- TASK_TAKE by control core c (R289, R290). -/
def execTaskTake (c : Fin 4) (s : State) : Host.Outcome State Fault Refusal := .next (s.taskTake (.hart (.ctl c)))

/-- TASK_YIELD (R289). -/
def execTaskYield (c : Fin 4) (t : Fin 1024) (s : State) : Host.Outcome State Fault Refusal :=
  .next (s.taskReturn (.hart (.ctl c)) t false)

/-- TASK_PREEMPT (R289). -/
def execTaskPreempt (c : Fin 4) (t : Fin 1024) (s : State) : Host.Outcome State Fault Refusal :=
  .next (s.taskReturn (.hart (.ctl c)) t true)

/-- TASK_DONE (R289). -/
def execTaskDone (c : Fin 4) (t : Fin 1024) (s : State) : Host.Outcome State Fault Refusal := .next (s.taskDone (.hart (.ctl c)) t)

/-- TASK_FREE (R289). -/
def execTaskFree (t : Fin 1024) (s : State) : Host.Outcome State Fault Refusal := .next (s.taskFree t)

/-- TASK_SLOT_CFG_WRITE (R289). -/
def execTaskSlotCfgWrite (t : Fin 1024) (v : Word) (s : State) : Host.Outcome State Fault Refusal := .next (s.slotCfgWrite t v)

/-- CTL_INTERRUPT (R292). -/
def execCtlInterrupt (c : Fin 4) (s : State) : Host.Outcome State Fault Refusal := .next (s.interrupt c)

/-- WFI (R141). -/
def execWfi (h : Hart) (s : State) : Host.Outcome State Fault Refusal :=
  .next (s.priv h (encP 0 0 0 3) true false (fun c s => s.wfi c))

/-- WFI_WAKE (R141). -/
def execWfiWake (c : Fin 4) (s : State) : Host.Outcome State Fault Refusal := .next (s.wfiWake c)

/-- WATCHDOG_KICK: a write of CTL_WDOGc with KICK 1 (R295). -/
def execWatchdogKick (c : Fin 4) (v : Word) (s : State) : Host.Outcome State Fault Refusal := .next (s.wdogWrite c (v ||| 0x20000))

/-- WATCHDOG_HALF (R295). -/
def execWatchdogHalf (c : Fin 4) (s : State) : Host.Outcome State Fault Refusal := .next (s.wdogHalf c)

/-- WATCHDOG_EXPIRE (R295). -/
def execWatchdogExpire (c : Fin 4) (s : State) : Host.Outcome State Fault Refusal := .next (s.wdogExpire c)

/-- IOTLB_INVALIDATE: a write of MMU_IOTLBI with GO 1 (R286). -/
def execIotlbInvalidate (v : Word) (s : State) : Host.Outcome State Fault Refusal := .next (s.iotlbWrite (v ||| 1))

/-- IOTLB_INVALIDATE_DONE (R286). -/
def execIotlbInvalidateDone (s : State) : Host.Outcome State Fault Refusal := .next s.iotlbDone

end Sys2Proof.Machine
end

