-- ==== Sys2Proof/Machine/Units.lean ====
section
/-!
DEFINITION. Machine/Units.lean: what a fence and a reset do to each class of unit (R373, R374, Tables 14.3, 16.6).
-/
namespace Sys2Proof.Machine

/-- Units that exist in the placement in force (Table 14.3): a port is there when the port plan has it. -/
def State.unitExists (s : State) (u : Nat) : Bool :=
  let i := u % 256
  match u / 256 with
  | 1 => i < 16
  | 2 => i < 160
  | 3 => i < 32
  | 4 => i < 52
  | 5 => i < 5
  | 6 => i < 16
  | 7 => i < 200
  | 8 => i < 16
  | 9 => i < 34
  | 0xA => i < 34 && bitsOf (le (s.image.ports.getD i []) 0 1) 0 1 == 1
  | 0xB => i < 9
  | 0xC => i < 28
  | 0xD => i < 64
  | 0xE => i == 0
  | 0xF => i == 0
  | 0x10 => i == 0
  | _ => false

/-- Classes that UNIT_RESET acts on. -/
def resettable (u : Nat) : Bool := [3, 5, 6, 9, 0xA, 0xC, 0xD].contains (u / 256)

/-- Lanes and ports train again after a reset. -/
def trains (u : Nat) : Bool := u / 256 == 9 || u / 256 == 0xA

/-- The port of a lane; a spare lane serves the port of the lane it carries (R379). -/
def State.laneUser (s : State) (l : Nat) : Option Nat :=
  let l := if l < 32 then some l else (List.range 32).find? (fun n => s.fld (laneB + n * 0x10 + 4) 2 2 == l - 31)
  l.bind (fun l => (List.range 32).find? (fun p => (s.portLanes p).contains l))

/-- Unanswered requests to the fenced unit end ABSENT (R373); an ingress search writes it into its coach (R182, R207). -/
def State.absentReqs (s : State) (p : Srq → Bool) : State :=
  let s := (s.cpu.reqs.filter (fun q => q.isEntry && p q)).foldl (fun s q => s.serveEntry q false) s
  { s with cpu := { s.cpu with reqs := (s.cpu.reqs.filter (fun q => !(q.isEntry && p q))).map (fun q =>
      if p q then { q.absent with ready := some (q.ready.getD (s.coreNow + 1)) } else q) } }

/-- Operations cut short end at the fence (R185, R213). -/
def State.updEnd (s : State) : State :=
  let cut := fun (u : Option Update) => u.any (fun u => u.status == 6)
  let s := if cut s.cls.upd then s.clauseDone else s
  if cut s.cls.fwdUpd then s.fwdDone else s

/-- CRY operations in flight in station n end ABSENT, and the unit is empty (R167, R373). -/
def State.cryAbsent (s : State) (n : Nat) : State :=
  let s := s.cryFence n
  (List.range 80).foldl (fun s j => s.modThread (n * 80 + j) (fun t =>
    (List.range 8).foldl (fun t k =>
      let x := t.xsOf k
      match x.op with
      | some o => if o.unit = 2 then
          t.setXs k { x with op := some { o with words := [0, 0, 0, 2], late := none, src := none, due := some (o.due.getD (o.issued + 1)) } }
        else t
      | none => t) t)) s

/-- What is under way in a unit ends when it is fenced. -/
def State.fenceEffect (s : State) (u : Nat) : State :=
  let i := u % 256
  match u / 256 with
  | 3 => ((s.clauseCut i).updEnd).absentReqs (fun q => q.eng == 0 && getField q.b 0 5 == i)
  | 5 =>
    let s := if i = 0 then (match s.cls.upd with
        | some o => (s.clauseCut o.group).updEnd
        | none => s) else (s.fwdCut i).updEnd
    s.absentReqs (fun q => q.eng == i)
  | 6 => s.cryAbsent i
  | 9 => match s.laneUser i with
    | some p => s.linkDown p [i] false
    | none => s
  | 0xA => s.linkDown i [] false
  | 0xC => s.forceOut i
  | _ => s

/-- The unit is fenced (R373), unless it is fenced already or was within the last 2 µs. -/
def State.fenceUnit (s : State) (u : Nat) (by_ : Option Nat) : State :=
  let x := s.unit u
  if x.state = 1 ∨ x.state = 6 ∨ s.fenceYoung u then s else (s.fence u by_).fenceEffect u

/-- The TX frame a channel was gathering fails (R316): its coach with DROP_REASON FCS, or its cell with the drop counted. -/
def State.txDrop (s : State) (x : DmaCh) : State :=
  if !x.inFrame then s
  else match x.coach, x.cell with
    | some q, _ => s.verdict q 1
    | none, some i => (s.freeCells 33 (if s.resClass 33 (bitsOf x.flags 23 3) then 1 else 0) [i]).countDrop 33 8 1
    | none, none => s

/-- The registers of a unit that its reset puts back to 0, beside Table 16.6 (R9, R374; log entry 193). -/
def unitRegs (u : Nat) : List Nat :=
  let i := u % 256
  match u / 256 with
  | 5 => if i = 1 then [fwdB + 4, fwdB + 0xC, fwdB + 0x10, fwdB + 0x14, fwdB + 0x18] else []
  | 0xA => [admitR i 8]
  | 0xC => if i < 24 then [outDiag i, trigR i 8] else [outDiag i]
  | 0xD => [dmaR i 0x1C, dmaR i 0x24]
  | _ => []

/-- What a reset of a unit acts on (Table 16.6). -/
def State.resetEffect (s : State) (u : Nat) : State :=
  let i := u % 256
  let s := (unitRegs u).foldl (fun s a => s.setReg a 0) s
  match u / 256 with
  | 5 => if i = 1 then ({ s with cls := { s.cls with learn := [] } }).showLearn else s
  | 6 => s.setCry i {}
  | 9 => s.setBit (laneB + i * 0x10 + 4) 1 false
  | 0xA => { s.portLoss i with meters := aset (fun _ => {}) s.meters i ⟨(s.fld (admitR i 0) 20 12 * secU : Nat), s.now⟩ }
  | 0xC =>
    if i < 24 then
      let e := s.fld (trigR i 0) 8 6
      let s := s.setFld (trigR i 8) 0 6 e
      s.setTrig i { run := if s.bit (trigR i 0) 0 then .scanning else .off, ran := true }
    else
      let ci := s.fld (ppsoR (i - 24) 0) 1 4
      s.setPpso (i - 24) { lastSec := some (sec16 (s.instAt ci s.tick / 2 ^ 32)) }
  | 0xD =>
    let a := dmaR i 8
    let x : DmaCh := aget (fun _ => {}) s.dma.chans i
    let off := match x.desc with
      | some (_, o, _) => o
      | none => x.resume
    let y : DmaCh := { resume := off, redoTo := x.redoTo, startAt := if x.inFrame then x.startAt else s.dmaHead i }
    let e := aget (fun _ => none) s.dma.busy (i / 16)
    let s := s.txDrop x
    let s : State := { s with dma := { s.dma with chans := aset (fun _ => {}) s.dma.chans i y,
                                                  busy := aset (fun _ => none) s.dma.busy (i / 16) (if e = some i then none else e) } }
    let s := (s.setFld a 0 2 2).setFld a 4 4 9
    match x.desc with
    | some (h, o, _) =>
      let s := (s.setFld a 8 17 o).writeNum (s.dmaBase i + h * 32 + 24) 4 (o + 9 * 2 ^ 20)
      (s.latch (dmaB + i / 16 * 4) (i % 16)).raiseU (Src.dmaErr (i / 16)) [i + 9 * 256, o] (unitId 0xD i)
    | none => s
  | _ => s

/-- UNIT_RESET MODE 0 begins: fence, reset, STATE RESETTING. -/
def State.resetBegin (s : State) (u : Nat) : State :=
  let s := ((s.fenceUnit u none).resetEffect u).unitState u 2
  { s with jen := { s.jen with resets := aset (fun _ => none) s.jen.resets u (some s.now) } }

/-- The unit is unfenced: ACTIVE; an output is driven again. A clause group with a lost privileged entry stays fenced until PRIV_WRITE
    rewrites it (R192). -/
def State.unfence (s : State) (u : Nat) : State :=
  if u / 256 = 3 ∧ !(s.lostEntries (u % 256)).isEmpty then s.unitState u 1
  else
    let s := s.liftFence u
    if u / 256 = 0xC then s.driveOut (u % 256) (s.restLevel (u % 256)) else s

end Sys2Proof.Machine
end

