-- ==== Sys2Proof/Machine/Faults.lean ====
section
/-!
DEFINITION. Machine/Faults.lean: the fault collector (R356–R372), clearing (R364, R365), availability (R380, R381).
-/
namespace Sys2Proof.Machine

/-! ### Causes that persist (R358) -/

/-- Some class of part has no spare left (R358, Table 16.7), once placement has been made. -/
def State.spareGone (s : State) : Bool :=
  s.bit (stnB + 4) 0 && (s.fld spareR 0 3 == 0 || s.fld spareYardR 0 4 == 0 || s.retiredCh.isSome
    || [1, 2].all (fun x => (s.unit (unitId 9 (31 + x))).state == 6 || (List.range 32).any (fun l => s.fld (laneB + l * 0x10 + 4) 2 2 == x))
    || (List.range 16).any (fun n => (stnCores n).all (fun c => match s.roleOf c with
      | .rotation => false
      | .testing => false
      | .preparing => false
      | .leaving _ => false
      | _ => true)))

/-- The cause of a level source holds now. -/
def State.causePersists (s : State) (x : Nat) : Bool :=
  if !Src.isLevel x then false
  else if 224 ≤ x ∧ x ≤ 251 then
    s.fld (outDiag (x - 224)) 0 4 != 0 || (x < 248 && s.bit (trigR (x - 224) 8) 9)
  else if x = Src.rewindFrozen then s.rewState == 3 || s.rewState == 4
  else if x = Src.sidingHigh then s.pool.sidingLow
  else if x = Src.spareLow then s.spareGone
  else if x = Src.placementDegraded then
    aget (fun _ => false) s.flt.causes x || (List.range 16).any (fun n => s.bit (stnR n 0x18) 5)
  else aget (fun _ => false) s.flt.causes x

/-! ### Pending bits (R356, R364) -/

def State.pending? (s : State) (x : Nat) : Bool := s.bit (pendR (x / 32)) (x % 32)

/-- FLT_STAT.PENDING. -/
def State.showPending (s : State) : State := s.setFld (fltB + 4) 16 9 ((List.range 256).filter s.pending?).length

/-- A pending bit, with its copy in FLT_SRCs. -/
def State.setPend (s : State) (x : Nat) (b : Bool) : State :=
  let s := if b then s.latch (pendR (x / 32)) (x % 32) else s.setBit (pendR (x / 32)) (x % 32) false
  (s.setBit (srcR x) 8 b).showPending

/-- A clear of one bit: not performed while a level cause persists, nor in the TIME cycle that set it; whether the bit is still
    set (R364, R370, Table 0.3). -/
def State.clearPend (s : State) (x : Nat) : Bool × State :=
  if !s.pending? x then (false, s)
  else if s.causePersists x ∨ (s.justSet (pendR (x / 32))).getLsbD (x % 32) then (true, s)
  else
    let s := if x = Src.journalMem then s.journalRecover
      else if x = Src.tsCalDrift then (List.range 35).foldl (fun s l => s.setBit (lcalR l 8) 16 false) s
      else s
    (false, s.setPend x false)

/-- A write of FLT_PENDw. -/
def State.pendWrite (s : State) (w : Nat) (v : Word) : State := (onesOf 32 v.toNat).foldl (fun s j => (s.clearPend (32 * w + j)).2) s

def firstR : Nat := fltB + 8

/-- FLT_FIRST is rearmed (R365). -/
def State.rearm (s : State) : State := s.setFld firstR 29 3 0

/-- A write of FLT_CTL. -/
def State.fltCtlWrite (s : State) (v : Word) : State :=
  let s := s.setFld fltB 8 8 (getField v 8 8)
  if getField v 0 1 = 1 then s.rearm else s

/-- FAULT_N is asserted (R361, R367); it sinks no current without power (R388). -/
def State.faultN (s : State) : Bool :=
  s.pwr.powered && ((List.range 256).any (fun x => s.pending? x && s.bit (srcR x) 3) || s.bit (fltB + 4) 2 || s.fld bootB 0 4 == 8
    || !s.flt.mapApplied || s.boot.resetHeld || s.flt.halt.isSome)

/-! ### Reactions (R361, R362) -/

/-- What class C contains (Table 16.4). -/
def State.contain (s : State) (r : Raise) : State :=
  let w := r.ctx.headD 0
  let x := r.src
  let fence := fun (s : State) (u : Nat) => s.fenceUnit u (some x)
  if x = Src.lanePll 0 ∨ x = Src.lanePll 1 then
    let p := x - Src.lanePll 0
    ((List.range 16).map (· + 16 * p) ++ [32 + p]).foldl (fun s l => fence s (unitId 9 l)) s
  else if 64 ≤ x ∧ x ≤ 95 then fence s (unitId 9 (x - 64))
  else if 96 ≤ x ∧ x ≤ 111 then (if w % 16 = 2 ∨ w % 16 = 3 then s.containCore (w / 16 % 256) else s)
  else if x = Src.clauseSoft then fence s (unitId 3 (w % 32))
  else if x = Src.fdbEcc then fence s (unitId 5 1)
  else if x = Src.trieEcc then fence s (unitId 5 2)
  else if x = Src.streamEcc then fence s (unitId 5 3)
  else if x = Src.hashEcc then fence s (unitId 5 4)
  else if x = Src.cryptoAuth ∨ x = Src.cryptoPn then fence s (unitId 6 (w % 16))
  else if 200 ≤ x ∧ x ≤ 203 then fence s (unitId 0xD (w % 64))
  else if 224 ≤ x ∧ x ≤ 251 then fence s (unitId 0xC (x - 224))
  else s

/-- The reaction of a class (Table 16.3); TIME_SAFE_STATE forces the outputs whatever its class (R110). -/
def State.react (s : State) (r : Raise) (cls : Nat) : State :=
  let s := if r.src = Src.timeSafeState then s.forceSafe.setBit timeB 3 true else s
  let s := if cls = 1 then s.contain r else s
  let s := if 2 ≤ cls then s.forceSafe.rewTrigger 3 r.src else s
  let bound := if cls = 1 then usU else if cls = 2 then 3 * usU / 2 else if cls = 3 then 10 * usU else 0
  if bound = 0 then s else { s with flt := { s.flt with windowEnd := max s.flt.windowEnd (s.now + bound) } }

/-- FLT_FIRST takes the raise (R359). -/
def State.fillFirst (s : State) (r : Raise) (cls : Nat) : State :=
  let s := s.setReg firstR (BitVec.ofNat 32 (r.src + cls * 256 + 2 ^ 31))
  let s := s.setReg (fltB + 0xC) (BitVec.ofNat 32 (secOf s.now))
  let s := s.setReg (fltB + 0x10) (BitVec.ofNat 32 (secOf s.now / 2 ^ 32))
  let s := s.setReg (fltB + 0x14) (BitVec.ofNat 32 (nsOf s.now))
  (List.range 4).foldl (fun s i => s.setReg (fltB + 0x18 + 4 * i) (BitVec.ofNat 32 (r.ctx.getD i 0))) s

/-- Whether the journal takes a record of this raise now (R368). -/
def State.journalNow (s : State) (x cls : Nat) : Bool :=
  cls != 0 || (match (aget (fun _ => {}) s.flt.suppress x : Suppress).last with
    | some l => decide (l + max 1 (s.fld fltB 8 8) * secU ≤ s.now)
    | none => true)

/-- The record and the notice of a latched raise, after its reaction (R361, R368). -/
def State.fileRaise (s : State) (r : Raise) (cls : Nat) (first : Bool) : State :=
  let sup : Suppress := aget (fun _ => {}) s.flt.suppress r.src
  let writes := s.bit (srcR r.src) 6 && s.journalNow r.src cls
  let flags := cls + (if first then 4 else 8)
  let rec_ := s.recordBytes (s.reg (jour + 4)).toNat r.src flags s.now sup.count r.ctx r.unit
  let s :=
    if writes then
      let (_, s) := s.nextRecno
      let s : State := { s with flt := { s.flt with suppress := aset (fun _ => {}) s.flt.suppress r.src ⟨some s.now, 0⟩ } }
      s.queueRecord rec_
    else if s.bit (srcR r.src) 6 then
      { s with flt := { s.flt with suppress := aset (fun _ => {}) s.flt.suppress r.src { sup with count := sup.count + 1 } } }
    else s
  let s := if cls = 3 then
      let s := s.setCell (some rec_)
      { s with flt := { s.flt with halt := some (r.src, s.now + 10 * usU) } }
    else s
  if s.bit (srcR r.src) 5 && !(r.src == Src.jenNoticeLost && decide (256 ≤ s.jen.notices.length)) then s.notice 1 rec_ else s

/-- A raise of an enabled source is latched: pending bit, count, reaction, record (R356). -/
def State.latchOne (s : State) (r : Raise) (first : Bool) : State :=
  let cls := s.fld (srcR r.src) 1 2
  let s := (s.setPend r.src true).count (srcR r.src) 16 8
  let s := ((if first then s.fillFirst r cls else s).react r cls).fileRaise r cls first
  if r.src = Src.vinLost then s.lastGasp else s

/-- The lowest source of a list. -/
def lowest (l : List Raise) : Nat := l.foldl (fun m r => min m r.src) 256

/-- The raises latched in one TIME cycle, in order: the lowest source fills a free FLT_FIRST (R359). -/
def State.latchAll (s : State) : List Raise → Option Nat → State
  | [], _ => s
  | r :: t, some x => if r.src = x then (s.latchOne r true).latchAll t none else (s.latchOne r false).latchAll t (some x)
  | r :: t, none => (s.latchOne r false).latchAll t none

/-- An uncorrectable error in the storage of coach q (R42): dropped with HEAD_BAD at its release, or its copies are not sent. -/
def State.coachFails (s : State) (q : Nat) : State :=
  let s := s.modCoach q (fun c => { c with ecc := true }.drop s.coreNow 10 1)
  match s.coach q with
  | some c => if c.loc = .egress then s.failCopies q 10 else s
  | none => s

/-- FAULT_LATCH at the next TIME edge: the `n` oldest raises on their way, and those of `others`. Before the TIME domain starts,
    raises wait in the PWR domain (R357). -/
def State.faultLatch (s : State) (n : Nat) (others : List Raised) : State :=
  if s.fld bootB 0 4 = 0 then s else
  let s := s.advance ((s.tick + 1) * tickU)
  let s := others.foldl (fun s r => match r.coach with
    | some q => if r.src.toNat = Src.coachEcc then s.coachFails q.toNat else s
    | none => s) s
  let l : List Raise := s.flt.raises.take n ++ others.map (fun r => ⟨r.src.toNat, r.ctx.map (·.toNat), r.unit.toNat⟩)
  let s : State := { s with flt := { s.flt with raises := s.flt.raises.drop n } }
  let l := l.filter (fun r => s.bit (srcR r.src) 0)
  let valid := s.bit firstR 31
  let more := (valid && !l.isEmpty) || decide (1 < l.length)
  let s := s.latchAll l (if valid then none else some (lowest l))
  if more then s.setBit firstR 30 true else s

/-! ### The collector's own parity (R363) -/

/-- COLLECTOR_PARITY_ERROR in the TIME cycle of `t`: place 0 word w of the pending array, 1 FLT_FIRST, 2 FLT_SRCw. -/
def State.collectorParity (s : State) (t place w : Nat) : State :=
  let s := s.advance t
  if s.now < s.flt.windowEnd then s
  else
    let s := (s.latch (fltB + 4) 2).specialRecord 0x100 [place, (if place = 0 then w % 8 else if place = 1 then 0 else w)]
    match place with
    | 0 => ((List.range 32).foldl (fun s j => (s.setBit (pendR (w % 8)) j true).setBit (srcR (w % 8 * 32 + j)) 8 true) s).showPending
    | 1 =>
      let s := s.setReg firstR 0xE0000000#32
      (List.range 7).foldl (fun s i => s.setReg (fltB + 0xC + 4 * i) 0) s
    | _ =>
      let x := w % 256
      let v := s.image.faultMap.foldl (fun (v : Word) e => if e.1 = srcR x then
        (v &&& ~~~(BitVec.ofNat 32 e.2.2)) ||| (BitVec.ofNat 32 (e.2.1 &&& e.2.2)) else v) (Src.dfltWord x)
      (s.setReg (srcR x) v).setBit (srcR x) 8 (s.pending? x)

/-! ### Availability (R380, R381) -/

/-- The interval in which the packet path was down ends (R380): its milliseconds are counted, VIN having been in range. -/
def State.endDown (s : State) : State :=
  match s.flt.downSince with
  | some _ =>
    let ms := s.carryDown / msU
    let s : State := { s with flt := { s.flt with downSince := none, downCarry := 0 } }
    ((s.count (fltB + 0x94) 0 32 ms).count (fltB + 0x98) 0 32)
  | none => s

/-- AVAIL_RECORD, once per hour of CI0. -/
def State.availHour (s : State) : State := (s.advance ((s.now / (3600 * secU) + 1) * (3600 * secU))).availRecord

/-! ### Meanings -/

/-- FAULT_LATCH (R356, R359, R361). -/
def execFaultLatch (n : Nat) (others : List Raised) (s : State) : Host.Outcome State Fault Refusal := .next (s.faultLatch n others)

/-- COLLECTOR_PARITY_ERROR (R363). -/
def execCollectorParityError (t : Nat) (place : Fin 3) (w : BitVec 8) (s : State) : Host.Outcome State Fault Refusal :=
  .next (s.collectorParity t place w.toNat)

/-- FAULT_PEND_CLEAR: a write of FLT_PENDw (R364). -/
def execFaultPendClear (w : Fin 8) (v : Word) (s : State) : Host.Outcome State Fault Refusal := .next (s.pendWrite w v)

/-- FLT_REARM: a write of FLT_CTL with REARM 1 (R365). -/
def execFltRearm (v : Word) (s : State) : Host.Outcome State Fault Refusal := .next (s.fltCtlWrite (v ||| 1))

/-- JOURNAL_WRITE_DONE (R368). -/
def execJournalWriteDone (s : State) : Host.Outcome State Fault Refusal := .next s.journalWrite

/-- JOURNAL_MEM_FAIL (R370): `on` false when the MRAM answers again. -/
def execJournalMemFail (on : Bool) (s : State) : Host.Outcome State Fault Refusal := .next (s.journalFail on)

/-- AVAIL_RECORD (R381). -/
def execAvailRecord (s : State) : Host.Outcome State Fault Refusal := .next s.availHour

end Sys2Proof.Machine
end

