-- ==== Sys2Proof/Machine/Cores.lean ====
section
/-!
DEFINITION. Machine/Cores.lean: preparation, rotation and migration of packet cores (R25, R26, R376), aging (R378), lane sparing (R379,
R401), and the retirement of a part by the host (SPARE_RETIRE).
-/
namespace Sys2Proof.Machine

/-! ### Preparation (Table 1.9) -/

def coreBase (c : Nat) : Nat := 0x10800000 + c / 10 * 0x1000000 + c % 10 * 0x40000

/-- The leg code of a timetable goes into one half of a core's instruction scratch (R35; log entry 14). -/
def State.loadCode (s : State) (c half : Nat) (x : TtStation) : State := s.setBytes (coreBase c + half * 0x8000) x.code

/-- Core c is loaded: leg code, initial data; t0 to t6 at the leg entry, t7 at the supervisor entry (Table 1.9); registers and
    results are kept (R113, R161). -/
def State.prepCore (s : State) (c : Nat) : State :=
  let n := c / 10
  let x := s.ttStn n
  let h := s.path.legHalf
  let s := (s.loadCode c h x).setBytes (coreBase c + 0x20000) x.data
  let s := match s.image.next with
    | some (_, tt) => s.loadCode c (1 - h) (tt.stations.getD n {})
    | none => s
  let s := (List.range 8).foldl (fun s t =>
    let i := c * 8 + t
    let pc := if t = 7 then h * 0x8000 + x.supEntry else s.legEntry n h
    (s.discardPending i).modThread i (fun x => { x.closeLoads with
      pc := BitVec.ofNat 16 pc, run := if t = 7 ∨ s.isDispatch i then .ready else .free, binding := none, loads := [], ch1 := 0, parent := none })) s
  let s := (List.range 8).foldl (fun s k => s.setLink (c * 8 + k) {}) s
  let s := (List.range 32).foldl (fun s j => s.setResult (c * 32 + j) {}) s
  (s.setCh14 c {}).setDeferred c []

/-- MIGRATION_PREP_DONE: the incoming core of station n is prepared, or has failed (R25, R26). -/
def State.migPrepared (s : State) (n : Nat) (ok : Bool) : State :=
  match s.migOf n with
  | none => s
  | some m =>
    if m.ready ∨ m.leaveAt.isSome then s
    else if ok then (s.prepCore m.incoming).setMig n (some { m with ready := true })
    else
      let s := ((s.setRole m.incoming .failed).unitState (unitId 2 m.incoming) 6).setMig n none
      let s := (s.raiseU Src.migrationFail [] (unitId 2 m.incoming)).migrationNotice (unitId 2 m.incoming) m.outgoing m.incoming 1
      let s := if (s.roleOf m.outgoing).serves then s.unitState (unitId 2 m.outgoing) 0 else s.degradeStn n
      (s.raise Src.spareLow).showCores n

/-- The switch of station n at epoch boundary `t` (Table 1.9); a station that still has only 8 cores now runs degraded (R24). -/
def State.migSwitch (s : State) (n t : Nat) : State :=
  match s.migOf n with
  | none => s
  | some m =>
    if !m.ready ∨ m.leaveAt.isSome then s
    else
      let s := (s.setCore m.incoming { s.core m.incoming with role := .service m.slot, since := t }).unitState (unitId 2 m.incoming) 0
      let s := if (s.roleOf m.outgoing).serves then s.setRole m.outgoing (.leaving m.slot) else s
      ((s.setMig n (some { m with leaveAt := some (t + s.latOf n * coreU) })).degradeStn n).showCores n

/-- MIGRATION_DONE at E + L_n. -/
def State.migDone (s : State) (n : Nat) : State :=
  match s.migOf n with
  | none => s
  | some m => match m.leaveAt with
    | none => s
    | some t =>
      let s := (s.advance t).setMig n none
      let o := m.outgoing
      let s := if s.roleOf o = .retired then s
        else if m.retire then (s.setRole o .retired).retirePart (unitId 2 o) Src.migrationDone
        else (s.setRole o .testing).unitState (unitId 2 o) 5
      let s := (s.raiseU Src.migrationDone [] (unitId 2 m.incoming)).migrationNotice (unitId 2 m.incoming) o m.incoming 0
      s.showCores n

/-! ### Rotation (R376) -/

def rotR : Nat := fltB + 0x80

/-- The in-service core of station n that has served longest, the lower number on a tie. -/
def State.longest (s : State) (n : Nat) : Option (Nat × Nat) :=
  (stnCores n).foldl (fun (b : Option (Nat × Nat)) c => match s.roleOf c with
    | .service k => match b with
      | some x => if (s.core c).since < (s.core x.1).since then some (c, k) else b
      | none => some (c, k)
    | _ => b) none

/-- A core of station n begins to replace another in its dispatch slot. -/
def State.migStart (s : State) (n incoming outgoing slot : Nat) (retire : Bool) : State :=
  let s := (s.setRole incoming .preparing).unitState (unitId 2 incoming) 3
  let s := s.unitState (unitId 2 outgoing) 3
  (s.setMig n (some { incoming := incoming, outgoing := outgoing, slot := slot, retire := retire })).showCores n

/-- A migration of some station waits for an epoch boundary. -/
def State.migPending (s : State) : Bool := (List.range 16).any (fun n => match s.migOf n with
  | some m => m.leaveAt.isNone
  | none => false)

def State.rotationCore (s : State) (n : Nat) : Option Nat := (stnCores n).find? (fun c => decide (s.roleOf c = CoreRole.rotation))

/-- CORE_ROTATION of station n at its next offset n × PERIOD_S / 16 within the period. -/
def State.rotate (s : State) (n : Nat) : State :=
  if !s.bit rotR 16 ∨ !s.pathRun then s
  else
    let p := max 1 (s.fld rotR 0 16) * secU
    let off := n * p / 16
    let j := (s.now + p - off) / p
    let j := match (s.stn n).rotated with
      | some k => max j (k + 1)
      | none => j
    let s := s.advance (j * p + off)
    let s := s.setStn n { s.stn n with rotated := some j }
    match s.rotationCore n, s.longest n with
    | some r, some (c, k) =>
      if (s.migOf n).isSome ∨ s.migPending ∨ !(s.core r).testPassed then s else s.migStart n r c k false
    | _, _ => s

/-! ### Aging (R378) -/

/-- The largest of the latest measurements of a class of units. -/
def State.worstAge (s : State) (p : Nat → Bool) : Nat := s.flt.aging.foldl (fun m e => if p e.1 then max m e.2 else m) 0

/-- A measurement of a unit against FLT_AGE_x at `a`: whether it reaches RETIRE. -/
def State.ageUnit (s : State) (u src a v : Nat) (p : Nat → Bool) : Bool × State :=
  let s : State := { s with flt := { s.flt with aging := aset (fun _ => 0) s.flt.aging u v } }
  let s := s.setFld a 16 16 (s.worstAge p)
  let warn := s.fld a 0 8
  let retire := s.fld a 8 8
  let s := if warn ≠ 0 ∧ warn ≤ v then s.raiseU src [u, v] u else s
  (decide (retire ≠ 0 ∧ retire ≤ v), s)

/-- ROTATION_TEST_DONE of station n: the core under test passed or not, and its aging measurement (R376, R378). -/
def State.rotationTested (s : State) (n : Nat) (pass : Bool) (age : Nat) : State :=
  match (stnCores n).find? (fun c => decide (s.roleOf c = CoreRole.testing)) with
  | none => s
  | some c =>
    let (old, s) := s.ageUnit (unitId 2 c) Src.agingCore (fltB + 0x84) age (fun u => u / 256 == 2)
    let s := s.setCore c { s.core c with testPassed := pass }
    if pass ∧ !old then ((s.setRole c .rotation).unitState (unitId 2 c) 4).showCores n
    else
      (s.stnRaise c (if pass then 3 else 2) 0 0).containCore c

/-- Margins of memory test rows at the end of a scrub pass: a bank or block at RETIRE is replaced (R193, R237, R378). -/
def State.ageSram (s : State) (cls : Nat) (margins : List (BitVec 8 × BitVec 16)) : State :=
  margins.foldl (fun s e =>
    let i := e.1.toNat
    let (old, s) := s.ageUnit (unitId cls i) Src.agingSram (fltB + 0x88) e.2.toNat (fun u => u / 256 == 4 || u / 256 == 7)
    if !old then s
    else if cls = 7 then (match (List.range 192).find? (fun b => s.bankPhys b == i) with
      | some b => s.bankSpare b
      | none => s)
    else (match (List.range 48).find? (fun b => s.blockPhys b == i) with
      | some b => s.blockSpare b
      | none => s)) s

/-! ### Lanes (R379, R400, R401) -/

/-- The spare of lane l, when it can take it. -/
def State.laneSpare (s : State) (l : Nat) : Option Nat :=
  let x := l / 16
  let used := (List.range 32).any (fun n => s.fld (laneB + n * 0x10 + 4) 2 2 == x + 1)
  if l < 32 ∧ s.bit (fltB + 0x90) l ∧ !used ∧ (s.unit (unitId 9 (32 + x))).state ≠ 6 ∧ s.fld (laneB + 0x400) 0 7 ≠ 0 then some x else none

/-- Lane l is to be replaced: the carrier switch is written first. Whether that could begin. -/
def State.laneReplace (s : State) (l : Nat) : Bool × State :=
  match s.laneSpare l, s.cbus.swap with
  | some x, none => (true, { s with cbus := { s.cbus with swap := some (l, x) } })
  | some _, some _ => (false, s)
  | none, _ => (false, s.raise Src.spareLow)

/-- The carrier switch has been written: the port goes down and trains on the spare, whose calibration pair is
    loaded when it carries traffic (R91, R379). -/
def State.laneSwap (s : State) (l x : Nat) : State :=
  let s := match s.laneUser l with
    | some p => s.linkDown p [] false
    | none => s
  let s := s.setFld (laneB + l * 0x10 + 4) 2 2 (x + 1)
  let s : State := { s with cbus := { s.cbus with calDue := s.cbus.calDue ++ [32 + x] } }
  let s := (s.retirePart (unitId 9 l) (Src.lane l)).unitState (unitId 9 (32 + x)) 0
  s.migrationNotice (unitId 9 l) l (32 + x) 0

/-- The write to the carrier switch has ended: the swap goes on, or is abandoned (R401). -/
def State.swapWritten (s : State) (ok : Bool) : State :=
  match s.cbus.swap with
  | none => s
  | some (l, x) =>
    let s : State := { s with cbus := { s.cbus with swap := none } }
    if ok then s.laneSwap l x else s.raise Src.spareLow

/-- Three losses of a lane within 60 s that its partner does not match replace it (R379). -/
def State.lossCheck (s : State) (l : Nat) : State :=
  let own := (aget (fun _ => []) s.flt.losses l).filter (fun e => !e.2 && decide (s.now < e.1 + 60 * secU))
  if 3 ≤ own.length ∧ s.fld (laneB + l * 0x10 + 4) 2 2 = 0 ∧ s.cbus.swap.isNone then (s.laneReplace l).2 else s

/-- LANE_AGING_MEASURE, every 10 s: the eye margins of the lanes from lane 0 on. -/
def State.laneAging (s : State) (margins : List (BitVec 16)) : State :=
  let s := s.advance ((s.now / (10 * secU) + 1) * (10 * secU))
  (margins.take 34).zipIdx.foldl (fun s e =>
    let l := e.2
    let s := s.setFld (laneB + l * 0x10 + 4) 8 8 (satur 8 e.1.toNat)
    let (old, s) := s.ageUnit (unitId 9 l) Src.agingLane (fltB + 0x8C) e.1.toNat (fun u => u / 256 == 9)
    if old ∧ l < 32 ∧ s.fld (laneB + l * 0x10 + 4) 2 2 = 0 then (s.laneReplace l).2 else s) s

/-! ### SPARE_RETIRE (Table 14.2) -/

/-- The status of a request to retire a physical part, and its effect: 0 OK, 3 STATE, 5 BUSY. -/
def State.spareRetire (s : State) (u : Nat) : Nat × State :=
  let i := u % 256
  if (s.unit u).state = 6 then (3, s)
  else match u / 256 with
  | 2 =>
    let n := i / 10
    if (List.range 16).any (fun n => (s.migOf n).isSome) then (5, s)
    else match s.roleOf i, s.rotationCore n with
      | .service k, some r => (0, s.migStart n r i k true)
      | .service _, none => (3, s)
      | _, _ => (0, ((s.setRole i .retired).retirePart u Src.migrationDone).showCores n)
  | 4 =>
    if s.cls.blockMove.isSome then (5, s)
    else match (List.range 48).find? (fun b => s.blockPhys b == i) with
      | some b => let (ok, s) := s.blockMoveStart b true; (if ok then 0 else 3, s)
      | none =>
        let s : State := { s with cls := { s.cls with blockBad := s.cls.blockBad ++ [i] } }
        (0, (s.retirePart u Src.clauseSpared).showSpare)
  | 7 =>
    if s.pool.bankMove.isSome then (5, s)
    else match (List.range 192).find? (fun b => s.bankPhys b == i) with
      | some b => let (ok, s) := s.bankMoveStart b; (if ok then 0 else 3, s)
      | none => (0, (s.retirePart u Src.yardSpared).showBanks)
  | 8 =>
    let s := s.cutGo
    if s.smc.retiring.isSome ∨ s.smc.change.isSome then (5, s)
    else let (ok, s) := s.retireChannel i; (if ok then 0 else 3, s)
  | _ =>
    if s.cbus.swap.isSome then (5, s)
    else let (ok, s) := s.laneReplace i; (if ok then 0 else 3, s)

/-! ### Meanings -/

/-- MIGRATION_PREP_DONE of station n (R25, R26). -/
def execMigrationPrepDone (n : Fin 16) (ok : Bool) (s : State) : Host.Outcome State Fault Refusal := .next (s.migPrepared n ok)

/-- MIGRATION_DONE of station n (R25). -/
def execMigrationDone (n : Fin 16) (s : State) : Host.Outcome State Fault Refusal := .next (s.migDone n)

/-- CORE_ROTATION of station n (R376). -/
def execCoreRotation (n : Fin 16) (s : State) : Host.Outcome State Fault Refusal := .next (s.rotate n)

/-- ROTATION_TEST_DONE of station n, with the aging measurement in 0.1 % (R376, R378). -/
def execRotationTestDone (n : Fin 16) (pass : Bool) (age : BitVec 16) (s : State) : Host.Outcome State Fault Refusal :=
  .next (s.rotationTested n pass age.toNat)

/-- LANE_AGING_MEASURE (R378). -/
def execLaneAgingMeasure (margins : List (BitVec 16)) (s : State) : Host.Outcome State Fault Refusal := .next (s.laneAging margins)

/-- SEARCH_SLOT_SERVE of an engine; `margins` are the test rows read when a clause scrub pass ends (R181, R192, R203, R378). -/
def execSearchSlotServe (eng : Fin 5) (e : SlotErr) (margins : List (BitVec 8 × BitVec 16)) (s : State) :
    Host.Outcome State Fault Refusal :=
  let was := s.cls.scrubAt
  let s := s.slotServe eng e
  let s := if eng = 0 then (List.range 32).foldl (fun s g => if !(s.lostEntries g).isEmpty then s.fenceUnit (unitId 3 g) none else s) s else s
  .next (if was ≠ 0 ∧ s.cls.scrubAt = 0 then s.ageSram 4 margins else s)

/-- YARD_SCRUB_STEP; `margins` are the test rows read when a pass ends (R236, R378). -/
def execYardScrubStep (e : SlotErr) (margins : List (BitVec 8 × BitVec 16)) (s : State) : Host.Outcome State Fault Refusal :=
  let s := s.yardScrub e
  .next (if s.pool.scrubAt = 0 then s.ageSram 7 margins else s)

/-- LINK_DOWN of port p at CI0 instant t: the lanes whose own path failed, whether the partner's fault came first, and whether a
    frame whose coach is not built was cut off (R48, R229, R379, R400). -/
def execLinkDown (p : Fin 33) (t : Nat) (lanes : List Nat) (partner cut : Bool) (s : State) : Host.Outcome State Fault Refusal :=
  let s := (((s.advance t).linkDown p lanes partner)).linkCut p cut
  .next ((s.portLanes p).foldl (fun s l => s.lossCheck l) s)

end Sys2Proof.Machine
end

