-- ==== Sys2Proof/Machine/Fields.lean ====
section
/-!
DEFINITION. Machine/Fields.lean: the access codes of the control-space fields (R10): which bits of a register a plain write sets, which
bits a 1 clears, and which bits are configuration, loaded from the image (R9).
-/
namespace Sys2Proof.Machine

/-- A family of registers: first address, stride and count; the RW bits without a behaviour of their own at the write, the W1C bits
    without one, and the bits whose reset value is "image". -/
structure FieldRow where
  lo    : Nat
  step  : Nat := 4
  n     : Nat := 1
  rw    : Nat := 0
  w1c   : Nat := 0
  img   : Nat := 0
  deriving DecidableEq, Repr

def allBits : Nat := 0xFFFFFFFF

/-- A register of configuration that software may write too. -/
def cfgRow (lo mask : Nat) (step : Nat := 4) (n : Nat := 1) : FieldRow := { lo := lo, step := step, n := n, rw := mask, img := mask }
/-- A register of configuration that only the image sets. -/
def roRow (lo mask : Nat) (step : Nat := 4) (n : Nat := 1) : FieldRow := { lo := lo, step := step, n := n, img := mask }
/-- A plain RW register that the image does not set. -/
def rwRow (lo mask : Nat) (step : Nat := 4) (n : Nat := 1) : FieldRow := { lo := lo, step := step, n := n, rw := mask }
/-- A register with W1C bits. -/
def w1cRow (lo mask : Nat) (step : Nat := 4) (n : Nat := 1) : FieldRow := { lo := lo, step := step, n := n, w1c := mask }

/-- Tables 17.13 to 17.16, and SYS and BOOT, whose registers are all read only. -/
def physRows : List FieldRow :=
  [cfgRow clkB 0xF, w1cRow pwrB 8, cfgRow (pwrB + 8) 0xFF01, rwRow (pwrB + 0xC) 2, cfgRow (pwrB + 0x40) 0xFF00 4 8,
   cfgRow pinB 0x1F 4 36, w1cRow (pinB + 0x100) 4, { lo := pinB + 0x104, rw := 0xFFFF, img := 0xFF00, w1c := 0xFF0000 },
   cfgRow laneB 7 0x10 34, roRow (laneB + 0x400) 0x7F,
   cfgRow cbusB 1, rwRow (cbusB + 4) 0x1F1F7F, rwRow (cbusB + 8) allBits 4 4,
   cfgRow (cbusB + 0x40) 0x1FF 0x10 2, rwRow (cbusB + 0x44) 0x1FFF 0x10 2, rwRow (cbusB + 0x48) 0xFFFF 0x10 2]

/-- Tables 3.5 to 3.12; REF, whose write steers the state, is configuration too (R71). -/
def timeRows : List FieldRow :=
  [cfgRow (timeB + 8) 0xFF0F, roRow (timeB + 0x10) allBits, cfgRow (timeB + 0x14) allBits, cfgRow (timeB + 0x18) 0xFFFF,
   cfgRow (timeB + 0x20) allBits 4 4, cfgRow (timeB + 0x30) 0xFF, cfgRow (timeB + 0x44) 0xFFF01 4 8,
   rwRow (timeB + 0x84) 0xFFFF, rwRow (timeB + 0x88) allBits 4 2, rwRow (timeB + 0x90) 0xFFFF, w1cRow (timeB + 0xA0) 0x200,
   rwRow (ciR 1 0x18) allBits 0x40 8, rwRow (ciR 1 0x20) allBits 0x40 8, rwRow (ciR 1 0x24) allBits 0x40 8,
   rwRow (ciR 1 0x28) allBits 0x40 8, rwRow (ciR 1 0x2C) allBits 0x40 8, roRow (ciR 1 0x34) 0xFFFFFFF7 0x40 8,
   cfgRow (ciR 1 0x3C) 0xFFFF0 0x40 8, cfgRow (timeB + 0x400) 7 8 34, rwRow (timeB + 0x404) allBits 8 34]

/-- Tables 4.4 to 4.10 and the schedule entries (R94). -/
def tioRows : List FieldRow :=
  [cfgRow (tioB + 8) 0x1FFFF, w1cRow (tioB + 0x10) 0x800, roRow (trigR 0 0) 0x3F3F 0x10 24,
   { lo := trigR 0 4, step := 0x10, n := 24, rw := 0xFFFF0000, img := allBits },
   cfgRow (ppsoR 0 0) 0x1FFFFFFF 0x10 4, cfgRow (ppsoR 0 4) allBits 0x10 4,
   cfgRow (clkoR 0 0) 0x1F 0x10 2, cfgRow (clkoR 0 4) 0xFFFFFF 0x10 2,
   cfgRow (ppsiR 0 0) 0xFFFFFF3F, cfgRow (ppsiR 1 0) 0xFF3F, cfgRow (evtR 0 0) 0x7FF 0x10 16, cfgRow (evtR 0 4) allBits 0x10 16,
   cfgRow (tioB + 0xC00) allBits 4 66,
   cfgRow (schedR 0 0 0) 0xFFFF003F 0x20 1536, cfgRow (schedR 0 0 1) allBits 0x20 1536, cfgRow (schedR 0 0 2) 0x3FFFFFFF 0x20 1536,
   cfgRow (schedR 0 0 3) 0xFFFF 0x20 1536, cfgRow (schedR 0 0 4) allBits 0x20 1536, cfgRow (schedR 0 0 5) allBits 0x20 1536,
   cfgRow (schedR 0 0 6) allBits 0x20 1536]

/-- Tables 1.5, 1.6, 2.5, 1.11 to 1.17, 6.8 and 6.9. -/
def pathRows : List FieldRow :=
  [roRow (admitR 0 0) allBits 0x10 34, roRow (admitR 0 4) 0xFFFFFFF 0x10 34, cfgRow (pathR 0 0) 3 0x10 32,
   roRow stnB allBits, roRow (stnB + 8) 0x1FFFFF, roRow (stnB + 0xC) 0x1FFFFF,
   roRow (stnR 0 0) 0xFFFFFFF 0x20 16, roRow (stnR 0 4) 0xFFF1FFF 0x20 16, roRow (stnR 0 8) 0xFFF03 0x20 16,
   roRow (stn2R 0 0) 7 0x40 16, roRow (stn2R 0 8) 0x7F7F7F7F 0x40 16, roRow (stn2R 0 0xC) 0x7F7F7F7F 0x40 16]

/-- Tables 7.8, 7.10 and 8.9. -/
def parseRows : List FieldRow :=
  [cfgRow parseB 0xFFFF, cfgRow (parseB + 4) 0x3FFF, cfgRow (parseB + 8) allBits 4 2,
   { lo := parseB + 0x100, n := 34, rw := 0xFFFF0040, img := 0xFFFF007F }]
  ++ (List.range 8).map (fun i => cfgRow (parseB + 0x400 + 4 * i) allBits 0x40 16)
  ++ [cfgRow (parseB + 0x420) 0x1F 0x40 16, roRow (parseB + 0x800) 0x7F 0x10 8,
   cfgRow (clauseB + 8) 0xFFFF, rwRow (clauseB + 0x14) 0x3FFFF, rwRow (clauseB + 0x18) allBits, rwRow (clauseB + 0x1C) 0xFF,
   cfgRow (clauseB + 0x20) 0xFFFF, cfgRow (clauseB + 0x24) 0xFF0000, roRow (clauseB + 0x100) 0x1FFF 8 32, roRow (clauseB + 0x104) 0xFFFFFF 8 32,
   roRow fwdB 0xFFFF, w1cRow (fwdB + 4) 0x10000, cfgRow (fwdB + 0x28) 0xFFFF, rwRow (fwdB + 0x34) allBits, rwRow (fwdB + 0x38) 0xFF,
   roRow (fwdB + 0x100) 0x1FFFFFF 8 34]

/-- Tables 9.5 to 9.9, the VLAN entries and the gate lists (R234). GATE_EN and PRE_EN read 0 on ports 32 and 33. -/
def egrRows : List FieldRow :=
  [cfgRow egrB 0xFFFF, cfgRow (egrB + 4) 0x1FFFFF, roRow (egrB + 8) 0x7FFFF,
   cfgRow (egrPR 0 0) 0x3FFFFFFF 0x40 32, cfgRow (egrPR 32 0) 0x3FFF3FFF 0x40 2, roRow (egrPR 0 8) allBits 0x40 34,
   roRow (egrPR 0 0xC) 0x7FF0000 0x40 34, cfgRow (egrPR 0 0x10) allBits 0x40 34, cfgRow (egrPR 0 0x14) 0x3FFFFFFF 0x40 34,
   cfgRow (egrPR 0 0x18) allBits 0x40 34, cfgRow (egrPR 0 0x20) 0xFFF 0x40 34, cfgRow (egrPR 0 0x24) 0xFFFF 0x40 34,
   roRow (egrQR 0 0 0) 0xFFFFF 0x20 272, cfgRow (egrQR 0 0 4) 0x7FFFF 0x20 272, roRow (egrQR 0 0 8) allBits 0x20 272,
   cfgRow (egrQR 0 0 0xC) 0xFFFFFF 0x20 272,
   cfgRow (vlanR 0 0) allBits 0x10 4096, cfgRow (vlanR 0 4) 3 0x10 4096, cfgRow (vlanR 0 8) allBits 0x10 4096,
   cfgRow (vlanR 0 0xC) 3 0x10 4096, roRow (gclR 0 0 0 0) allBits 8 65536, roRow (gclR 0 0 0 1) 0x3FF 8 65536]

/-- Tables 10.8 to 10.10 and 11.5. P3 and P4 take base and count from the image (Table 10.1). -/
def yardRows : List FieldRow :=
  [roRow (poolR 3 0) allBits 0x20 2, roRow (poolR 3 4) 0xFF 0x20 2, roRow (poolR 3 8) 0xFFFFF 0x20 2,
   cfgRow (poolR 0 0x10) 0xFFFF 0x20 5, cfgRow (poolB + 0x104) 0x7F, rwRow (poolB + 0x120) 0xFFF 8 5,
   cfgRow (yardB + 0xC) 0xFF0000,
   roRow rewB 1, w1cRow (rewB + 4) 8, cfgRow (rewB + 8) 0xFFFF, roRow (rewB + 0xC) 0x1FFFF, roRow (rewB + 0x10) allBits, roRow (rewB + 0x14) 0xFF,
   cfgRow (rewB + 0x40) 0x3FFFFFFF, cfgRow (rewB + 0x44) 0xFFFF, cfgRow (rewB + 0x48) allBits, cfgRow (rewB + 0x4C) 0xFFFF,
   cfgRow (rewB + 0x50) allBits, cfgRow (rewB + 0x54) 0xFFFF, cfgRow (rewB + 0x58) allBits, cfgRow (rewB + 0x5C) 0xFFFF,
   rwRow (rewB + 0x60) allBits 4 4, cfgRow (rewB + 0x104) 0xFFFFFF 4 15,
   roRow smcB 0x1F, cfgRow (smcB + 0xC) 0xFFFF, cfgRow (smcB + 0x20) 0xFF0000, roRow (smcB + 0x28) 0xFF0000]

/-- Tables 12.6 to 12.9, 13.4 and 13.5. -/
def ctlRows : List FieldRow :=
  [rwRow (ctlB + 4) 0xFFFF 8 4, cfgRow (ctlB + 0x20) 0x3FFFF, roRow (ctlB + 0x40) 0x1FFFF 4 4,
   rwRow (mmuB + 0xC) allBits, rwRow (mmuB + 0x10) 0x7F,
   cfgRow lockB 0xFFFF3FFF, rwRow (lockB + 0x10) allBits, rwRow (lockB + 0x14) 0xFF,
   w1cRow dmaB 0xFFFF 4 4, cfgRow (dmaB + 0x10) 0x3FFFFFFF, cfgRow (dmaB + 0x14) 0x3FFFF,
   roRow (dmaB + 0x1000) 0x3F 0x40 64, cfgRow (dmaB + 0x100C) allBits 0x40 64, cfgRow (dmaB + 0x1028) 0xFF 0x40 64,
   cfgRow (dmaB + 0x1010) 0x1FFF 0x40 64, rwRow (dmaB + 0x101C) 0xFFF 0x40 64, cfgRow (dmaB + 0x1020) 0x1FFFFFF 0x40 64]

/-- Tables 14.6, 16.9 and 16.10. -/
def fltRows : List FieldRow :=
  [roRow jenB allBits, roRow (jenB + 4) allBits, cfgRow (jenB + 8) allBits, roRow (jenB + 0xC) 0xFFFF00FF,
   roRow fltB 0xFF00, w1cRow (fltB + 4) 4, cfgRow (fltB + 0x80) 0xFF03FFFF, cfgRow (fltB + 0x84) 0xFFFF 4 3, roRow (fltB + 0x90) allBits,
   cfgRow (srcR 0) 0x7F 4 256]

def fieldRows : List FieldRow :=
  physRows ++ timeRows ++ tioRows ++ pathRows ++ parseRows ++ egrRows ++ yardRows ++ ctlRows ++ fltRows

def FieldRow.has (r : FieldRow) (a : Nat) : Bool := r.lo ≤ a && (a - r.lo) % r.step == 0 && (a - r.lo) / r.step < r.n

/-- The row of the register at `a`; a register without one is read only, or its write has a behaviour of its own. -/
def fieldRow (a : Nat) : FieldRow := (fieldRows.find? (fun r => r.has a)).getD { lo := a }

/-- The bits of the register at `a` that are configuration (R9, R342). -/
def imageMask (a : Nat) : Nat := (fieldRow a).img

/-- The word after the fields of `mask` take the bits of `v`. -/
def mixBits (old : Word) (mask : Nat) (v : Word) : Word :=
  (old &&& ~~~(BitVec.ofNat 32 mask)) ||| (v &&& BitVec.ofNat 32 mask)

/-- A plain write: RW bits take the value, W1C bits written 1 are cleared (R10). -/
def plainWrite (a : Nat) (old v : Word) : Word :=
  let r := fieldRow a
  mixBits old r.rw v &&& ~~~(v &&& BitVec.ofNat 32 r.w1c)

end Sys2Proof.Machine
end

