-- ==== Sys2Proof/Machine/Pins.lean ====
section
/-!
DEFINITION. Machine/Pins.lean: the pin mux (R398, R399), the carrier bus and MDIO (R396, R401), and JTAG (R397).
-/
namespace Sys2Proof.Machine

/-! ### Pin mux (R398, R399) -/

def pinCommitR : Nat := pinB + 0x100
def gpoR : Nat := pinB + 0x104

def State.staged (s : State) (f : Nat) : Nat := s.fld (pinB + 4 * f) 0 5

/-- The lowest contact in conflict among the staged functions, 31 for a bad value alone; none where the mux may be committed. -/
def State.pinConflict (s : State) : Option Nat :=
  let l := (List.range 36).map s.staged
  match (List.range 28).find? (fun c => decide (1 < (l.filter (· == c)).length)) with
  | some c => some c
  | none => if l.any (fun v => 28 ≤ v && v ≤ 30) then some 31 else none

/-- The function that a contact carries, among the values that `at_` gives the functions. -/
def fnAt (at_ : Nat → Nat) (c : Nat) : Option Nat := (List.range 36).find? (fun f => at_ f == c)

/-- Committed edges of an incoming TRIG or PPSO are not produced; those of a TRIG count in STAT.SKIP. -/
def State.dropEdges (s : State) (f : Nat) : State :=
  if f < 24 then
    let t := s.trig f
    let k := (t.edges.filter (·.leading)).length
    let s := if k = 0 then s else s.count (trigR f 8) 16 16 k
    s.setTrig f { t with edges := [], open_ := none }
  else if f < 28 then s.setPpso (f - 24) { s.ppso (f - 24) with edges := [], open_ := none }
  else s

/-- A contact whose function changes is driven to the safe level of the outgoing one, with its pulse cut off. -/
def State.pinLeave (s : State) (f : Nat) : State :=
  if f < 28 then s.forceOut f else s.driveFn f (levelOf (s.bit gpoR (8 + (f - 28))))

/-- A commit of the staged mux, in PERI cycle c. -/
def State.pinCommit (s : State) : State :=
  if s.bit pinCommitR 1 then s
  else match s.pinConflict with
    | some c => ((s.latch pinCommitR 2).setFld pinCommitR 8 5 c).raise Src.pinMux
    | none =>
      let new := (List.range 36).map s.staged
      let newAt := fun f => new.getD f 31
      let changed := (List.range 28).filter (fun c => fnAt s.contactOf c != fnAt newAt c)
      let s := changed.foldl (fun s c => match fnAt s.contactOf c with
        | some f => s.pinLeave f
        | none => s) s
      let s := (List.range 36).foldl (fun s f => s.setFld (pinB + 4 * f) 8 5 (newAt f)) s
      let s : State := { s with pin := { changing := changed, commitAt := s.now } }
      s.setBit pinCommitR 1 (!changed.isEmpty)

/-- A write of PIN_COMMIT: W1C of ERR, and GO. -/
def State.pinCommitWrite (s : State) (v : Word) : State :=
  let s := s.w1c pinCommitR 4 v
  if getField v 0 1 = 1 then s.pinCommit else s

/-- The incoming function of a contact is at its inactive level. -/
def State.fnInactive (s : State) (f : Nat) : Bool :=
  if f < 24 then !inPulse (s.trig f).edges (s.trig f).open_.isSome
  else if f < 28 then !inPulse (s.ppso (f - 24)).edges (s.ppso (f - 24)).open_.isSome
  else true

/-- The level that function f gives a contact it takes. -/
def State.fnLevel (s : State) (f : Nat) : Level :=
  if f < 28 then (if s.bit (tioB + 4) 0 ∨ s.fenced (unitId 0xC f) then s.outSafe f else s.restLevel f)
  else levelOf (if s.bit (tioB + 4) 0 then s.bit gpoR (8 + (f - 28)) else s.bit gpoR (f - 28))

/-- PIN_DRIVE_START of contact c, no earlier than PERI cycle c + 2. -/
def State.pinDrive (s : State) (c : Nat) : State :=
  if !s.pin.changing.contains c then s
  else
    let t := max s.now ((s.pin.commitAt / periU + 2) * periU)
    match fnAt s.contactOf c with
    | some f =>
      if !s.fnInactive f then s
      else
        let s := (s.advance t).dropEdges f
        let s : State := { s with pin := { s.pin with changing := s.pin.changing.erase c } }
        (s.driveFn f (s.fnLevel f)).setBit pinCommitR 1 (!s.pin.changing.isEmpty)
    | none =>
      let s := (s.advance t).setContact c .z
      let s : State := { s with pin := { s.pin with changing := s.pin.changing.erase c } }
      s.setBit pinCommitR 1 (!s.pin.changing.isEmpty)

/-- A write of PIN_GPO: levels are driven unless outputs are forced; a contact whose FAULT is cleared is driven again. -/
def State.gpoWrite (s : State) (v : Word) : State :=
  let fault := getField (s.reg gpoR) 16 8 &&& (getField (s.justSet gpoR) 16 8 ||| (255 ^^^ getField v 16 8))
  let s := s.setReg gpoR (BitVec.ofNat 32 (getField v 0 16 + fault * 65536))
  if s.bit (tioB + 4) 0 then s
  else (List.range 8).foldl (fun s g => if bitAt fault g then s else s.driveFn (28 + g) (levelOf (s.bit gpoR g))) s

/-! ### Carrier bus (R396) -/

def cbusCmd : Nat := cbusB + 4

/-- A write of CBUS_CMD. -/
def State.cbusWrite (s : State) (v : Word) : State :=
  let busy := s.bit cbusCmd 24
  let s := s.setReg cbusCmd (mixBits (s.reg cbusCmd) 0x1F1F7F v)
  if getField v 24 1 = 1 ∧ !busy then
    { s.setBit cbusCmd 24 true with cbus := { s.cbus with rlen := min 16 (getField v 16 5) } }
  else s

/-- The bytes read go into CBUS_DATA from byte 0 on. -/
def State.cbusData (s : State) (l : List Byte) : State :=
  l.zipIdx.foldl (fun s e => s.setFld (cbusB + 8 + e.2 / 4 * 4) (e.2 % 4 * 8) 8 e.1.toNat) s

/-- CBUS_DONE: firmware's transaction ends; with none under way, the write of a lane swap to the carrier switch ends (R401). -/
def State.cbusDone (s : State) (e : BusEnd) : State :=
  if s.bit cbusCmd 24 then
    let s := s.setBit cbusCmd 24 false
    match e with
    | .ok l => ((s.cbusData (slice l 0 s.cbus.rlen)).setFld cbusCmd 25 3 0).setBit cbusCmd 28 false
    | .nack => ((s.setFld cbusCmd 25 3 6).setBit cbusCmd 28 false).raise Src.carrierNack
    | .stuck => ((s.setFld cbusCmd 25 3 6).setBit cbusCmd 28 true).raise Src.carrierStuck
  else match s.cbus.swap, e with
    | none, _ => s
    | some _, .ok _ => s.swapWritten true
    | some _, .nack => (s.raise Src.carrierNack).swapWritten false
    | some _, .stuck => (s.raise Src.carrierStuck).swapWritten false

/-! ### MDIO (R396) -/

def mdioR (m o : Nat) : Nat := cbusB + 0x40 + m * 0x10 + o

/-- A write of MDIOm_CMD: GO starts the frame that CL45 and OP name; an address frame leaves the master. -/
def State.mdioWrite (s : State) (m : Nat) (v : Word) : State :=
  let a := mdioR m 4
  let busy := s.bit a 16
  let s := s.setReg a (mixBits (s.reg a) 0x1FFF v)
  if getField v 16 1 = 0 ∨ busy then s
  else
    let s := s.setBit a 16 true
    let op := getField v 1 2
    let reads := decide (op = 2 ∨ (op = 3 ∧ getField v 0 1 = 1))
    let s : State := { s with cbus := { s.cbus with mdioReads := if reads then m :: s.cbus.mdioReads.erase m else s.cbus.mdioReads.erase m } }
    if getField v 0 1 = 1 ∧ op = 0 then
      { s with cbus := { s.cbus with mdioAddr := aset (fun _ => 0) s.cbus.mdioAddr m (s.fld (mdioR m 8) 0 16) } }
    else s

/-- MDIO_DONE: a read frame delivers its data; GO clears. -/
def State.mdioDone (s : State) (m : Nat) (data : BitVec 16) : State :=
  let a := mdioR m 4
  if !s.bit a 16 then s
  else
    let s := if s.cbus.mdioReads.contains m then s.setFld (mdioR m 8) 0 16 data.toNat else s
    s.setBit a 16 false

/-- The word of a CMD write that starts frame OP `op`. -/
def mdioWord (v : Word) (op : Nat) : Word := putField (putField v 1 2 op) 16 1 1

/-! ### JTAG (R397) -/

/-- An instruction of the TAP: what IEEE 1149.1 gives the listed ones changes nothing of the machine; any other raises DEBUG_ACCESS. -/
def State.jtag (s : State) (i : Jtag) : State := match i with
  | .other => s.raise Src.debugAccess
  | _ => s

/-! ### Meanings -/

/-- PIN_COMMIT: a write of PIN_COMMIT with GO 1 (R399). -/
def execPinCommit (v : Word) (s : State) : Host.Outcome State Fault Refusal := .next (s.pinCommitWrite (v ||| 1))

/-- PIN_DRIVE_START of contact c (R399). -/
def execPinDriveStart (c : Fin 28) (s : State) : Host.Outcome State Fault Refusal := .next (s.pinDrive c)

/-- CBUS_TRANSACTION: a write of CBUS_CMD with GO 1 (R396). -/
def execCbusTransaction (v : Word) (s : State) : Host.Outcome State Fault Refusal := .next (s.cbusWrite (putField v 24 1 1))

/-- CBUS_DONE (R396, R401). -/
def execCbusDone (e : BusEnd) (s : State) : Host.Outcome State Fault Refusal := .next (s.cbusDone e)

/-- MDIO_ADDRESS: a write of MDIOm_CMD with CL45 1, OP 0 and GO (R396). -/
def execMdioAddress (m : Fin 2) (v : Word) (s : State) : Host.Outcome State Fault Refusal := .next (s.mdioWrite m (mdioWord v 0 ||| 1))

/-- MDIO_WRITE: OP 1 (R396). -/
def execMdioWrite (m : Fin 2) (v : Word) (s : State) : Host.Outcome State Fault Refusal := .next (s.mdioWrite m (mdioWord v 1))

/-- MDIO_READ: OP 2 (R396). -/
def execMdioRead (m : Fin 2) (v : Word) (s : State) : Host.Outcome State Fault Refusal := .next (s.mdioWrite m (mdioWord v 2))

/-- MDIO_READ_INC: OP 3 with CL45 1 (R396). -/
def execMdioReadInc (m : Fin 2) (v : Word) (s : State) : Host.Outcome State Fault Refusal := .next (s.mdioWrite m (mdioWord v 3 ||| 1))

/-- MDIO_DONE of master m, with what a read frame brought (R396). -/
def execMdioDone (m : Fin 2) (data : BitVec 16) (s : State) : Host.Outcome State Fault Refusal := .next (s.mdioDone m data)

/-- JTAG_INSTRUCTION (R397). -/
def execJtagInstruction (i : Jtag) (s : State) : Host.Outcome State Fault Refusal := .next (s.jtag i)

end Sys2Proof.Machine
end

