-- ==== Sys2Proof/Machine/Power.lean ====
section
/-!
DEFINITION. Machine/Power.lean: reset, the start of the clocks, supply, temperature and the low-power states (R350, R383–R392), and the
way back to image load that a warm restart and the exit of STANDBY share (R353, R391).
-/
namespace Sys2Proof.Machine

/-! ### Reset -/

/-- Outside conditions that a reset of the module does not end: supply, converters, temperature, clocks. -/
def keptCause (x : Nat) : Bool := x ≤ 22 || x == Src.rootUnlock || x == Src.refLost || x == Src.clkMonitor

/-- What the fault unit keeps through a reset of the module (R368–R372, R381). -/
def State.keptFlt (s : State) : FltSt :=
  { mram := s.flt.mram, mramNext := s.flt.mramNext, boots := s.flt.boots, everRan := s.flt.everRan, retired := s.flt.retired,
    pprRows := s.flt.pprRows, causes := s.flt.causes.filter (fun e => keptCause e.1), cell := s.flt.cell,
    downSince := if s.flt.everRan then some 0 else none, downCarry := s.carryDown, vinOut := s.flt.vinOut, gasped := s.flt.gasped }

/-- The machine with every register at its reset value (R9); power, the journal's memories and the contents of RAM stay. -/
def State.cleared (s : State) : State :=
  { pending := s.pending, freeCtr := s.freeCtr, store := s.store, mem := s.mem, pwr := s.pwr, flt := s.keptFlt,
    boot := { pwrLead := s.boot.pwrLead + s.now } }

/-- SYS_CAUSE of a start. -/
def State.setSysCause (s : State) (c : Nat) : State := s.setFld (sysB + 4) 0 3 c

/-- BOOT_STAT.PHASE. -/
def State.setPhase (s : State) (p : Nat) : State := s.setFld bootB 0 4 p

/-- A reset of the module (R9, R355, R361, R394): it starts again from BIST, or where the root PLL is not locked, from its lock. The
    power controller's flags, RECNO and the availability counts stay. -/
def State.moduleReset (s : State) (cause : Nat) : State :=
  let t := s.cleared
  let t := (t.setReg pwrB (s.reg pwrB &&& 0x1F#32)).setFld pwrB 0 2 (if s.pwr.lost then 2 else 0)
  let t := (t.setReg (pwrB + 4) (s.reg (pwrB + 4))).setReg (clkB + 4) (s.reg (clkB + 4) &&& 3#32)
  let t := (t.setReg (jour + 4) (s.reg (jour + 4))).setCell s.flt.cell
  let t := (t.setReg (fltB + 0x94) (s.reg (fltB + 0x94))).setReg (fltB + 0x98) (s.reg (fltB + 0x98))
  let t := t.setSysCause cause
  if t.bit (clkB + 4) 0 then (t.setPhase 1).setBit timeB 0 true else t.setPhase 0

/-- The module without power, or in SLEEP: what is left is non-volatile, the last-gasp cell where the PWR domain stays alive, and
    RECNO, which is kept across power cycles (R368, R371, R388, Table 17.7). -/
def State.powerGone (s : State) (pwrAlive : Bool) : State :=
  let t := s.cleared
  let f := s.keptFlt
  let t : State := { t with mem := [], flt := { f with downSince := none, downCarry := 0, causes := f.causes.filter (fun e => pwrAlive && e.1 < 22), cell := none, gasped := false },
                            boot := { pwrLead := if pwrAlive then t.boot.pwrLead else 0 },
                            pwr := { wake := s.pwr.wake } }
  let t := t.setReg (jour + 4) (s.reg (jour + 4))
  if pwrAlive then
    let t := (t.setReg pwrB (s.reg pwrB &&& 0x14#32)).setCell s.flt.cell
    { t with pwr := { t.pwr with powered := true } }
  else t

/-! ### Start of power and clocks (Table 15.7, R390) -/

/-- POWER_UP: VIN reaches 18 V. -/
def State.powerUp (s : State) : State :=
  if s.pwr.powered then s
  else
    let s : State := { s with pwr := { s.pwr with powered := true },
                              flt := { s.flt with downSince := (if s.flt.everRan then some 0 else none), vinOut := false } }
    (s.setSysCause 0).setPhase 0

/-- The rails are up; after a halt whose cause holds them down they stay off until it ends (R361). -/
def State.railsUp (s : State) : State :=
  let held := s.pwr.railsHeld && ((List.range 5).any (fun r => s.causePersists (Src.conv r)) || s.causePersists Src.thermalTrip)
  if !s.pwr.powered ∨ s.pwr.rails ∨ s.pwr.asleep ∨ held then s
  else { s with pwr := { s.pwr with rails := true, railsHeld := false } }

/-- REF has become stable: the count of R75 begins. -/
def State.refSteady (s : State) : State :=
  if s.bit (clkB + 4) 1 then s
  else { s.setBit (clkB + 4) 1 true with time := { s.time with refSince := s.now } }

/-- REF shows edges. -/
def State.refStable (s : State) : State :=
  if s.pwr.rails then s.refSteady.setCause Src.refLost false else s

/-- The root PLL locks: at a start CI0 begins at 0, `lead` after the PWR domain or the reset (R60, R350). -/
def State.rootLock (s : State) (lead : Nat) : State :=
  if !s.pwr.rails ∨ !s.bit (clkB + 4) 1 ∨ s.bit (clkB + 4) 0 then s
  else
    let s := (s.setBit (clkB + 4) 0 true).setCause Src.rootUnlock false
    if s.fld bootB 0 4 = 0 then
      let s : State := { s with time := { s.time with now := 0, refSince := 0, insts := [] } }
      let s : State := { s with boot := { s.boot with pwrLead := s.boot.pwrLead + lead },
                                flt := { s.flt with downCarry := if s.flt.downSince.isSome ∧ !s.flt.vinOut then s.flt.downCarry + lead else s.flt.downCarry } }
      (s.setPhase 1).setBit timeB 0 true
    else s

/-! ### Back to image load (R348, R353, R391) -/

/-- Every field of configuration returns to 0, those of FLT_SRCs to their defaults (R9, R348). -/
def State.clearImage (s : State) : State :=
  let s := s.ctl.foldl (fun s e => s.setReg e.1 (mixBits e.2 (imageMask e.1) (regReset e.1))) s
  let s : State := { s with image := {}, jen := { s.jen with keys := [] }, flt := { s.flt with mapApplied := false } }
  let s : State := { s with tio := { s.tio with trigs := [], ppsos := [], clko := [] }, dma := {} }
  { s with egr := { s.egr with ports := amap (fun _ => {}) (fun p => { p with gcl := none, gclNext := none }) s.egr.ports } }

/-- Timing outputs go to their safe levels. -/
def State.outputsSafe (s : State) : State :=
  let s := (List.range 28).foldl (fun s i => s.forceOut i) s
  (List.range 8).foldl (fun s g => s.driveFn (28 + g) (levelOf (s.bit gpoR (8 + g)))) s

/-- The sequence of R350 begins again at image load on a slot: sessions closed, path stopped, outputs safe; lanes of ports whose
    record stays the same are kept up by `kept`. -/
def State.restartLoad (s : State) (slot : Nat) (kept : List (List Byte)) : State :=
  let s := s.pathStop.outputsSafe
  let s := (List.range 16).foldl (fun s i => s.closeSession i) s
  let s : State := { s with jen := { sessions := s.jen.sessions }, flt := { s.flt with boots := s.flt.boots + 1 } }
  let s := s.noticeStat
  let s := s.clearImage
  let s : State := { s with cpu := { s.cpu with ctls := [] }, boot := { s.boot with loading := some slot, triedOther := false, ready := false, warmPorts := kept } }
  ((s.setBit bootB 5 false).setBit bootB 6 false).setPhase 3

/-! ### Clock monitors (R384, R385, R77) -/

/-- REF is lost, or shows edges again. -/
def State.refLost (s : State) (on : Bool) : State :=
  (if on then s.setBit (clkB + 4) 1 false else s.refSteady).levelSource Src.refLost on

/-- ROOT_UNLOCK: all instances INVALID, with TIME_SAFE_STATE (R77). -/
def State.rootUnlock (s : State) : State :=
  if !s.bit (clkB + 4) 0 then s else ((s.setBit (clkB + 4) 0 false).levelSource Src.rootUnlock true).allInvalid

/-- A lane PLL without its reference or lock, or back. -/
def State.lanePllLoss (s : State) (p : Nat) (on : Bool) : State := (s.setBit (clkB + 4) (2 + p) (!on)).levelSource (Src.lanePll p) on

/-- A pulse merged at crossing `x`. -/
def State.cdcMerge (s : State) (x : Nat) : State :=
  ((s.count (clkB + 8) 0 16).setFld (clkB + 8) 16 8 x).raise Src.cdcOverrun [x]

/-! ### VIN (R386–R389) -/

/-- PWR_VIN; downtime is counted up to a change of its range (R380). -/
def State.setVin (s : State) (v : BitVec 16) : State :=
  let s : State := { s with flt := { s.flt with downCarry := s.carryDown, downSince := s.flt.downSince.map (fun _ => s.now),
                                                vinOut := decide (v.toInt < 1800) || decide (6000 < v.toInt) } }
  s.setFld (pwrB + 4) 0 16 v.toNat

/-- A monitor with hysteresis: the cause begins where `hot` holds, with a raise, and ends where `cool` holds. -/
def State.watch (s : State) (src : Nat) (hot cool : Bool) : State :=
  if hot then (if aget (fun _ => false) s.flt.causes src then s else s.levelSource src true)
  else if cool then s.setCause src false else s

/-- The input is lost at `t` (Table 17.5, t_0). -/
def State.inputLost (s : State) (t : Nat) : State :=
  if !s.pwr.powered ∨ s.pwr.lossAt.isSome then s
  else
    let s := s.advance t
    { s with pwr := { s.pwr with lossAt := some s.now } }

/-- The loss ends within 50 µs: it is ridden through. -/
def State.lossEnds (s : State) (t : Nat) : State := match s.pwr.lossAt with
  | some t0 => if s.pwr.lost ∨ t0 + 50 * usU ≤ max s.now t then s
      else
        let s := s.advance t
        { s with pwr := { s.pwr with lossAt := none } }
  | none => s

/-- LOSS_CONFIRM at t_0 + 50 µs: VIN_LOST, and power leaves the packet path, the lanes, the DRAM and control cores 1–3. -/
def State.lossConfirm (s : State) : State := match s.pwr.lossAt with
  | some t0 => if s.pwr.lost then s
      else
        let s := (s.advance (t0 + 50 * usU)).levelSource Src.vinLost true
        let s : State := { s with pwr := { s.pwr with lost := true, unpowered := true } }
        let s := (s.setFld pwrB 0 2 2).pathStop
        let s := (List.range 32).foldl (fun s p => s.linkDown p [] false) s
        { s with cpu := { s.cpu with ctls := s.cpu.ctls.filter (fun e => e.1 = 0) } }
  | none => s

/-- RAILS_OFF at `t`, at t_0 + 40 ms or later; the steps of R371 are done by then, whether or not VIN_LOST is enabled to latch. -/
def State.railsOff (s : State) (t : Nat) : State := match s.pwr.lossAt with
  | some t0 => if s.pwr.lost then (s.advance (max t (t0 + 40 * msU))).lastGasp.powerGone false else s
  | none => s

/-- The hold-up test measures the bank, in mJ (R389). -/
def State.holdupTest (s : State) (energy : Nat) : State :=
  (s.setFld (pwrB + 0x10) 0 16 energy).watch Src.holdupWeak (decide (energy < 1300)) (decide (1300 ≤ energy))

/-- A write of PWR_HOLDUP with TEST 1 starts a test; the energy that it finds is the bank's own, a free value (log entry 194). -/
def State.holdupStart (s : State) (v : Word) : State :=
  if getField v 16 1 = 1 then
    let (e, s) := s.fresh 16
    s.holdupTest e.toNat
  else s

/-! ### Temperature (R392) -/

def tempR (z : Nat) : Nat := pwrB + 0x40 + 4 * z

def State.tempC (s : State) (z : Nat) : Int := s.sfld (tempR z) 0 8

/-- TEMP_Zz against WARN, with 3 K of hysteresis; WARN 0 disables it. -/
def State.warnZone (s : State) (z : Nat) : State :=
  let w : Int := s.fld (tempR z) 8 8
  s.watch (Src.tempZ z) (decide (w ≠ 0 ∧ w ≤ s.tempC z)) (decide (w = 0 ∨ s.tempC z < w - 3))

/-- THERMAL_MEASURE at the next whole ms: the eight zones in °C. -/
def State.thermal (s : State) (temps : Vector (BitVec 8) 8) : State :=
  let s := s.advance ((s.now / msU + 1) * msU)
  let s := temps.toList.zipIdx.foldl (fun s e => s.setFld (tempR e.2) 0 8 e.1.toNat) s
  let s := (List.range 8).foldl (fun s z => s.warnZone z) s
  let trip := fun (z : Nat) => ((s.fld (tempR z) 16 8 : Nat) : Int)
  let s := s.watch Src.thermalTrip ((List.range 8).any (fun z => decide (trip z ≤ s.tempC z)))
    ((List.range 8).all (fun z => decide (s.tempC z < trip z - 15)))
  (List.range 9).foldl (fun s n => if n = 0 then s else s.holdLimit n) s

/-! ### Low power (R391) -/

def State.mode (s : State) : Nat := s.fld pwrB 0 2

/-- STANDBY keeps control SRAM and DRAM; the other RAM is without power (Table 17.7). -/
def keptInStandby (a : Nat) : Bool := (0x20000000 ≤ a && a < 0x20400000) || 0x1000000000 ≤ a

/-- The module enters PWR_CFG.LOW_MODE. -/
def State.enterLow (s : State) : State :=
  let s : State := { s with pwr := { s.pwr with wakeDropAt := none } }
  if s.mode ≠ 0 ∨ !s.pwr.rails then s
  else if s.bit (pwrB + 8) 0 then
    let s := s.powerGone true
    { s with pwr := { s.pwr with asleep := true } }
  else
    let s := s.pathStop.outputsSafe
    let s := (List.range 32).foldl (fun s p => s.linkDown p [] false) s
    let s := (List.range 16).foldl (fun s ch => if s.fld (smcCh ch) 0 3 = 0 then (s.setFld (smcB + 0xC) (16 + ch) 1 1).setChState ch 1 else s) s
    let s : State := { s with cpu := { s.cpu with ctls := s.cpu.ctls.filter (fun e => e.1 = 0) }, mem := s.mem.filter (fun e => keptInStandby e.1) }
    s.setFld pwrB 0 2 1

/-- The exit of STANDBY, or of SLEEP. -/
def State.exitLow (s : State) : State :=
  if s.pwr.asleep then
    let s : State := { s with pwr := { s.pwr with asleep := false }, flt := { s.flt with downSince := if s.flt.everRan then some 0 else none } }
    ((s.latch pwrB 3).setSysCause 0).setPhase 0
  else if s.mode = 1 then (s.setFld pwrB 0 2 0).restartLoad s.image.slot []
  else s

/-- WAKE_DROP at `t`: where it latches with HOLD 0 the entry is due GRACE_S later. -/
def State.wakeFell (s : State) (t : Nat) : State :=
  if !s.pwr.wake then s
  else
    let s := (s.advance t).levelSource Src.wakeDrop true
    let due := s.bit (srcR Src.wakeDrop) 0 && !s.bit (pwrB + 0xC) 1 && s.mode == 0
    { s with pwr := { s.pwr with wake := false, wakeDropAt := if due then some s.now else none } }

/-- LOW_POWER_ENTER at the end of GRACE_S. -/
def State.graceEnd (s : State) : State := match s.pwr.wakeDropAt with
  | some t0 => (s.advance (t0 + s.fld (pwrB + 8) 8 8 * secU)).enterLow
  | none => s

/-- WAKE is asserted for 10 ms: a pending entry is cancelled, and a low-power state ends. -/
def State.wakeRose (s : State) (t : Nat) : State :=
  let s := (s.advance t).setCause Src.wakeDrop false
  let s : State := { s with pwr := { s.pwr with wake := true, wakeDropAt := none } }
  s.exitLow

/-- A write of PWR_CTL: HOLD 1 keeps or returns the module to RUN; ENTER is not performed while WAKE is asserted. -/
def State.pwrCtlWrite (s : State) (v : Word) : State :=
  let was := s.bit (pwrB + 0xC) 1
  let hold := getField v 1 1 = 1
  let s := s.setBit (pwrB + 0xC) 1 hold
  let s := if hold then
      let s : State := { s with pwr := { s.pwr with wakeDropAt := none } }
      if !was ∧ s.mode = 1 then s.exitLow else s
    else s
  if getField v 0 1 = 1 ∧ !s.pwr.wake then s.enterLow else s

/-! ### Meanings -/

/-- POWER_UP (R350). -/
def execPowerUp (s : State) : Host.Outcome State Fault Refusal := .next s.powerUp

/-- RAILS_SEQUENCED (R390). -/
def execRailsSequenced (s : State) : Host.Outcome State Fault Refusal := .next s.railsUp

/-- REF_STABLE (R350). -/
def execRefStable (s : State) : Host.Outcome State Fault Refusal := .next s.refStable

/-- ROOT_PLL_LOCK, `lead` after the PWR domain became alive or the last reset, in units of 2^-48 ns (R60). -/
def execRootPllLock (lead : Nat) (s : State) : Host.Outcome State Fault Refusal := .next (s.rootLock lead)

/-- MODULE_RESET: a write of SYS_RESET; values other than the key have no effect (R355). -/
def execModuleReset (v : Word) (s : State) : Host.Outcome State Fault Refusal :=
  .next (if v = 0x52534554#32 then s.moduleReset 2 else s)

/-- RESET_N_ASSERT: the module is held in reset (R394). -/
def execResetNAssert (s : State) : Host.Outcome State Fault Refusal :=
  let s := s.moduleReset 1
  .next { s with boot := { s.boot with resetHeld := true } }

/-- RESET_N_RELEASE (R394). -/
def execResetNRelease (s : State) : Host.Outcome State Fault Refusal := .next { s with boot := { s.boot with resetHeld := false } }

/-- HALT_RESET at t + 10 µs of an H latch; converter and thermal causes hold the rails down (R361). -/
def execHaltReset (s : State) : Host.Outcome State Fault Refusal :=
  match s.flt.halt with
  | none => .next s
  | some (x, due) =>
    let s := (s.advance due).moduleReset 3
    let rails := (6 ≤ x ∧ x ≤ 10) ∨ x = Src.thermalTrip
    .next (if rails then (({ s with pwr := { s.pwr with rails := false, railsHeld := true } } : State).setReg (clkB + 4) 0).setPhase 0 else s)

/-- CDC_PULSE_MERGE at a crossing (R384). -/
def execCdcPulseMerge (x : BitVec 8) (s : State) : Host.Outcome State Fault Refusal := .next (s.cdcMerge x.toNat)

/-- REF_LOST; `on` false when REF shows edges again (R385). -/
def execRefLost (on : Bool) (s : State) : Host.Outcome State Fault Refusal := .next (s.refLost on)

/-- CLK_MONITOR; `on` false when every monitored clock is in range again (R385). -/
def execClkMonitor (on : Bool) (s : State) : Host.Outcome State Fault Refusal := .next (s.levelSource Src.clkMonitor on)

/-- PWR_OSC; `on` false when the oscillator is in range again (R385, Table 17.4). -/
def execPwrOsc (on : Bool) (s : State) : Host.Outcome State Fault Refusal := .next (s.levelSource Src.pwrOsc on)

/-- LANE_PLL_LOSS of PLL A (0) or B (1); `on` false when it is back (R385). -/
def execLanePllLoss (p : Fin 2) (on : Bool) (s : State) : Host.Outcome State Fault Refusal := .next (s.lanePllLoss p on)

/-- ROOT_UNLOCK (R77, R385). -/
def execRootUnlock (s : State) : Host.Outcome State Fault Refusal := .next s.rootUnlock

/-- VIN_OVER, with VIN in 10 mV (Table 17.4). -/
def execVinOver (vin : BitVec 16) (s : State) : Host.Outcome State Fault Refusal :=
  .next ((s.setVin vin).watch Src.vinOver (decide (6050 < vin.toInt)) (decide (vin.toInt < 6000)))

/-- VIN_UNDER, with VIN in 10 mV (Table 17.4). -/
def execVinUnder (vin : BitVec 16) (s : State) : Host.Outcome State Fault Refusal :=
  .next ((s.setVin vin).watch Src.vinUnder (decide (vin.toInt < 1750)) (decide (1800 ≤ vin.toInt)))

/-- VIN_REVERSED, while the power controller runs on hold-up (Table 17.4). -/
def execVinReversed (vin : BitVec 16) (s : State) : Host.Outcome State Fault Refusal :=
  .next ((s.setVin vin).watch Src.vinReversed (decide (vin.toInt < -600) && s.pwr.lossAt.isSome) (decide (0 ≤ vin.toInt)))

/-- VIN_CLAMP (Table 17.4). -/
def execVinClamp (s : State) : Host.Outcome State Fault Refusal := .next (s.raise Src.vinClamp)

/-- INPUT_DISCONNECT at `t`, VIN above 65 V (Table 17.3). -/
def execInputDisconnect (t : Nat) (vin : BitVec 16) (s : State) : Host.Outcome State Fault Refusal :=
  .next (((s.setBit pwrB 4 true).inputLost t).setVin vin)

/-- INPUT_RECONNECT at `t`: VIN has fallen to 63 V (Table 17.3). -/
def execInputReconnect (t : Nat) (vin : BitVec 16) (s : State) : Host.Outcome State Fault Refusal :=
  .next ((if s.bit pwrB 4 then (s.setBit pwrB 4 false).lossEnds t else s).setVin vin)

/-- INPUT_LOSS at `t`: VIN falls below 16 V, or the input disconnects (R388). -/
def execInputLoss (t : Nat) (vin : BitVec 16) (s : State) : Host.Outcome State Fault Refusal := .next ((s.inputLost t).setVin vin)

/-- DIP_END at `t`, before t_0 + 50 µs (R388). -/
def execDipEnd (t : Nat) (vin : BitVec 16) (s : State) : Host.Outcome State Fault Refusal := .next ((s.lossEnds t).setVin vin)

/-- LOSS_CONFIRM (Table 17.5). -/
def execLossConfirm (s : State) : Host.Outcome State Fault Refusal := .next s.lossConfirm

/-- RAILS_OFF (Table 17.5). -/
def execRailsOff (t : Nat) (s : State) : Host.Outcome State Fault Refusal := .next (s.railsOff t)

/-- CONV_FAULT of the rail CORE, SRAM, DRAM, IO, LANE or AUX; `on` false when it is within tolerance again (Table 17.4). -/
def execConvFault (r : Fin 6) (on : Bool) (s : State) : Host.Outcome State Fault Refusal := .next (s.levelSource (Src.conv r) on)

/-- THERMAL_MEASURE of the eight zones, °C (R392). -/
def execThermalMeasure (temps : Vector (BitVec 8) 8) (s : State) : Host.Outcome State Fault Refusal := .next (s.thermal temps)

/-- WAKE_DROP at `t` (R387, R391). -/
def execWakeDrop (t : Nat) (s : State) : Host.Outcome State Fault Refusal := .next (s.wakeFell t)

/-- LOW_POWER_ENTER (R391). -/
def execLowPowerEnter (s : State) : Host.Outcome State Fault Refusal := .next s.graceEnd

/-- PWR_CTL_ENTER: a write of PWR_CTL with ENTER 1 (R391). -/
def execPwrCtlEnter (v : Word) (s : State) : Host.Outcome State Fault Refusal := .next (s.pwrCtlWrite (v ||| 1))

/-- PWR_CTL_HOLD: a write of PWR_CTL with HOLD 1 (R391). -/
def execPwrCtlHold (v : Word) (s : State) : Host.Outcome State Fault Refusal := .next (s.pwrCtlWrite (v ||| 2))

/-- WAKE_ASSERT at `t`, after 10 ms (R391). -/
def execWakeAssert (t : Nat) (s : State) : Host.Outcome State Fault Refusal := .next (s.wakeRose t)

/-- HOLDUP_TEST, with the energy measured in mJ (R389). -/
def execHoldupTest (energy : BitVec 16) (s : State) : Host.Outcome State Fault Refusal := .next (s.holdupTest energy.toNat)

/-- HOLDUP_READY (R389). -/
def execHoldupReady (s : State) : Host.Outcome State Fault Refusal := .next (if s.pwr.powered then s.setBit pwrB 2 true else s)

end Sys2Proof.Machine
end

