-- ==== Sys2Proof/Machine/DmaOps.lean ====
section
/-!
DEFINITION. Machine/DmaOps.lean: DMA channels as their registers show them (R305–R309, R312, R313, R315), and how a descriptor ends.
-/
namespace Sys2Proof.Machine

def State.dch (s : State) (k : Nat) : DmaCh := aget (fun _ => {}) s.dma.chans k

def State.setDch (s : State) (k : Nat) (x : DmaCh) : State :=
  { s with dma := { s.dma with chans := aset (fun _ => {}) s.dma.chans k x } }

def State.modDch (s : State) (k : Nat) (f : DmaCh → DmaCh) : State := s.setDch k (f (s.dch k))

/-- CFG.KIND: 0 MEM, 1 TX, 2 RX; 3 acts as 0. -/
def State.dmaKind (s : State) (k : Nat) : Nat := s.fld (dmaR k 0) 1 2 % 3
def State.dmaEn (s : State) (k : Nat) : Bool := s.bit (dmaR k 0) 0
/-- STAT.STATE: 0 IDLE, 1 RUNNING, 2 HALTED, 3 PAUSED. -/
def State.dmaState (s : State) (k : Nat) : Nat := s.fld (dmaR k 8) 0 2
/-- STAT.STATE changes, and the unit's GEN with it (R331; log entry 221). -/
def State.setDmaState (s : State) (k st : Nat) : State :=
  if s.dmaState k = st then s else (s.setFld (dmaR k 8) 0 2 st).bumpGen (unitId 0xD k)

/-! ### Descriptors (Table 13.1) -/

def dWord (d : List Byte) : Nat := le d 0 4
def dLen (d : List Byte) : Nat := bitsOf (dWord d) 0 17
def dStart (d : List Byte) : Bool := bitAt (dWord d) 17
def dEnd (d : List Byte) : Bool := bitAt (dWord d) 18
def dIrq (d : List Byte) : Bool := bitAt (dWord d) 19
def dOwn (d : List Byte) : Bool := bitAt (dWord d) 31
def dVirt (d : List Byte) : Bool := bitAt (le d 4 4) 8
def dAsid (d : List Byte) : Nat := le d 4 1
def dSrc (d : List Byte) : Nat := le d 8 8
def dDst (d : List Byte) : Nat := le d 16 8

def State.descAt (s : State) (k i : Nat) : List Byte := s.cbytes (s.dmaBase k + i * 32) 32

/-- A range wholly in control SRAM or in the presented DRAM region. -/
def State.ringMem (s : State) (a n : Nat) : Bool :=
  let r := s.region0 a
  n != 0 && (r == .sram || r == .dram) && s.region0 (a + n - 1) == r

/-- A bad descriptor (R309), on an RX channel with R307. -/
def State.descBad (s : State) (k : Nat) (d : List Byte) : Bool :=
  let n := dLen d
  n == 0 || decide (65536 < n) || bitsOf (dWord d) 27 4 != 0 || bitsOf (le d 4 4) 9 23 != 0 || bitsOf (le d 24 4) 17 3 != 0 || bitsOf (le d 24 4) 24 8 != 0
    || (s.dmaKind k == 2 && (dVirt d || decide (n < 256) || !s.ringMem (dDst d) n
          || (s.bit (dmaR k 0) 5 && decide (4096 < n) && s.region0 (dDst d) == .dram)))

/-- A ring within the limits of R308. -/
def State.ringOk (s : State) (k : Nat) : Bool :=
  let n := s.dmaCount k
  let b := s.dmaBase k
  [4, 8, 16, 32, 64, 128, 256, 512, 1024, 2048, 4096].contains n && b % 32 == 0 && s.ringMem b (32 * n)

/-! ### How a descriptor ends (R312, R315) -/

/-- Bit j of DMA_ENGe_IRQ. -/
def State.dmaIrq (s : State) (k : Nat) : State := s.latch (dmaB + k / 16 * 4) (k % 16)

/-- DONE, CODE and STAMP of descriptor i. -/
def State.descDone (s : State) (k i done code stamp : Nat) : State :=
  let a := s.dmaBase k + i * 32
  (s.writeNum (a + 24) 4 (done + code * 2 ^ 20)).writeNum (a + 28) 4 stamp

/-- The channel halts at descriptor i (R312). -/
def State.descHalt (s : State) (k i done code : Nat) : State :=
  let s := s.writeNum (s.dmaBase k + i * 32 + 24) 4 (done + code * 2 ^ 20)
  let s := ((s.setDmaState k 2).setFld (dmaR k 8) 4 4 code).setFld (dmaR k 8) 8 17 done
  let s := s.modDch k (fun x => { x with owned := false, resume := done, aborting := false })
  (s.dmaIrq k).raiseU (Src.dmaErr (k / 16)) [k + code * 256, done] (unitId 0xD k)

/-- The engine reads the descriptor at HEAD (R309): whether it is owned; a bad one on an RX channel halts it. -/
def State.headRead (s : State) (k : Nat) : State :=
  let h := s.dmaHead k
  let d := s.descAt k h
  let again := match (s.dch k).redoTo with
    | some t => h != t
    | none => false
  let own := (dOwn d || again) && s.dmaEn k
  let s := s.modDch k (fun x => { x with owned := own })
  if own ∧ s.dmaKind k = 2 ∧ s.descBad k d then s.descHalt k h 0 6 else s

/-- HEAD advances, with wrap (R308). -/
def State.headNext (s : State) (k : Nat) : State :=
  let h := s.dmaHead k
  let s := if (s.dch k).redoTo = some h then s.modDch k (fun x => { x with redoTo := none }) else s
  s.setFld (dmaR k 0x14) 0 12 ((h + 1) % max 1 (s.dmaCount k))

/-- Ownership returns: bytes 24–31, then word 0 with OWN 0 and the RX bits of `bits`; HEAD advances (R312). -/
def State.descClose (s : State) (k i done code stamp bits : Nat) (d : List Byte) : State :=
  let s := s.descDone k i done code stamp
  let rx := s.dmaKind k = 2
  let w := dWord d % 2 ^ 31
  let w := if rx then w - (w &&& (2 ^ 17 + 2 ^ 18 + 2 ^ 26)) + bits else w
  let s := s.writeNum (s.dmaBase k + i * 32) 4 w
  let s := s.setFld (dmaR k 8) 4 4 code
  let s := if dIrq d ∧ code ≠ 9 then s.dmaIrq k else s
  s.headNext k

/-! ### Channel control (R308, R309, R313) -/

/-- The frame being gathered on channel k fails (R316). -/
def State.txFail (s : State) (k : Nat) : State :=
  let x := s.dch k
  (s.setDch k { x with inFrame := false, body := [], cell := none, coach := none }).txDrop x

/-- EN goes to 0 (R308): a TX frame gathered so far fails its verdict (DESIGN CHOICE of log entry 83). -/
def State.dmaOff (s : State) (k : Nat) : State :=
  let s := if s.dmaKind k = 1 ∧ (s.dch k).inFrame then s.txFail k else s
  (s.setBit (dmaR k 0) 0 false).modDch k (fun x => { x with owned := false })

/-- A write of DMA_CHk_CFG (R308, R313, Table 13.5). -/
def State.dmaCfgWrite (s : State) (k : Nat) (v : Word) : State :=
  let a := dmaR k 0
  let was := s.bit a 0
  let s := (s.setFld a 3 3 (getField v 3 3))
  let s := if was then s else s.setFld a 1 2 (getField v 1 2)
  if getField v 0 1 = 1 then
    if was then s.modDch k (fun x => { x with disabling := false })
    else if !s.ringOk k then s.setFld (dmaR k 8) 4 4 6
    else ((s.setBit a 0 true).setFld (dmaR k 0x14) 0 12 0).setDch k {} |>.setDmaState k 0
  else if !was then s
  else if (s.dch k).desc.isSome then s.modDch k (fun x => { x with disabling := true })
  else
    let s := s.dmaOff k
    if s.dmaState k = 3 then s.setDmaState k 0 else s

/-- A write of DMA_CHk_BASE_LO (o = 0xC) or _HI (o = 0x28): not while EN is 1. -/
def State.dmaBaseWrite (s : State) (k o : Nat) (v : Word) : State :=
  if s.dmaEn k then s else if o = 0x28 then s.setFld (dmaR k o) 0 8 (getField v 0 8) else s.setReg (dmaR k o) v

/-- A write of DMA_CHk_KICK. -/
def State.dmaKick (s : State) (k : Nat) : State :=
  if s.dmaEn k ∧ s.dmaState k ≠ 2 ∧ (s.dch k).desc.isNone ∧ !s.absent (unitId 0xD k) then s.headRead k else s

/-- SKIP of the rest of a TX frame: owned descriptors to the one with END go back with ABORTED. -/
def State.skipFrame (s : State) (k : Nat) : Nat → State
  | 0 => s
  | n + 1 =>
    let i := s.dmaHead k
    let d := s.descAt k i
    if !dOwn d then s
    else
      let s := s.descClose k i 0 9 0 0 d
      if dEnd d then s else State.skipFrame s k n

/-- A write of DMA_CHk_CTL (R313). -/
def State.dmaCtlWrite (s : State) (k : Nat) (v : Word) : State :=
  let s :=
    if getField v 0 1 = 1 ∧ s.dmaState k = 2 then
      let x := s.dch k
      let s := s.setDmaState k 0
      if s.dmaKind k = 1 then
        let h := s.dmaHead k
        let s := s.setFld (dmaR k 0x14) 0 12 x.startAt
        s.setDch k { x with resume := 0, redoTo := some (x.redoTo.getD h), owned := true }
      else if s.dmaKind k = 0 then s.setDch k { x with owned := true }
      else (s.setDch k { x with resume := 0 }).headRead k
    else s
  let s :=
    if getField v 1 1 = 1 ∧ s.dmaState k = 2 then
      let i := s.dmaHead k
      let d := s.descAt k i
      let s := s.writeNum (s.dmaBase k + i * 32) 4 (dWord d % 2 ^ 31)
      let s := ((s.headNext k).setDmaState k 0).modDch k (fun x => { x with owned := false, resume := 0, redoTo := none })
      if s.dmaKind k = 1 ∧ !dEnd d then s.skipFrame k (s.dmaCount k) else s
    else s
  if getField v 2 1 = 1 ∧ s.dmaState k = 1 then s.modDch k (fun x => { x with aborting := true }) else s

/-- A write of DMA_CHk_SEEN (R315). -/
def State.dmaSeen (s : State) (k : Nat) (v : Word) : State := s.setFld (dmaR k 0x1C) 0 12 (getField v 0 12)

end Sys2Proof.Machine
end

