-- ==== Sys2Proof/Machine/Bus.lean ====
section
/-!
DEFINITION. Machine/Bus.lean: a read and a write of one control-space word by any requester (R7, R8, R10): the behaviour of its own
where the register has one, else the access codes of its fields.
-/
namespace Sys2Proof.Machine

/-- The address lies in one of the 26 control-space blocks (Table 15.9). -/
def inControl (a : Nat) : Bool := decide (block 0 ≤ a) && decide (a < block 26)

/-- A plain write of the register at `a`; a W1C bit that hardware set in the same cycle stays 1 (R10). -/
def State.plain (s : State) (a : Nat) (v : Word) : State :=
  s.setReg a (plainWrite a (s.reg a) v ||| (s.reg a &&& s.justSet a &&& BitVec.ofNat 32 (fieldRow a).w1c))

/-- The word whose instance field [lo+3:lo] keeps its old value where the written one is above 8 (Tables 3.7, 4.7, 4.9). -/
def keepCi (old v : Word) (lo : Nat) : Word := if 8 < getField v lo 4 then putField v lo 4 (getField old lo 4) else v

/-! ### Writes with a behaviour of their own, block by block; `o` is the offset in the block -/

def State.wrTime (s : State) (o : Nat) (v : Word) : State :=
  if o = 4 then s.snapWrite v
  else if o = 0x80 then s.convWrite v
  else if 0x84 ≤ o ∧ o ≤ 0x90 ∧ s.time.convBusy then s
  else if 0x20 ≤ o ∧ o < 0x34 then
    s.plain (timeB + o) ((List.range 8).foldl (fun w k => keepCi (s.reg (timeB + o)) w (4 * k)) v)
  else if 0x100 ≤ o ∧ o < 0x340 then
    let n := (o - 0x100) / 0x40
    match (o - 0x100) % 0x40 with
    | 0x10 => s.incrLoWrite n v
    | 0x14 => s.incrHiWrite n v
    | 0x1C => s.slewWrite n v
    | 0x30 => s.stepCtlWrite n v
    | 0x34 => s.refWrite n v
    | 0x38 => s.ofsWrite n v
    | _ => s.plain (timeB + o) v
  else s.plain (timeB + o) v

/-- A write of TIO_PPSOk_CFG (R105): a stopped output goes to its inactive level unless a pulse is committed. -/
def State.ppsoCfgWrite (s : State) (k : Nat) (v : Word) : State :=
  let a := ppsoR k 0
  let was := s.bit a 0
  let s := s.plain a (keepCi (s.reg a) v 1)
  if !(s.ppso k).edges.isEmpty ∨ (s.ppso k).open_.isSome then s
  else if was = s.bit a 0 then s
  else s.driveOut (24 + k) (s.outLevel (24 + k) false)

/-- A write of TIO_PPSIk_CFG: INV clears INVERTED (R109), and the first edge after enable only opens an interval (R103). -/
def State.ppsiCfgWrite (s : State) (k : Nat) (v : Word) : State :=
  let was := s.bit (ppsiR k 0) 0
  let s := (s.plain (ppsiR k 0) v).setBit (ppsiR k 4) 1 false
  if was then s else s.setEvIn (16 + k) { s.evIn (16 + k) with last := none }

/-- A write of TIO_CLKOj_CFG (R106): the clock runs while EN is 1 and the outputs are not forced. -/
def State.clkoCfgWrite (s : State) (j : Nat) (v : Word) : State :=
  let a := clkoR j 0
  let s := s.plain a (keepCi (s.reg a) v 1)
  if s.bit a 0 && !s.bit (tioB + 4) 0 then (if (s.clko j).on then s else s.clkoStart j) else s.clkoStop j

/-- A write that clears the last TIO_LCALl_MON.OVER clears TS_CAL_DRIFT with it (R93; log entry 103). -/
def State.lcalMonWrite (s : State) (l : Nat) (v : Word) : State :=
  let a := lcalR l 8
  let t := s.w1c a 0x10000 v
  if s.bit a 16 ∧ (List.range 35).all (fun k => !t.bit (lcalR k 8) 16) then t.setPend Src.tsCalDrift false else t

def State.wrTio (s : State) (o : Nat) (v : Word) : State :=
  if o = 0 then (if getField v 0 1 = 1 then s.tioResume else s)
  else if 0x100 ≤ o ∧ o < 0x280 then
    let n := (o - 0x100) / 0x10
    match (o - 0x100) % 0x10 with
    | 0 => s.trigCfgWrite n v
    | 8 => s.w1c (tioB + o) 0x780 v
    | 0xC => s.diagClear n v
    | _ => s.plain (tioB + o) v
  else if 0x300 ≤ o ∧ o < 0x340 then
    match (o - 0x300) % 0x10 with
    | 0 => s.ppsoCfgWrite ((o - 0x300) / 0x10) v
    | 8 => s.diagClear (24 + (o - 0x300) / 0x10) v
    | _ => s.plain (tioB + o) v
  else if o = 0x380 ∨ o = 0x390 then s.clkoCfgWrite ((o - 0x380) / 0x10) v
  else if 0x400 ≤ o ∧ o < 0x440 then
    match (o - 0x400) % 0x20 with
    | 0 => s.ppsiCfgWrite ((o - 0x400) / 0x20) v
    | 4 => s.w1c (tioB + o) 4 v
    | _ => s.plain (tioB + o) v
  else if 0x500 ≤ o ∧ o < 0x600 then
    match (o - 0x500) % 0x10 with
    | 0 => (s.plain (tioB + o) (keepCi (s.reg (tioB + o)) v 3)).setBit (tioB + o + 8) 0 false
    | 8 => s.w1c (tioB + o) 2 v
    | _ => s.plain (tioB + o) v
  else if 0x800 ≤ o ∧ o < 0xA30 then (if o % 0x10 = 8 then s.lcalMonWrite ((o - 0x800) / 0x10) v else s)
  else if 0x4000 ≤ o ∧ o < 0x10000 then s.schedWrite ((o - 0x4000) / 0x800) ((o - 0x4000) / 0x20 % 64) (o / 4 % 8) v
  else s.plain (tioB + o) v

def State.wrEgr (s : State) (o : Nat) (v : Word) : State :=
  if 0x1000 ≤ o ∧ o < 0x1000 + 34 * 0x40 then
    let q := (o - 0x1000) / 0x40
    match o % 0x40 with
    | 8 => s.pshapeWrite q v
    | 0xC => s.gclWrite q v
    | _ => s.plain (egrB + o) v
  else if 0x2000 ≤ o ∧ o < 0x2000 + 34 * 0x100 then
    let q := (o - 0x2000) / 0x100
    let c := o / 0x20 % 8
    match o % 0x20 with
    | 0 => s.qcfgWrite q c v
    | 8 => s.qshapeWrite q c v
    | 0x14 => if getField v 0 1 = 1 then s.flushQueue q c else s
    | _ => s.plain (egrB + o) v
  else if 0x80000 ≤ o then s.gateWrite ((o - 0x80000) / 0x4000) (o / 0x2000 % 2) (o / 8 % 1024) (o / 4 % 2) v
  else s.plain (egrB + o) v

def State.wrPool (s : State) (r : Requester) (o : Nat) (v : Word) : State :=
  if o < 0xA0 ∧ o % 0x20 = 0x18 then s.poolMinWrite (o / 0x20) v
  else if o = 0x100 then s.poolPutWrite r v
  else if 0x124 ≤ o ∧ o < 0x14C ∧ (o - 0x124) % 8 = 0 then s.poolGiveWrite r ((o - 0x124) / 8) v
  else if o = 0x180 then s.auditSel v
  else s.plain (poolB + o) v

/-- A write of REW_CTL: EN, then FREEZE, RESUME, DRAIN and ABORT (R251–R253). A freeze written by a session is the host's. -/
def State.rewCtlWrite (s : State) (r : Requester) (v : Word) : State :=
  let kind := match r with
    | .session _ => 1
    | _ => 0
  let s := if getField v 0 1 = 1 ∧ !s.bit rewB 0 then s.rewEnable else if getField v 0 1 = 0 ∧ s.bit rewB 0 then s.rewDisable else s
  let s := if getField v 1 1 = 1 then s.rewTrigger kind 0 else s
  let s := if getField v 2 1 = 1 then s.rewResume.2 else s
  let s := if getField v 3 1 = 1 then s.drainRegs else s
  if getField v 4 1 = 1 then s.drainAbort.2 else s

/-- A write of the REW block: the drain's registers are not written while it drains (R258). -/
def State.wrRew (s : State) (r : Requester) (o : Nat) (v : Word) : State :=
  if o = 0 then s.rewCtlWrite r v
  else if (o = 0x40 ∨ o = 0x58 ∨ (0x60 ≤ o ∧ o ≤ 0x6C)) ∧ s.rewState = 4 then s
  else s.plain (rewB + o) v

def State.wrTask (s : State) (r : Requester) (o : Nat) (v : Word) : State :=
  let t := getField v 0 10
  match o with
  | 8 => s.taskPost t
  | 0xC => s.taskReturn r t false
  | 0x10 => s.taskReturn r t true
  | 0x14 => s.taskDone r t
  | 0x18 => s.taskFree t
  | _ => if 0x1000 ≤ o ∧ o < 0x3000 ∧ o % 8 = 0 then s.slotCfgWrite ((o - 0x1000) / 8) v else s.plain (taskB + o) v

def State.wrDma (s : State) (o : Nat) (v : Word) : State :=
  if 0x1000 ≤ o ∧ o < 0x2000 then
    let k := (o - 0x1000) / 0x40
    match o % 0x40 with
    | 0 => s.dmaCfgWrite k v
    | 4 => s.dmaCtlWrite k v
    | 0xC => s.dmaBaseWrite k 0xC v
    | 0x28 => s.dmaBaseWrite k 0x28 v
    | 0x18 => s.dmaKick k
    | 0x1C => s.dmaSeen k v
    | _ => s.plain (dmaB + o) v
  else s.plain (dmaB + o) v

/-- A write of PARSE_LIM_x: the bucket goes on from what it holds under the old RATE and BURST. -/
def State.missWrite (s : State) (isParse : Bool) (v : Word) : State :=
  (s.setMiss isParse (s.missBucket isParse)).plain (missR isParse) v

/-- A write of the control-space word at `a`, a multiple of 4, by requester `r` (R10). -/
def State.regWrite (s : State) (r : Requester) (a : Nat) (v : Word) : State :=
  let o := a % 0x100000
  match (a - block 0) / 0x100000 with
  | 0 => if o = 8 ∧ v = 0x52534554#32 then s.moduleReset 2 else s
  | 2 => if o = 0xC then s.pwrCtlWrite v else if o = 0x10 then s.holdupStart v else s.plain a v
  | 3 => if o = 0x100 then s.pinCommitWrite v else if o = 0x104 then s.gpoWrite v else s.plain a v
  | 4 => s.wrTime o v
  | 5 => s.wrTio o v
  | 8 => if 0x800 ≤ o ∧ o < 0x880 ∧ o % 0x10 = 0 then s.rawCfgWrite ((o - 0x800) / 0x10) v
      else if o = 8 ∨ o = 0xC then s.missWrite (o == 0xC) v else s.plain a v
  | 9 => if o = 0 then s.tenseWrite v else if o = 0x10 then s.clauseCtl v else s.plain a v
  | 10 => if o = 0 then s.ageWrite v else if o = 0x30 then s.fwdCtlWrite v
      else if 0x100 ≤ o ∧ o < 0x210 ∧ o % 8 = 0 then s.fwdPortWrite ((o - 0x100) / 8) v else s.plain a v
  | 11 => if 0x100 ≤ o ∧ o < 0x300 ∧ o % 0x20 = 8 then s.monWrite ((o - 0x100) / 0x20) v else s.plain a v
  | 12 => s.wrEgr o v
  | 13 => s.wrPool r o v
  | 15 => if o = 8 then s.freqWrite v else if o = 0x28 then s.retireWrite v else s.plain a v
  | 16 => s.wrRew r o v
  | 17 => if 0x40 ≤ o ∧ o < 0x50 then s.wdogWrite ((o - 0x40) / 4) v else s.plain a v
  | 18 => if o = 8 then s.iotlbWrite v else s.plain a v
  | 19 => s.wrTask r o v
  | 20 => if o = 0x18 then s.lockBreakWrite v else s.plain a v
  | 21 => s.wrDma o v
  | 22 => if o = 0 then s.fltCtlWrite v else if 0x100 ≤ o ∧ o < 0x120 then s.pendWrite ((o - 0x100) / 4) v else s.plain a v
  | 25 => if o = 4 then s.cbusWrite v else if o = 0x44 ∨ o = 0x54 then s.mdioWrite ((o - 0x44) / 0x10) v else s.plain a v
  | _ => s.plain a v

/-- A write by a requester: an access off its natural word, or outside control space, is an access error with no effect (R7). -/
def State.busWrite (s : State) (r : Requester) (a : Nat) (v : Word) : State :=
  if a % 4 ≠ 0 ∨ !inControl a then { s with resp := .error } else (s.regWrite r a v).answerWrite

/-! ### Reads -/

/-- A _LO register whose read latches its _HI register, and a _HI register (Table 1.14, R258). -/
def isPairLo (a : Nat) : Bool :=
  [stnB + 0x10, stnB + 0x18, rewB + 0x10, rewB + 0x20, rewB + 0x60, rewB + 0x68].contains a

/-- CLAUSE_DRAIN.COUNT: the coaches in the pipeline that bear the oldest tense. -/
def State.drainCount (s : State) : Nat := (s.coachList.filter (fun e => e.2.inStations && e.2.tense == s.oldest)).length

/-- A read of the control-space word at `a`, a multiple of 4, with its side effects; the value is the response (R10). -/
def State.regRead (s : State) (r : Requester) (a : Nat) : State :=
  let o := a % 0x100000
  if isPairLo a then s.latchHi a (a + 4)
  else if isPairLo (a - 4) then s.readHi a
  else match (a - block 0) / 0x100000 with
  | 0 => s.answerRead (if o = 0 then (s.reg a).toNat % 65536 + s.store.step * 65536 else (s.reg a).toNat)
  | 1 => s.answerRead (if o = 4 ∧ s.dphyUnlocked then (putField (s.reg a) 4 1 0).toNat else (s.reg a).toNat)
  | 4 =>
    if o = 0xA4 then s.popTxts
    else if 0x100 ≤ o ∧ o < 0x340 ∧ (o - 0x100) % 0x40 < 0x10 then
      let n := (o - 0x100) / 0x40
      if (o - 0x100) % 0x40 = 0 then s.secHiRead n else s.answerRead (s.latchWord n (o % 0x40))
    else s.answerRead (s.reg a).toNat
  | 5 =>
    if o = 0x14 then s.popStamp
    else if 0x408 ≤ o ∧ o < 0x440 ∧ 8 ≤ o % 0x20 ∧ o % 0x20 ≤ 0x14 then
      let k := (o - 0x400) / 0x20
      if o % 0x20 = 8 then s.ppsiRead k else s.answerRead (s.ppsiWord k (o % 0x20))
    else s.answerRead (s.reg a).toNat
  | 6 => s.answerRead (if o < 0x220 ∧ o % 0x10 = 4
      then (putField (s.reg a) 16 8 (satur 8 (s.recentLosses (o / 0x10)).length)).toNat else (s.reg a).toNat)
  | 9 => s.answerRead (if o = 4 then (putField (s.reg a) 4 13 (satur 13 s.drainCount)).toNat else (s.reg a).toNat)
  | 11 => s.answerRead (if 0x400 ≤ o ∧ o < 0x800 ∧ o % 0x40 = 4
      then (putField (s.reg a) 0 9 (satur 9 ((s.stationCoaches ((o - 0x400) / 0x40)).filter (fun e => e.2.isWaiting)).length)).toNat
      else (s.reg a).toNat)
  | 13 => if o < 0xA0 ∧ o % 0x20 = 0x14 then s.poolGetRead r (o / 0x20) else s.answerRead (s.reg a).toNat
  | 17 => if o < 0x20 ∧ o % 8 = 0 then s.answerRead (s.irqPend (o / 8)) else s.answerRead (s.reg a).toNat
  | 19 => match o with
    | 0 => s.taskAlloc
    | 4 => s.taskTake r
    | _ => s.answerRead (s.reg a).toNat
  | _ => s.answerRead (s.reg a).toNat

/-- A read by a requester; a control core has then seen the register (R293; log entry 13). -/
def State.busRead (s : State) (r : Requester) (a : Nat) : State :=
  if a % 4 ≠ 0 ∨ !inControl a then { s with resp := .error }
  else
    let s := match r with
      | .hart (.ctl _) => s.markSeen a
      | _ => s
    s.regRead r a

/-- The value of the last read, 0 where it was an error. -/
def State.got (s : State) : Nat := match s.resp with
  | .ok v => v
  | _ => 0

/-- REGISTER_WRITE (R10): requester `r` writes `v` to the control-space word at `a`. -/
def execRegisterWrite (r : Requester) (a : BitVec 40) (v : Word) (s : State) : Host.Outcome State Fault Refusal :=
  .next (s.busWrite r a.toNat v)

end Sys2Proof.Machine
end

