-- ==== Sys2Proof/Machine/Image.lean ====
section
/-!
DEFINITION. Machine/Image.lean: the configuration image as bytes (R337–R344): header, section table, setting lists, the timetable and
its load checks (R16–R23, Table 1.8).
-/
namespace Sys2Proof.Machine

/-! ### Header and digest (R338–R340, R348) -/

/-- A byte of a NOR slot; an erased one reads 0xFF. -/
def State.norByte (s : State) (slot i : Nat) : Byte := aget (fun _ => 0xFF#8) (if slot = 0 then s.store.norA else s.store.norB) i

def State.norBytes (s : State) (slot i n : Nat) : List Byte := (List.range n).map (fun j => s.norByte slot (i + j))

def imageLen (h : List Byte) : Nat := le h 8 4
def imageSeq (h : List Byte) : Nat := le h 12 4
def imageKey (h : List Byte) : Nat := le h 24 1

/-- Whether key slot k is fused and could be read. -/
def State.keyFused (s : State) (k : Nat) : Bool := s.boot.otpOk && decide (k < 4) && !(aget (fun _ => []) s.store.otpKeys k).isEmpty

/-- What the header of a slot shows: STATE and REASON of BOOT_SLOTs (R348, Table 15.3). -/
def State.headerJudge (s : State) (slot : Nat) (h : List Byte) : Nat × Nat :=
  if bitAt s.boot.norFail slot then (2, 7)
  else if h.all (· == 0xFF#8) then (0, 1)
  else if le h 0 4 ≠ 0x534C5931 ∨ le h 4 2 ≠ 1 ∨ imageSeq h = 0 ∨ imageSeq h = 0xFFFFFFFF ∨ imageLen h % 256 ≠ 0
      ∨ imageLen h < 512 ∨ 62 * 1048576 < imageLen h then (2, 2)
  else if !s.keyFused (imageKey h) then (2, 3)
  else (1, 0)

/-- The digest of an image (R340). -/
def imageDigest (img : List Byte) : List Byte := sha256 (img.take 32 ++ img.drop 128)

/-! ### Sections (R341) -/

structure Sect where
  type     : Nat
  optional : Bool
  offset   : Nat
  length   : Nat
  crc      : Nat
  deriving DecidableEq, Repr

def sectionCount (img : List Byte) : Nat := le img 16 2
def sectionTable (img : List Byte) : Nat := le img 20 4

def sectionsOf (img : List Byte) : List Sect :=
  (List.range (sectionCount img)).map (fun i =>
    let a := sectionTable img + 16 * i
    ⟨le img a 1, le img (a + 1) 1 % 2 == 1, le img (a + 4) 4, le img (a + 8) 4, le img (a + 12) 4⟩)

/-- The types of Table 15.4, and those an image must have. -/
def knownType (t : Nat) : Bool := decide (1 ≤ t) && decide (t ≤ 15)
def requiredTypes : List Nat := [1, 3, 8, 9, 0xB, 0xE]

def overlaps (a n b m : Nat) : Bool := decide (a < b + m) && decide (b < a + n)

/-- The table is malformed, names an unknown type that is not optional, or a section's CRC differs (R341). -/
def sectionsBad (img : List Byte) : Bool :=
  let n := sectionCount img
  let t := sectionTable img
  let l := sectionsOf img
  decide (n = 0 ∨ 64 < n ∨ t % 16 ≠ 0 ∨ t < 256 ∨ imageLen img < t + 16 * n)
    || l.any (fun x => decide (x.offset % 256 ≠ 0 ∨ x.offset < 256 ∨ imageLen img < x.offset + x.length) || overlaps x.offset x.length t (16 * n)
        || (!knownType x.type && !x.optional))
    || (l.zip (l.drop 1)).any (fun p => decide (p.2.offset ≤ p.1.offset ∨ p.2.offset < p.1.offset + p.1.length))
    || l.any (fun x => decide (1 < (l.filter (fun y => y.type == x.type)).length))
    || requiredTypes.any (fun r => !l.any (fun x => x.type == r))
    || l.any (fun x => knownType x.type && crc32c (slice img x.offset x.length) != x.crc)

/-- The bytes of the section of a type. -/
def sectionOf (img : List Byte) (t : Nat) : Option (List Byte) :=
  ((sectionsOf img).find? (fun x => x.type == t)).map (fun x => slice img x.offset x.length)

/-- Why an image may not be applied: a reason of Table 15.3, or none (R338, R340, R341). -/
def State.imageFault (s : State) (slot : Nat) (img : List Byte) : Option Nat :=
  if bitAt s.boot.norFail slot then some 7
  else if sectionsBad img then some 6
  else if imageDigest img ≠ slice img 32 32 then some 4
  else if !s.keyFused (imageKey img) ∨ sha256 (slice img 128 64) ≠ aget (fun _ => []) s.store.otpKeys (imageKey img) then some 3
  else if !ecdsaVerify (slice img 128 32) (slice img 160 32) (slice img 64 32) (slice img 96 32) (slice img 32 32) then some 5
  else none

/-! ### Setting lists (R342) -/

/-- The blocks a section's setting list may name (Table 15.4). -/
def sectionBlocks (t : Nat) : List Nat := match t with
  | 1 => [11] | 3 => [7, 6, 4, 5] | 4 => [4] | 5 => [5] | 6 => [9, 8] | 7 => [10] | 8 => [13, 14, 16, 15] | 9 => [12] | 0xA => [22]
  | 0xB => [23] | 0xD => [3, 25, 1, 2] | 0xF => [5, 4] | _ => []

/-- The entries of a setting list as address, value and mask, and the body after it; none where the list is cut short. -/
def settingList (b : List Byte) : Option (List (Nat × Nat × Nat) × List Byte) :=
  let n := le b 0 4
  if b.length < 4 + 12 * n then none
  else some ((List.range n).map (fun i => (0x40000000 + le b (4 + 12 * i) 4, le b (8 + 12 * i) 4, le b (12 + 12 * i) 4)), b.drop (4 + 12 * n))

/-- An entry that fails load check FORMAT. -/
def settingBad (t : Nat) (e : Nat × Nat × Nat) : Bool :=
  e.1 % 4 != 0 || !(sectionBlocks t).contains ((e.1 - block 0) / 0x100000) || e.2.2 &&& (imageMask e.1 ^^^ allBits) != 0

def State.setting (s : State) (e : Nat × Nat × Nat) : State := s.setReg e.1 (mixBits (s.reg e.1) e.2.2 (BitVec.ofNat 32 e.2.1))

def State.settings (s : State) (l : List (Nat × Nat × Nat)) : State := l.foldl State.setting s

/-! ### The timetable (R343, Table 15.5) -/

def stationAt (b : List Byte) (n : Nat) : TtStation :=
  let a := 64 + n * 64
  { w := le b a 2, l := le b (a + 2) 2, d := le b (a + 4) 2, sn := le b (a + 6) 1, ndisp := le b (a + 7) 1,
    legEntry := le b (a + 8) 2, supEntry := le b (a + 10) 2,
    code := slice b (le b (a + 12) 4) (le b (a + 16) 4), data := slice b (le b (a + 20) 4) (le b (a + 24) 4),
    linkLo := le b (a + 28) 4, linkHi := le b (a + 32) 4 }

def wheelAt (b : List Byte) (w : Nat) : Wheel :=
  let a := le b 20 4 + w * 16
  let n := 2 ^ min 20 (le b (a + 3) 1)
  let k := le b a 1
  let p := le b (a + 4) 4
  { kind := k, inst := le b (a + 1) 1, freq := le b (a + 2) 1,
    pos := (List.range n).map (fun i => if k = 0 then le b (p + 2 * i) 2 else le b (p + i) 1) }

def timetableOf (b : List Byte) : Timetable :=
  { id := le b 4 4, rate := le b 8 4, resRate := le b 12 4, compat := le b 24 4, portMask := le b 28 8, planCrc := le b 36 4,
    stations := (List.range 16).map (stationAt b), wheels := (List.range (le b 18 2)).map (wheelAt b) }

/-- The wheels a timetable holds, each exactly once: kind, instance, frequency. -/
def wheelKeys : List (Nat × Nat × Nat) :=
  (List.range 16).map (fun n => (0, n, 0)) ++ (List.range 5).map (fun e => (1, e, 0)) ++ (List.range 16).map (fun g => (2, g, 0))
    ++ (List.range 48).map (fun i => (3, i / 3, i % 3))

def Wheel.key (w : Wheel) : Nat × Nat × Nat := (w.kind, w.inst, if w.kind = 3 then w.freq else 0)

/-- Load check FORMAT of the body: code, data and wheels within the section, 16 stations, every wheel once (R343). -/
def ttFormatBad (b : List Byte) : Bool :=
  let within := fun (o n : Nat) => decide (o + n ≤ b.length)
  let nw := le b 18 2
  decide (b.length < 1088 ∨ le b 0 4 ≠ 1 ∨ le b 16 2 ≠ 16) || !within (le b 20 4) (16 * nw)
    || (List.range 16).any (fun n =>
      let a := 64 + n * 64
      !within (le b (a + 12) 4) (le b (a + 16) 4) || !within (le b (a + 20) 4) (le b (a + 24) 4) || le b (a + 7) 1 == 0 || decide (7 < le b (a + 7) 1))
    || (List.range nw).any (fun w =>
      let a := le b 20 4 + w * 16
      !within (le b (a + 4) 4) (2 ^ le b (a + 3) 1 * (if le b a 1 = 0 then 2 else 1)))
    || (let l := (List.range nw).map (fun w => (wheelAt b w).key)
        wheelKeys.any (fun k => decide ((l.filter (· == k)).length ≠ 1)) || l.any (fun k => !wheelKeys.contains k))

/-! ### Load checks (Table 1.8) -/

/-- P and P_res in packets/s; B and B8 (R17). -/
def Timetable.p (t : Timetable) : Nat := t.rate * 4096
def Timetable.pRes (t : Timetable) : Nat := t.resRate * 4096
def Timetable.budget (t : Timetable) : Nat := min (76800000000 / t.p) 4095
def Timetable.budget8 (t : Timetable) : Nat := min (204800000000 / (3 * t.p)) 4095
def Timetable.station (t : Timetable) (n : Nat) : TtStation := t.stations.getD n {}

/-- Positions of a wheel with an owner code. -/
def Wheel.share (w : Wheel) (o : Nat) : Nat := (w.pos.filter (· == o)).length

/-- Ingress searches that a port makes (R182). -/
def State.ingressSearches (s : State) (p : Nat) : Nat :=
  let skind := s.fld (fwdB + 0x100 + 8 * p) 2 3
  (if s.bit (parseB + 0x100 + 4 * p) 5 then 1 else 0) + (if 1 ≤ skind ∧ skind ≤ 4 then 1 else 0)

/-- The distances around a wheel from each position satisfying `q` to the next. -/
def gaps (q : Nat → Bool) (l : List Nat) : List Nat :=
  let at_ := (l.zipIdx.filter (fun e => q e.1)).map (·.2)
  match at_ with
  | [] => []
  | a :: _ => (at_.zip (at_.drop 1 ++ [a + l.length])).map (fun e => e.2 - e.1)

/-- Load check SEARCH, with the further cases of R182: the failing station. -/
def State.searchBad (s : State) (t : Timetable) : Option Nat :=
  let engines := t.wheels.filter (fun w => w.kind == 1)
  let few := fun (n : Nat) => engines.any (fun w => decide (w.share (0x80 + n) * 12800000000 < (t.station n).sn * t.p * 12 * w.pos.length))
  let s0 := (List.range 34).any (fun p => decide ((t.station 0).sn < s.ingressSearches p))
    || (engines.filter (fun w => w.inst == 0)).any (fun w => (gaps (· == 0x80) w.pos).any (fun d => decide (64 < d)))
  match (List.range 16).find? few with
  | some n => some n
  | none => if s0 then some 0 else none

/-- Load check WHEEL_LEN (R16, Table 1.2): the lengths are powers of two as they are read, and a wheel read short of a LOG2_LEN above
    20 is too long for any kind. -/
def Wheel.lenBad (w : Wheel) : Bool :=
  let (lo, hi) := [(16, 1024), (256, 65536), (64, 4096), (1024, 16384)].getD w.kind (1, 0)
  decide (w.pos.length < lo) || decide (hi < w.pos.length)

/-- Load check WHEEL_OWNER: a code that its wheel's kind does not permit, or a port absent from the plan (R343). -/
def Wheel.ownerBad (w : Wheel) (mask : Nat) : Bool :=
  let port := fun (p : Nat) => decide (p < 34) && bitAt mask p
  w.pos.any (fun o => match w.kind with
    | 0 => false
    | 1 => !((0x80 ≤ o && o < 0x90) || o == 0xC2 || o == 0xC3 || o == 0xFF)
    | 2 => !((o < 0x40 && port o) || (0x40 ≤ o && o < 0x80 && port (o - 0x40)) || (0x80 ≤ o && o < 0x90) || o == 0xC0 || o == 0xC1 || o == 0xFF)
    | _ => !([0xC0, 0xC1, 0xD0, 0xD1, 0xD2, 0xFF].contains o))

/-- Load check REFRESH of a DRAM wheel (R263, Table 11.1). -/
def Wheel.refreshBad (w : Wheel) : Bool :=
  let n := w.pos.length
  let at_ := fun (i : Nat) => w.pos.getD (i % n) 0xFF
  let run := [300, 152, 76].getD w.freq 0
  let starts := (List.range n).filter (fun i => at_ i == 0xD0 && at_ (i + n - 1) != 0xD0)
  let rt := fun (i : Nat) => (List.range 4).all (fun j => at_ (i + j) == 0xD1)
  let hasRt := (List.range (n / 4)).any (fun k => rt (4 * k))
  starts.isEmpty
    || starts.any (fun i => !(List.range run).all (fun j => at_ (i + j) == 0xD0) || at_ (i + run) == 0xD0
        || (hasRt && !rt ((i + run + 3) / 4 * 4)))
    || (starts.zip (starts.drop 1 ++ [starts.headD 0 + n])).any (fun e => decide ([2083, 1041, 520].getD w.freq 0 < e.2 - e.1))

/-- Load check YARD: a bank slot moves one 32-byte word of each of the 12 banks of its group (R235); a port needs its line rate in and
    out (log entry 23). -/
def yardBad (t : Timetable) (p rate : Nat) : Bool :=
  let enough := fun (o : Nat) =>
    let l := t.wheels.filter (fun w => w.kind == 2)
    decide (rate * 1000000000 * 4096 ≤ 8 * (l.map (fun w => w.share o * 12 * 32 * 1600000000 * (4096 / w.pos.length))).sum)
  !(enough p && enough (0x40 + p))

/-- Load check DEGRADED (R23). -/
def State.degradedBad (s : State) (t : Timetable) (n : Nat) : Bool :=
  let w := (t.station n).w
  let deg := ((List.range 34).map (fun p => s.fld (admitR p 4) 0 20 * 4096)).sum
  !(decide (t.pRes * w * 3 ≤ 204800000000) && (decide (w ≤ t.budget8) || decide ((t.pRes + deg) * w * 3 ≤ 204800000000)))

/-- A rate that its lanes reach (Tables 0.1, 4.1). -/
def reachable : List (Nat × Nat) :=
  [(10, 1), (25, 1), (50, 2), (100, 4), (50, 1), (100, 2), (200, 4), (400, 8), (100, 1), (200, 2), (400, 4), (800, 8)]

def planPresent (r : List Byte) : Bool := le r 0 1 % 2 == 1
def planRaw (r : List Byte) : Bool := bitsOf (le r 0 1) 1 1 == 1
def planLanes (r : List Byte) : Nat := le r 1 1
def planRate (r : List Byte) : Nat := le r 2 2

/-- Load check PORTS (R344). -/
def portsBad (t : Timetable) (l : List (List Byte)) : Bool :=
  let rec_ := fun (p : Nat) => l.getD p []
  let line := (List.range 32).filter (fun p => planPresent (rec_ p))
  (List.range 34).any (fun p => planPresent (rec_ p) != bitAt t.portMask p)
    || decide (t.portMask / 2 ^ 34 ≠ 0)
    || crc32c (l.flatMap (fun r => slice r 0 8)) != t.planCrc
    || line.any (fun p =>
      let n := planLanes (rec_ p)
      !([1, 2, 4, 8].contains n) || decide (p % max 1 n ≠ 0)
        || line.any (fun q => decide (p < q ∧ q < p + n))
        || (if planRaw (rec_ p) then decide (p < 24 ∨ n ≠ 1 ∨ 112 < planRate (rec_ p)) else !reachable.contains (planRate (rec_ p), n)))

/-- The checks of Table 1.8 in order, the first that fails with its station; `misplaced` is the station that PLACEMENT fails for, 0 where
    it is none's. A RATE outside the range of Table 1.1 fails under RATE, though Table 1.8 names only 0 there (log entry 184). -/
def State.loadCheck (s : State) (b : List Byte) (t : Timetable) (misplaced : Option Nat) : Option (Nat × Nat) :=
  let stn := fun (code : Nat) (p : Nat → TtStation → Bool) => ((List.range 16).find? (fun n => p n (t.station n))).map (fun n => (code, n))
  let all := fun (code : Nat) (bad : Bool) => if bad then some (code, 0) else none
  let rates := ((List.range 34).map (fun p => s.fld (admitR p 0) 0 20)).sum
  let bursts := ((List.range 34).map (fun p => s.fld (admitR p 0) 20 12)).sum
  let a := 64
  [all 1 (ttFormatBad b),
   all 2 (decide (t.rate = 0 ∨ 2097151 < t.rate ∨ t.rate < rates ∨ t.rate < t.resRate)),
   stn 3 (fun _ x => decide (x.w = 0 ∨ t.budget < x.w)),
   stn 4 (fun _ x => decide (x.l < 24 ∨ 4096 < x.l ∨ x.l < x.d + (x.w + 1) / 2)),
   stn 5 (fun _ x => decide (256 * 12800000000 < x.l * t.p * 6 + bursts * 12800000000)),
   (s.searchBad t).map (fun n => (6, n)),
   all 7 (t.wheels.any Wheel.lenBad),
   all 8 (t.wheels.any (fun w => w.ownerBad t.portMask)),
   all 9 ((t.wheels.filter (fun w => w.kind == 3)).any Wheel.refreshBad),
   all 10 ((List.range 32).any (fun p => bitAt t.portMask p && yardBad t p (planRate (s.image.ports.getD p [])))),
   stn 11 (fun n _ => decide (32768 < le b (a + n * 64 + 16) 4 ∨ 131072 < le b (a + n * 64 + 24) 4)),
   stn 12 (fun n _ => s.degradedBad t n),
   misplaced.map (fun n => (13, n)),
   all 14 (portsBad t s.image.ports)].findSome? id

end Sys2Proof.Machine
end

