-- ==== Sys2Proof/Machine/Boot.lean ====
section
/-!
DEFINITION. Machine/Boot.lean: the start sequence (R348–R353, Table 15.7): BIST, the choice of a slot, the application of the sections,
placement, packet path start, and the epoch boundary (R15, R24, R25, R35).
-/
namespace Sys2Proof.Machine

/-! ### BIST (R273, R275, R369, R372, R381, R396) -/

/-- Channel x is left out: 15-channel mapping (R275). -/
def State.dramOut (s : State) (x st : Nat) : State :=
  let a := smcB + 4
  let s := (((s.setFld a 0 5 15).setFld a 5 4 x).setBit a 9 true).setFld (smcCh x) 0 3 st
  ({ s with smc := { s.smc with lost := x :: s.smc.lost } } : State).unitState (unitId 8 x) 6

/-- DRAM training: a channel retired before, or else one that fails, is left out; a second one is not (R274, R275). -/
def State.trainDram (s : State) (untrained : List Nat) : State :=
  let s := s.loadSet 0 0
  let old := (List.range 16).filter (fun ch => s.flt.retired.contains (unitId 8 ch))
  let s := match old with
    | x :: _ => s.dramOut x 4
    | [] => s
  (untrained.filter (fun x => !old.contains x)).foldl (fun s x =>
    let s := s.raiseU Src.dramTrain [] (unitId 8 x)
    if s.retiredCh.isSome then (s.setFld (smcCh x) 0 3 6).raiseU Src.dramRetire [] (unitId 8 x)
    else (s.dramOut x 6).retirePart (unitId 8 x) Src.dramTrain) s

/-- The pin of a flagged row is released (R369). -/
def unpinRow (ch bank row : Nat) (r : List Byte) : List Byte :=
  if pinnedRec r && le r 4 2 == Src.dramPpr && le r 20 4 == ch && le r 24 4 == bank && le r 28 4 == row then
    let b := (patch r 6 [BitVec.ofNat 8 (withoutBit (le r 6 1) 4)]).take 60
    b ++ bytesLE 4 (crc32c b)
  else r

/-- Row repairs, one row per bank; `ok` tells the outcome of each in turn (R273). -/
def State.repairRows (s : State) (ok : List Bool) : State :=
  s.flt.pprRows.zipIdx.foldl (fun s e =>
    let ((ch, bank, row), i) := e
    if s.store.ppr.contains (ch, bank) then s
    else if !ok.getD i true then s.raiseU Src.dramPpr [ch, bank, row, 1] (unitId 8 ch)
    else
      let s : State := { s with store := { s.store with ppr := (ch, bank) :: s.store.ppr } }
      let s := (s.count (smcB + 0x24) 5 8).raiseU Src.dramPpr [ch, bank, row, 0] (unitId 8 ch)
      let s : State := { s with flt := { s.flt with mram := amap (fun _ => []) (unpinRow ch bank row) s.flt.mram,
                                                    pprRows := s.flt.pprRows.filter (fun x => x != (ch, bank, row)) } }
      s.setFld jour 17 10 (s.pins - 1)) s

/-- The MRAM is read: the journal runs, and what it keeps across power cycles is restored (R357, R369, R381). -/
def State.journalStart (s : State) : State :=
  let recs := s.flt.mram.map (·.2)
  let pins := recs.filter pinnedRec
  let retired := (pins.filter (fun r => le r 4 2 == 0x102)).map (fun r => le r 36 2)
  let rows := (pins.filter (fun r => le r 4 2 == Src.dramPpr)).map (fun r => (le r 20 4, le r 24 4, le r 28 4))
  let s : State := { s with flt := { s.flt with writerOn := true, boots := s.flt.boots + 1, retired := retired, pprRows := rows } }
  let s := (s.setFld jour 0 16 recs.length).setFld jour 17 10 pins.length
  match s.newestAvail with
  | some r =>
    let up := fun (s : State) (a v : Nat) => s.setReg a (BitVec.ofNat 32 (max (s.reg a).toNat v))
    up (up s (fltB + 0x94) (le r 20 4)) (fltB + 0x98) (le r 24 4)
  | none => s

/-- The carrier EEPROM: code and CRC (R396). -/
def State.carrierCode (s : State) (e : BusEnd) : State := match e with
  | .ok l =>
    let good := crc32c (slice l 0 4) == le l 4 4
    let s := if good then s.setReg (cbusB + 0x18) (BitVec.ofNat 32 (le l 0 4)) else s
    { s with boot := { s.boot with carrierRead := good } }
  | .nack => s.raise Src.carrierNack
  | .stuck => (s.setBit cbusCmd 28 true).raise Src.carrierStuck

/-- The OTP: fused keys, and the recovery key (R340, R349). -/
def State.readOtp (s : State) (ok : Bool) : State :=
  let s : State := { s with boot := { s.boot with otpOk := ok } }
  if ok then
    let s := (List.range 4).foldl (fun s k => s.setBit (bootB + 0x1C) k (s.keyFused k)) s
    s.setBit (bootB + 0x1C) 8 s.store.recoveryKey.isSome
  else s.raise Src.otpRead

/-- BIST ends (Table 15.7). -/
def State.bist (s : State) (r : Bist) : State :=
  if s.fld bootB 0 4 ≠ 1 ∨ s.boot.resetHeld then s
  else
    let s := (s.journalStart.readOtp r.otpOk).carrierCode r.eeprom
    let s : State := { s with boot := { s.boot with failed := r.failed.map BitVec.toNat } }
    let s := (s.trainDram (r.untrained.map (·.val))).repairRows r.repairs
    let s := (List.range 5).foldl (fun s i => s.setBit (clkB + 4) (2 + i)
      (!(decide (i < 2) && aget (fun _ => false) s.flt.causes (Src.lanePll i)))) s
    s.setPhase 2

/-! ### The choice of a slot (R348, R349) -/

def slotR (slot : Nat) : Nat := bootB + 0xC + 8 * slot

/-- BOOT_SLOTs shows what a slot holds. -/
def State.showSlot (s : State) (slot st reason : Nat) : State := (s.setFld (slotR slot) 4 2 st).setFld (slotR slot) 0 4 reason

/-- The BOOT record of a start, and then the record of the last-gasp cell (R372). -/
def State.bootRecord (s : State) : State :=
  (s.specialRecord 0x103 [(s.reg (sysB + 4)).toNat, (s.reg bootB).toNat, s.fld bootB 4 1]).copyCell

/-- RECOVERY: no slot yields a valid image (R349). -/
def State.recover_ (s : State) : State :=
  let s := s.clearImage
  let s : State := { s with cpu := { s.cpu with ctls := [] }, boot := { s.boot with loading := none, ready := false } }
  (s.setPhase 8).bootRecord

/-- A slot's header is read. -/
def State.readHeader (s : State) (slot : Nat) : State :=
  let h := s.norBytes slot 0 256
  let (st, reason) := s.headerJudge slot h
  let s := if reason = 1 ∨ reason = 7 then s else s.setReg (slotR slot + 4) (BitVec.ofNat 32 (imageSeq h))
  s.showSlot slot st reason

/-- A read of a NOR device has failed twice (R338). -/
def State.norFails (s : State) (slot : Nat) (b : Bool) : State :=
  if b then ({ s with boot := { s.boot with norFail := withBit s.boot.norFail slot } } : State).raise (Src.nor slot) else s

/-- The slot with the higher SEQ_NO among those that may be loaded, NOR_A where both are equal (R348). -/
def State.choice (s : State) : Option Nat :=
  let ok := fun slot => s.fld (slotR slot) 4 2 == 1
  let seq := fun slot => (s.reg (slotR slot + 4)).toNat
  if ok 0 && (!ok 1 || decide (seq 1 ≤ seq 0)) then some 0 else if ok 1 then some 1 else none

/-- Both headers have been read. -/
def State.selectImage (s : State) (failA failB : Bool) : State :=
  if s.fld bootB 0 4 ≠ 2 then s
  else
    let s := (((s.norFails 0 failA).norFails 1 failB).readHeader 0).readHeader 1
    match s.choice with
    | some slot => ({ s with boot := { s.boot with loading := some slot, triedOther := false } } : State).setPhase 3
    | none => s.recover_

/-! ### Application of the sections (R342–R347, R350)

A step answers the load check that failed and its station, or none. -/

abbrev Applied := Option (Nat × Nat) × State

def formatBad (s : State) : Applied := (some (1, 0), s)

/-- The default mux (R398). -/
def State.defaultMux (s : State) : State :=
  (List.range 36).foldl (fun s f =>
    let c := if f < 28 then f else 31
    (s.setFld (pinB + 4 * f) 0 5 c).setFld (pinB + 4 * f) 8 5 c) s

/-- FLT_SRCs returns to its default; its pending bit stays (R357). -/
def State.faultDefaults (s : State) : State :=
  (List.range 256).foldl (fun s x => s.setReg (srcR x) (mixBits (s.reg (srcR x)) 0x7F (Src.dfltWord x))) s

/-- Before a section's setting list. -/
def State.beforeSection (s : State) (t : Nat) : State := match t with
  | 0xD => s.defaultMux
  | 0xA => s.faultDefaults
  | _ => s

def State.sectionCal (s : State) (b : List Byte) : Applied :=
  if b.isEmpty then (none, s)
  else if b.length < 2940 then formatBad s
  else
    let cal := (List.range 245).foldl (fun m i => aset (fun _ => []) m i [le b (12 * i) 4, le b (12 * i + 4) 4, le b (12 * i + 8) 4]) []
    (none, { s with image := { s.image with cal := cal } })

/-- PIN_MUX: the staged mux is committed, and contacts whose function stays are driven (R351, R399). -/
def State.sectionPins (s : State) : Applied :=
  let s := s.pinCommit
  (none, (List.range 36).foldl (fun s f => s.driveFn f (s.fnLevel f)) s)

def State.sectionFaults (s : State) (l : List (Nat × Nat × Nat)) : Applied :=
  (none, { s with image := { s.image with faultMap := l }, flt := { s.flt with mapApplied := true } })

/-- A_IN and E_OUT of a port (Table 2.3). -/
def portLatency (p : Nat) (r : List Byte) : Nat × Nat :=
  if p = 32 then (2880, 256) else if p = 33 then (64, 64) else if planRaw r then (320, 0)
  else match planRate r with
    | 10 => (448, 160) | 25 => (384, 176) | 50 => (368, 184) | 100 => (352, 192) | 200 => (336, 192) | 400 => (328, 192) | _ => (320, 192)

/-- A port is configured from its record (Table 15.6, R91). -/
def State.configPort (s : State) (p : Nat) (r : List Byte) : State :=
  let s := (s.setReg (admitR p 0) (BitVec.ofNat 32 (le r 8 4))).setReg (admitR p 4) (BitVec.ofNat 32 (le r 12 4 % 2 ^ 28))
  let s := if p < 32 then s.setFld (pathR p 0) 0 2 (le r 16 4) else s
  let s := if p < 33 then (s.setReg (extR p 0) (BitVec.ofNat 32 (le r 20 4))).setReg (extR p 4) (BitVec.ofNat 32 (le r 24 4)) else s
  let s := s.setFld (timeB + 0x20 + p / 8 * 4) (p % 8 * 4) 4 (le r 5 1)
  if planPresent r then
    let (i, o) := portLatency p r
    let s := (s.setFld (pathR p 4) 0 12 i).setFld (pathR p 4) 16 12 o
    if p < 33 then s.loadCal (if p = 32 then 34 else p) (le r 4 1) else s
  else s

def State.sectionPorts (s : State) (b : List Byte) : Applied :=
  if b.length < 1104 then formatBad s
  else
    let recs := (List.range 34).map (fun p => slice b (32 * p) 32)
    let s : State := { s with image := { s.image with ports := recs, carrier := le b 1088 4 } }
    let s := recs.zipIdx.foldl (fun s e =>
      let s := if e.2 < 32 ∧ e.1 ≠ s.boot.warmPorts.getD e.2 [] then
          let s := s.setBit (egrPR e.2 4) 0 false
          (List.range (planLanes (s.boot.warmPorts.getD e.2 []))).foldl (fun s l => s.setFld (laneB + (e.2 + l) * 0x10 + 4) 0 4 0) s
        else s
      s.configPort e.2 e.1) s
    let line := (recs.take 32).any planPresent
    (none, if line && !(s.boot.carrierRead && s.reg (cbusB + 0x18) == BitVec.ofNat 32 (le b 1088 4)) then
      s.levelSource Src.carrierId true else s.setCause Src.carrierId false)

/-- TIMING_IO: the outputs that the image enables start, and every contact takes its level. -/
def State.sectionTio (s : State) : Applied :=
  let s := (List.range 28).foldl (fun s f => s.driveFn f (s.fnLevel f)) s
  let again := fun (s : State) (a : Nat) (f : State → Word → State) =>
    let v := s.reg a
    if s.bit a 0 then f (s.setBit a 0 false) v else s
  let s := (List.range 24).foldl (fun s n => again s (trigR n 0) (fun s v => s.trigCfgWrite n v)) s
  let s := (List.range 4).foldl (fun s k => again s (ppsoR k 0) (fun s v => s.ppsoCfgWrite k v)) s
  (none, (List.range 2).foldl (fun s j => again s (clkoR j 0) (fun s v => s.clkoCfgWrite j v)) s)

/-- POOLS: the siding shares (R247), and the rewind store where EN is set. -/
def State.sectionPools (s : State) (b : List Byte) : Applied :=
  let p3 := le b 0 4
  let p4 := le b 4 4
  let n := le b 8 4
  let total := p3 * 65536 + p4 * 1048576 + (if n = 0 then 0 else (n + 1) * 1048576)
  if b.length < 16 ∨ p3 % 16 ≠ 0 ∨ 786432 < p3 ∨ 49152 < p4 ∨ 49151 < n ∨ 48 * 2 ^ 30 < total ∨ 8 < s.fld smcB 0 4 then formatBad s
  else
    let a3 := s.dramEnd - total
    let a4 := a3 + p3 * 65536
    let a5 := a4 + p4 * 1048576
    let put := fun (s : State) (r a : Nat) => (s.setReg r (BitVec.ofNat 32 a)).setReg (r + 4) (BitVec.ofNat 32 (a / 2 ^ 32))
    let share := fun (s : State) (k a c : Nat) => [8, 0xC, 0x18].foldl (fun s o => s.setFld (poolR k o) 0 20 c) (put s (poolR k 0) a)
    let s := put (share (share s 3 a3 p3) 4 a4 p4) (rewB + 0x10) (if n = 0 then 0 else a5)
    let s := s.setFld (rewB + 0xC) 0 17 n
    (none, if s.bit rewB 0 then (s.setBit rewB 0 false).rewEnable else s)

/-! ### Placement (R352) -/

/-- Parts that an EXCLUDE entry names, and the KEEP_SPARES entries (Table 15.4). -/
def excluded (b : List Byte) : List Nat :=
  ((List.range (b.length / 4)).filter (fun i => le b (4 * i) 1 == 0)).map (fun i => unitId (le b (4 * i + 1) 1) (le b (4 * i + 2) 2))
def kept (b : List Byte) : List (Nat × Nat) :=
  ((List.range (b.length / 4)).filter (fun i => le b (4 * i) 1 == 1)).map (fun i => (le b (4 * i + 1) 1, le b (4 * i + 2) 2))

/-- The body of the constraints after its empty setting list. -/
def constraints (img : List Byte) : List Byte := ((sectionOf img 2).bind settingList).elim [] (·.2)

/-- The healthy parts of a class, `n` in number, in ascending order. -/
def State.healthy (s : State) (ex : List Nat) (cls n : Nat) : List Nat :=
  (List.range n).filter (fun i => !(s.boot.failed ++ s.flt.retired ++ ex).contains (unitId cls i))

/-- Spares of a class that remain. -/
def State.sparesLeft (s : State) (ex : List Nat) (cls : Nat) : Nat := match cls with
  | 2 => ((List.range 16).map (fun n => ((s.healthy ex 2 160).filter (fun c => c / 10 == n)).length - 9)).sum
  | 4 => (s.healthy ex 4 52).length - 48
  | 7 => (s.healthy ex 7 200).length - 192
  | 8 => (s.healthy ex 8 16).length - 15
  | 9 => ((s.healthy ex 9 34).filter (fun l => decide (32 ≤ l))).length
  | _ => 0

/-- Load check PLACEMENT (R352): the first station with fewer than 8 healthy cores, or 0 where another condition fails. -/
def State.misplaced (s : State) (b : List Byte) : Option Nat :=
  let ex := excluded b
  match (List.range 16).find? (fun n => decide (((s.healthy ex 2 160).filter (fun c => c / 10 == n)).length < 8)) with
  | some n => some n
  | none =>
    if 15 ≤ (s.healthy ex 8 16).length ∧ (kept b).all (fun k => decide (k.2 ≤ s.sparesLeft ex k.1)) then none else some 0

/-- The units of a class that are not in use: spare where healthy, else left out. -/
def State.markParts (s : State) (cls n : Nat) (good used : List Nat) : State :=
  (List.range n).foldl (fun s i => s.unitState (unitId cls i) (if used.contains i then 0 else if good.contains i then 4 else 6)) s

/-- The cores of station n take their roles. -/
def State.placeStation (s : State) (good : List Nat) (n : Nat) : State :=
  let h := good.filter (fun c => c / 10 == n)
  let s := (stnCores n).foldl (fun s c =>
    let role : CoreRole := match h.findIdx? (· == c) with
      | some 9 => .rotation
      | some j => .service j
      | none => if s.flt.retired.contains (unitId 2 c) then .retired else .failed
    s.setCore c { role := role, since := s.now }) s
  ((s.setStn n {}).degradeStn n).showCores n

/-- The place of a logical block or bank for which no healthy part is left: its group is fenced (R193), its buffers are withdrawn (R237). -/
def noPart : Nat := 255

def State.place_ (s : State) (b : List Byte) : State :=
  let ex := excluded b
  let cores := s.healthy ex 2 160
  let inUse := (List.range 16).flatMap (fun n => (cores.filter (fun c => c / 10 == n)).take 9)
  let s := s.markParts 2 160 cores inUse
  let s := (List.range 16).foldl (fun s n => s.placeStation cores n) s
  let blocks := s.healthy ex 4 52
  let s := s.markParts 4 52 blocks (blocks.take 48)
  let s : State := { s with cls := { s.cls with blocks := (List.range 48).foldl (fun m b => aset (fun b => b) m b (blocks.getD b noPart)) [],
                                                blockBad := (List.range 52).filter (fun p => !blocks.contains p) } }
  let banks := s.healthy ex 7 200
  let s := s.markParts 7 200 banks (banks.take 192)
  let s : State := { s with pool := { s.pool with bankMap := (List.range 192).foldl (fun m b => aset (fun b => b) m b (banks.getD b noPart)) [] } }
  let s := ((List.range 192).filter (fun b => decide (banks.length ≤ b))).foldl (fun s b => s.withdrawBank b) s
  let s := s.showSpare.showBanks
  let lanes := s.healthy ex 9 34
  let s := [32, 33].foldl (fun s l => s.unitState (unitId 9 l) (if lanes.contains l then 4 else 6)) s
  let s := ((List.range 32).filter (fun l => !lanes.contains l && (s.laneUser l).isSome && s.fld (laneB + l * 0x10 + 4) 2 2 == 0)).foldl (fun s l => (s.laneReplace l).2) s
  if s.spareGone then s.raise Src.spareLow else s

def State.sectionPlace (s : State) (b : List Byte) : Applied :=
  if s.fld (stnB + 4) 8 4 = 13 then (none, (s.setCause Src.placementDegraded true).raise Src.placementDegraded)
  else (none, s.setCause Src.placementDegraded false |>.place_ b)

/-! ### Timetable, clauses, tables, keys, firmware -/

/-- STN_LINKLO or STN_LINKHI of a station: a link whose producer is its consumer, or that names t7, reads EN 0 (R153). -/
def linkWord (v : Nat) : Word :=
  (List.range 4).foldl (fun (w : Word) j =>
    let prod := bitsOf v (8 * j) 3
    let cons := bitsOf v (8 * j + 3) 3
    if prod = cons ∨ prod = 7 ∨ cons = 7 then putField w (8 * j + 6) 1 0 else w) (BitVec.ofNat 32 v &&& 0x7F7F7F7F#32)

/-- The registers that the timetable gives (R17, Tables 1.11 to 1.17, 6.8, 6.9). An S_n above the range of Table 1.1 is S_n all the same
    in check SEARCH; STN_CAPn.SEARCH, which the count of R32 goes by, shows its low 4 bits (log entry 185). -/
def State.showTimetable (s : State) (t : Timetable) : State :=
  let s := ((s.setReg stnB (BitVec.ofNat 32 t.id)).setFld (stnB + 8) 0 21 t.rate).setFld (stnB + 0xC) 0 21 t.resRate
  (List.range 16).foldl (fun s n =>
    let x := t.station n
    let s := ((s.setFld (stnR n 0) 0 12 t.budget).setFld (stnR n 0) 12 12 t.budget8).setFld (stnR n 0) 24 4 x.sn
    let s := ((s.setFld (stnR n 4) 0 13 x.l).setFld (stnR n 4) 16 12 x.w).setFld (stnR n 8) 8 12 x.d
    let s := s.setFld (stn2R n 0) 0 3 x.ndisp
    (s.setReg (stn2R n 8) (linkWord x.linkLo)).setReg (stn2R n 0xC) (linkWord x.linkHi)) s

/-- The settings that clauses and tables will make, which load check SEARCH looks at (R182). -/
def State.lookAhead (s : State) (img : List Byte) : State :=
  [6, 7].foldl (fun s t => ((sectionOf img t).bind settingList).elim s (fun p => s.settings p.1)) s

def State.sectionTimetable (s : State) (img b : List Byte) : Applied :=
  let t := timetableOf b
  let r := (s.lookAhead img).loadCheck b t (s.misplaced (constraints img))
  let s := (s.setFld (stnB + 4) 8 4 ((r.map (·.1)).getD 0)).setFld (stnB + 4) 12 4 ((r.map (·.2)).getD 0)
  match r with
  | some (13, _) => (none, ({ s with image := { s.image with tt := t } } : State).showTimetable t)
  | some e => (some e, s)
  | none => (none, (({ s with image := { s.image with tt := t } } : State).setBit (stnB + 4) 0 true).showTimetable t)

/-- A group with a block that has no part is fenced (R193). -/
def State.fenceShort (s : State) : State :=
  ((List.range 48).filter (fun b => s.blockPhys b == noPart)).foldl (fun s b => match s.blockGroup b with
    | some g => s.fenceUnit (unitId 3 g) none
    | none => s) s

/-- CLAUSES: the groups fit, and every record is loaded SETTLED (R178, R188). -/
def State.sectionClauses (s : State) (b : List Byte) : Applied :=
  let groups := (List.range 32).filter s.grpValid
  let fixedBad := groups.any (fun g => s.bit (grpCfg g) 3 && decide (s.fld (grpCfg g) 1 2 ≠ 0 ∨ s.fld (grpCfg g) 4 6 ≠ 1 ∨ s.fld (grpCfg g) 10 3 ≠ 0))
  if 48 < (groups.map s.grpBlocks).sum ∨ fixedBad ∨ b.length % 264 ≠ 0 then formatBad s
  else (List.range (b.length / 264)).foldl (fun (acc : Applied) i =>
    let g := le b (264 * i) 1
    let a := le b (264 * i + 4) 4
    let r := slice b (264 * i + 8) 256
    match acc with
    | (none, s) => if s.clauseBadArg 1 g a r || ctlValid (s.clause g a).control then formatBad s else (none, s.setClause g a (recordClause r 5))
    | _ => acc) (none, s)

/-- One item of TABLES, its stream and prefix entries SETTLED (R214). -/
def State.tableItem (s : State) (op : Nat) (r : List Byte) : Applied :=
  if !([1, 4, 6, 8].contains op) ∨ s.fwdStatus op r ≠ 0 then formatBad s
  else
    let s := s.fwdApply op r
    let l := s.cls.log
    let s := l.foldl (fun s e => s.setLogWord e 5) s
    (none, s.dropLog (fun _ => true))

def State.tableItems : Nat → List Byte → State → Applied
  | 0, _, s => (none, s)
  | fuel + 1, b, s =>
    if b.isEmpty then (none, s)
    else if b.length < 4 + le b 2 2 then formatBad s
    else match s.tableItem (le b 0 1) (slice b 4 (le b 2 2)) with
      | (none, s) => State.tableItems fuel (b.drop (4 + le b 2 2)) s
      | r => r

/-- JENITOR: the host keys (R323). -/
def State.sectionKeys (s : State) (b : List Byte) : Applied :=
  if b.length < 288 then formatBad s
  else (none, (List.range 8).foldl (fun s k =>
    let r := slice b (36 * k) 36
    if le r 0 1 % 2 = 1 then
      let s := (s.setBit (jenB + 0xC) k true).setFld (jenB + 0xC) (16 + 2 * k) 2 (le r 1 1)
      { s with jen := { s.jen with keys := aset (fun _ => []) s.jen.keys k ((r.drop 1).take 1 ++ r.drop 4) } }
    else s) s)

/-- The segments of CONTROL_FIRMWARE (R346): address and bytes. -/
def fwSegments (b : List Byte) : Nat → Nat → Option (List (Nat × List Byte))
  | 0, _ => some []
  | n + 1, o =>
    let len := le b (o + 8) 4
    if b.length < o + 16 + (len + 15) / 16 * 16 then none
    else (fwSegments b n (o + 16 + (len + 15) / 16 * 16)).map (fun l => (le b o 8, slice b (o + 16) len) :: l)

/-- CONTROL_FIRMWARE: written, and all four control cores start (R346). -/
def State.sectionFirmware (s : State) (b : List Byte) : Applied :=
  match fwSegments b (le b 8 4) 16 with
  | none => formatBad s
  | some l =>
    let inside := fun (e : Nat × List Byte) =>
      decide ((0x20000000 ≤ e.1 ∧ e.1 + e.2.length ≤ 0x20400000) ∨ (dramBase ≤ e.1 ∧ e.1 + e.2.length ≤ s.poolBase 3))
    if b.length < 16 ∨ !l.all inside then formatBad s
    else
      let s : State := { s with cpu := { s.cpu with ctls := [] } }
      let s := l.foldl (fun s e => s.storeBytes e.1 e.2) s
      (none, (List.range 4).foldl (fun s c =>
        s.setCtlc c { regs := aset (fun _ => 0) [] 1 (BitVec.ofNat 64 c), pc := some (BitVec.ofNat 64 (le b 0 8)) }) s)

/-- REGISTER_WRITES: as firmware writes, in order; bits outside MASK are written as they read, write-1-to-clear bits as 0 (R347). -/
def State.sectionWrites (s : State) (b : List Byte) : Applied :=
  match settingList b with
  | none => formatBad s
  | some (l, _) => (none, l.foldl (fun s e =>
    let old := s.reg e.1 &&& ~~~(BitVec.ofNat 32 (fieldRow e.1).w1c)
    s.busWrite .image e.1 (mixBits old e.2.2 (BitVec.ofNat 32 e.2.1))) s)

/-- The effect of a section's body after its setting list `l`. -/
def State.sectionBody (s : State) (img : List Byte) (t : Nat) (l : List (Nat × Nat × Nat)) (b : List Byte) : Applied := match t with
  | 1 => s.sectionTimetable img b
  | 2 => s.sectionPlace b
  | 3 => s.sectionPorts b
  | 5 => s.sectionTio
  | 6 => s.sectionClauses b
  | 7 => State.tableItems b.length b s
  | 8 => s.sectionPools b
  | 0xA => s.sectionFaults l
  | 0xB => s.sectionKeys b
  | 0xD => s.sectionPins
  | 0xF => s.sectionCal b
  | _ => (none, s)

/-- One section is applied; an optional one that is absent has neither settings nor body. -/
def State.applySection (s : State) (img : List Byte) (t : Nat) : Applied :=
  let b := (sectionOf img t).getD []
  if t = 0xE then s.sectionFirmware b
  else if t = 0xC then (if b.isEmpty then (none, s) else s.sectionWrites b)
  else
    let s := s.beforeSection t
    if b.isEmpty then s.sectionBody img t [] []
    else match settingList b with
      | none => formatBad s
      | some (l, body) => if l.any (settingBad t) then formatBad s else (s.settings l).sectionBody img t l body

/-- The order of application (R350). -/
def sectionOrder : List Nat := [0xF, 0xD, 0xA, 4, 3, 5, 8, 1, 2, 6, 7, 9, 0xB, 0xE, 0xC]

/-- Sections are applied until a load check fails: its code, its station and its section. -/
def State.applyAll (s : State) (img : List Byte) : Option (Nat × Nat × Nat) × State :=
  sectionOrder.foldl (fun (acc : Option (Nat × Nat × Nat) × State) t => match acc with
    | (none, s) => match s.applySection img t with
      | (some (c, n), s) => (some (c, n, if c = 14 then 3 else t), s)
      | (none, s) => (none, s)
    | _ => acc) (none, s)

/-- Table memory outside the leg tables (R196). -/
def tableMem (a : Nat) : Bool := decide (0x30000000 ≤ a ∧ a < 0x32000000) && !legTable a

/-- The packet path's tables, queues and counters before an image is applied: those of a path that has not run; links that are kept up
    stay up, and STN_TT_STATUS keeps the last load check performed (Table 1.12). -/
def State.freshPath (s : State) : State :=
  let up := (List.range 33).filter (fun p => s.bit (egrPR p 4) 0 && (p == 32 || !(s.boot.warmPorts.getD p []).isEmpty))
  let mine := fun (a : Nat) => decide (portB ≤ a ∧ a < block 17 ∧ ¬ (smcB ≤ a ∧ a < rewB))
  let check := s.fld (stnB + 4) 8 8
  let s : State := { s with ctl := s.ctl.filter (fun e => !mine e.1), cls := {}, pool := {}, rew := {}, egr := { sent := s.egr.sent },
                            stns := [], cores := [], coaches := [], meters := [], path := { availMs := s.path.availMs } }
  let s : State := { s.setFld (stnB + 4) 8 8 check with mem := s.mem.filter (fun e => !tableMem e.1) }
  let lanes := up.flatMap (fun p => (List.range (planLanes (s.boot.warmPorts.getD p []))).map (· + p))
  let s := (List.range 32).foldl (fun s l => if lanes.contains l then s else s.setFld (laneB + l * 0x10 + 4) 0 4 0) s
  up.foldl (fun s p => s.setBit (egrPR p 4) 0 true) s

/-- A load fails with a reason of Table 15.3: the fields of the image return to 0, and the other slot is loaded once (R348). -/
def State.loadFail (s : State) (slot reason : Nat) : State :=
  let s := (s.showSlot slot 2 reason).clearImage.freshPath
  let s := if s.boot.triedOther then s else s.readHeader (1 - slot)
  if !s.boot.triedOther ∧ s.fld (slotR (1 - slot)) 4 2 = 1 then
    let s : State := { s with boot := { s.boot with loading := some (1 - slot), triedOther := true } }
    ((s.setBit bootB 5 true).raise Src.imageFallback).setPhase 3
  else s.recover_

/-- Every section is applied: the path waits for its instant, or stays stopped (R22, R345, R350). -/
def State.loadGood (s : State) (slot : Nat) (img : List Byte) : State :=
  let s := (s.setFld bootB 4 1 slot).setReg (bootB + 4) (BitVec.ofNat 32 (imageSeq img))
  let s := (s.setReg (bootB + 8) (BitVec.ofNat 32 (imageLen img))).setFld (bootB + 0x1C) 4 2 (imageKey img)
  let s := s.showSlot slot 1 0
  let degraded := s.fld (stnB + 4) 8 4 == 13
  let s : State := { s with boot := { s.boot with loading := none, ready := !degraded } }
  let s := s.rawStart.fenceShort
  let s := if degraded then s.setFld bootB 8 8 2 else s
  (s.setPhase (if degraded || aget (fun _ => false) s.flt.causes Src.carrierId then 9 else 5)).bootRecord

/-- The image record of a slot whose signature has verified. -/
def State.takeImage (s : State) (slot : Nat) (img : List Byte) : State :=
  { s with image := { slot := slot, seqNo := imageSeq img, len := imageLen img, keyId := imageKey img, valid := true } }

/-- A channel that the constraints exclude is left out before the shares are laid (R352). -/
def State.excludeChannel (s : State) (img : List Byte) : State :=
  match (excluded (constraints img)).find? (fun u => decide (u / 256 = 8 ∧ u % 256 < 16)) with
  | some u => if s.retiredCh.isSome then s else s.dramOut (u % 256) 4
  | none => s

/-- The chosen image has streamed into staging (R340, R350). -/
def State.loadImage (s : State) (norFail : Bool) : State :=
  match s.boot.loading with
  | none => s
  | some slot =>
    if s.fld bootB 0 4 ≠ 3 then s
    else
      let s := (s.norFails slot norFail).readHeader slot
      if s.fld (slotR slot) 4 2 ≠ 1 then s.loadFail slot (s.fld (slotR slot) 0 4)
      else
        let img := s.norBytes slot 0 (imageLen (s.norBytes slot 0 256))
        match s.imageFault slot img with
        | some r => s.loadFail slot r
        | none =>
          let s := s.storeBytes (s.dramEnd - img.length) img
          let s := ((s.freshPath.takeImage slot img).excludeChannel img).setPhase 4
          match s.applyAll img with
          | (some (c, n, t), s) =>
            let s := ((s.loadFail slot 8).setFld (stnB + 4) 8 4 c).setFld (stnB + 4) 12 4 n
            s.setFld bootB 8 8 t
          | (none, s) => s.loadGood slot img

/-! ### Packet path start (R15, R19, R24, R350) -/

/-- A bucket that is full at packet path start where its rate is not 0. -/
def fullBucket (rate burst unit now : Nat) : Bucket := ⟨(if rate = 0 then 0 else burst * unit : Nat), now⟩

/-- The tenses at packet path start: CURRENT 0, PENDING 1, and tense 0 alone is live (R188). -/
def State.tenseStart (s : State) : State :=
  let s := ((s.setFld clauseB 0 4 0).setFld clauseB 4 4 1).setFld clauseB 8 16 1
  let s := ((s.setBit clauseB 27 false).setFld (clauseB + 4) 0 4 0).setBit (clauseB + 4) 17 false
  { s with cls := { s.cls with commitAt := none, undoing := false, voided := [], ceased := [], drained := [] } }

/-- PACKET_PATH_START at the first whole multiple of 491.52 µs. -/
def State.pathStart (s : State) : State :=
  if !s.boot.ready ∨ s.pathRun then s
  else
    let t := ceilTo epochU s.now
    let s := s.advance t
    let full := fun (r lo u : Nat) => fullBucket (s.fld r 0 lo) (s.fld r lo (32 - lo)) u t
    let meters := (List.range 34).foldl (fun m p => aset (fun _ => {}) m p (full (admitR p 0) 20 secU)) []
    let s : State := { s with cls := { s.cls with miss := full (parseB + 8) 16 msU, parse := full (parseB + 0xC) 16 msU, ageTickAt := t, latAt := t } }
    let s : State := { s with boot := { s.boot with ready := false }, meters := meters, egr := { s.egr with refusalAt := t } }
    let s : State := { s with path := { start := t, degraded := s.path.degradePending, availMs := s.path.availMs } }
    let s : State := { s with flt := { s.flt with everRan := true } }
    let k := t / epochU
    let s := (s.setReg (stnB + 0x18) (BitVec.ofNat 32 k)).setReg (stnB + 0x1C) (BitVec.ofNat 32 (k / 2 ^ 32))
    let s := (s.setReg (stnB + 0x10) 0).setReg (stnB + 0x14) 0
    let s := s.tenseStart
    let s := (s.endDown.setBit (stnB + 4) 1 true).setBit (egrPR 33 4) 0 true
    let s := (List.range 160).foldl (fun s c => if (s.roleOf c).serves then s.prepCore c else s) s
    let s := (List.range 33).foldl (fun s p => if s.bit (egrPR p 4) 0 then
      s.linkUp p ((s.portLanes p).filter (fun l => s.bit (laneB + l * 0x10 + 4) 1)) else s) s
    if s.fld bootB 0 4 = 9 then s
    else s.setPhase (if (s.image.ports.take 32).any planPresent then 6 else 7)

/-! ### Epoch boundary -/

/-- The legs of a compatible timetable take effect at `t` (R35). -/
def State.legSwitch (s : State) (t : Nat) : State := match s.image.next with
  | none => s
  | some (slot, tt) =>
    let h := s.norBytes slot 0 256
    let old := (List.range 16).map (fun n => (s.ttStn n).legEntry)
    let s : State := { s with path := { s.path with legOld := old, legHalf := 1 - s.path.legHalf, legFrom := t } }
    let s : State := { s with image := { s.image with tt := tt, next := none, slot := slot, seqNo := imageSeq h, len := imageLen h, keyId := imageKey h } }
    let s := (s.setFld bootB 4 1 slot).setReg (bootB + 4) (BitVec.ofNat 32 (imageSeq h))
    let s := (s.setReg (bootB + 8) (BitVec.ofNat 32 (imageLen h))).setFld (bootB + 0x1C) 4 2 (imageKey h)
    let s : State := { s.showTimetable tt with jen := { s.jen with activate := none } }
    (s.bumpGen (unitId 0x10 0)).eventNotice 2 |>.answer (fun op _ => op == 0x0E) 0 []

/-- EPOCH_BOUNDARY: the count advances, and what waits for a boundary takes effect. -/
def State.epochBoundary (s : State) : State :=
  if !s.pathRun then s
  else
    let k := s.reg2 (stnB + 0x10) (stnB + 0x14) + 1
    let t := s.path.start + k * epochU
    let s := s.advance t
    let s := (s.setReg (stnB + 0x10) (BitVec.ofNat 32 k)).setReg (stnB + 0x14) (BitVec.ofNat 32 (k / 2 ^ 32))
    let s := if s.path.degradePending then s.degradeMeters t else s
    let s : State := { s with path := { s.path with degradePending := false } }
    let s := s.legSwitch t
    let s := (List.range 16).foldl (fun s n => s.migSwitch n t) s
    (s.blockSwitch.bankSwitch.channelSwitch).freqBegin t

/-! ### Meanings -/

/-- BIST_DONE (R350). -/
def execBistDone (r : Bist) (s : State) : Host.Outcome State Fault Refusal := .next (s.bist r)

/-- IMAGE_SELECT: the slots whose NOR device failed a read twice (R338, R348). -/
def execImageSelect (failA failB : Bool) (s : State) : Host.Outcome State Fault Refusal := .next (s.selectImage failA failB)

/-- IMAGE_LOAD_DONE: `norFail` where the device failed a read twice (R338, R340, R350). -/
def execImageLoadDone (norFail : Bool) (s : State) : Host.Outcome State Fault Refusal := .next (s.loadImage norFail)

/-- PACKET_PATH_START (R15). -/
def execPacketPathStart (s : State) : Host.Outcome State Fault Refusal := .next s.pathStart

/-- EPOCH_BOUNDARY (R15). -/
def execEpochBoundary (s : State) : Host.Outcome State Fault Refusal := .next s.epochBoundary

end Sys2Proof.Machine
end

