-- ==== Sys2Proof/Machine/Dma.lean ====
section
/-!
DEFINITION. Machine/Dma.lean: what the DMA engines do (R305–R318): the choice of a channel, the byte funnel with translation, TX
gathering with pacing, and receive rings.
-/
namespace Sys2Proof.Machine

/-! ### Translation under an ASID (R286, R287, R312) -/

/-- The root of ASID's tables: PTBR of the lowest control core that runs under it; with none, the spec names no root (free). -/
def State.ioRoot (s : State) (asid : Nat) : Nat × State :=
  match (List.range 4).find? (fun c => getField (s.sysReg c 6) 0 8 == asid && s.trans c) with
  | some c => ((s.sysReg c 5).toNat, s)
  | none => let (v, s) := s.fresh 28; (v.toNat * 4096, s)

/-- The physical address of an access of channel k's descriptor d to `va`, or its completion code. -/
def State.ioAddr (s : State) (d : List Byte) (va : Nat) (write : Bool) : Except Nat Nat × State :=
  if !dVirt d then (.ok va, s)
  else
    let asid := dAsid d
    let kind := if write then 2 else 1
    let refuse := fun (s : State) => (Except.error (ε := Nat) (α := Nat) 1, s.raise Src.translation)
    if va / 2 ^ 39 ≠ (if bitsOf va 38 1 = 1 then 2 ^ 25 - 1 else 0) then refuse s
    else match s.dma.iotlb.find? (fun e => e.hits asid va) with
      | some e => if permits e.pte kind true then (.ok (e.pa va), s) else refuse s
      | none =>
        let (root, s) := s.ioRoot asid
        match s.walk va asid 3 0 root with
        | .pa _ e =>
          if permits e.pte kind true then
            let (l, s) := fillTlb s s.dma.iotlb 128 e
            (.ok (e.pa va), { s with dma := { s.dma with iotlb := l } })
          else refuse s
        | .page => refuse s
        | .region a lvl => (.error 2, s.walkError a lvl asid 4 false)
        | .ecc a lvl => (.error 2, s.walkError a lvl asid 4 true)

/-! ### The byte funnel (R310, R311) -/

/-- The search engine that owns the table memory at `a` (Table 8.1). -/
def tableEng (a : Nat) : Nat := if a < 0x30900000 then 1 else if a < 0x30C00000 then 3 else if a < 0x31000000 then 4 else 2

/-- Why `n` bytes at `a` are not reached: the code of Table 13.2; 0 where they are. A descriptor of `len` bytes; `lock` tells
    whether a lock alias may be named (R311). -/
def State.dmaReach (s : State) (a n len : Nat) (lock write : Bool) : Nat :=
  match s.region a with
  | .ctl => if a % 4 ≠ 0 ∨ len % 4 ≠ 0 ∨ n ≠ 4 then 4 else 0
  | .lockWord => if lock ∧ len = 4 ∧ n = 4 ∧ a % 4 = 0 then 0 else 3
  | .sram => 0
  | .dram => 0
  | .yard => 0
  | .stnMem => 0
  | .table => if s.absent (unitId 5 (tableEng a)) then 7 else if write ∧ !legTable a then 3 else 0
  | .rom => if write then 3 else 0
  | _ => 3

/-- `n` source bytes at offset `off` of channel k's descriptor d, or the code it ends with. -/
def State.dmaRead (s : State) (k : Nat) (d : List Byte) (off : Nat) : Nat → Except Nat (List Byte) × State
  | 0 => (.ok [], s)
  | n + 1 => match s.ioAddr d (dSrc d + off) false with
    | (.error c, s) => (.error c, s)
    | (.ok a, s) =>
      let c := s.dmaReach a 1 (dLen d) false false
      if c ≠ 0 then (.error c, s)
      else if s.upset a then (.error 5, s.raiseEcc a)
      else
        let s := if a % 64 = 0 ∨ off = 0 then s.dramReq (if s.bit (dmaR k 0) 5 then 3 else 1) false (a / 64 * 64) else s
        match State.dmaRead s k d (off + 1) n with
        | (.ok l, s) => (.ok (s.cbyte a :: l), s)
        | (.error c, s) => (.error c, s)

/-- A 4-byte access of a source in control space or at a lock alias. -/
def State.dmaReadWord (s : State) (k : Fin 64) (d : List Byte) (a : Nat) : Except Nat (List Byte) × State :=
  let c := s.dmaReach a 4 (dLen d) (s.dmaKind k == 0) false
  if c ≠ 0 then (.error c, s)
  else if s.region a = .lockWord then
    let (v, s) := s.lockRead (0xD00 + k) (a - 0x8000000000)
    (.ok (bytesLE 4 v), s)
  else
    let t := s.busRead (.dma k) a
    (.ok (bytesLE 4 t.got), { t with resp := s.resp })

/-- The bytes stored from offset `off` of the destination on, one at a time: the offset of the first byte not stored and the code. -/
def State.dmaWrite (s : State) (k : Nat) (d : List Byte) (off : Nat) : List Byte → Nat × Nat × State
  | [] => (off, 0, s)
  | b :: t => match s.ioAddr d (dDst d + off) true with
    | (.error c, s) => (off, c, s)
    | (.ok a, s) =>
      let c := s.dmaReach a 1 (dLen d) false true
      if c ≠ 0 then (off, c, s)
      else
        let s := if a % 64 = 0 ∨ off = 0 then s.dramReq (if s.bit (dmaR k 0) 5 then 3 else 1) true (a / 64 * 64) else s
        State.dmaWrite (s.writeBytes a [b]) k d (off + 1) t

/-- A 4-byte access of a destination in control space or at a lock alias. -/
def State.dmaWriteWord (s : State) (k : Fin 64) (d : List Byte) (a v : Nat) : Nat × State :=
  let c := s.dmaReach a 4 (dLen d) (s.dmaKind k == 0) true
  if c ≠ 0 then (c, s)
  else if s.region a = .lockWord then (0, s.lockStore (0xD00 + k) (a - 0x8000000000) v)
  else
    let t := s.busWrite (.dma k) a (BitVec.ofNat 32 v)
    (0, { t with resp := s.resp })

/-- The address is reached by whole words: control space or a lock alias. -/
def State.byWord (s : State) (a : Except Nat Nat) : Bool := match a with
  | .ok a => s.region a == .ctl || s.region a == .lockWord
  | .error _ => false

/-- The width of the access at offset `off`: 4 bytes where either side is reached by words, else 1. -/
def State.dmaUnit (s : State) (k : Nat) (d : List Byte) (off : Nat) : Nat :=
  if s.byWord (s.ioAddr d (dSrc d + off) false).1 || (s.dmaKind k == 0 && s.byWord (s.ioAddr d (dDst d + off) true).1) then 4 else 1

/-- The source bytes of one access, or the code. -/
def State.dmaFetch (s : State) (k : Fin 64) (d : List Byte) (off n : Nat) : Except Nat (List Byte) × State :=
  match s.ioAddr d (dSrc d + off) false with
  | (.error c, s) => (.error c, s)
  | (.ok a, s) => if s.byWord (.ok a) then s.dmaReadWord k d a else s.dmaRead k d off n

/-- One access's bytes go to the destination (MEM) or into the frame being gathered (TX): the offset reached and the code. -/
def State.dmaPut (s : State) (k : Fin 64) (d : List Byte) (off : Nat) (l : List Byte) : Nat × Nat × State :=
  if s.dmaKind k = 1 then (off + l.length, 0, s.modDch k (fun x => { x with body := x.body ++ l }))
  else match s.ioAddr d (dDst d + off) true with
    | (.error c, s) => (off, c, s)
    | (.ok a, s) =>
      if s.byWord (.ok a) then
        match s.dmaWriteWord k d a (fromLE l) with
        | (0, s) => (off + l.length, 0, s)
        | (c, s) => (off, c, s)
      else s.dmaWrite k d off l

/-- An ABORT stops the move at a 32-byte destination word boundary, once `upTo` bytes have moved (R313). -/
def State.dmaStops (s : State) (k : Nat) (d : List Byte) (off upTo : Nat) : Bool :=
  (s.dch k).aborting && decide (upTo ≤ off) && (if s.dmaKind k = 1 then (s.dch k).body.length % 32 == 0 else (dDst d + off) % 32 == 0)

/-- The move from offset `off` on: the bytes done and the code (R312); `fuel` bounds the accesses. -/
def State.dmaMove (s : State) (k : Fin 64) (d : List Byte) (upTo : Nat) : Nat → Nat → Nat × Nat × State
  | 0, off => (off, 0, s)
  | fuel + 1, off =>
    if dLen d ≤ off then (off, 0, s)
    else if s.dmaStops k d off upTo then (off, 9, s)
    else
      let n := min (s.dmaUnit k d off) (dLen d - off)
      match s.dmaFetch k d off n with
      | (.error c, s) => (off, c, s)
      | (.ok l, s) => match s.dmaPut k d off l with
        | (nxt, 0, s) => State.dmaMove s k d upTo fuel nxt
        | (nxt, c, s) => (nxt, c, s)

/-! ### TX frames (R316, R317) -/

/-- Tokens in the port 33 admission bucket now, and its refill (R19, R24). -/
def State.tokens33 (s : State) : Bucket × Nat :=
  let rate := (if s.path.degraded then s.fld (admitR 33 4) 0 20 else s.fld (admitR 33 0) 0 20) * 4096
  let b : Bucket := aget (fun _ => {}) s.meters 33
  (if rate = 0 then ⟨0, s.now⟩ else b.refill rate (s.fld (admitR 33 0) 20 12 * secU) s.now, rate)

/-- The body length that the descriptors from index i to the one with END give. -/
def State.txLen (s : State) (k i : Nat) : Nat → Nat
  | 0 => 0
  | n + 1 =>
    let d := s.descAt k i
    dLen d + (if dEnd d then 0 else State.txLen s k ((i + 1) % max 1 (s.dmaCount k)) n)

/-- The coach of the frame being gathered is built once its head window is there (R316). -/
def State.txBuild (s : State) (k : Nat) (last : Bool) : State :=
  let x := s.dch k
  match x.coach, x.cell with
  | none, some cell =>
    if x.body.length < 192 ∧ !last then s
    else
      let (w, s) := s.fresh 26
      let cls := bitsOf x.flags 23 3
      let len := if last then x.body.length else max x.body.length (min 9212 (s.txLen k x.startAt (s.dmaCount k)))
      let (q, s) := s.buildCoach 33 2 x.ts cell (putField w 0 3 cls) (s.reservedNow 33 cls) (x.body.take 192) len
      let s := s.modCoach q (fun c => { c with tsInsert := bitAt x.flags 21, tsReport := bitAt x.flags 22 })
      s.setDch k { x with coach := some q, cell := none }
  | _, _ => s

/-- Body bytes gathered beyond the coach go into its chain, 256 to a cell; the last cell may hold fewer. -/
def State.txFeed (s : State) (k q : Nat) (last : Bool) : Nat → State
  | 0 => s
  | n + 1 => match s.coach q with
    | none => s
    | some c =>
      let l := (s.dch k).body.drop c.got
      if c.verdict.isSome ∨ l.isEmpty ∨ (l.length < 256 ∧ !last) then s
      else State.txFeed (s.bodyCell 33 q (l.take 256)).2 k q last n

/-- What has been gathered goes on into the packet path; with END the frame's verdict passes. -/
def State.txDeliver (s : State) (k : Nat) (last : Bool) : State :=
  let s := s.txBuild k last
  let s := match (s.dch k).coach with
    | none => s
    | some q =>
      let s := s.txFeed k q last 40
      if last ∧ ((s.coach q).map (·.verdict.isNone)).getD false then s.verdict q 0 else s
  if last then s.modDch k (fun x => { x with inFrame := false, body := [], cell := none, coach := none }) else s

/-! ### Service (R306, R307, R309, R312, R313) -/

/-- Channel j of engine e has an owned descriptor the engine may take. -/
def State.dmaReady (s : State) (k : Nat) : Bool :=
  s.dmaEn k && s.dmaKind k != 2 && s.dmaState k == 0 && (s.dch k).owned && !s.absent (unitId 0xD k)
    && (s.dmaKind k == 0 || s.pathRun)

/-- The next channel of engine e: the highest PRIO, then the first after the one last served, with wrap. -/
def State.dmaPick (s : State) (e : Nat) : Option Nat :=
  let after := aget (fun _ => 15) s.dma.last e + 1
  let l := ((List.range 16).map (fun i => 16 * e + (after + i) % 16)).filter s.dmaReady
  let prio := fun (k : Nat) => s.fld (dmaR k 0) 3 2
  let top := l.foldl (fun m k => max m (prio k)) 0
  l.find? (fun k => prio k == top)

def State.dmaBusy (s : State) (e : Nat) : Option Nat := aget (fun _ => none) s.dma.busy e

def State.setBusy (s : State) (e : Nat) (k : Option Nat) : State :=
  { s with dma := { s.dma with busy := aset (fun _ => none) s.dma.busy e k } }

/-- The descriptor at HEAD of channel k begins. -/
def State.dmaTake (s : State) (k : Nat) : State :=
  let h := s.dmaHead k
  let s := s.modDch k (fun x => { x with desc := some (h, x.resume, s.descAt k h) })
  let s : State := { s with dma := { s.dma with last := aset (fun _ => 15) s.dma.last (k / 16) (k % 16) } }
  (s.setBusy (k / 16) (some k)).setDmaState k 1

/-- A START descriptor of a TX channel is accepted, or the channel waits for tokens (R317). -/
def State.txStart (s : State) (k : Nat) : State :=
  let h := s.dmaHead k
  let w := dWord (s.descAt k h)
  let cls := bitsOf w 23 3
  let (b, _) := s.tokens33
  if s.bit (dmaR k 0x20) 24 ∧ b.credit < ((s.fld (dmaR k 0x20) 0 12 + 1) * secU : Nat) then s.setDmaState k 3
  else match s.admits 33 cls with
    | (false, s) => s.setDmaState k 3
    | (true, s) =>
      let (cell, s) := match s.takeCell 33 (s.reservedNow 33 cls) with
        | (some i, s) => (some i, s)
        | (none, s) => (none, s.countDrop 33 8 5)
      let s := s.modDch k (fun x => { x with inFrame := true, startAt := h, flags := w, ts := s.now, body := [], cell := cell, coach := none })
      s.dmaTake k

/-- DMA_DESCRIPTOR_START at engine e. -/
def State.dmaStart (s : State) (e : Nat) : State :=
  if (s.dmaBusy e).isSome then s
  else match s.dmaPick e with
    | none => s
    | some k =>
      if s.dmaKind k = 1 ∧ !(s.dch k).inFrame ∧ dStart (s.descAt k (s.dmaHead k)) ∧ !s.descBad k (s.descAt k (s.dmaHead k)) then s.txStart k
      else s.dmaTake k

/-- DMA_TX_CONTINUE: a paused channel continues once the bucket holds HIGH tokens, or one with PACE.EN 0. -/
def State.dmaContinue (s : State) (k : Nat) : State :=
  if s.dmaState k ≠ 3 then s
  else
    let low := s.fld (dmaR k 0x20) 0 12
    let high := max (s.fld (dmaR k 0x20) 12 12) (low + 1)
    let need := (if s.bit (dmaR k 0x20) 24 then high else 1) * secU
    let (b, rate) := s.tokens33
    if (need : Int) ≤ b.credit ∨ (!s.bit (dmaR k 0x20) 24 ∧ s.path.degraded ∧ s.resClass 33 (bitsOf (dWord (s.descAt k (s.dmaHead k))) 23 3))
    then s.setDmaState k 0
    else if rate = 0 ∨ s.fld (admitR 33 0) 20 12 * secU < need then s
    else (s.advance (s.now + (((need : Int) - b.credit).toNat + rate - 1) / rate)).setDmaState k 0

/-- R307: on an RT channel, a descriptor whose DRAM range exceeds 4 KiB. -/
def State.rtBad (s : State) (k : Nat) (d : List Byte) : Bool :=
  let dram := fun (a : Except Nat Nat) => match a with
    | .ok a => s.region a == .dram
    | .error _ => false
  s.bit (dmaR k 0) 5 && decide (4096 < dLen d)
    && (dram (s.ioAddr d (dSrc d) false).1 || (s.dmaKind k == 0 && dram (s.ioAddr d (dDst d) true).1))

/-- The engine is free again, and reads the descriptor at HEAD of a channel that goes on (R309, R313). -/
def State.dmaFree (s : State) (k : Nat) : State :=
  let s := (s.modDch k (fun x => { x with desc := none, aborting := false })).setBusy (k / 16) none
  let s := if (s.dch k).disabling then (s.dmaOff k).modDch k (fun x => { x with disabling := false }) else s
  if s.dmaState k = 2 then s else (s.setDmaState k 0).headRead k

/-- The fenced search engine that the access at offset `off` of descriptor d names (R310, R373). -/
def State.fencedAt (s : State) (k : Nat) (d : List Byte) (off : Nat) : Option Nat :=
  let unit := fun (a : Except Nat Nat) => match a with
    | .ok a => if s.region a == Region.table && s.absent (unitId 5 (tableEng a)) then some (unitId 5 (tableEng a)) else none
    | .error _ => none
  (unit (s.ioAddr d (dSrc d + off) false).1).or (if s.dmaKind k = 0 then unit (s.ioAddr d (dDst d + off) true).1 else none)

/-- UNIT_FENCED of the unit that ended the descriptor with ABSENT (Table 13.2). -/
def State.raiseFenced (s : State) (u : Option Nat) : State := match u with
  | some u => s.raiseU Src.unitFenced [u + (s.unit u).epoch * 65536] u
  | none => s

/-- The descriptor at index h of channel k halts with `done` bytes moved. -/
def State.dmaHalts (s : State) (k h done code : Nat) : State :=
  let s := if code = 7 then s.raiseFenced (s.fencedAt k (s.descAt k h) done) else s
  let s := s.descHalt k h done code
  let s := if s.dmaKind k = 1 ∧ !(s.dch k).inFrame then s.modDch k (fun x => { x with startAt := h }) else s
  (if s.dmaKind k = 1 then s.txFail k else s).dmaFree k

/-- DMA_DESCRIPTOR_COMPLETE at engine e; `upTo` bytes had moved when an ABORT arrived. -/
def State.dmaComplete (s : State) (e : Fin 4) (upTo : Nat) : State :=
  match s.dmaBusy e with
  | none => s
  | some k0 =>
    let k : Fin 64 := ⟨k0 % 64, Nat.mod_lt _ (by decide)⟩
    match (s.dch k).desc with
    | none => s.setBusy e none
    | some (h, off, d) =>
      if s.descBad k d ∨ s.rtBad k d ∨ (s.dmaKind k = 1 ∧ !(s.dch k).inFrame) then s.dmaHalts k h 0 6
      else match s.dmaMove k d upTo (dLen d + 1) off with
        | (done, 0, s) =>
          let n := (s.dch k).body.length
          if s.dmaKind k = 1 ∧ (9212 < n ∨ (dEnd d ∧ n < 60)) then s.dmaHalts k h done 6
          else
            let s := if s.dmaKind k = 1 then s.txDeliver k (dEnd d) else s
            let s := (s.modDch k (fun x => { x with resume := 0 })).descClose k h done 0 0 0 d
            s.dmaFree k
        | (done, c, s) => s.dmaHalts k h done c

/-! ### Receive rings (R305, R318) -/

/-- The channel of port 33 class c, when it is an enabled RX channel whose descriptor at HEAD is owned and whose engine is free. -/
def State.ringReady (s : State) (c : Nat) : Option Nat :=
  let k := s.rxMap c
  if s.dmaEn k && s.dmaKind k == 2 && s.dmaState k == 0 && (s.dch k).owned && !s.absent (unitId 0xD k) && (s.dmaBusy (k / 16)).isNone
  then some k else none

/-- A selection at port 33: a head waits until its ring has an owned descriptor. -/
def State.selectRing (s : State) : State :=
  if s.fld (egrPR 33 4) 0 1 = 0 ∨ (s.egrPort 33).sending.isSome then s
  else match s.pickHead 33 ([7, 6, 5, 4, 3, 2, 1, 0].filter (fun c => (s.ringReady c).isSome)) with
    | (some (h, t), s) => s.startCopy h t
    | (none, s) => s

/-- The coach metadata that leads a copy in its ring: bytes 192 to 255 with KIND COPY; a frame without a coach has none that the
    spec gives. -/
def State.ringHead (s : State) (c : Option Coach) : List Byte × State := match c with
  | some c => ((c.setFld 192 27 3 3).bytes 192 64, s)
  | none => let (w, s) := s.fresh 512; (bytesLE 64 w.toNat, s)

/-- The first byte of a copy's content that lies in a yard word with an uncorrectable error: the coach cell counts as its start. -/
def State.firstBad (s : State) (cp : Copy) : Nat :=
  let bad := fun (cell w : Nat) => aget (fun _ => false) s.pool.badWords (s.bufAddr 0 cell / 32 + w)
  let first := fun (cells : List Nat) (start : Nat) =>
    (cells.zipIdx.findSome? (fun e => ((List.range 8).find? (bad e.1)).map (fun w => start + 256 * e.2 + 32 * w))).getD 0
  match cp.coach.bind s.coach with
  | some c => if (List.range 8).any (bad c.cell) then 0 else first c.cells (64 + 192)
  | none => first cp.cells 64

/-- The content fills the buffers from HEAD on. `endCode` is the code of the last descriptor of a copy written in full, or 5 where
    an uncorrectable word follows the content; `cut` bytes are not there to write. The bytes not written, and whether the ring
    ran out. -/
def State.ringFill (s : State) (k endCode stamp cut : Nat) : Nat → Bool → List Byte → Nat × Bool × State
  | 0, _, l => (l.length + cut, true, s)
  | fuel + 1, first, l =>
    let h := s.dmaHead k
    let d := s.descAt k h
    let n := min (dLen d) l.length
    let s := (s.writeBytes (dDst d) (l.take n)).dramReqs (if s.bit (dmaR k 0) 5 then 3 else 1) true (dDst d) n
    let rest := l.drop n
    let start := if first then 2 ^ 17 else 0
    if rest.isEmpty then
      if endCode = 5 then (cut, false, s.descClose k h n 5 stamp (start + 2 ^ 18 + 2 ^ 26) d)
      else (0, false, s.descClose k h n endCode stamp (start + 2 ^ 18) d)
    else
      let next := s.descAt k ((h + 1) % max 1 (s.dmaCount k))
      if dOwn next ∧ !s.descBad k next then State.ringFill (s.descClose k h n 0 0 start d) k endCode stamp cut fuel false rest
      else (rest.length + cut, true, s.descClose k h n 8 stamp (start + 2 ^ 18 + 2 ^ 26) d)

/-- A copy has been written or cut short: its counters, charge and reference. -/
def State.ringDone (s : State) (cp : Copy) (reasons : List Nat) : State :=
  let s := reasons.foldl (fun s r => s.countQ cp r) s
  let s := s.addFill 33 cp.cls (-(cp.charge : Int))
  match cp.coach with
  | some q => s.unref q
  | none => s.freeCopyCells cp

/-- RX_RING_WRITE: the copy selected at port 33 is written into its ring. -/
def State.ringWrite (s : State) (headParity bodyParity : Bool) : State :=
  match (s.egrPort 33).sending with
  | none => s
  | some cp => match s.ringReady cp.cls with
    | none => s
    | some k =>
      let c := cp.coach.bind s.coach
      let s := s.setEgrPort 33 { s.egrPort 33 with sending := none }
      let (stamp, _, s) := s.stampIn cp.ci s.now
      let s := match c with
        | some c => s.reportCopy 33 cp.ci s.now c
        | none => s
      let (meta_, s) := s.ringHead c
      let (body, s) := match c with
        | some c => s.copyFrame cp c s.now
        | none => (cp.frame, s)
      let (check, s) := s.checkCopy cp c headParity bodyParity
      let bad := s.copyBad cp
      let all := meta_ ++ body
      let keep := if bad then s.firstBad cp else all.length
      let check := check.filter (fun r => r == 10 || r == 20)
      let code := if bad then 5 else if check.isEmpty then 0 else 10
      let (lost, ran, s) := s.ringFill k code (ns16 stamp) (all.length - keep) (s.dmaCount k) true (all.take keep)
      let s := if 0 < lost then s.count (dmaR k 0x24) 0 32 lost else s
      let s :=
        if ran then
          let (x, s) := s.freshBelow 24
          ((s.raise Src.ringTrunc).countQuiet cp (x + 1)).ringDone cp []
        else if bad then s.ringDone cp [23]
        else s.ringDone cp check
      s.headRead k

/-! ### Meanings -/

/-- EGRESS_SELECTION at port q (R226); port 33 sends into receive rings (R318). -/
def execEgressSelection (q : Fin 34) (s : State) : Host.Outcome State Fault Refusal := .next (if q = 33 then s.selectRing else s.select q)

/-- DMA_ENABLE: a write of DMA_CHk_CFG with EN 1 (R308). -/
def execDmaEnable (k : Fin 64) (v : Word) (s : State) : Host.Outcome State Fault Refusal := .next (s.dmaCfgWrite k (v ||| 1))

/-- DMA_KICK (R309). -/
def execDmaKick (k : Fin 64) (s : State) : Host.Outcome State Fault Refusal := .next (s.dmaKick k)

/-- DMA_DESCRIPTOR_START at engine e (R306). -/
def execDmaDescriptorStart (e : Fin 4) (s : State) : Host.Outcome State Fault Refusal := .next (s.dmaStart e)

/-- DMA_TX_CONTINUE (R317). -/
def execDmaTxContinue (k : Fin 64) (s : State) : Host.Outcome State Fault Refusal := .next (s.dmaContinue k)

/-- DMA_DESCRIPTOR_COMPLETE at engine e; `upTo` bytes had moved when an ABORT arrived (R312). -/
def execDmaDescriptorComplete (e : Fin 4) (upTo : Nat) (s : State) : Host.Outcome State Fault Refusal := .next (s.dmaComplete e upTo)

/-- DMA_RESUME (R313). -/
def execDmaResume (k : Fin 64) (s : State) : Host.Outcome State Fault Refusal := .next (s.dmaCtlWrite k 1)

/-- DMA_SKIP (R313). -/
def execDmaSkip (k : Fin 64) (s : State) : Host.Outcome State Fault Refusal := .next (s.dmaCtlWrite k 2)

/-- DMA_ABORT (R313). -/
def execDmaAbort (k : Fin 64) (s : State) : Host.Outcome State Fault Refusal := .next (s.dmaCtlWrite k 4)

/-- RX_RING_WRITE, with the byte parity of the head and of the body (R318). -/
def execRxRingWrite (headParity bodyParity : Bool) (s : State) : Host.Outcome State Fault Refusal := .next (s.ringWrite headParity bodyParity)

/-- RING_SEEN_WRITE (R315). -/
def execRingSeenWrite (k : Fin 64) (v : Word) (s : State) : Host.Outcome State Fault Refusal := .next (s.dmaSeen k v)

end Sys2Proof.Machine
end

