-- ==== Sys2Proof/Machine/Jenitor.lean ====
section
/-!
DEFINITION. Machine/Jenitor.lean: Jenitor frames as the module takes them (R320–R326), sessions (R323, R324), acknowledgements and
the resending of notices (R334, R335), and the order in which items are performed (R327, R330).
-/
namespace Sys2Proof.Machine

/-! ### Messages -/

/-- The items of a payload, as OP and body; none where one overruns it (R321, R327). -/
def itemsOf : Nat → List Byte → Option (List (Nat × List Byte))
  | 0, l => if l.isEmpty then some [] else none
  | n + 1, l =>
    if l.isEmpty then some []
    else if l.length < 4 ∨ l.length < 4 + be l 2 2 then none
    else (itemsOf n (l.drop (4 + be l 2 2))).map (fun r => (be l 0 1, slice l 4 (be l 2 2)) :: r)

def msgKind (m : List Byte) : Nat := be m 0 1 / 16
def msgStop (m : List Byte) : Bool := be m 1 1 % 2 == 1
def msgLen (m : List Byte) : Nat := be m 2 2
def msgSession (m : List Byte) : Nat := be m 4 4
def msgSeq (m : List Byte) : Nat := be m 8 4
def msgTag (m : List Byte) : List Byte := slice m 16 16
def msgItems (m : List Byte) : Option (List (Nat × List Byte)) := itemsOf (msgLen m) (slice m 32 (msgLen m))

/-- A frame that is discarded without a response (R321). -/
def msgBad (m : List Byte) : Bool :=
  be m 0 1 % 16 != 1 || !([1, 3, 4].contains (msgKind m)) || decide (1400 < msgLen m) || decide (m.length < 32 + msgLen m)
    || (msgItems m).isNone

/-- TAG holds under a key (R322). -/
def msgSealed (key m : List Byte) : Bool :=
  (hmac key (m.take 16 ++ List.replicate 16 0#8 ++ slice m 32 (msgLen m))).take 16 == msgTag m

/-! ### Acceptance (R320–R326) -/

/-- The per-port meter: frames of the present second up to JEN_LIMIT.RX_RATE (R320). -/
def State.jenMeter (s : State) (p : Nat) : Bool × State :=
  let w := s.now / secU
  let (v, n) := aget (fun _ => (0, 0)) s.jen.meter p
  let n := (if v = w then n else 0) + 1
  let s : State := { s with jen := { s.jen with meter := aset (fun _ => (0, 0)) s.jen.meter p (w, n) } }
  (decide (n ≤ max 1 (s.fld (jenB + 8) 0 16)) || s.jenRecovery, s)

/-- The window of the last 64 numbers takes `q`, unless it has been seen or is below it (R325): highest, bitmap of H − 63 to H. -/
def windowTake (h seen q : Nat) : Option (Nat × Nat) :=
  if h < q then some (q, if 64 ≤ q - h then 1 else seen * 2 ^ (q - h) % 2 ^ 64 + 1)
  else if h ≤ q + 63 ∧ !bitAt seen (h - q) then some (h, withBit seen (h - q)) else none

/-- A frame of session i is accepted: its place is kept, and parked copies are sent again (R320, R324, R334). -/
def State.jenAccepted (s : State) (i p : Nat) (vlan : Option Nat) (mac : List Byte) : State :=
  let s := (s.setSession i { s.session i with port := p, vlan := vlan, mac := mac, lastFrame := s.now }).showSession i
  let l := s.jen.notices.map (fun n => { n with copies := n.copies.map (fun c =>
    if c.session == i && c.parked then { c with parked := false, sends := 0 } else c) })
  ({ s with jen := { s.jen with notices := l } } : State).pumpNotices

/-- A seen or old command: the stored response goes out again with REPEAT, or the frame is counted (R326). -/
def State.jenRepeat (s : State) (i : Nat) (m : List Byte) : State :=
  let x := s.session i
  match x.stored.find? (fun r => r.seq == msgSeq m && r.tag == msgTag m) with
  | none => s.count (jenB + 0x1C) 0 32
  | some r =>
    let s := s.count (jenB + 0x24) 0 32
    match r.response with
    | none => s
    | some old =>
      let l := old.drop 32
      s.jenSend x.port x.vlan x.mac (jenSeal (jenHeader 2 2 l.length x.id r.seq (nsOf s.now)) l (some x.key))

/-- A COMMAND with a valid tag (R325–R327). -/
def State.jenCommand (s : State) (i p : Nat) (vlan : Option Nat) (mac m : List Byte) : State :=
  let x := s.session i
  match windowTake x.high x.seen (msgSeq m) with
  | none => s.jenRepeat i m
  | some (h, b) =>
    let stored := x.stored ++ [{ seq := msgSeq m, tag := msgTag m, response := none }]
    let s := s.setSession i { x with high := h, seen := b, stored := stored.drop (stored.length - 16) }
    let s := s.jenAccepted i p vlan mac
    let c : JenCmd := { session := i, id := x.id, role := x.role, seq := msgSeq m, tag := msgTag m, stop := msgStop m,
                        items := (msgItems m).getD [], answers := [] }
    if c.items.isEmpty then s.respond c
    else ({ s with jen := { s.jen with cmds := s.jen.cmds ++ [c] } } : State).settleItems

/-- An ACK with a valid tag (R325, R335). -/
def State.jenAck (s : State) (i p : Nat) (vlan : Option Nat) (mac m : List Byte) : State :=
  let x := s.session i
  match windowTake x.ackHigh x.ackSeen (msgSeq m) with
  | none => s.count (jenB + 0x1C) 0 32
  | some (h, b) =>
    let s := s.setSession i { x with ackHigh := h, ackSeen := b }
    let s := s.dropNotices (fun c => c.session == i && c.seq == msgSeq m && !c.bytes.isEmpty)
    s.jenAccepted i p vlan mac

/-- A NOTICE of the host is acknowledged (R320). -/
def State.jenHostNotice (s : State) (i p : Nat) (vlan : Option Nat) (mac m : List Byte) : State :=
  let s := s.jenAccepted i p vlan mac
  let x := s.session i
  s.jenSend p vlan mac (jenSeal (jenHeader 4 0 0 x.id (msgSeq m) (nsOf s.now)) [] (some x.key))

/-- A frame of session i whose tag fails (R324, R325). -/
def State.jenTagFails (s : State) (i : Nat) : State :=
  let x := s.session i
  let l := x.fails.filter (fun t => decide (s.now < t + secU)) ++ [s.now]
  let s := ((s.setSession i { x with fails := l }).count (jenB + 0x18) 0 32).raise Src.jenAuth
  if 8 ≤ l.length then s.closeSession i else s

/-- A frame of a session (R323–R326). -/
def State.jenOfSession (s : State) (i p : Nat) (vlan : Option Nat) (mac m : List Byte) : State :=
  if !msgSealed (s.session i).key m then s.jenTagFails i
  else match msgKind m with
    | 1 => s.jenCommand i p vlan mac m
    | 3 => s.jenHostNotice i p vlan mac m
    | _ => s.jenAck i p vlan mac m

/-- A COMMAND with SESSION 0 and the one item SESSION_OPEN (R323). -/
def isOpenMsg (m : List Byte) : Bool := msgKind m == 1 && msgSession m == 0 && (match msgItems m with
  | some [(op, _)] => op == 0x16
  | _ => false)

/-- A Jenitor frame, from its destination address on, without FCS, reaches port p at CI0 instant t (R320, R321). -/
def State.jenReceive (s : State) (p t : Nat) (f : List Byte) : State :=
  let s := s.advance t
  match s.jenAt p f with
  | none => s
  | some o =>
    if !s.bit (egrPR p 4) 0 then s
    else
      let m := f.drop o
      let vlan := if o = 18 then some (be f 14 2 % 4096) else none
      let mac := slice f 6 6
      match s.jenMeter p with
      | (false, s) => s.count (jenB + 0x28) 0 32
      | (true, s) =>
        let s := s.count (jenB + 0x14) 0 32
        if msgBad m then s.count (jenB + 0x20) 0 32
        else if isOpenMsg m then
          let c : JenCmd := { session := 16, seq := msgSeq m, tag := msgTag m, stop := false, items := (msgItems m).getD [],
                              answers := [], origin := some ⟨p, vlan, mac, m⟩ }
          ({ s with jen := { s.jen with cmds := s.jen.cmds ++ [c] } } : State).settleItems
        else match (List.range 16).find? (fun i => (s.session i).isOpen && (s.session i).id == msgSession m) with
          | some i => s.jenOfSession i p vlan mac m
          | none => (s.count (jenB + 0x18) 0 32).raise Src.jenSession

/-! ### Performing an item -/

/-- How an item ends: answered with a status and a body, or pending until its operation completes (R330). -/
inductive Answer where
  | done (status : Nat) (body : List Byte)
  | wait
  deriving DecidableEq, Repr

/-- The commands of RECOVERY (R349). -/
def recoveryItem (op : Nat) (b : List Byte) : Bool :=
  [0x01, 0x07, 0x0C, 0x0D, 0x16, 0x17].contains op || (op == 0x0E && be b 5 1 == 1 && be b 6 1 == 1)

/-- Payload bytes the answers so far take. -/
def JenCmd.used (c : JenCmd) : Nat := c.payload.length

/-- The item in front is performed by `f`, when it is one of OP `op` whose body satisfies `p`; `size` bounds its answer's body
    (R327, R328, R349). -/
def State.perform (s : State) (op role : Nat) (p : List Byte → Bool) (size : List Byte → Nat)
    (f : JenCmd → List Byte → State → Answer × State) : State :=
  match s.front with
  | none => s
  | some (i, c, o, b) =>
    if o ≠ op ∨ !itemKnown c o b ∨ !p b then s
    else if (s.fld bootB 0 4 = 8 ∧ !recoveryItem op b) ∨ c.role < role then (s.finishItem i 7 []).settleItems
    else if 1400 < c.used + 4 + size b then (s.finishItem i 2 [] true).settleItems
    else match f c b s with
      | (.done st body, s) => (s.finishItem i st body).settleItems
      | (.wait, s) => ({ s with jen := { s.jen with cmds := s.jen.cmds.set i { c with waiting := true } } } : State).settleItems

def anyBody (_ : List Byte) : Bool := true
def bodyIs (n : Nat) (_ : List Byte) : Nat := n
def byteIs (i v : Nat) (b : List Byte) : Bool := be b i 1 == v

/-- A waiting item satisfies `p`: a second command of the same kind receives BUSY (R330). -/
def State.awaits (s : State) (p : Nat → List Byte → Bool) : Bool :=
  s.jen.cmds.any (fun c => c.waiting && (match c.items with
    | (op, b) :: _ => p op b
    | [] => false))

/-- STATE of a unit as Jenitor shows it (Table 14.3): the rewind store reads OFF while REW_STAT does (R251). -/
def State.stateOf (s : State) (u : Nat) : Nat := if u = 0x0E00 ∧ s.rewState = 0 then 8 else (s.unit u).state

def State.stateGen (s : State) (u : Nat) : List Byte := bytesBE 1 (s.stateOf u) ++ bytesBE 2 (s.unit u).gen

/-- A command that carries GEN is performed only when it equals the unit's (R332). -/
def State.ifGen (s : State) (u gen : Nat) (f : State → Answer × State) : Answer × State :=
  if gen ≠ (s.unit u).gen then (.done 4 (s.stateGen u), s.raise Src.stateStale) else f s

/-! ### Sessions and notices: the commands -/

/-- The host key that a SESSION_OPEN names: role and 32 bytes (R323, R349). -/
def State.openKey (s : State) (k : Nat) : Option (Nat × List Byte) :=
  if k = 15 ∧ s.jenRecovery then s.store.recoveryKey.map (fun key => (2, key))
  else match aget (fun _ => []) s.jen.keys k with
    | r :: key => if k < 8 then some (r.toNat, key) else none
    | [] => none

/-- BAD_AUTH, TAG 0, at most once per second per port (R323). -/
def State.badAuth (s : State) (c : JenCmd) (p : Nat) : State :=
  if (aget (fun _ => none) s.jen.badAuth p).any (fun t => decide (s.now < t + secU)) then s
  else
    let s : State := { s with jen := { s.jen with badAuth := aset (fun _ => none) s.jen.badAuth p (some s.now) } }
    s.respondOpen { c with answers := [(0x16, 1, [])] } none

/-- SESSION_OPEN (R323): item body `b`, message from `o`. -/
def State.sessionOpen (s : State) (c : JenCmd) (o : JenOrigin) (b : List Byte) : State :=
  match s.openKey (be b 0 1) with
  | none => s.badAuth c o.port
  | some (role, key) =>
    if !msgSealed key o.msg then s.badAuth c o.port
    else match (List.range 16).find? (fun i => !(s.session i).isOpen) with
      | none => s.respondOpen { c with answers := [(0x16, 5, [])] } (some key)
      | some i =>
        let opens := (s.session i).opens + 1
        let id := (opens * 16 + i) % 2 ^ 32
        let (nd, s) := s.fresh 128
        let nd := bytesBE 16 nd.toNat
        let granted := min (be b 1 1) role
        let sk := hmac key (bytesBE 4 0x4A4E534B ++ slice b 2 16 ++ nd ++ bytesBE 4 id)
        let s := s.setSession i { isOpen := true, id := id, key := sk, role := granted, keyId := be b 0 1, port := o.port,
                                  vlan := o.vlan, mac := o.mac, lastFrame := s.now, opens := opens }
        (s.showSession i).respondOpen { c with answers := [(0x16, 0, bytesBE 4 id ++ bytesBE 1 granted ++ nd)] } (some key)

/-- The SESSION_OPEN in front is performed. -/
def State.openFront (s : State) : State :=
  match s.front with
  | some (i, c, op, b) =>
    match (if op = 0x16 ∧ itemKnown c op b then c.origin else none) with
    | some o =>
      let s : State := { s with jen := { s.jen with cmds := s.jen.cmds.eraseIdx i } }
      (s.sessionOpen c o b).settleItems
    | none => s
  | none => s

/-- SESSION_CLOSE: the session closes when the response has been sent (R324). -/
def State.closeFront (s : State) : State :=
  match s.front with
  | some (i, c, op, b) =>
    if op ≠ 0x17 ∨ !itemKnown c op b then s
    else if 1400 < c.used + 4 then (s.finishItem i 2 [] true).settleItems
    else
      let s : State := { s with jen := { s.jen with cmds := s.jen.cmds.set i { c with closing := true } } }
      (s.finishItem i 0 []).settleItems
  | none => s

/-- SESSION_IDLE_CLOSE of session index i (R324). -/
def State.idleClose (s : State) (i : Nat) : State :=
  let n := s.fld (jenB + 8) 16 16
  let x := s.session i
  if n = 0 ∨ !x.isOpen then s else (s.advance (x.lastFrame + n * secU)).closeSession i

/-- NOTICE_CONFIG (R333). -/
def State.noticeConfig (c : JenCmd) (b : List Byte) (s : State) : Answer × State :=
  let m := be b 0 2
  if 512 ≤ m then (.done 2 [], s)
  else
    let s := if s.cmdLive c then (s.setSession c.session { s.session c.session with mask := m }).showSession c.session else s
    (.done 0 (bytesBE 2 m), s)

/-- The copy that is due first: its entry, its place there, and its instant (R334). -/
def State.nextDue (s : State) : Option (Nat × Nat × Nat) :=
  let l := s.jen.notices.zipIdx.flatMap (fun e => e.1.copies.zipIdx.filterMap (fun c =>
    if 0 < c.1.sends && !c.1.parked then some (e.2, c.2, c.1.due) else none))
  l.foldl (fun (b : Option (Nat × Nat × Nat)) e => match b with
    | some x => if e.2.2 < x.2.2 then some e else b
    | none => some e) none

/-- NOTICE_RESEND: the copy due first is sent again, or parked after its eighth further send (R334). -/
def State.noticeResend (s : State) : State :=
  match s.nextDue with
  | none => s
  | some (i, j, due) =>
    let s := s.advance due
    match s.jen.notices[i]? with
    | none => s
    | some n => match n.copies[j]? with
      | none => s
      | some c =>
        let (c, s) := if 9 ≤ c.sends then ({ c with parked := true }, s) else s.sendCopy n c
        ({ s with jen := { s.jen with notices := s.jen.notices.set i { n with copies := n.copies.set j c } } } : State).pumpNotices

/-! ### Meanings -/

/-- JEN_FRAME_RECEIVE at port p (R320–R326). -/
def execJenFrameReceive (p : Fin 34) (t : Nat) (f : List Byte) (s : State) : Host.Outcome State Fault Refusal := .next (s.jenReceive p t f)

/-- JEN_ACK: a frame of KIND ACK at port p (R335). -/
def execJenAck (p : Fin 34) (t : Nat) (f : List Byte) (s : State) : Host.Outcome State Fault Refusal :=
  .next (if (s.jenAt p f).any (fun o => msgKind (f.drop o) == 4) then s.jenReceive p t f else s.advance t)

/-- SESSION_OPEN (R323). -/
def execSessionOpen (s : State) : Host.Outcome State Fault Refusal := .next s.openFront

/-- SESSION_CLOSE (R324). -/
def execSessionClose (s : State) : Host.Outcome State Fault Refusal := .next s.closeFront

/-- SESSION_IDLE_CLOSE (R324). -/
def execSessionIdleClose (i : Fin 16) (s : State) : Host.Outcome State Fault Refusal := .next (s.idleClose i)

/-- NOTICE_CONFIG (R333). -/
def execNoticeConfig (s : State) : Host.Outcome State Fault Refusal :=
  .next (s.perform 0x15 1 anyBody (bodyIs 2) State.noticeConfig)

/-- NOTICE_RESEND (R334). -/
def execNoticeResend (s : State) : Host.Outcome State Fault Refusal := .next s.noticeResend

end Sys2Proof.Machine
end

