-- ==== Sys2Proof/Machine/JenCmds.lean ====
section
/-!
DEFINITION. Machine/JenCmds.lean: the effects and answers of the Jenitor commands (R329–R332, Table 14.2). A status other than OK has
an empty body, but for STALE (R332) and STILL (Table 14.2).
-/
namespace Sys2Proof.Machine

/-! ### Access -/

/-- PING: CI0 time, TT_ID, SEQ_NO. -/
def State.ping (_ : JenCmd) (_ : List Byte) (s : State) : Answer × State :=
  (.done 0 (bytesBE 6 (secOf s.now) ++ bytesBE 4 (nsOf s.now) ++ bytesBE 4 (s.reg stnB).toNat ++ bytesBE 4 s.image.seqNo), s)

def JenCmd.requester (c : JenCmd) : Requester := .session (Fin.ofNat 16 c.session)

/-- An address that READ and WRITE reach: control space, and lock aliases (Table 15.8, R297). -/
def State.jenReach (s : State) (a : Nat) : Bool :=
  a % 4 == 0 && decide (a < 2 ^ 40) && (if a < 2 ^ 39 then inControl a else s.lockPlace (a - 2 ^ 39))

def State.jenReadWord (s : State) (c : JenCmd) (a : Nat) : Nat × State :=
  let s := if a < 2 ^ 39 then s.busRead c.requester a else s.lockAcquire c.requester (a - 2 ^ 39)
  (s.got, s)

def State.jenRead (c : JenCmd) (b : List Byte) (s : State) : Answer × State :=
  let a := be b 0 8
  if !s.jenReach a then (.done 2 [], s)
  else let (v, s) := s.jenReadWord c a; (.done 0 (bytesBE 4 v), s)

def State.jenWrite (c : JenCmd) (b : List Byte) (s : State) : Answer × State :=
  let a := be b 0 8
  let v := BitVec.ofNat 32 (be b 8 4)
  if !s.jenReach a then (.done 2 [], s)
  else (.done 0 [], if a < 2 ^ 39 then s.busWrite c.requester a v else s.lockAliasStore c.requester (a - 2 ^ 39) v)

def State.jenReadBlock (c : JenCmd) (b : List Byte) (s : State) : Answer × State :=
  let a := be b 0 8
  let n := be b 8 2
  if n = 0 ∨ 344 < n ∨ !(List.range n).all (fun k => s.jenReach (a + 4 * k)) then (.done 2 [], s)
  else
    let (l, s) := (List.range n).foldl (fun (acc : List Byte × State) k =>
      let (v, s) := acc.2.jenReadWord c (a + 4 * k)
      (acc.1 ++ bytesBE 4 v, s)) ([], s)
    (.done 0 l, s)

/-! ### Tables and tenses -/

/-- TABLE_WRITE: TARGET, OP, GROUP, ENTRY, record (R185, R213). -/
def State.tableWrite (_ : JenCmd) (b : List Byte) (s : State) : Answer × State :=
  let op := be b 1 1
  let g := be b 2 1
  let e := be b 3 4
  let r := b.drop 7
  if be b 0 1 = 0 then
    if s.cls.upd.isSome then (.done 5 [], s)
    else
      let st := if 32 ≤ g ∨ 2 ^ 18 ≤ e then 2 else s.clauseStatus op g e r
      if st ≠ 0 then (.done st [], s) else (.wait, s.clauseStart op g e r true)
  else if s.cls.fwdUpd.isSome then (.done 5 [], s)
  else
    let r := r ++ List.replicate (640 - r.length) 0#8
    let st := s.fwdStatus op r
    if st ≠ 0 then (.done st [], s) else (.wait, s.fwdStart op r true)

/-- The size of TABLE_WRITE's answer: a record for READ. -/
def tableSize (b : List Byte) : Nat :=
  if be b 0 1 = 0 then (if be b 1 1 = 5 then 256 else 0) else if be b 1 1 = 10 then 576 else 0

def State.tenseItem (f : State → Nat × State) (waits : Bool) (_ : JenCmd) (b : List Byte) (s : State) : Answer × State :=
  s.ifGen (unitId 0xF 0) (be b 1 2) (fun s =>
    let (st, s) := f s
    if st ≠ 0 then (.done st [], s) else if waits then (.wait, s) else (.done 0 s.tenseBody, s))

/-! ### Units -/

/-- STATE_QUERY; the spec does not say what the detail holds: a free value. -/
def State.stateQuery (_ : JenCmd) (b : List Byte) (s : State) : Answer × State :=
  let u := be b 0 2
  if !s.unitExists u then (.done 6 [], s)
  else
    let (d, s) := s.fresh 32
    (.done 0 (s.stateGen u ++ bytesBE 1 (s.unit u).epoch ++ bytesBE 4 d.toNat), s)

/-- The source that fenced the unit under class C is pending (R366). -/
def State.fencePending (s : State) (u : Nat) (forReset : Bool) : Bool := match (s.unit u).fencedBy with
  | some x => (s.unit u).state == 1 && s.pending? x && !(forReset && u / 256 == 9 && x == Src.lane (u % 256))
  | none => false

/-- A UNIT_RESET on a unit that it can act on, with its GEN. -/
def State.unitItem (f : Nat → State → Answer × State) (_ : JenCmd) (b : List Byte) (s : State) : Answer × State :=
  let u := be b 0 2
  if !resettable u then (.done 2 [], s)
  else if !s.unitExists u then (.done 6 [], s)
  else s.ifGen u (be b 2 2) (f u)

/-- MODE 0 (R374). -/
def State.unitReset (u : Nat) (s : State) : Answer × State :=
  let x := s.unit u
  if (aget (fun _ => none) s.jen.resets u).isSome ∨ x.state = 2 then (.done 5 [], s)
  else if x.state = 6 ∨ s.fencePending u true then (.done 3 [], s)
  else
    let s := (s.afterFence u).resetBegin u
    (.wait, s.setUnit u { s.unit u with fencedBy := none })

/-- MODE 1 (R373). -/
def State.unitFence (u : Nat) (s : State) : Answer × State :=
  let x := s.unit u
  if x.state = 2 then (.done 5 [], s)
  else if x.state = 1 ∨ x.state = 6 then (.done 3 [], s)
  else let s := (s.afterFence u).fenceUnit u none; (.done 0 (s.stateGen u), s)

/-- MODE 2 (R374). -/
def State.unitUnfence (u : Nat) (s : State) : Answer × State :=
  if (s.unit u).state = 2 then (.done 5 [], s)
  else if (s.unit u).state ≠ 1 ∨ s.fencePending u false then (.done 3 [], s)
  else let s := s.unfence u; (.done 0 (s.stateGen u), s)

/-- The pending UNIT_RESET of a unit is answered. -/
def State.resetAnswer (s : State) (u : Nat) : State :=
  let s : State := { s with jen := { s.jen with resets := aset (fun _ => none) s.jen.resets u none } }
  s.answer (fun op b => op == 8 && be b 4 1 == 0 && be b 0 2 == u) 0 (s.stateGen u)

/-- UNIT_RESET_DONE: a lane or a port is ACTIVE with its link-up, any other unit is unfenced now (R374). -/
def State.resetDone (s : State) (u : Nat) : State :=
  if (aget (fun _ => none) s.jen.resets u).isNone then s
  else if trains u then (if (s.unit u).state = 0 then s.resetAnswer u else s)
  else if (s.unit u).state = 2 then (s.unfence u).resetAnswer u
  else s

/-- UNIT_RESET_TIMEOUT: 2 s after the command was performed (R374). -/
def State.resetTimeout (s : State) (u : Nat) : State := match aget (fun _ => none) s.jen.resets u with
  | some t => (s.advance (t + 2 * secU)).resetAnswer u
  | none => s

def State.lockBreakItem (_ : JenCmd) (b : List Byte) (s : State) : Answer × State :=
  let (st, s) := s.breakLock (be b 0 8)
  (.done st [], s)

/-- AUDIT_READ: OWNER, USED, OLDEST_MS, POOL, CNT0–CNT4 (R246). -/
def State.auditRead (_ : JenCmd) (b : List Byte) (s : State) : Answer × State :=
  let e := be b 0 2
  if 255 < e then (.done 2 [], s)
  else
    let x := s.auditAt e
    let (o, u) := s.auditOwner e
    (.done 0 (bytesBE 2 o ++ bytesBE 1 (if u then 1 else 0) ++ bytesBE 2 (satur 16 x.oldestMs) ++ bytesBE 1 x.oldestPool
      ++ (List.range 5).flatMap (fun k => bytesBE 4 (x.counts.getD k 0))), s)

/-! ### Faults and the journal -/

/-- FAULT_CLEAR (R364): the bitmap as FLT_PEND0 to FLT_PEND7, each most significant byte first. Naming all sources, it rearms FLT_FIRST
    where no pending bit remains (R365). -/
def State.faultClear (_ : JenCmd) (b : List Byte) (s : State) : Answer × State :=
  let x := be b 0 2
  if 255 < x ∧ x ≠ 0xFFFF then (.done 2 [], s)
  else
    let (still, s) := (if x = 0xFFFF then List.range 256 else [x]).foldl (fun (acc : Bool × State) i =>
      let (still, s) := acc.2.clearPend i
      (acc.1 || still, s)) (false, s)
    let s := if x = 0xFFFF ∧ (List.range 256).all (fun i => !s.pending? i) then s.rearm else s
    (.done (if still then 8 else 0) ((List.range 8).flatMap (fun w => bytesBE 4 (s.reg (pendR w)).toNat)), s)

/-- The journal's records in ascending order of their numbers. -/
def insertRec (r : List Byte) : List (List Byte) → List (List Byte)
  | [] => [r]
  | x :: rest => if le x 0 4 < le r 0 4 then x :: insertRec r rest else r :: x :: rest

def State.journal (s : State) : List (List Byte) :=
  ((s.flt.mram.map (·.2)) ++ s.flt.ramRing).foldl (fun l r => insertRec r l) []

/-- JOURNAL_READ; with no record to return the spec does not say what FIRST holds: a free value. -/
def State.journalRead (_ : JenCmd) (b : List Byte) (s : State) : Answer × State :=
  let n := be b 4 1
  if n = 0 ∨ 21 < n then (.done 2 [], s)
  else
    let l := (s.journal.filter (fun r => decide (be b 0 4 ≤ le r 0 4))).take n
    let (d, s) := s.fresh 32
    let first := match l with
      | r :: _ => le r 0 4
      | [] => d.toNat
    let read := (l.map (fun r => le r 0 4)).filter (fun k => s.flt.ramRing.any (fun r => le r 0 4 == k) && !s.flt.ramRead.contains k)
    let s : State := { s with flt := { s.flt with ramRead := s.flt.ramRead ++ read } }
    (.done 0 (bytesBE 4 first ++ l.flatMap id), s)

/-! ### Images (R353) -/

/-- IMAGE_WRITE is under way to a slot. -/
def State.writingSlot (s : State) (slot : Nat) : Bool := match s.jen.imageWrite with
  | some (x, _, _) => x == slot
  | none => false

def State.imageWriteItem (_ : JenCmd) (b : List Byte) (s : State) : Answer × State :=
  let slot := be b 0 1
  let o := be b 1 4
  let l := b.drop 5
  if 1 < slot ∨ o % 256 ≠ 0 ∨ 2 ^ 26 < o + l.length then (.done 2 [], s)
  else if s.image.valid ∧ s.image.slot = slot then (.done 3 [], s)
  else if s.jen.imageWrite.isSome then (.done 5 [], s)
  else (.wait, { s with jen := { s.jen with imageWrite := some (slot, o, l) } })

/-- Bytes are programmed from offset `o` on: the spec does not say what programming a byte that is not erased gives. -/
def State.program (s : State) (slot o : Nat) : List Byte → State
  | [] => s
  | x :: rest =>
    let (d, s) := s.fresh 8
    let v := if s.norByte slot o = 0xFF#8 then x else d
    let put := fun (m : Map Byte) => aset (fun _ => 0xFF#8) m o v
    let s : State := if slot = 0 then { s with store := { s.store with norA := put s.store.norA } }
      else { s with store := { s.store with norB := put s.store.norB } }
    State.program s slot (o + 1) rest

/-- The 64 KiB sector at offset `o` is erased (Table 14.2). -/
def State.eraseSector (s : State) (slot o : Nat) : State :=
  let cut := fun (m : Map Byte) => m.filter (fun e => decide (e.1 < o ∨ o + 65536 ≤ e.1))
  if slot = 0 then { s with store := { s.store with norA := cut s.store.norA } }
  else { s with store := { s.store with norB := cut s.store.norB } }

/-- IMAGE_WRITE_DONE (R330). -/
def State.imageWritten (s : State) : State := match s.jen.imageWrite with
  | none => s
  | some (slot, o, l) =>
    let s := if o % 65536 = 0 then s.eraseSector slot o else s
    let s := s.program slot o l
    let s : State := { s with jen := { s.jen with imageWrite := none } }
    s.answer (fun op _ => op == 0x0D) 0 []

/-- The image of a slot, where it passes R340 to R344 and the load checks. -/
def State.verifySlot (s : State) (slot : Nat) : Option (List Byte) :=
  let h := s.norBytes slot 0 256
  if (s.headerJudge slot h).1 ≠ 1 then none
  else
    let img := s.norBytes slot 0 (imageLen h)
    if (s.imageFault slot img).isSome then none
    else if (((s.freshPath.takeImage slot img).excludeChannel img).applyAll img).1.isSome then none else some img

/-- A valid image with the SEQ_NO named, above the running one. -/
def State.goodImage (s : State) (slot seq : Nat) : Option (List Byte) :=
  (s.verifySlot slot).filter (fun img => imageSeq img == seq && (!s.image.valid || decide (s.image.seqNo < seq)))

/-- Bytes of the running image, as its slot holds them. -/
def State.runningImage (s : State) : List Byte := s.norBytes s.image.slot 0 s.image.len

/-- R35 for two timetables. -/
def ttCompatible (old new : Timetable) : Bool :=
  new.compat == old.id && new.rate == old.rate && new.resRate == old.resRate && new.wheels == old.wheels
    && (List.range 16).all (fun n =>
      let a := old.station n
      let b := new.station n
      a.l == b.l && a.d == b.d && a.ndisp == b.ndisp && a.linkLo == b.linkLo && a.linkHi == b.linkHi && a.data == b.data
        && decide (b.w ≤ a.w ∧ b.sn ≤ a.sn))

/-- MODE 1 without RESTART may be performed: every section but TIMETABLE is byte-identical, the timetable compatible, the path runs
    (R35, R353). -/
def State.mayActivate (s : State) (img : List Byte) : Bool :=
  let run := s.runningImage
  let same := (List.range 16).all (fun t => t == 1 || sectionOf img t == sectionOf run t)
  let tt := ((sectionOf img 1).bind settingList).map (fun p => timetableOf p.2)
  let set := fun (i : List Byte) => ((sectionOf i 1).bind settingList).map (·.1)
  s.pathRun && same && set img == set run && tt.any (ttCompatible s.image.tt)

/-- A migration is under way: of a core, a clause block, a yard bank, a DRAM channel or a lane. -/
def State.migrating (s : State) : Bool :=
  (List.range 16).any (fun n => (s.migOf n).isSome) || s.cls.blockMove.isSome || s.pool.bankMove.isSome || s.smc.retiring.isSome
    || s.cbus.swap.isSome

/-- What IMAGE_ACTIVATE refuses before it verifies the slot. -/
def State.activateItem (f : Nat → Nat → State → Answer × State) (_ : JenCmd) (b : List Byte) (s : State) : Answer × State :=
  let slot := be b 0 1
  let mode := be b 5 1
  if 1 < slot then (.done 2 [], s)
  else s.ifGen (unitId 0x10 0) (be b 7 2) (fun s =>
    if s.jen.activate.isSome ∨ s.writingSlot slot ∨ (mode = 1 ∧ (s.commitBusy ∨ s.migrating)) then (.done 5 [], s)
    else f slot (be b 1 4) s)

/-- MODE 0: the slot is verified. -/
def State.activateNext (slot seq : Nat) (s : State) : Answer × State :=
  (.wait, { s with jen := { s.jen with activate := some (slot, seq, 0) } })

/-- IMAGE_VERIFY_DONE (R330, R353). -/
def State.verified (s : State) : State := match s.jen.activate with
  | some (slot, seq, 0) =>
    let ok := (s.goodImage slot seq).isSome
    let s : State := { s with jen := { s.jen with activate := none } }
    s.answer (fun op _ => op == 0x0E) (if ok then 0 else 3) []
  | _ => s

/-- MODE 1 without RESTART: the new legs are loaded beside the old ones and wait for the epoch boundary (R35). -/
def State.activateNow (slot seq : Nat) (s : State) : Answer × State :=
  match s.goodImage slot seq with
  | none => (.done 3 [], s)
  | some img =>
    if !s.mayActivate img then (.done 3 [], s)
    else
      let tt := ((((sectionOf img 1).bind settingList).map (fun p => timetableOf p.2))).getD {}
      let s := (List.range 160).foldl (fun s c =>
        if (s.roleOf c).serves then s.loadCode c (1 - s.path.legHalf) (tt.station (c / 10)) else s) s
      (.wait, { s with image := { s.image with next := some (slot, tt) }, jen := { s.jen with activate := some (slot, seq, 1) } })

/-- The frame last put into a queue of port p leaves the module before anything else happens (R353). -/
def State.sentFirst (s : State) (p : Nat) : State := match (s.queue p (s.fld jenB 28 3)).getLast? with
  | some cp =>
    let x : Sent := ⟨fcsFrame (cp.frame ++ List.replicate (60 - cp.frame.length) 0) false, false, s.now⟩
    { s with egr := { s.egr with sent := aset (fun _ => {}) s.egr.sent p x } }
  | none => s

/-- The warm restart of R353: every session closes, and the sequence of R350 goes on from image load on the slot. In RECOVERY the
    module starts afresh (R349). -/
def State.warmRestart (s : State) (slot : Nat) : State :=
  if s.fld bootB 0 4 = 8 then s.moduleReset 0
  else
    let s := (s.bumpGen (unitId 0x10 0)).eventNotice 2
    ((s.restartLoad slot s.image.ports).setSysCause 4).setBit bootB 6 true

/-- IMAGE_ACTIVATE with MODE 1 and RESTART: the response is sent before the restart begins. -/
def State.activateRestart (s : State) : State :=
  match s.front with
  | some (i, c, op, b) =>
    if op ≠ 0x0E ∨ !itemKnown c op b ∨ be b 5 1 ≠ 1 ∨ be b 6 1 ≠ 1 then s
    else if c.role < 2 then (s.finishItem i 7 []).settleItems
    else if 1400 < c.used + 4 then (s.finishItem i 2 [] true).settleItems
    else match State.activateItem (fun slot seq s => (.done (if (s.goodImage slot seq).isSome then 0 else 3) [], s)) c b s with
      | (.done 0 _, s) =>
        let p := (s.session c.session).port
        ((s.finishItem i 0 [] true).sentFirst p).warmRestart (be b 0 1)
      | (.done st body, s) => (s.finishItem i st body).settleItems
      | (.wait, s) => s
  | none => s

/-! ### Time -/

/-- TIME_SET (R64, R65): CI, AT, MODE, SEC, NS. The registers of R64 take the values. -/
def State.timeSet (_ : JenCmd) (b : List Byte) (s : State) : Answer × State :=
  let n := be b 0 1
  let atSec := be b 1 6
  let atNs := be b 7 4
  let abs := be b 11 1 = 1
  let sec : BitVec 48 := BitVec.ofNat 48 (be b 12 6)
  let ns : Word := BitVec.ofNat 32 (be b 18 4)
  let instant := (atSec * 1000000000 + atNs) * nsU
  let nsBad := if abs then decide (999999999 < ns.toNat) else decide (999999999 < ns.toInt.natAbs)
  if n = 0 ∨ 8 < n ∨ 999999999 < atNs ∨ instant < s.now + usU ∨ s.now + 10 * secU < instant ∨ nsBad
      ∨ (¬ abs ∧ (sec.toInt < -(2 ^ 31) ∨ 2 ^ 31 ≤ sec.toInt)) then (.done 2 [], s)
  else if s.awaits (fun op _ => op == 0x0F) then (.done 5 [], s)
  else
    let s := (s.setReg (ciR n 0x20) (BitVec.ofNat 32 atSec)).setReg (ciR n 0x24) (BitVec.ofNat 32 atNs)
    let s := (s.setReg (ciR n 0x28) (sec.truncate 32)).setReg (ciR n 0x2C) ns
    let s := (s.setBit (ciR n 0x30) 1 abs).setFld (ciR n 0x30) 16 16 (sec.toNat / 2 ^ 32)
    let a : ArmedStep := ⟨instant, abs, sec, ns⟩
    if s.stepRefused n a atNs then (.done 3 [], s.refuseStep n)
    else
      let s := s.armStep n a atNs
      (.wait, s.setInst n { s.inst n with jenWaits := true })

/-- TIME_ADJUST KIND INCR (R62): the value committed. -/
def State.adjustIncr (_ : JenCmd) (b : List Byte) (s : State) : Answer × State :=
  let n := be b 0 1
  if n = 0 ∨ 8 < n then (.done 2 [], s)
  else let s := s.commitIncr n (be b 2 8); (.done 0 (bytesBE 8 (s.inst n).incr), s)

/-- TIME_ADJUST KIND SLEW (R63): AMOUNT and RATE take the values. -/
def State.adjustSlew (_ : JenCmd) (b : List Byte) (s : State) : Answer × State :=
  let n := be b 0 1
  let v := (BitVec.ofNat 64 (be b 2 8)).toInt
  let r := be b 10 2
  if n = 0 ∨ 8 < n ∨ v < -(2 ^ 31) ∨ 2 ^ 31 ≤ v then (.done 2 [], s)
  else
    let s := (s.setReg (ciR n 0x18) (BitVec.ofInt 32 v)).setFld (ciR n 0x1C) 0 9 (min 511 r)
    (.done 0 (bytesBE 8 0), s.startSlew n v r)

/-! ### The rewind store -/

def State.freezeItem (_ : JenCmd) (_ : List Byte) (s : State) : Answer × State :=
  if s.rewState = 0 then (.done 3 [], s)
  else let s := s.rewTrigger 1 0; (.done 0 (bytesBE 1 s.rewState), s)

def State.resumeItem (_ : JenCmd) (_ : List Byte) (s : State) : Answer × State := match s.rewResume with
  | (true, s) => (.done 0 (bytesBE 1 s.rewState), s)
  | (false, s) => (.done 3 [], s)

/-- REWIND_DRAIN START: FROM and TO stand in REW_DRAIN_FROM and REW_DRAIN_TO (R253). -/
def State.drainItem (_ : JenCmd) (b : List Byte) (s : State) : Answer × State :=
  let lo := be b 1 8
  let hi := be b 9 8
  match s.drainStart lo hi with
  | (true, s) =>
    let s := (s.setReg (rewB + 0x60) (BitVec.ofNat 32 lo)).setReg (rewB + 0x64) (BitVec.ofNat 32 (lo / 2 ^ 32))
    (.done 0 [], (s.setReg (rewB + 0x68) (BitVec.ofNat 32 hi)).setReg (rewB + 0x6C) (BitVec.ofNat 32 (hi / 2 ^ 32)))
  | (false, s) => (.done 3 [], s)

def State.drainAbortItem (_ : JenCmd) (_ : List Byte) (s : State) : Answer × State := match s.drainAbort with
  | (true, s) => (.done 0 [], s)
  | (false, s) => (.done 3 [], s)

/-! ### Placement (R12, R352) -/

/-- Physical part i of a class as PLACEMENT_READ lists it: its UNIT, its logical unit where it serves one, its ROLE. -/
def State.placed (s : State) (cls i : Nat) : Nat × Option Nat × Nat :=
  let gone := fun (u : Nat) (r : Nat) => if (s.unit u).state = 6 then 3 else r
  match cls with
  | 1 =>
    let u := unitId 2 i
    match s.roleOf i with
    | .service k => (u, some (i / 10 * 16 + k), 0)
    | .leaving k => (u, some (i / 10 * 16 + k), 0)
    | .spare => (u, none, 2)
    | .retired => (u, none, 3)
    | .failed => (u, none, 3)
    | _ => (u, none, 1)
  | 3 =>
    let u := unitId 4 i
    match (List.range 48).find? (fun b => s.blockPhys b == i) with
    | some b => (u, some b, 0)
    | none => (u, none, if s.cls.blockTesting = some i then 1 else if s.cls.blockBad.contains i then 3 else gone u 2)
  | 7 =>
    let u := unitId 7 i
    match (List.range 192).find? (fun b => s.bankPhys b == i) with
    | some b => (u, some b, 0)
    | none => (u, none, gone u 2)
  | 8 =>
    let u := unitId 8 i
    match s.retiredCh with
    | some x => if i = x then (u, none, 3) else (u, some (if x < i then i - 1 else i), 0)
    | none => (u, some i, 0)
  | _ =>
    let u := unitId 9 i
    let carried := fun (l : Nat) => s.fld (laneB + l * 0x10 + 4) 2 2
    if i < 32 then (if carried i = 0 then (u, some i, 0) else (u, none, 3))
    else match (List.range 32).find? (fun l => carried l == i - 31) with
      | some l => (u, some l, 0)
      | none => (u, none, gone u 2)

def placedCount (cls : Nat) : Nat := match cls with
  | 1 => 160
  | 3 => 52
  | 7 => 200
  | 8 => 16
  | _ => 34

/-- PLACEMENT_READ: parts in ascending order of their physical numbers from INDEX on, as many as fit the response; LOGICAL of a part
    that serves no logical unit is a free value. -/
def State.placementRead (c : JenCmd) (b : List Byte) (s : State) : Answer × State :=
  let cls := be b 0 1
  let i := be b 1 2
  if !([1, 3, 7, 8, 9].contains cls) then (.done 2 [], s)
  else
    let n := min ((1400 - c.used - 8) / 8) (placedCount cls - i)
    let (l, s) := (List.range n).foldl (fun (acc : List Byte × State) k =>
      let (u, logical, role) := acc.2.placed cls (i + k)
      let (d, s) := acc.2.fresh 16
      (acc.1 ++ bytesBE 2 (logical.getD d.toNat) ++ bytesBE 2 (i + k) ++ bytesBE 1 (s.unit u).state ++ bytesBE 1 role
        ++ bytesBE 2 (s.unit u).gen, s)) ([], s)
    let next := if i + n < placedCount cls then i + n else 0xFFFF
    (.done 0 (bytesBE 2 n ++ bytesBE 2 next ++ l), s)

/-- SPARE_RETIRE of a physical part (Table 14.3). -/
def State.retireItem (_ : JenCmd) (b : List Byte) (s : State) : Answer × State :=
  let u := be b 0 2
  if !([2, 4, 7, 8].contains (u / 256) || (u / 256 == 9 && decide (u % 256 < 32))) then (.done 2 [], s)
  else if !s.unitExists u then (.done 6 [], s)
  else s.ifGen u (be b 2 2) (fun s => let (st, s) := s.spareRetire u; (.done st [], s))

/-! ### Meanings: each performs the item in front when it is this command (R327, R330) -/

/-- PING (R329). -/
def execPing (s : State) : Host.Outcome State Fault Refusal := .next (s.perform 0x01 0 anyBody (bodyIs 18) State.ping)

/-- READ (R329). -/
def execRead (s : State) : Host.Outcome State Fault Refusal := .next (s.perform 0x02 0 anyBody (bodyIs 4) State.jenRead)

/-- WRITE (R329). -/
def execWrite (s : State) : Host.Outcome State Fault Refusal := .next (s.perform 0x03 2 anyBody (bodyIs 0) State.jenWrite)

/-- READ_BLOCK (R329). -/
def execReadBlock (s : State) : Host.Outcome State Fault Refusal :=
  .next (s.perform 0x04 0 anyBody (fun b => if be b 8 2 ≤ 344 then 4 * be b 8 2 else 0) State.jenReadBlock)

/-- TABLE_WRITE (R329). -/
def execTableWrite (s : State) : Host.Outcome State Fault Refusal := .next (s.perform 0x05 1 anyBody tableSize State.tableWrite)

/-- TENSE_COMMIT with ACTION COMMIT (R188, R329). -/
def execTenseCommit (s : State) : Host.Outcome State Fault Refusal :=
  .next (s.perform 0x06 1 (byteIs 0 0) (bodyIs 4) (State.tenseItem State.commitReq true))

/-- TENSE_COMMIT with ACTION ABORT (R190, R329). -/
def execTenseCommitAbort (s : State) : Host.Outcome State Fault Refusal :=
  .next (s.perform 0x06 1 (byteIs 0 1) (bodyIs 4) (State.tenseItem State.abortReq false))

/-- TENSE_COMMIT with ACTION VOID (R190, R329). -/
def execTenseCommitVoid (s : State) : Host.Outcome State Fault Refusal :=
  .next (s.perform 0x06 1 (byteIs 0 2) (bodyIs 4) (State.tenseItem State.voidReq false))

/-- STATE_QUERY (R329). -/
def execStateQuery (s : State) : Host.Outcome State Fault Refusal := .next (s.perform 0x07 0 anyBody (bodyIs 8) State.stateQuery)

/-- UNIT_RESET with MODE 0 (R374). -/
def execUnitReset (s : State) : Host.Outcome State Fault Refusal :=
  .next (s.perform 0x08 2 (byteIs 4 0) (bodyIs 3) (State.unitItem State.unitReset))

/-- UNIT_FENCE: UNIT_RESET with MODE 1 (R373). -/
def execUnitFence (s : State) : Host.Outcome State Fault Refusal :=
  .next (s.perform 0x08 2 (byteIs 4 1) (bodyIs 3) (State.unitItem State.unitFence))

/-- UNIT_UNFENCE: UNIT_RESET with MODE 2 (R374). -/
def execUnitUnfence (s : State) : Host.Outcome State Fault Refusal :=
  .next (s.perform 0x08 2 (byteIs 4 2) (bodyIs 3) (State.unitItem State.unitUnfence))

/-- UNIT_RESET_DONE of a unit (R374). -/
def execUnitResetDone (u : BitVec 16) (s : State) : Host.Outcome State Fault Refusal := .next (s.resetDone u.toNat)

/-- UNIT_RESET_TIMEOUT of a unit (R374). -/
def execUnitResetTimeout (u : BitVec 16) (s : State) : Host.Outcome State Fault Refusal := .next (s.resetTimeout u.toNat)

/-- LOCK_BREAK (R302). -/
def execLockBreak (s : State) : Host.Outcome State Fault Refusal := .next (s.perform 0x09 2 anyBody (bodyIs 0) State.lockBreakItem)

/-- AUDIT_READ (R329). -/
def execAuditRead (s : State) : Host.Outcome State Fault Refusal := .next (s.perform 0x0A 0 anyBody (bodyIs 26) State.auditRead)

/-- FAULT_CLEAR (R364). -/
def execFaultClear (s : State) : Host.Outcome State Fault Refusal := .next (s.perform 0x0B 1 anyBody (bodyIs 32) State.faultClear)

/-- JOURNAL_READ (R329). -/
def execJournalRead (s : State) : Host.Outcome State Fault Refusal :=
  .next (s.perform 0x0C 0 anyBody (fun b => if be b 4 1 ≤ 21 then 4 + 64 * be b 4 1 else 0) State.journalRead)

/-- IMAGE_WRITE (R329, R353). -/
def execImageWrite (s : State) : Host.Outcome State Fault Refusal := .next (s.perform 0x0D 2 anyBody (bodyIs 0) State.imageWriteItem)

/-- IMAGE_WRITE_DONE (R330). -/
def execImageWriteDone (s : State) : Host.Outcome State Fault Refusal := .next s.imageWritten

/-- IMAGE_ACTIVATE with MODE 0 (R353). -/
def execImageActivateNext (s : State) : Host.Outcome State Fault Refusal :=
  .next (s.perform 0x0E 2 (byteIs 5 0) (bodyIs 0) (State.activateItem State.activateNext))

/-- IMAGE_VERIFY_DONE (R330). -/
def execImageVerifyDone (s : State) : Host.Outcome State Fault Refusal := .next s.verified

/-- IMAGE_ACTIVATE with MODE 1 (R353). -/
def execImageActivateNow (s : State) : Host.Outcome State Fault Refusal :=
  .next (s.perform 0x0E 2 (fun b => byteIs 5 1 b && byteIs 6 0 b) (bodyIs 0) (State.activateItem State.activateNow))

/-- IMAGE_ACTIVATE with MODE 1 and RESTART (R353). -/
def execImageActivateRestart (s : State) : Host.Outcome State Fault Refusal := .next s.activateRestart

/-- TIME_SET (R64, R329). -/
def execTimeSet (s : State) : Host.Outcome State Fault Refusal := .next (s.perform 0x0F 2 anyBody (bodyIs 0) State.timeSet)

/-- TIME_ADJUST with KIND INCR (R62). -/
def execTimeAdjustIncr (s : State) : Host.Outcome State Fault Refusal :=
  .next (s.perform 0x10 1 (byteIs 1 0) (bodyIs 8) State.adjustIncr)

/-- TIME_ADJUST with KIND SLEW (R63). -/
def execTimeAdjustSlew (s : State) : Host.Outcome State Fault Refusal :=
  .next (s.perform 0x10 1 (byteIs 1 1) (bodyIs 8) State.adjustSlew)

/-- REWIND_FREEZE with ACTION FREEZE (R251). -/
def execRewindFreeze (s : State) : Host.Outcome State Fault Refusal := .next (s.perform 0x11 1 (byteIs 0 0) (bodyIs 1) State.freezeItem)

/-- REWIND_FREEZE with ACTION RESUME (R252). -/
def execRewindFreezeResume (s : State) : Host.Outcome State Fault Refusal :=
  .next (s.perform 0x11 1 (byteIs 0 1) (bodyIs 1) State.resumeItem)

/-- REWIND_DRAIN with ACTION START (R253). -/
def execRewindDrainStart (s : State) : Host.Outcome State Fault Refusal := .next (s.perform 0x12 1 (byteIs 0 0) (bodyIs 0) State.drainItem)

/-- REWIND_DRAIN with ACTION ABORT (R253). -/
def execRewindDrainAbort (s : State) : Host.Outcome State Fault Refusal :=
  .next (s.perform 0x12 1 (byteIs 0 1) (bodyIs 0) State.drainAbortItem)

/-- PLACEMENT_READ (R329). -/
def execPlacementRead (s : State) : Host.Outcome State Fault Refusal := .next (s.perform 0x13 0 anyBody (bodyIs 4) State.placementRead)

/-- SPARE_RETIRE (R329). -/
def execSpareRetire (s : State) : Host.Outcome State Fault Refusal := .next (s.perform 0x14 2 anyBody (bodyIs 0) State.retireItem)

end Sys2Proof.Machine
end

