-- ==== Sys2Proof/Machine/LoadStore.lean ====
section
/-!
DEFINITION. Machine/LoadStore.lean: loads and stores of both kinds of core (R119–R125, R139, R196, R277–R287, R297–R300, R354, R404),
and a leg's stores to its coach (R40, R41, R52, R184).
-/
namespace Sys2Proof.Machine

/-- A loaded value of `n` bytes, sign- or zero-extended (R123). -/
def loadExt (n : Nat) (signed : Bool) (v : Nat) : DWord :=
  if signed ∧ 2 ^ (8 * n - 1) ≤ v then BitVec.ofNat 64 (v + (2 ^ 64 - 2 ^ (8 * n))) else BitVec.ofNat 64 v

/-! ### A leg's stores to its coach (R40, R41, R52, R184) -/

/-- The bits of the metadata word at coach byte `b` that Table 2.1 marks R for legs. -/
def coachR (b : Nat) : Nat := match b with
  | 192 => 0x38FFFFFF
  | 200 => allBits | 204 => allBits | 208 => allBits
  | 212 => 0xFFFFF
  | 216 => 0x1FFFFFFF
  | 220 => allBits | 224 => allBits | 228 => allBits
  | 236 => 0x1FFFFFC0
  | 240 => allBits
  | _ => 0

/-- Its bits that Table 2.1 marks RW. -/
def coachRw (b : Nat) : Nat := match b with
  | 192 => 0x07000000
  | 196 => allBits
  | 232 => allBits
  | 236 => 0x2000003F
  | 244 => allBits | 248 => allBits | 252 => allBits
  | _ => 0

/-- A leg's store to the word at byte 196 writes the bits of `m`: TRAIN, DPRI and ATOMIC, then VERB and DROP_REASON as one writer. A store
    that makes VERB read DROP without reaching DROP_REASON's byte leaves the reason 0 (log entry 33). -/
def Coach.legVerb (c : Coach) (cyc m : Nat) (v : Word) : Coach :=
  let w := mixBits (BitVec.ofNat 32 (c.fld 196 0 32)) m v
  let c := c.setFld 196 0 23 (getField w 0 23)
  let r := getField w 26 6
  let verb := getField w 23 3
  if bitsOf m 26 6 ≠ 0 ∧ r ≠ 0 then c.drop cyc r 6
  else if c.reason ≠ 0 ∨ bitsOf m 23 3 = 0 then c
  else if verb = 2 ∧ bitsOf m 26 6 ≠ 0 then c.drop cyc 2 6
  else if verb = 7 then c
  else c.setFld 196 23 3 verb

/-- A leg's store to the bits `m` of the metadata word at byte `b` reaches a field marked R (R40): a stored byte without a bit of an RW
    field lies in one, or the store would change the bits of one beside an RW field in the same byte (log entry 32). -/
def Coach.reachesR (c : Coach) (b m : Nat) (v : Word) : Bool :=
  (List.range 4).any (fun i =>
    let r := bitsOf (m &&& coachR b) (8 * i) 8
    r != 0 && (bitsOf (coachRw b) (8 * i) 8 == 0 || (bitsOf (c.fld b 0 32 ^^^ v.toNat) (8 * i) 8) &&& r != 0))

/-- A leg's store to the bits `m` of the metadata word at byte `b`: none where it reaches a field marked R. -/
def Coach.legWord (c : Coach) (cyc b m : Nat) (v : Word) : Option Coach :=
  if c.reachesR b m v then none
  else if b = 196 then some (c.legVerb cyc m v)
  else some (c.setFld b 0 32 (mixBits (BitVec.ofNat 32 (c.fld b 0 32)) (m &&& coachRw b) v).toNat)

/-- The coach write port (R52): the bytes change and HEAD_CHECK with them. -/
def Coach.writePort (c : Coach) (off : Nat) (l : List Byte) : Coach :=
  let d := List.replicate off 0#8 ++ xorBytes (c.bytes off l.length) l ++ List.replicate (192 - off - l.length) 0#8
  let c := c.setFld 220 0 32 (c.headCheck ^^^ crc0 d)
  l.zipIdx.foldl (fun c e => c.setFld (off + e.2) 0 8 e.1.toNat) c

/-- A leg's aligned store of `n` bytes at coach offset `off`; none where it is not performed (R40). -/
def Coach.legStore (c : Coach) (cyc off n v : Nat) : Option Coach :=
  if off < 192 then some (c.writePort off (bytesLE n v))
  else if n = 8 then
    (c.legWord cyc off allBits (BitVec.ofNat 32 v)).bind (fun c => c.legWord cyc (off + 4) allBits (BitVec.ofNat 32 (v / 2 ^ 32)))
  else
    let sh := off % 4 * 8
    c.legWord cyc (off / 4 * 4) ((2 ^ (8 * n) - 1) * 2 ^ sh) (BitVec.ofNat 32 (v % 2 ^ (8 * n) * 2 ^ sh))

/-! ### Packet cores -/

/-- A load of thread i has read `v`, to be delivered at position + d (R124). -/
def State.openLoad (s : State) (i rd : Nat) (v : DWord) (d : Nat) (bad : Option Nat) : State :=
  s.modThread i (fun x => { x with loads := x.loads ++ [⟨rd, v, d, bad⟩] })

/-- The coach that thread i is bound to (R121). -/
def State.boundCoach (s : State) (i : Nat) : Option (Nat × Coach) :=
  (s.thread i).binding.bind (fun q => (s.coach q).map (fun c => (q, c)))

/-- A load of `n` bytes at `ea` by thread i (R119–R124, R133, R404). -/
def State.pktLoad (s : State) (i n ea : Nat) (signed : Bool) (rd : Nat) : Eff :=
  match windowOf ea 1 with
  | none => .trap 2 ea
  | some 3 =>
    if n ≠ 4 then .trap 4 ea
    else if ea % 4 ≠ 0 then .trap 1 ea
    else
      let (v, s) := s.lockRead i (localPa i (ea - 0x8000000000))
      .next (s.openLoad i rd (loadExt 4 signed v) 4 none)
  | some 1 =>
    if ea % n ≠ 0 then .trap 1 ea
    else match s.boundCoach i with
      | none => .trap 3 ea
      | some (_, c) => .next (s.openLoad i rd (if c.ecc then 0 else loadExt n signed (fromLE (c.bytes (ea - 0x20000) n))) 3 none)
  | some w =>
    if ea % n ≠ 0 then .trap 1 ea
    else
      let a := localPa i ea
      .next (s.openLoad i rd (loadExt n signed (s.cnum a n)) (if w = 0 then 3 else 4) (if s.upset a then some a else none))

/-- A store of the low `n` bytes of `v` at `ea` by thread i. -/
def State.pktStore (s : State) (i n ea v : Nat) : Eff :=
  match windowOf ea 1 with
  | none => .trap 2 ea
  | some 3 =>
    if n ≠ 4 then .trap 4 ea
    else if ea % 4 ≠ 0 then .trap 1 ea
    else .next (s.lockStore i (localPa i (ea - 0x8000000000)) (v % 2 ^ 32))
  | some 1 =>
    if ea % n ≠ 0 then .trap 1 ea
    else match s.boundCoach i with
      | none => .trap 3 ea
      | some (q, c) => match c.legStore s.coreNow (ea - 0x20000) n v with
        | none => .trap 3 ea
        | some c => .next (s.setCoach q c)
  | some _ => if ea % n ≠ 0 then .trap 1 ea else .next (s.storeBytes (localPa i ea) (bytesLE n v))

/-! ### Control cores -/

/-- MT of the page that holds `va`, 0 untranslated (R283). -/
def State.memType (s : State) (c va : Nat) : Nat :=
  if !s.trans c then 0
  else match (s.ctlc c).tlb.find? (fun e => e.hits (getField (s.sysReg c 6) 0 8) va) with
    | some e => bitsOf e.pte 6 2
    | none => 0

/-- Whether the access reaches DRAM beyond the L2 is not the spec's to say: a free choice queues its CTL request (log entry 17). -/
def State.ctlDram (s : State) (r : Region) (a : Nat) : State :=
  if r = .dram then
    let (m, s) := s.freshBelow 2
    if m = 1 then s.dramReq 0 false (a / 64 * 64) else s
  else s

/-- A load of `n` bytes at virtual address `ea` by control core c (R139, R281–R287, R297, R354). -/
def State.ctlLoad (s : State) (c : Fin 4) (n ea : Nat) (signed : Bool) (rd : Nat) : Eff :=
  match s.translate c ea 1 with
  | (.error e, s) => .trapIn s e.1 e.2
  | (.ok a, s) =>
    let put := fun (s : State) (v : Nat) => Eff.next (s.modCtlc c (fun x => x.put rd (loadExt n signed v)))
    match s.region a with
    | .none => .trapIn s 2 a
    | .ctl =>
      if n ≠ 4 ∨ a % 4 ≠ 0 then .trapIn s 20 a
      else
        let t := s.busRead (.hart (.ctl c)) a
        put { t with resp := s.resp } t.got
    | .lockWord =>
      if n ≠ 4 ∨ a % 4 ≠ 0 then .trapIn s 20 a
      else
        let (v, s) := s.lockRead (s.ctlOwner c) (a - 0x8000000000)
        put s v
    | r =>
      if a % n ≠ 0 then .trapIn s 1 ea
      else
        let s := if r.cacheable then (if s.memType c ea = 0 then s.touchLine c (a / 64) else s).ctlDram r a else s
        if s.upset a then
          let s := (s.raiseEcc a).modCtlc c (fun x => { x with pc := some (x.pcOf + 4) })
          .done (s.trapCtl c 7 true a)
        else put s (s.cnum a n)

/-- A store of the low `n` bytes of `v` at virtual address `ea` by control core c. -/
def State.ctlStore (s : State) (c : Fin 4) (n ea v : Nat) : Eff :=
  match s.translate c ea 2 with
  | (.error e, s) => .trapIn s e.1 e.2
  | (.ok a, s) =>
    match s.region a with
    | .none => .trapIn s 2 a
    | .ctl =>
      if n ≠ 4 ∨ a % 4 ≠ 0 then .trapIn s 20 a
      else
        let w := BitVec.ofNat 32 v
        let t : State := { s.busWrite (.hart (.ctl c)) a w with resp := s.resp }
        if (a = sysB + 8 ∧ w = 0x52534554#32) ∨ t.pwr.asleep ∨ !t.ctlRuns c then .done t else .next t
    | .lockWord =>
      if n ≠ 4 ∨ a % 4 ≠ 0 then .trapIn s 20 a else .next (s.lockStore (s.ctlOwner c) (a - 0x8000000000) (v % 2 ^ 32))
    | .code => .trapIn s 20 a
    | .rom => .trapIn s 20 a
    | .table =>
      if !legTable a then .trapIn s 20 a
      else if a % n ≠ 0 then .trapIn s 1 ea
      else .next (s.storeBytes a (bytesLE n v))
    | r =>
      if a % n ≠ 0 then .trapIn s 1 ea
      else if !r.cacheable then .next (s.storeBytes a (bytesLE n v))
      else
        let s := s.ctlDram r a
        if s.memType c ea = 0 then .next (s.storeLine c a (bytesLE n v)) else .next (s.writeBytes a (bytesLE n v))

/-! ### Meanings -/

/-- A load of format I (R119, R123). -/
def State.loadI (s : State) (h : Hart) (op n : Nat) (signed : Bool) (rd ra : BitVec 5) (imm : BitVec 16) : State :=
  s.issue h (encI op rd.toNat ra.toNat imm.toNat) true (fun _ => true) (fun s =>
    let ea := (s.rget h ra.toNat + imm.signExtend 64).toNat
    match h with
    | .pkt m k t => s.pktLoad (threadId m k t) n ea signed rd.toNat
    | .ctl c => s.ctlLoad c n ea signed rd.toNat)

/-- A store of format S (R119, R123). -/
def State.storeI (s : State) (h : Hart) (op n : Nat) (rs ra : BitVec 5) (imm : BitVec 16) : State :=
  s.issue h (encI op rs.toNat ra.toNat imm.toNat) true (fun _ => true) (fun s =>
    let ea := (s.rget h ra.toNat + imm.signExtend 64).toNat
    let v := (s.rget h rs.toNat).toNat
    match h with
    | .pkt m k t => s.pktStore (threadId m k t) n ea v
    | .ctl c => s.ctlStore c n ea v)

/-- LB (R123). -/
def execLb (h : Hart) (rd ra : BitVec 5) (imm : BitVec 16) (s : State) : Host.Outcome State Fault Refusal := .next (s.loadI h 0x10 1 true rd ra imm)

/-- LBU (R123). -/
def execLbu (h : Hart) (rd ra : BitVec 5) (imm : BitVec 16) (s : State) : Host.Outcome State Fault Refusal := .next (s.loadI h 0x11 1 false rd ra imm)

/-- LH (R123). -/
def execLh (h : Hart) (rd ra : BitVec 5) (imm : BitVec 16) (s : State) : Host.Outcome State Fault Refusal := .next (s.loadI h 0x12 2 true rd ra imm)

/-- LHU (R123). -/
def execLhu (h : Hart) (rd ra : BitVec 5) (imm : BitVec 16) (s : State) : Host.Outcome State Fault Refusal := .next (s.loadI h 0x13 2 false rd ra imm)

/-- LW (R123). -/
def execLw (h : Hart) (rd ra : BitVec 5) (imm : BitVec 16) (s : State) : Host.Outcome State Fault Refusal := .next (s.loadI h 0x14 4 true rd ra imm)

/-- LWU (R123). -/
def execLwu (h : Hart) (rd ra : BitVec 5) (imm : BitVec 16) (s : State) : Host.Outcome State Fault Refusal := .next (s.loadI h 0x15 4 false rd ra imm)

/-- LD (R123). -/
def execLd (h : Hart) (rd ra : BitVec 5) (imm : BitVec 16) (s : State) : Host.Outcome State Fault Refusal := .next (s.loadI h 0x16 8 false rd ra imm)

/-- SB (R123). -/
def execSb (h : Hart) (rs ra : BitVec 5) (imm : BitVec 16) (s : State) : Host.Outcome State Fault Refusal := .next (s.storeI h 0x18 1 rs ra imm)

/-- SH (R123). -/
def execSh (h : Hart) (rs ra : BitVec 5) (imm : BitVec 16) (s : State) : Host.Outcome State Fault Refusal := .next (s.storeI h 0x19 2 rs ra imm)

/-- SW (R123). -/
def execSw (h : Hart) (rs ra : BitVec 5) (imm : BitVec 16) (s : State) : Host.Outcome State Fault Refusal := .next (s.storeI h 0x1A 4 rs ra imm)

/-- SD (R123). -/
def execSd (h : Hart) (rs ra : BitVec 5) (imm : BitVec 16) (s : State) : Host.Outcome State Fault Refusal := .next (s.storeI h 0x1B 8 rs ra imm)

end Sys2Proof.Machine
end

