-- ==== Sys2Proof/Machine/TimeCmds.lean ====
section
/-!
DEFINITION. Machine/TimeCmds.lean: the meanings of the commands of the time base and of timing IO (chapters 3 and 4 of the spec).
-/
namespace Sys2Proof.Machine

/-! ### Time base -/

/-- TIME_INCR_LO_WRITE (R62). -/
def execTimeIncrLoWrite (n : Fin 9) (v : Word) (s : State) : Host.Outcome State Fault Refusal := .next (s.incrLoWrite n v)

/-- TIME_INCR_COMMIT: a write of TIME_CInINCR_HI (R62). -/
def execTimeIncrCommit (n : Fin 9) (v : Word) (s : State) : Host.Outcome State Fault Refusal := .next (s.incrHiWrite n v)

/-- SLEW_START: a write of TIME_CInSLEW with START 1 (R63). -/
def execSlewStart (n : Fin 9) (v : Word) (s : State) : Host.Outcome State Fault Refusal := .next (s.slewWrite n (v ||| 0x200))

/-- SLEW_END (R63). -/
def execSlewEnd (n : Fin 9) (s : State) : Host.Outcome State Fault Refusal := .next (s.endSlew n)

/-- STEP_ARM: a write of TIME_CInSTEP_CTL with ARM 1 (R64, R65). -/
def execStepArm (n : Fin 9) (v : Word) (s : State) : Host.Outcome State Fault Refusal := .next (s.stepCtlWrite n (v ||| 1))

/-- STEP_APPLY (R64). -/
def execStepApply (n : Fin 9) (s : State) : Host.Outcome State Fault Refusal := .next (s.applyStep n)

/-- TIME_SEC_HI_READ (R67). -/
def execTimeSecHiRead (n : Fin 9) (s : State) : Host.Outcome State Fault Refusal := .next (s.secHiRead n)

/-- TIME_SNAP_TAKE (R67). -/
def execTimeSnapTake (s : State) : Host.Outcome State Fault Refusal := .next (s.snapWrite 1)

/-- TIME_SNAP_RELEASE (R67). -/
def execTimeSnapRelease (s : State) : Host.Outcome State Fault Refusal := .next (s.snapWrite 2)

/-- TIME_CONV_GO: a write of TIME_CONV_CTL with GO 1 (R69). -/
def execTimeConvGo (v : Word) (s : State) : Host.Outcome State Fault Refusal := .next (s.convWrite (v ||| 0x100))

/-- TIME_CONV_DONE (R69). -/
def execTimeConvDone (s : State) : Host.Outcome State Fault Refusal := .next s.convDone

/-- TIME_OFS_WRITE (R70). -/
def execTimeOfsWrite (n : Fin 9) (v : Word) (s : State) : Host.Outcome State Fault Refusal := .next (s.ofsWrite n v)

/-- TIME_REF_SRC_CLEAR: a write of TIME_CInREF with SRC 0 (R71). -/
def execTimeRefSrcClear (n : Fin 9) (v : Word) (s : State) : Host.Outcome State Fault Refusal := .next (s.refWrite n (v &&& 0xFFFFFFFC#32))

/-- REF_TIMEOUT (R70). -/
def execRefTimeout (n : Fin 9) (s : State) : Host.Outcome State Fault Refusal := .next (s.refTimeout n)

/-- HOLD_INCR_UPDATE (R72). -/
def execHoldIncrUpdate (n : Fin 9) (s : State) : Host.Outcome State Fault Refusal := .next (s.holdIncrUpdate n)

/-- HOLDOVER_TCOMP (R72). -/
def execHoldoverTcomp (n : Fin 9) (s : State) : Host.Outcome State Fault Refusal := .next (s.tcomp n)

/-- HOLDOVER_ELAPSED_TICK (R73). -/
def execHoldoverElapsedTick (n : Fin 9) (s : State) : Host.Outcome State Fault Refusal := .next (s.elapsedTick n)

/-- WARM_SET (R75). -/
def execWarmSet (s : State) : Host.Outcome State Fault Refusal := .next s.warmSet

/-- OSC_MEASURE (R76). -/
def execOscMeasure (s : State) : Host.Outcome State Fault Refusal := .next s.oscMeasure

/-- TIME_PARITY_ERROR (R77). -/
def execTimeParityError (n : Fin 9) (s : State) : Host.Outcome State Fault Refusal := .next (s.timeParity n)

/-- TXTS_POP (R85). -/
def execTxtsPop (s : State) : Host.Outcome State Fault Refusal := .next s.popTxts

/-- DRIFT_MEASURE of lane l, or S0, S1, MGT as 32 to 34 (R93). -/
def execDriftMeasure (l : Fin 35) (d : BitVec 16) (s : State) : Host.Outcome State Fault Refusal := .next (s.driftMeasure l d)

/-! ### Outputs -/

/-- TRIG_ENABLE: a write of TIO_TRIGn_CFG with EN 1 (R97). -/
def execTrigEnable (n : Fin 24) (v : Word) (s : State) : Host.Outcome State Fault Refusal := .next (s.trigCfgWrite n (v ||| 1))

/-- TRIG_DISABLE: a write of TIO_TRIGn_CFG with EN 0 (R98). -/
def execTrigDisable (n : Fin 24) (v : Word) (s : State) : Host.Outcome State Fault Refusal :=
  .next (s.trigCfgWrite n (v &&& 0xFFFFFFFE#32))

/-- TRIG_ENTRY_READ (R97). -/
def execTrigEntryRead (n : Fin 24) (s : State) : Host.Outcome State Fault Refusal := .next (s.trigRead n)

/-- TRIG_ENTRY_WRITE: word w of schedule entry e (R98). -/
def execTrigEntryWrite (n : Fin 24) (e : Fin 64) (w : Fin 8) (v : Word) (s : State) : Host.Outcome State Fault Refusal :=
  .next (s.schedWrite n e w v)

/-- TRIG_EDGE_COMMIT (R96). -/
def execTrigEdgeCommit (n : Fin 24) (s : State) : Host.Outcome State Fault Refusal := .next (s.trigCommit n)

/-- TRIG_EDGE_DRIVE: output i is TRIGi below 24, else PPSO(i − 24) (R96). -/
def execTrigEdgeDrive (i : Fin 28) (s : State) : Host.Outcome State Fault Refusal := .next (s.edgeDrive i)

/-- PPSO_PULSE (R105). -/
def execPpsoPulse (k : Fin 4) (s : State) : Host.Outcome State Fault Refusal := .next (s.ppsoPulse k)

/-- DRIVER_SHORT_GND at contact c, TC0–TC23 then PC0–PC3 (R108). -/
def execDriverShortGnd (c : Fin 28) (s : State) : Host.Outcome State Fault Refusal := .next (s.driverFault c 0)

/-- DRIVER_SHORT_NET (R108). -/
def execDriverShortNet (c : Fin 28) (s : State) : Host.Outcome State Fault Refusal := .next (s.driverFault c 1)

/-- DRIVER_THERMAL (R108). -/
def execDriverThermal (c : Fin 28) (s : State) : Host.Outcome State Fault Refusal := .next (s.driverFault c 2)

/-- DRIVER_OPEN_TEST: `exceeds` tells whether the pin passed 2.0 V (R108). -/
def execDriverOpenTest (c : Fin 28) (exceeds : Bool) (s : State) : Host.Outcome State Fault Refusal := .next (s.openTestAt c exceeds)

/-- DIAG_CLEAR: a write of a DIAG register (R108). -/
def execDiagClear (i : Fin 28) (v : Word) (s : State) : Host.Outcome State Fault Refusal := .next (s.diagClear i v)

/-- TIO_RESUME (R111). -/
def execTioResume (s : State) : Host.Outcome State Fault Refusal := .next s.tioResume

/-! ### Inputs -/

/-- EVT_EDGE at CI0 instant t (R100). -/
def execEvtEdge (i : Fin 16) (t : Nat) (falling : Bool) (s : State) : Host.Outcome State Fault Refusal := .next (s.evtEdge i t falling)

/-- EVTQ_POP (R101). -/
def execEvtqPop (s : State) : Host.Outcome State Fault Refusal := .next s.popStamp

/-- PPS_IN_EDGE (R103). -/
def execPpsInEdge (k : Fin 2) (t : Nat) (falling : Bool) (s : State) : Host.Outcome State Fault Refusal := .next (s.ppsEdge k t falling)

/-- PPS_IN_LOST (R103). -/
def execPpsInLost (k : Fin 2) (s : State) : Host.Outcome State Fault Refusal := .next (s.ppsLost k)

/-- PPSI_SEC_HI_READ (R104). -/
def execPpsiSecHiRead (k : Fin 2) (s : State) : Host.Outcome State Fault Refusal := .next (s.ppsiRead k)

/-- POLARITY_INVERT: EVTi below 16, else PPSI(i − 16) (R109). -/
def execPolarityInvert (i : Fin 18) (s : State) : Host.Outcome State Fault Refusal := .next (s.polarityInvert i)

/-- INPUT_OVERVOLTAGE (R107). -/
def execInputOvervoltage (i : Fin 18) (s : State) : Host.Outcome State Fault Refusal := .next (s.overvoltage i)

end Sys2Proof.Machine
end

