-- ==== Sys2Proof/Machine/Dispatch.lean ====
section
/-!
DEFINITION. Machine/Dispatch.lean: one arm per command, each a direct call of its meaning.
-/
namespace Sys2Proof.Machine

def exec (i : Instr) (s : State) : Host.Outcome State Fault Refusal :=
  match i with
  | .registerWrite r a v => Sys2Proof.Machine.execRegisterWrite r a v s
  | .powerUp => Sys2Proof.Machine.execPowerUp s
  | .railsSequenced => Sys2Proof.Machine.execRailsSequenced s
  | .refStable => Sys2Proof.Machine.execRefStable s
  | .rootPllLock lead => Sys2Proof.Machine.execRootPllLock lead s
  | .bistDone r => Sys2Proof.Machine.execBistDone r s
  | .imageSelect failA failB => Sys2Proof.Machine.execImageSelect failA failB s
  | .imageLoadDone norFail => Sys2Proof.Machine.execImageLoadDone norFail s
  | .packetPathStart => Sys2Proof.Machine.execPacketPathStart s
  | .epochBoundary => Sys2Proof.Machine.execEpochBoundary s
  | .migrationPrepDone n ok => Sys2Proof.Machine.execMigrationPrepDone n ok s
  | .migrationDone n => Sys2Proof.Machine.execMigrationDone n s
  | .frameReceive p t len head => Sys2Proof.Machine.execFrameReceive p t len head s
  | .lensScanDone q => Sys2Proof.Machine.execLensScanDone q s
  | .bodyCellArrival p bytes => Sys2Proof.Machine.execBodyCellArrival p bytes s
  | .verdictFinal p t v => Sys2Proof.Machine.execVerdictFinal p t v s
  | .entrySearch q => Sys2Proof.Machine.execEntrySearch q s
  | .ingressStreamSearch q => Sys2Proof.Machine.execIngressStreamSearch q s
  | .coachEnterS0 q => Sys2Proof.Machine.execCoachEnterS0 q s
  | .couplerRelease n => Sys2Proof.Machine.execCouplerRelease n s
  | .dispatch n => Sys2Proof.Machine.execDispatch n s
  | .dispatchStall n => Sys2Proof.Machine.execDispatchStall n s
  | .egressSelection q => Sys2Proof.Machine.execEgressSelection q s
  | .copyTransmitEnd q headParity bodyParity => Sys2Proof.Machine.execCopyTransmitEnd q headParity bodyParity s
  | .stnMonClear n v => Sys2Proof.Machine.execStnMonClear n v s
  | .stnEpochLoRead path => Sys2Proof.Machine.execStnEpochLoRead path s
  | .timeIncrLoWrite n v => Sys2Proof.Machine.execTimeIncrLoWrite n v s
  | .timeIncrCommit n v => Sys2Proof.Machine.execTimeIncrCommit n v s
  | .slewStart n v => Sys2Proof.Machine.execSlewStart n v s
  | .slewEnd n => Sys2Proof.Machine.execSlewEnd n s
  | .stepArm n v => Sys2Proof.Machine.execStepArm n v s
  | .stepApply n => Sys2Proof.Machine.execStepApply n s
  | .timeSecHiRead n => Sys2Proof.Machine.execTimeSecHiRead n s
  | .timeSnapTake => Sys2Proof.Machine.execTimeSnapTake s
  | .timeSnapRelease => Sys2Proof.Machine.execTimeSnapRelease s
  | .timeConvGo v => Sys2Proof.Machine.execTimeConvGo v s
  | .timeConvDone => Sys2Proof.Machine.execTimeConvDone s
  | .timeOfsWrite n v => Sys2Proof.Machine.execTimeOfsWrite n v s
  | .timeRefSrcClear n v => Sys2Proof.Machine.execTimeRefSrcClear n v s
  | .refTimeout n => Sys2Proof.Machine.execRefTimeout n s
  | .holdIncrUpdate n => Sys2Proof.Machine.execHoldIncrUpdate n s
  | .holdoverTcomp n => Sys2Proof.Machine.execHoldoverTcomp n s
  | .holdoverElapsedTick n => Sys2Proof.Machine.execHoldoverElapsedTick n s
  | .warmSet => Sys2Proof.Machine.execWarmSet s
  | .oscMeasure => Sys2Proof.Machine.execOscMeasure s
  | .timeParityError n => Sys2Proof.Machine.execTimeParityError n s
  | .txtsPop => Sys2Proof.Machine.execTxtsPop s
  | .driftMeasure l d => Sys2Proof.Machine.execDriftMeasure l d s
  | .trigEnable n v => Sys2Proof.Machine.execTrigEnable n v s
  | .trigDisable n v => Sys2Proof.Machine.execTrigDisable n v s
  | .trigEntryRead n => Sys2Proof.Machine.execTrigEntryRead n s
  | .trigEntryWrite n e w v => Sys2Proof.Machine.execTrigEntryWrite n e w v s
  | .trigEdgeCommit n => Sys2Proof.Machine.execTrigEdgeCommit n s
  | .trigEdgeDrive i0 => Sys2Proof.Machine.execTrigEdgeDrive i0 s
  | .ppsoPulse k => Sys2Proof.Machine.execPpsoPulse k s
  | .evtEdge i0 t falling => Sys2Proof.Machine.execEvtEdge i0 t falling s
  | .evtqPop => Sys2Proof.Machine.execEvtqPop s
  | .ppsInEdge k t falling => Sys2Proof.Machine.execPpsInEdge k t falling s
  | .ppsInLost k => Sys2Proof.Machine.execPpsInLost k s
  | .ppsiSecHiRead k => Sys2Proof.Machine.execPpsiSecHiRead k s
  | .driverShortGnd c => Sys2Proof.Machine.execDriverShortGnd c s
  | .driverShortNet c => Sys2Proof.Machine.execDriverShortNet c s
  | .driverThermal c => Sys2Proof.Machine.execDriverThermal c s
  | .driverOpenTest c exceeds => Sys2Proof.Machine.execDriverOpenTest c exceeds s
  | .diagClear i0 v => Sys2Proof.Machine.execDiagClear i0 v s
  | .polarityInvert i0 => Sys2Proof.Machine.execPolarityInvert i0 s
  | .inputOvervoltage i0 => Sys2Proof.Machine.execInputOvervoltage i0 s
  | .tioResume => Sys2Proof.Machine.execTioResume s
  | .add h rd ra rb => Sys2Proof.Machine.execAdd h rd ra rb s
  | .sub h rd ra rb => Sys2Proof.Machine.execSub h rd ra rb s
  | .and h rd ra rb => Sys2Proof.Machine.execAnd h rd ra rb s
  | .or h rd ra rb => Sys2Proof.Machine.execOr h rd ra rb s
  | .xor h rd ra rb => Sys2Proof.Machine.execXor h rd ra rb s
  | .andn h rd ra rb => Sys2Proof.Machine.execAndn h rd ra rb s
  | .sll h rd ra rb => Sys2Proof.Machine.execSll h rd ra rb s
  | .srl h rd ra rb => Sys2Proof.Machine.execSrl h rd ra rb s
  | .sra h rd ra rb => Sys2Proof.Machine.execSra h rd ra rb s
  | .slt h rd ra rb => Sys2Proof.Machine.execSlt h rd ra rb s
  | .sltu h rd ra rb => Sys2Proof.Machine.execSltu h rd ra rb s
  | .min h rd ra rb => Sys2Proof.Machine.execMin h rd ra rb s
  | .max h rd ra rb => Sys2Proof.Machine.execMax h rd ra rb s
  | .minu h rd ra rb => Sys2Proof.Machine.execMinu h rd ra rb s
  | .maxu h rd ra rb => Sys2Proof.Machine.execMaxu h rd ra rb s
  | .mul h rd ra rb => Sys2Proof.Machine.execMul h rd ra rb s
  | .mulh h rd ra rb => Sys2Proof.Machine.execMulh h rd ra rb s
  | .mulhu h rd ra rb => Sys2Proof.Machine.execMulhu h rd ra rb s
  | .revh h rd ra => Sys2Proof.Machine.execRevh h rd ra s
  | .revw h rd ra => Sys2Proof.Machine.execRevw h rd ra s
  | .revd h rd ra => Sys2Proof.Machine.execRevd h rd ra s
  | .clz h rd ra => Sys2Proof.Machine.execClz h rd ra s
  | .ctz h rd ra => Sys2Proof.Machine.execCtz h rd ra s
  | .popc h rd ra => Sys2Proof.Machine.execPopc h rd ra s
  | .addi h rd ra imm => Sys2Proof.Machine.execAddi h rd ra imm s
  | .andi h rd ra imm => Sys2Proof.Machine.execAndi h rd ra imm s
  | .ori h rd ra imm => Sys2Proof.Machine.execOri h rd ra imm s
  | .xori h rd ra imm => Sys2Proof.Machine.execXori h rd ra imm s
  | .slli h rd ra n => Sys2Proof.Machine.execSlli h rd ra n s
  | .srli h rd ra n => Sys2Proof.Machine.execSrli h rd ra n s
  | .srai h rd ra n => Sys2Proof.Machine.execSrai h rd ra n s
  | .slti h rd ra imm => Sys2Proof.Machine.execSlti h rd ra imm s
  | .sltiu h rd ra imm => Sys2Proof.Machine.execSltiu h rd ra imm s
  | .lui h rd imm => Sys2Proof.Machine.execLui h rd imm s
  | .ins16 h rd k imm => Sys2Proof.Machine.execIns16 h rd k imm s
  | .bfx h rd ra lsb wm1 signed => Sys2Proof.Machine.execBfx h rd ra lsb wm1 signed s
  | .bfi h rd ra lsb wm1 => Sys2Proof.Machine.execBfi h rd ra lsb wm1 s
  | .lb h rd ra imm => Sys2Proof.Machine.execLb h rd ra imm s
  | .lbu h rd ra imm => Sys2Proof.Machine.execLbu h rd ra imm s
  | .lh h rd ra imm => Sys2Proof.Machine.execLh h rd ra imm s
  | .lhu h rd ra imm => Sys2Proof.Machine.execLhu h rd ra imm s
  | .lw h rd ra imm => Sys2Proof.Machine.execLw h rd ra imm s
  | .lwu h rd ra imm => Sys2Proof.Machine.execLwu h rd ra imm s
  | .ld h rd ra imm => Sys2Proof.Machine.execLd h rd ra imm s
  | .sb h rs ra imm => Sys2Proof.Machine.execSb h rs ra imm s
  | .sh h rs ra imm => Sys2Proof.Machine.execSh h rs ra imm s
  | .sw h rs ra imm => Sys2Proof.Machine.execSw h rs ra imm s
  | .sd h rs ra imm => Sys2Proof.Machine.execSd h rs ra imm s
  | .beq h ra rb off => Sys2Proof.Machine.execBeq h ra rb off s
  | .bne h ra rb off => Sys2Proof.Machine.execBne h ra rb off s
  | .blt h ra rb off => Sys2Proof.Machine.execBlt h ra rb off s
  | .bge h ra rb off => Sys2Proof.Machine.execBge h ra rb off s
  | .bltu h ra rb off => Sys2Proof.Machine.execBltu h ra rb off s
  | .bgeu h ra rb off => Sys2Proof.Machine.execBgeu h ra rb off s
  | .dbnz h ra off => Sys2Proof.Machine.execDbnz h ra off s
  | .jal h off => Sys2Proof.Machine.execJal h off s
  | .jr h ra => Sys2Proof.Machine.execJr h ra s
  | .jalr h ra => Sys2Proof.Machine.execJalr h ra s
  | .ret h => Sys2Proof.Machine.execRet h s
  | .mflk h rd => Sys2Proof.Machine.execMflk h rd s
  | .mtlk h ra => Sys2Proof.Machine.execMtlk h ra s
  | .chrd h rd ch => Sys2Proof.Machine.execChrd h rd ch s
  | .chrdResume n k t => Sys2Proof.Machine.execChrdResume n k t s
  | .chwr h ra ch last => Sys2Proof.Machine.execChwr h ra ch last s
  | .chwrResume n k t => Sys2Proof.Machine.execChwrResume n k t s
  | .chpoll h rd ch => Sys2Proof.Machine.execChpoll h rd ch s
  | .chflush h ch => Sys2Proof.Machine.execChflush h ch s
  | .fork h rd ra rb => Sys2Proof.Machine.execFork h rd ra rb s
  | .join h rd ra => Sys2Proof.Machine.execJoin h rd ra s
  | .joinResume n k t => Sys2Proof.Machine.execJoinResume n k t s
  | .quit h => Sys2Proof.Machine.execQuit h s
  | .tauNow h xs ra rb => Sys2Proof.Machine.execTauNow h xs ra rb s
  | .tauConv h xs ra rb => Sys2Proof.Machine.execTauConv h xs ra rb s
  | .tauAddns h xs ra rb => Sys2Proof.Machine.execTauAddns h xs ra rb s
  | .tauDiff h xs ra rb => Sys2Proof.Machine.execTauDiff h xs ra rb s
  | .tauResid h xs ra rb => Sys2Proof.Machine.execTauResid h xs ra rb s
  | .hshCrc32c h xs ra rb => Sys2Proof.Machine.execHshCrc32c h xs ra rb s
  | .hshCrc32 h xs ra rb => Sys2Proof.Machine.execHshCrc32 h xs ra rb s
  | .hshCrc0 h xs ra rb => Sys2Proof.Machine.execHshCrc0 h xs ra rb s
  | .hshHash h xs ra rb => Sys2Proof.Machine.execHshHash h xs ra rb s
  | .cryAcq h xs ra rb => Sys2Proof.Machine.execCryAcq h xs ra rb s
  | .cryRel h xs ra rb => Sys2Proof.Machine.execCryRel h xs ra rb s
  | .cryTag h xs ra rb => Sys2Proof.Machine.execCryTag h xs ra rb s
  | .cryVerify h xs ra rb => Sys2Proof.Machine.execCryVerify h xs ra rb s
  | .crySync h xs ra rb => Sys2Proof.Machine.execCrySync h xs ra rb s
  | .xopResume n k t => Sys2Proof.Machine.execXopResume n k t s
  | .xopResult n k t xs => Sys2Proof.Machine.execXopResult n k t xs s
  | .xopLateError n k t xs => Sys2Proof.Machine.execXopLateError n k t xs s
  | .cryLockGrant n => Sys2Proof.Machine.execCryLockGrant n s
  | .xget h rd xs word => Sys2Proof.Machine.execXget h rd xs word s
  | .xgetResume n k t => Sys2Proof.Machine.execXgetResume n k t s
  | .srqClause h port ra rb => Sys2Proof.Machine.execSrqClause h port ra rb s
  | .srqFdb h port ra rb => Sys2Proof.Machine.execSrqFdb h port ra rb s
  | .srqLpm h port ra rb => Sys2Proof.Machine.execSrqLpm h port ra rb s
  | .srqStream h port ra rb => Sys2Proof.Machine.execSrqStream h port ra rb s
  | .srqTread h port ra rb => Sys2Proof.Machine.execSrqTread h port ra rb s
  | .srqResume n k t => Sys2Proof.Machine.execSrqResume n k t s
  | .fence h => Sys2Proof.Machine.execFence h s
  | .trap h imm => Sys2Proof.Machine.execTrap h imm s
  | .tres h rd ra t => Sys2Proof.Machine.execTres h rd ra t s
  | .tent h rd t => Sys2Proof.Machine.execTent h rd t s
  | .trdw h rd k t => Sys2Proof.Machine.execTrdw h rd k t s
  | .twrw h k ra t => Sys2Proof.Machine.execTwrw h k ra t s
  | .tstat h rd t => Sys2Proof.Machine.execTstat h rd t s
  | .trapItemDeferredSend n k => Sys2Proof.Machine.execTrapItemDeferredSend n k s
  | .eret h => Sys2Proof.Machine.execEret h s
  | .mfsr h rd sr => Sys2Proof.Machine.execMfsr h rd sr s
  | .mtsr h sr ra => Sys2Proof.Machine.execMtsr h sr ra s
  | .wfi h => Sys2Proof.Machine.execWfi h s
  | .tlbi h ra => Sys2Proof.Machine.execTlbi h ra s
  | .tlbia h => Sys2Proof.Machine.execTlbia h s
  | .dcwb h ra => Sys2Proof.Machine.execDcwb h ra s
  | .dcinv h ra => Sys2Proof.Machine.execDcinv h ra s
  | .icinv h ra => Sys2Proof.Machine.execIcinv h ra s
  | .l2EvictAck c => Sys2Proof.Machine.execL2EvictAck c s
  | .ctlInterrupt c => Sys2Proof.Machine.execCtlInterrupt c s
  | .standstill n k => Sys2Proof.Machine.execStandstill n k s
  | .rawEnable j v => Sys2Proof.Machine.execRawEnable j v s
  | .rawDisable j v => Sys2Proof.Machine.execRawDisable j v s
  | .rawHuntMatch j l => Sys2Proof.Machine.execRawHuntMatch j l s
  | .rawConfirmCheck j l => Sys2Proof.Machine.execRawConfirmCheck j l s
  | .rawFrameDeliver j t l => Sys2Proof.Machine.execRawFrameDeliver j t l s
  | .searchSlotServe eng e margins => Sys2Proof.Machine.execSearchSlotServe eng e margins s
  | .searchResult eng => Sys2Proof.Machine.execSearchResult eng s
  | .learnItemRun => Sys2Proof.Machine.execLearnItemRun s
  | .clauseInsert g => Sys2Proof.Machine.execClauseInsert g s
  | .clauseDelete g => Sys2Proof.Machine.execClauseDelete g s
  | .privWrite g => Sys2Proof.Machine.execPrivWrite g s
  | .privClear g => Sys2Proof.Machine.execPrivClear g s
  | .clauseRead g => Sys2Proof.Machine.execClauseRead g s
  | .clauseUpdateDone => Sys2Proof.Machine.execClauseUpdateDone s
  | .clauseUpdateStall => Sys2Proof.Machine.execClauseUpdateStall s
  | .clauseTenseCommit => Sys2Proof.Machine.execClauseTenseCommit s
  | .clauseTenseAbort => Sys2Proof.Machine.execClauseTenseAbort s
  | .clauseTenseVoid => Sys2Proof.Machine.execClauseTenseVoid s
  | .tenseCommitEffect => Sys2Proof.Machine.execTenseCommitEffect s
  | .tenseAbortDone => Sys2Proof.Machine.execTenseAbortDone s
  | .settlePassStart => Sys2Proof.Machine.execSettlePassStart s
  | .settlePassDone => Sys2Proof.Machine.execSettlePassDone s
  | .tenseDrainCheck => Sys2Proof.Machine.execTenseDrainCheck s
  | .clauseBlockCopyDone => Sys2Proof.Machine.execClauseBlockCopyDone s
  | .ageTick => Sys2Proof.Machine.execAgeTick s
  | .ageTickWrite v => Sys2Proof.Machine.execAgeTickWrite v s
  | .frerLatentCheck => Sys2Proof.Machine.execFrerLatentCheck s
  | .fdbWrite => Sys2Proof.Machine.execFdbWrite s
  | .fdbDelete => Sys2Proof.Machine.execFdbDelete s
  | .fdbFlush => Sys2Proof.Machine.execFdbFlush s
  | .lpmAdd => Sys2Proof.Machine.execLpmAdd s
  | .lpmDelete => Sys2Proof.Machine.execLpmDelete s
  | .strInsert => Sys2Proof.Machine.execStrInsert s
  | .strDelete => Sys2Proof.Machine.execStrDelete s
  | .paramWrite => Sys2Proof.Machine.execParamWrite s
  | .frerReset => Sys2Proof.Machine.execFrerReset s
  | .fwdRead => Sys2Proof.Machine.execFwdRead s
  | .fwdUpdateDone => Sys2Proof.Machine.execFwdUpdateDone s
  | .fwdPortSkindWrite p v => Sys2Proof.Machine.execFwdPortSkindWrite p v s
  | .egrQuotaWrite q c v => Sys2Proof.Machine.execEgrQuotaWrite q c v s
  | .gclArm q v => Sys2Proof.Machine.execGclArm q v s
  | .gclBankSwitch q => Sys2Proof.Machine.execGclBankSwitch q s
  | .gateBoundary q => Sys2Proof.Machine.execGateBoundary q s
  | .preemptVerifySend q => Sys2Proof.Machine.execPreemptVerifySend q s
  | .preemptVerifyResponse q => Sys2Proof.Machine.execPreemptVerifyResponse q s
  | .preemptVerifyFail q => Sys2Proof.Machine.execPreemptVerifyFail q s
  | .queueFlush q c => Sys2Proof.Machine.execQueueFlush q c s
  | .refusalNotice => Sys2Proof.Machine.execRefusalNotice s
  | .yardScrubStep e margins => Sys2Proof.Machine.execYardScrubStep e margins s
  | .poolGet r k => Sys2Proof.Machine.execPoolGet r k s
  | .poolPut r v => Sys2Proof.Machine.execPoolPut r v s
  | .poolGive r c v => Sys2Proof.Machine.execPoolGive r c v s
  | .poolMinClear k v => Sys2Proof.Machine.execPoolMinClear k v s
  | .auditSelWrite v => Sys2Proof.Machine.execAuditSelWrite v s
  | .auditPassEnd t => Sys2Proof.Machine.execAuditPassEnd t s
  | .rewindRecordWrite => Sys2Proof.Machine.execRewindRecordWrite s
  | .rewCtlEnable => Sys2Proof.Machine.execRewCtlEnable s
  | .rewCtlDisable => Sys2Proof.Machine.execRewCtlDisable s
  | .rewCtlFreeze => Sys2Proof.Machine.execRewCtlFreeze s
  | .rewindPostEnd => Sys2Proof.Machine.execRewindPostEnd s
  | .rewindFrozenEntry => Sys2Proof.Machine.execRewindFrozenEntry s
  | .rewCtlResume => Sys2Proof.Machine.execRewCtlResume s
  | .rewCtlDrain => Sys2Proof.Machine.execRewCtlDrain s
  | .rewCtlAbort => Sys2Proof.Machine.execRewCtlAbort s
  | .drainFrameSend => Sys2Proof.Machine.execDrainFrameSend s
  | .drainComplete => Sys2Proof.Machine.execDrainComplete s
  | .drainPaceContinue => Sys2Proof.Machine.execDrainPaceContinue s
  | .drainStall => Sys2Proof.Machine.execDrainStall s
  | .rewLoRead i0 => Sys2Proof.Machine.execRewLoRead i0 s
  | .dramSlotServe ch e => Sys2Proof.Machine.execDramSlotServe ch e s
  | .refreshIssue ch issued => Sys2Proof.Machine.execRefreshIssue ch issued s
  | .mr4Read rates => Sys2Proof.Machine.execMr4Read rates s
  | .extraRefresh ch => Sys2Proof.Machine.execExtraRefresh ch s
  | .selfRefreshEntry ch => Sys2Proof.Machine.execSelfRefreshEntry ch s
  | .selfRefreshExit ch => Sys2Proof.Machine.execSelfRefreshExit ch s
  | .smcFreqGo v => Sys2Proof.Machine.execSmcFreqGo v s
  | .dphyPllLock t => Sys2Proof.Machine.execDphyPllLock t s
  | .freqChangeComplete => Sys2Proof.Machine.execFreqChangeComplete s
  | .freqChangeFail => Sys2Proof.Machine.execFreqChangeFail s
  | .smcRetireGo v => Sys2Proof.Machine.execSmcRetireGo v s
  | .retireCopyDone => Sys2Proof.Machine.execRetireCopyDone s
  | .iotlbInvalidate v => Sys2Proof.Machine.execIotlbInvalidate v s
  | .iotlbInvalidateDone => Sys2Proof.Machine.execIotlbInvalidateDone s
  | .taskAlloc => Sys2Proof.Machine.execTaskAlloc s
  | .taskPost t => Sys2Proof.Machine.execTaskPost t s
  | .taskTake c => Sys2Proof.Machine.execTaskTake c s
  | .taskYield c t => Sys2Proof.Machine.execTaskYield c t s
  | .taskPreempt c t => Sys2Proof.Machine.execTaskPreempt c t s
  | .taskDone c t => Sys2Proof.Machine.execTaskDone c t s
  | .taskFree t => Sys2Proof.Machine.execTaskFree t s
  | .taskSlotCfgWrite t v => Sys2Proof.Machine.execTaskSlotCfgWrite t v s
  | .watchdogKick c v => Sys2Proof.Machine.execWatchdogKick c v s
  | .watchdogHalf c => Sys2Proof.Machine.execWatchdogHalf c s
  | .watchdogExpire c => Sys2Proof.Machine.execWatchdogExpire c s
  | .lockAcquire r a => Sys2Proof.Machine.execLockAcquire r a s
  | .lockAliasStore r a v => Sys2Proof.Machine.execLockAliasStore r a v s
  | .leaseTick => Sys2Proof.Machine.execLeaseTick s
  | .stuckLockCheck => Sys2Proof.Machine.execStuckLockCheck s
  | .lockBreakGo => Sys2Proof.Machine.execLockBreakGo s
  | .dmaEnable k v => Sys2Proof.Machine.execDmaEnable k v s
  | .dmaKick k => Sys2Proof.Machine.execDmaKick k s
  | .dmaDescriptorStart e => Sys2Proof.Machine.execDmaDescriptorStart e s
  | .dmaTxContinue k => Sys2Proof.Machine.execDmaTxContinue k s
  | .dmaDescriptorComplete e upTo => Sys2Proof.Machine.execDmaDescriptorComplete e upTo s
  | .dmaResume k => Sys2Proof.Machine.execDmaResume k s
  | .dmaSkip k => Sys2Proof.Machine.execDmaSkip k s
  | .dmaAbort k => Sys2Proof.Machine.execDmaAbort k s
  | .rxRingWrite headParity bodyParity => Sys2Proof.Machine.execRxRingWrite headParity bodyParity s
  | .ringSeenWrite k v => Sys2Proof.Machine.execRingSeenWrite k v s
  | .jenFrameReceive p t f => Sys2Proof.Machine.execJenFrameReceive p t f s
  | .ping => Sys2Proof.Machine.execPing s
  | .read => Sys2Proof.Machine.execRead s
  | .write => Sys2Proof.Machine.execWrite s
  | .readBlock => Sys2Proof.Machine.execReadBlock s
  | .tableWrite => Sys2Proof.Machine.execTableWrite s
  | .tenseCommit => Sys2Proof.Machine.execTenseCommit s
  | .tenseCommitAbort => Sys2Proof.Machine.execTenseCommitAbort s
  | .tenseCommitVoid => Sys2Proof.Machine.execTenseCommitVoid s
  | .stateQuery => Sys2Proof.Machine.execStateQuery s
  | .unitReset => Sys2Proof.Machine.execUnitReset s
  | .unitFence => Sys2Proof.Machine.execUnitFence s
  | .unitUnfence => Sys2Proof.Machine.execUnitUnfence s
  | .unitResetDone u => Sys2Proof.Machine.execUnitResetDone u s
  | .unitResetTimeout u => Sys2Proof.Machine.execUnitResetTimeout u s
  | .lockBreak => Sys2Proof.Machine.execLockBreak s
  | .auditRead => Sys2Proof.Machine.execAuditRead s
  | .faultClear => Sys2Proof.Machine.execFaultClear s
  | .journalRead => Sys2Proof.Machine.execJournalRead s
  | .imageWrite => Sys2Proof.Machine.execImageWrite s
  | .imageWriteDone => Sys2Proof.Machine.execImageWriteDone s
  | .imageActivateNext => Sys2Proof.Machine.execImageActivateNext s
  | .imageActivateNow => Sys2Proof.Machine.execImageActivateNow s
  | .imageActivateRestart => Sys2Proof.Machine.execImageActivateRestart s
  | .timeSet => Sys2Proof.Machine.execTimeSet s
  | .timeAdjustIncr => Sys2Proof.Machine.execTimeAdjustIncr s
  | .timeAdjustSlew => Sys2Proof.Machine.execTimeAdjustSlew s
  | .rewindFreeze => Sys2Proof.Machine.execRewindFreeze s
  | .rewindFreezeResume => Sys2Proof.Machine.execRewindFreezeResume s
  | .rewindDrainStart => Sys2Proof.Machine.execRewindDrainStart s
  | .rewindDrainAbort => Sys2Proof.Machine.execRewindDrainAbort s
  | .placementRead => Sys2Proof.Machine.execPlacementRead s
  | .spareRetire => Sys2Proof.Machine.execSpareRetire s
  | .noticeConfig => Sys2Proof.Machine.execNoticeConfig s
  | .sessionOpen => Sys2Proof.Machine.execSessionOpen s
  | .sessionClose => Sys2Proof.Machine.execSessionClose s
  | .sessionIdleClose i0 => Sys2Proof.Machine.execSessionIdleClose i0 s
  | .jenAck p t f => Sys2Proof.Machine.execJenAck p t f s
  | .noticeResend => Sys2Proof.Machine.execNoticeResend s
  | .moduleReset v => Sys2Proof.Machine.execModuleReset v s
  | .resetNAssert => Sys2Proof.Machine.execResetNAssert s
  | .resetNRelease => Sys2Proof.Machine.execResetNRelease s
  | .faultLatch n others => Sys2Proof.Machine.execFaultLatch n others s
  | .haltReset => Sys2Proof.Machine.execHaltReset s
  | .collectorParityError t place w => Sys2Proof.Machine.execCollectorParityError t place w s
  | .faultPendClear w v => Sys2Proof.Machine.execFaultPendClear w v s
  | .fltRearm v => Sys2Proof.Machine.execFltRearm v s
  | .journalWriteDone => Sys2Proof.Machine.execJournalWriteDone s
  | .journalMemFail on => Sys2Proof.Machine.execJournalMemFail on s
  | .availRecord => Sys2Proof.Machine.execAvailRecord s
  | .coreRotation n => Sys2Proof.Machine.execCoreRotation n s
  | .rotationTestDone n pass age => Sys2Proof.Machine.execRotationTestDone n pass age s
  | .blockRotation => Sys2Proof.Machine.execBlockRotation s
  | .laneAgingMeasure margins => Sys2Proof.Machine.execLaneAgingMeasure margins s
  | .linkUp p t tr => Sys2Proof.Machine.execLinkUp p t tr s
  | .linkDown p t lanes partner cut => Sys2Proof.Machine.execLinkDown p t lanes partner cut s
  | .cdcPulseMerge x => Sys2Proof.Machine.execCdcPulseMerge x s
  | .refLost on => Sys2Proof.Machine.execRefLost on s
  | .clkMonitor on => Sys2Proof.Machine.execClkMonitor on s
  | .pwrOsc on => Sys2Proof.Machine.execPwrOsc on s
  | .lanePllLoss p on => Sys2Proof.Machine.execLanePllLoss p on s
  | .rootUnlock => Sys2Proof.Machine.execRootUnlock s
  | .vinOver vin => Sys2Proof.Machine.execVinOver vin s
  | .vinUnder vin => Sys2Proof.Machine.execVinUnder vin s
  | .vinReversed vin => Sys2Proof.Machine.execVinReversed vin s
  | .vinClamp => Sys2Proof.Machine.execVinClamp s
  | .inputDisconnect t vin => Sys2Proof.Machine.execInputDisconnect t vin s
  | .inputLoss t vin => Sys2Proof.Machine.execInputLoss t vin s
  | .lossConfirm => Sys2Proof.Machine.execLossConfirm s
  | .railsOff t => Sys2Proof.Machine.execRailsOff t s
  | .convFault r on => Sys2Proof.Machine.execConvFault r on s
  | .thermalMeasure temps => Sys2Proof.Machine.execThermalMeasure temps s
  | .wakeDrop t => Sys2Proof.Machine.execWakeDrop t s
  | .lowPowerEnter => Sys2Proof.Machine.execLowPowerEnter s
  | .pwrCtlEnter v => Sys2Proof.Machine.execPwrCtlEnter v s
  | .pwrCtlHold v => Sys2Proof.Machine.execPwrCtlHold v s
  | .wakeAssert t => Sys2Proof.Machine.execWakeAssert t s
  | .holdupTest energy => Sys2Proof.Machine.execHoldupTest energy s
  | .cbusTransaction v => Sys2Proof.Machine.execCbusTransaction v s
  | .cbusDone e => Sys2Proof.Machine.execCbusDone e s
  | .mdioAddress m v => Sys2Proof.Machine.execMdioAddress m v s
  | .mdioWrite m v => Sys2Proof.Machine.execMdioWrite m v s
  | .mdioRead m v => Sys2Proof.Machine.execMdioRead m v s
  | .mdioReadInc m v => Sys2Proof.Machine.execMdioReadInc m v s
  | .mdioDone m data => Sys2Proof.Machine.execMdioDone m data s
  | .jtagInstruction i0 => Sys2Proof.Machine.execJtagInstruction i0 s
  | .pinCommit v => Sys2Proof.Machine.execPinCommit v s
  | .pinDriveStart c => Sys2Proof.Machine.execPinDriveStart c s
  | .holdupReady => Sys2Proof.Machine.execHoldupReady s
  | .inputReconnect t vin => Sys2Proof.Machine.execInputReconnect t vin s
  | .dipEnd t vin => Sys2Proof.Machine.execDipEnd t vin s
  | .imageVerifyDone => Sys2Proof.Machine.execImageVerifyDone s
  | .yardBankCopyDone => Sys2Proof.Machine.execYardBankCopyDone s
  | .clauseBlockTestDone ok => Sys2Proof.Machine.execClauseBlockTestDone ok s
  | .wfiWake c => Sys2Proof.Machine.execWfiWake c s

end Sys2Proof.Machine
end

