-- ==== Sys2Proof/Machine/Encode.lean ====
section
/-!
DEFINITION. Machine/Encode.lean: the word of an instruction command: what its hart fetches where it runs that instruction (R115, R116,
Tables 5.3, 5.5, 5.8, 5.10, 5.13).
-/
namespace Sys2Proof.Machine

/-- The hart that an instruction command names and the instruction's word; the other commands have none. -/
def wordOf (i : Instr) : Option (Hart × Nat) := match i with
  | .add h rd ra rb => some (h, encA 1 rd.toNat ra.toNat rb.toNat 0x0)
  | .sub h rd ra rb => some (h, encA 1 rd.toNat ra.toNat rb.toNat 0x1)
  | .and h rd ra rb => some (h, encA 1 rd.toNat ra.toNat rb.toNat 0x2)
  | .or h rd ra rb => some (h, encA 1 rd.toNat ra.toNat rb.toNat 0x3)
  | .xor h rd ra rb => some (h, encA 1 rd.toNat ra.toNat rb.toNat 0x4)
  | .andn h rd ra rb => some (h, encA 1 rd.toNat ra.toNat rb.toNat 0x5)
  | .sll h rd ra rb => some (h, encA 1 rd.toNat ra.toNat rb.toNat 0x6)
  | .srl h rd ra rb => some (h, encA 1 rd.toNat ra.toNat rb.toNat 0x7)
  | .sra h rd ra rb => some (h, encA 1 rd.toNat ra.toNat rb.toNat 0x8)
  | .slt h rd ra rb => some (h, encA 1 rd.toNat ra.toNat rb.toNat 0x9)
  | .sltu h rd ra rb => some (h, encA 1 rd.toNat ra.toNat rb.toNat 0xa)
  | .min h rd ra rb => some (h, encA 1 rd.toNat ra.toNat rb.toNat 0xb)
  | .max h rd ra rb => some (h, encA 1 rd.toNat ra.toNat rb.toNat 0xc)
  | .minu h rd ra rb => some (h, encA 1 rd.toNat ra.toNat rb.toNat 0xd)
  | .maxu h rd ra rb => some (h, encA 1 rd.toNat ra.toNat rb.toNat 0xe)
  | .mul h rd ra rb => some (h, encA 1 rd.toNat ra.toNat rb.toNat 0x10)
  | .mulh h rd ra rb => some (h, encA 1 rd.toNat ra.toNat rb.toNat 0x11)
  | .mulhu h rd ra rb => some (h, encA 1 rd.toNat ra.toNat rb.toNat 0x12)
  | .revh h rd ra => some (h, encA 1 rd.toNat ra.toNat 0 0x18)
  | .revw h rd ra => some (h, encA 1 rd.toNat ra.toNat 0 0x19)
  | .revd h rd ra => some (h, encA 1 rd.toNat ra.toNat 0 0x1a)
  | .clz h rd ra => some (h, encA 1 rd.toNat ra.toNat 0 0x1c)
  | .ctz h rd ra => some (h, encA 1 rd.toNat ra.toNat 0 0x1d)
  | .popc h rd ra => some (h, encA 1 rd.toNat ra.toNat 0 0x1e)
  | .addi h rd ra imm => some (h, encI 2 rd.toNat ra.toNat imm.toNat)
  | .andi h rd ra imm => some (h, encI 3 rd.toNat ra.toNat imm.toNat)
  | .ori h rd ra imm => some (h, encI 4 rd.toNat ra.toNat imm.toNat)
  | .xori h rd ra imm => some (h, encI 5 rd.toNat ra.toNat imm.toNat)
  | .slti h rd ra imm => some (h, encI 7 rd.toNat ra.toNat imm.toNat)
  | .sltiu h rd ra imm => some (h, encI 8 rd.toNat ra.toNat imm.toNat)
  | .slli h rd ra n => some (h, encI 6 rd.toNat ra.toNat (n.toNat + 0))
  | .srli h rd ra n => some (h, encI 6 rd.toNat ra.toNat (n.toNat + 64))
  | .srai h rd ra n => some (h, encI 6 rd.toNat ra.toNat (n.toNat + 128))
  | .lui h rd imm => some (h, encI 9 rd.toNat 0 imm.toNat)
  | .ins16 h rd k imm => some (h, encI 0xA rd.toNat k.toNat imm.toNat)
  | .bfx h rd ra lsb wm1 signed => some (h, encI 0xB rd.toNat ra.toNat (lsb.toNat + wm1.toNat * 64 + (if signed then 4096 else 0)))
  | .bfi h rd ra lsb wm1 => some (h, encI 0xC rd.toNat ra.toNat (lsb.toNat + wm1.toNat * 64))
  | .lb h rd ra imm => some (h, encI 0x10 rd.toNat ra.toNat imm.toNat)
  | .lbu h rd ra imm => some (h, encI 0x11 rd.toNat ra.toNat imm.toNat)
  | .lh h rd ra imm => some (h, encI 0x12 rd.toNat ra.toNat imm.toNat)
  | .lhu h rd ra imm => some (h, encI 0x13 rd.toNat ra.toNat imm.toNat)
  | .lw h rd ra imm => some (h, encI 0x14 rd.toNat ra.toNat imm.toNat)
  | .lwu h rd ra imm => some (h, encI 0x15 rd.toNat ra.toNat imm.toNat)
  | .ld h rd ra imm => some (h, encI 0x16 rd.toNat ra.toNat imm.toNat)
  | .sb h rs ra imm => some (h, encI 0x18 rs.toNat ra.toNat imm.toNat)
  | .sh h rs ra imm => some (h, encI 0x19 rs.toNat ra.toNat imm.toNat)
  | .sw h rs ra imm => some (h, encI 0x1a rs.toNat ra.toNat imm.toNat)
  | .sd h rs ra imm => some (h, encI 0x1b rs.toNat ra.toNat imm.toNat)
  | .beq h ra rb off => some (h, encI 0x20 ra.toNat rb.toNat off.toNat)
  | .bne h ra rb off => some (h, encI 0x21 ra.toNat rb.toNat off.toNat)
  | .blt h ra rb off => some (h, encI 0x22 ra.toNat rb.toNat off.toNat)
  | .bge h ra rb off => some (h, encI 0x23 ra.toNat rb.toNat off.toNat)
  | .bltu h ra rb off => some (h, encI 0x24 ra.toNat rb.toNat off.toNat)
  | .bgeu h ra rb off => some (h, encI 0x25 ra.toNat rb.toNat off.toNat)
  | .dbnz h ra off => some (h, encI 0x26 ra.toNat 0 off.toNat)
  | .jal h off => some (h, encJ off.toNat)
  | .jr h ra => some (h, encA 0x28 0 ra.toNat 0 0)
  | .jalr h ra => some (h, encA 0x28 0 ra.toNat 0 1)
  | .ret h => some (h, encA 0x28 0 0 0 2)
  | .mflk h rd => some (h, encA 0x28 rd.toNat 0 0 3)
  | .mtlk h ra => some (h, encA 0x28 0 ra.toNat 0 4)
  | .chrd h rd ch => some (h, encC 0x30 rd.toNat ch.toNat 0)
  | .chwr h ra ch last => some (h, encC 0x31 ra.toNat ch.toNat (if last then 1 else 0))
  | .chpoll h rd ch => some (h, encC 0x32 rd.toNat ch.toNat 0)
  | .chflush h ch => some (h, encC 0x33 0 ch.toNat 0)
  | .fork h rd ra rb => some (h, encA 0x34 rd.toNat ra.toNat rb.toNat 0)
  | .join h rd ra => some (h, encA 0x35 rd.toNat ra.toNat 0 0)
  | .quit h => some (h, encA 0x36 0 0 0 0)
  | .tauNow h xs ra rb => some (h, encX xs.toNat 0 ra.toNat rb.toNat 0)
  | .tauConv h xs ra rb => some (h, encX xs.toNat 0 ra.toNat rb.toNat 1)
  | .tauAddns h xs ra rb => some (h, encX xs.toNat 0 ra.toNat rb.toNat 2)
  | .tauDiff h xs ra rb => some (h, encX xs.toNat 0 ra.toNat rb.toNat 3)
  | .tauResid h xs ra rb => some (h, encX xs.toNat 0 ra.toNat rb.toNat 4)
  | .hshCrc32c h xs ra rb => some (h, encX xs.toNat 1 ra.toNat rb.toNat 0)
  | .hshCrc32 h xs ra rb => some (h, encX xs.toNat 1 ra.toNat rb.toNat 1)
  | .hshCrc0 h xs ra rb => some (h, encX xs.toNat 1 ra.toNat rb.toNat 2)
  | .hshHash h xs ra rb => some (h, encX xs.toNat 1 ra.toNat rb.toNat 3)
  | .cryAcq h xs ra rb => some (h, encX xs.toNat 2 ra.toNat rb.toNat 0)
  | .cryRel h xs ra rb => some (h, encX xs.toNat 2 ra.toNat rb.toNat 1)
  | .cryTag h xs ra rb => some (h, encX xs.toNat 2 ra.toNat rb.toNat 2)
  | .cryVerify h xs ra rb => some (h, encX xs.toNat 2 ra.toNat rb.toNat 3)
  | .crySync h xs ra rb => some (h, encX xs.toNat 2 ra.toNat rb.toNat 4)
  | .xget h rd xs word => some (h, encG rd.toNat xs.toNat word.toNat)
  | .srqClause h port ra rb => some (h, encQ 0 port.toNat ra.toNat rb.toNat)
  | .srqFdb h port ra rb => some (h, encQ 1 port.toNat ra.toNat rb.toNat)
  | .srqLpm h port ra rb => some (h, encQ 2 port.toNat ra.toNat rb.toNat)
  | .srqStream h port ra rb => some (h, encQ 3 port.toNat ra.toNat rb.toNat)
  | .srqTread h port ra rb => some (h, encQ 4 port.toNat ra.toNat rb.toNat)
  | .fence h => some (h, encA 0x3B 0 0 0 0)
  | .trap h imm => some (h, encI 0x3C 0 0 imm.toNat)
  | .tres h rd ra t => some (h, encV rd.toNat ra.toNat 0 t.toNat 0)
  | .tent h rd t => some (h, encV rd.toNat 0 0 t.toNat 1)
  | .trdw h rd k t => some (h, encV rd.toNat 0 k.toNat t.toNat 2)
  | .twrw h k ra t => some (h, encV 0 ra.toNat k.toNat t.toNat 3)
  | .tstat h rd t => some (h, encV rd.toNat 0 0 t.toNat 4)
  | .eret h => some (h, encP 0 0 0 0)
  | .mfsr h rd sr => some (h, encP rd.toNat 0 sr.toNat 1)
  | .mtsr h sr ra => some (h, encP 0 ra.toNat sr.toNat 2)
  | .wfi h => some (h, encP 0 0 0 3)
  | .tlbi h ra => some (h, encP 0 ra.toNat 0 4)
  | .tlbia h => some (h, encP 0 0 0 5)
  | .dcwb h ra => some (h, encP 0 ra.toNat 0 6)
  | .dcinv h ra => some (h, encP 0 ra.toNat 0 7)
  | .icinv h ra => some (h, encP 0 ra.toNat 0 8)
  | _ => none

end Sys2Proof.Machine
end

