-- ==== Sys2Proof/Safety.lean ====
section
/-!
DEFINITION. Safety.lean: what claims call a good state and a safe run.
-/
namespace Sys2Proof.Machine

/-- Memory stands in its one canonical form: addresses strictly rising, no entry equal to what an unlisted address reads as. -/
def Memory.wf (m : List Host.Cell) : Bool := awf memReset m

/-- Control space stands in its canonical form. -/
def Control.wf (m : Map Word) : Bool := awf regReset m

/-- The outcome is a next state. -/
def Answers (o : Host.Outcome State Fault Refusal) : Prop := ∃ t, o = .next t

/-- A run of `n` steps answers a state at every one of them. -/
def SafeRun : Nat → State → Prop
  | 0, _ => True
  | n + 1, s => ∃ t, step s = .next t ∧ SafeRun n t

/-- The command answers a next state of which `P` holds. -/
def Gives (c : Instr) (s : State) (P : State → Prop) : Prop := ∃ t, exec c s = .next t ∧ P t

/-! ### Instructions of a hart (R113, R124, R128, R404) -/

/-- The number of a packet-core thread; a control core has none. -/
def threadOf : Hart → Option Nat
  | .pkt n k t => some (threadId n k t)
  | .ctl _ => none

/-- What register `r` of a hart reads for an instruction that issues now: a load due at this position has delivered (R124). -/
def State.operand (s : State) (h : Hart) (r : Nat) : DWord := match h with
  | .pkt n k t => (s.thread (threadId n k t)).deliver.1.get r
  | .ctl c => (s.ctlc c).get r

/-- The budget monitor lets thread i issue: it does not stand before the instruction that R29 stops in mode 2. -/
def State.inBudget (s : State) (i : Nat) : Prop :=
  ∀ q c, s.chargedTo i = some q → s.coach q = some c →
    c.issued ≠ s.budget (stnOf i) ∨ c.overB = true ∨ s.fld (stnR (stnOf i) 8) 0 2 ≠ 2

/-- The conditions under which a hart issues an instruction and its effect takes place, legality and traps of its own aside: the core
    runs, the hart does not wait, the budget allows it, no due load and, on a packet core, no fetch is in error. -/
def Issues (s : State) : Hart → Prop
  | .pkt n k t =>
    let i := threadId n k t
    s.coreRuns (coreOf i) = true ∧ (s.thread i).run = .ready ∧ (s.thread i).deliver.2 = none ∧ s.inBudget i
      ∧ aget (fun _ => false) s.cpu.upsets (codeAddr i (s.thread i).pc.toNat / 8) = false
  | .ctl c => s.ctlRuns c = true ∧ (s.ctlc c).waiting = false

/-- The word at the hart's pc, as it fetches it, is `w`. -/
def Fetches (s : State) (h : Hart) (w : Nat) : Prop := match h with
  | .pkt n k t => s.codeWord (threadId n k t) = w
  | .ctl c => (s.fetchCtl c).1 = .ok w

/-- The instruction `c`, standing at the pc of the hart that it names, answers a next state of which `P` holds. -/
def Runs (c : Instr) (s : State) (P : State → Prop) : Prop := ∀ h w, wordOf c = some (h, w) → Fetches s h w → Gives c s P

/-- The instruction may go on at pc + 4: a packet core traps at 0xFFFC (R128). -/
def Falls (s : State) : Hart → Prop
  | .pkt n k t => (s.thread (threadId n k t)).pc.toNat ≠ 0xFFFC
  | .ctl _ => True

/-- pc + 4, as wide as the pc. -/
def State.nextPc (s : State) : Hart → Nat
  | .pkt n k t => ((s.thread (threadId n k t)).pc + 4).toNat
  | .ctl c => ((s.ctlc c).pcOf + 4).toNat

/-- What an instruction of hart `h` that only computes leaves alone: memory, time, every other thread, every system register. -/
structure Frame (s t : State) (h : Hart) : Prop where
  mem : t.mem = s.mem
  time : t.time = s.time
  others : ∀ j, threadOf h ≠ some j → t.thread j = s.thread j
  sys : ∀ c k, t.sysReg c k = s.sysReg c k

/-- The next state of an instruction that writes `v` to register `rd` (0: to none), with the pc and lk it leaves: w0 stays 0, every
    other register reads as before. -/
structure Done (h : Hart) (rd : Nat) (v : DWord) (pc lk : Nat) (s t : State) : Prop where
  regs : ∀ r, t.rget h r = if r = rd ∧ r ≠ 0 then v else s.operand h r
  pc : t.pcOf h = pc
  lk : t.lkOf h = lk
  frame : Frame s t h

/-- The instruction writes `v` to rd and goes on at pc + 4. -/
def Wrote (h : Hart) (rd : BitVec 5) (v : DWord) (s t : State) : Prop := Done h rd.toNat v (s.nextPc h) (s.lkOf h) s t

/-- A jump may go to `target` (R128): on a packet core an address of instruction scratch, everywhere a multiple of 4. -/
def TargetOk : Hart → Int → Prop
  | .pkt _ _ _, target => 0 ≤ target ∧ target ≤ 0xFFFF ∧ target % 4 = 0
  | .ctl _, target => target % 4 = 0

/-- The pc that a jump to `target` leaves. -/
def targetPc (target : Int) : Nat := (target % 2 ^ 64).toNat

/-- The hart has taken a synchronous trap (R132–R134, R140): a pool thread stands parked at its pc and its item is the last written to
    ch14 of its core or the last that waits for it; a control core has saved pc, cause and value and runs its handler in kernel mode
    with IE 0. -/
def TookTrap (h : Hart) (code value : Nat) (s t : State) : Prop := match h with
  | .pkt n k j =>
    let i := threadId n k j
    let item := trapItem code j.val false (s.thread i).pc.toNat value
    (t.thread i).run = .parked ∧ (t.thread i).pc = (s.thread i).pc
      ∧ ((t.deferred (coreOf i)).getLast? = some item
        ∨ ∃ (x : Chan) (cyc : Nat), t.ch14 (coreOf i) = (x.pushItem item).stamp cyc item.length)
  | .ctl c =>
    t.sysReg c 1 = (s.ctlc c).pcOf ∧ t.sysReg c 2 = BitVec.ofNat 64 code ∧ t.sysReg c 3 = BitVec.ofNat 64 value
      ∧ t.kernel c = true ∧ t.intEnable c = false ∧ (t.ctlc c).pcOf = s.sysReg c 4

/-! ### Raises -/

/-- Source `src` stands among the raises that no fault latch has taken yet. -/
def Raises (s : State) (src : Nat) : Prop := ∃ r ∈ s.flt.raises, r.src = src

/-! ### Jenitor items (R327, R330) -/

/-- The one command at the Jenitor is `c`; the item in front, of OP `op` and body `b`, and the one behind it are of Table 14.2. -/
structure Fronts (s : State) (c : JenCmd) (op : Nat) (b : List Byte) (rest : List (Nat × List Byte)) : Prop where
  alone : s.jen.cmds = [c]
  items : c.items = (op, b) :: rest
  closing : c.closing = false
  origin : c.origin = none
  known : itemKnown c op b = true
  next : ∀ x, rest.head? = some x → itemKnown c x.1 x.2 = true

/-- The item in front is performed by a command of role `role` whose answer takes `size` bytes: neither the module's phase, nor the
    sender's role, nor the response's length stands against it (R327, R328, R349). -/
structure Asks (s : State) (c : JenCmd) (op : Nat) (b : List Byte) (rest : List (Nat × List Byte)) (role size : Nat) : Prop
    extends Fronts s c op b rest where
  ready : c.waiting = false
  phase : s.fld bootB 0 4 ≠ 8
  allowed : role ≤ c.role
  fits : c.used + 4 + size ≤ 1400

/-- The item in front of `c` is answered: the next item is in front, or the response is complete and, its session being open, kept with
    the session (R326, R327). -/
def Answered (c : JenCmd) (rest : List (Nat × List Byte)) (op st : Nat) (body : List Byte) (s u : State) : Prop :=
  let done := { c with items := rest, answers := c.answers ++ [(op, st, body)], waiting := false }
  if rest = [] ∨ (c.stop = true ∧ st ≠ 0) then
    u.jen.cmds = [] ∧ (s.cmdLive c = true → (s.session c.session).stored.any (fun r => r.seq == c.seq && r.tag == c.tag) = true →
      ∃ r ∈ (u.session c.session).stored, r.seq = c.seq ∧ r.tag = c.tag ∧ ∃ m, r.response = some m ∧ done.payload <:+ m)
  else u.jen.cmds = [done]

/-- The item in front of `c` has been performed, and its answer waits (R330). -/
def Waits (c : JenCmd) (u : State) : Prop := u.jen.cmds = [{ c with waiting := true }]

/-! ### Isolation and frames -/

/-- Commands of registers, pins, clocks, supply, tasks and status that have no business with the packet path. -/
def controlPlane (i : Instr) : Bool := match i with
  | .timeIncrLoWrite .. | .timeIncrCommit .. | .slewStart .. | .slewEnd .. | .stepArm .. | .timeSecHiRead .. | .timeSnapTake | .timeSnapRelease
  | .timeConvGo .. | .timeConvDone | .warmSet | .oscMeasure | .txtsPop | .driftMeasure .. | .trigEntryWrite .. | .evtqPop | .ppsiSecHiRead ..
  | .polarityInvert .. | .inputOvervoltage .. | .stnMonClear .. | .stnEpochLoRead .. | .rewLoRead .. | .poolMinClear .. | .auditSelWrite ..
  | .taskAlloc | .taskPost .. | .taskTake .. | .taskYield .. | .taskPreempt .. | .taskDone .. | .taskFree .. | .taskSlotCfgWrite ..
  | .iotlbInvalidate .. | .ringSeenWrite .. | .fltRearm .. | .availRecord | .cdcPulseMerge .. | .refLost .. | .clkMonitor .. | .pwrOsc ..
  | .lanePllLoss .. | .vinOver .. | .vinUnder .. | .vinReversed .. | .vinClamp | .inputDisconnect .. | .inputReconnect .. | .inputLoss ..
  | .dipEnd .. | .convFault .. | .railsSequenced | .refStable | .holdupTest .. | .holdupReady | .cbusTransaction .. | .mdioAddress ..
  | .mdioWrite .. | .mdioRead .. | .mdioReadInc .. | .mdioDone .. | .jtagInstruction .. | .pinCommit .. | .pinDriveStart .. => true
  | _ => false

/-- What the packet path holds is the same in both states: coaches, queues and ports, stations but for the cycle of the last
    STN_MON.CLEAR, cores and threads, the rewind store, every byte of memory, the image in force, and the Jenitor's sessions and
    commands. -/
structure SamePath (s t : State) : Prop where
  coaches : t.coaches = s.coaches
  egr : t.egr = s.egr
  stns : ∀ n, { t.stn n with cleared := none } = ({ s.stn n with cleared := none } : StnSt)
  cores : t.cores = s.cores
  threads : t.cpu.threads = s.cpu.threads
  rew : t.rew = s.rew
  bytes : ∀ a, t.byte a = s.byte a
  image : t.image = s.image
  jen : t.jen = s.jen

/-- Every control-space register outside the blocks of `l` reads as before. -/
def OnlyBlocks (l : List Nat) (s t : State) : Prop := ∀ a, inControl a = true → (a - block 0) / 0x100000 ∉ l → t.reg a = s.reg a

end Sys2Proof.Machine
end

