-- ==== Sys2Proof/Certificates/Slice0/Obligations.lean ====
section
/-!
DEFINITION. Certificates/Slice0/Obligations.lean: the statements for the provers, family by family in the order of the opcode table, then
the machine as a whole.
-/
open Sys2Proof Sys2Proof.Machine

/-- Table 5.3, the ALU group of two operands: the value rd takes, for every pair of operands, on either kind of core.
Table 5.3, the ALU group of one operand: byte reversal of 16, 32 and 64 bits, and the three bit counts. -/
def Obligations.AluResults : Prop :=
  (∀ (h : Hart) (rd ra rb : BitVec 5) (s : State), Issues s h → Falls s h →
      let a := s.operand h ra.toNat
      let b := s.operand h rb.toNat
      let sh := b.toNat % 64
      Runs (.add h rd ra rb) s (Wrote h rd (a + b) s)
      ∧ Runs (.sub h rd ra rb) s (Wrote h rd (a - b) s)
      ∧ Runs (.and h rd ra rb) s (Wrote h rd (a &&& b) s)
      ∧ Runs (.or h rd ra rb) s (Wrote h rd (a ||| b) s)
      ∧ Runs (.xor h rd ra rb) s (Wrote h rd (a ^^^ b) s)
      ∧ Runs (.andn h rd ra rb) s (Wrote h rd (a &&& ~~~b) s)
      ∧ Runs (.sll h rd ra rb) s (Wrote h rd (a <<< sh) s)
      ∧ Runs (.srl h rd ra rb) s (Wrote h rd (a >>> sh) s)
      ∧ Runs (.sra h rd ra rb) s (Wrote h rd (a.sshiftRight sh) s)
      ∧ Runs (.slt h rd ra rb) s (Wrote h rd (if a.toInt < b.toInt then 1 else 0) s)
      ∧ Runs (.sltu h rd ra rb) s (Wrote h rd (if a.toNat < b.toNat then 1 else 0) s)
      ∧ Runs (.min h rd ra rb) s (Wrote h rd (if a.toInt < b.toInt then a else b) s)
      ∧ Runs (.max h rd ra rb) s (Wrote h rd (if a.toInt < b.toInt then b else a) s)
      ∧ Runs (.minu h rd ra rb) s (Wrote h rd (if a.toNat < b.toNat then a else b) s)
      ∧ Runs (.maxu h rd ra rb) s (Wrote h rd (if a.toNat < b.toNat then b else a) s)
      ∧ Runs (.mul h rd ra rb) s (Wrote h rd (BitVec.ofNat 64 (a.toNat * b.toNat)) s)
      ∧ Runs (.mulh h rd ra rb) s (Wrote h rd (BitVec.ofInt 64 (a.toInt * b.toInt / 2 ^ 64)) s)
      ∧ Runs (.mulhu h rd ra rb) s (Wrote h rd (BitVec.ofNat 64 (a.toNat * b.toNat / 2 ^ 64)) s))
  ∧ (∀ (h : Hart) (rd ra : BitVec 5) (s : State), Issues s h → Falls s h →
      let a := s.operand h ra.toNat
      let y := fun (i : Nat) => a.extractLsb' (8 * i) 8
      Runs (.revh h rd ra) s (Wrote h rd ((y 0 ++ y 1).setWidth 64) s)
      ∧ Runs (.revw h rd ra) s (Wrote h rd ((y 0 ++ y 1 ++ y 2 ++ y 3).setWidth 64) s)
      ∧ Runs (.revd h rd ra) s (Wrote h rd (y 0 ++ y 1 ++ y 2 ++ y 3 ++ y 4 ++ y 5 ++ y 6 ++ y 7) s)
      ∧ (∃ n ≤ 64, (∀ i < n, a.getLsbD (63 - i) = false) ∧ (n < 64 → a.getLsbD (63 - n) = true)
          ∧ Runs (.clz h rd ra) s (Wrote h rd (BitVec.ofNat 64 n) s))
      ∧ (∃ n ≤ 64, (∀ i < n, a.getLsbD i = false) ∧ (n < 64 → a.getLsbD n = true)
          ∧ Runs (.ctz h rd ra) s (Wrote h rd (BitVec.ofNat 64 n) s))
      ∧ Runs (.popc h rd ra) s (Wrote h rd (BitVec.ofNat 64 ((List.range 64).filter (a.getLsbD ·)).length) s))

/-- Table 5.3, the immediate and field instructions: ADDI and the comparisons sign-extend imm, the logic instructions zero-extend it. -/
def Obligations.ImmediateAndFieldResults : Prop :=
  ∀ (h : Hart) (rd ra : BitVec 5) (imm : BitVec 16) (n : BitVec 6) (s : State), Issues s h → Falls s h →
    let a := s.operand h ra.toNat
    Runs (.addi h rd ra imm) s (Wrote h rd (a + imm.signExtend 64) s)
    ∧ Runs (.andi h rd ra imm) s (Wrote h rd (a &&& imm.setWidth 64) s)
    ∧ Runs (.ori h rd ra imm) s (Wrote h rd (a ||| imm.setWidth 64) s)
    ∧ Runs (.xori h rd ra imm) s (Wrote h rd (a ^^^ imm.setWidth 64) s)
    ∧ Runs (.slti h rd ra imm) s (Wrote h rd (if a.toInt < imm.toInt then 1 else 0) s)
    ∧ Runs (.sltiu h rd ra imm) s (Wrote h rd (if a.toNat < (imm.signExtend 64).toNat then 1 else 0) s)
    ∧ Runs (.slli h rd ra n) s (Wrote h rd (a <<< n.toNat) s)
    ∧ Runs (.srli h rd ra n) s (Wrote h rd (a >>> n.toNat) s)
    ∧ Runs (.srai h rd ra n) s (Wrote h rd (a.sshiftRight n.toNat) s)
    ∧ Runs (.lui h rd imm) s (Wrote h rd (imm.signExtend 64 <<< 16) s)
    ∧ (∀ k : BitVec 2, ∃ v : DWord, (∀ i < 64, v.getLsbD i = if i / 16 = k.toNat then imm.getLsbD (i % 16) else (s.operand h rd.toNat).getLsbD i)
        ∧ Runs (.ins16 h rd k imm) s (Wrote h rd v s))
    ∧ (∀ lsb wm1 : BitVec 6, lsb.toNat + wm1.toNat + 1 ≤ 64 →
        Runs (.bfx h rd ra lsb wm1 false) s (Wrote h rd ((a.extractLsb' lsb.toNat (wm1.toNat + 1)).setWidth 64) s)
        ∧ Runs (.bfx h rd ra lsb wm1 true) s (Wrote h rd ((a.extractLsb' lsb.toNat (wm1.toNat + 1)).signExtend 64) s)
        ∧ ∃ v : DWord, (∀ i < 64, v.getLsbD i = if lsb.toNat ≤ i ∧ i < lsb.toNat + wm1.toNat + 1 then a.getLsbD (i - lsb.toNat)
              else (s.operand h rd.toNat).getLsbD i)
            ∧ Runs (.bfi h rd ra lsb wm1) s (Wrote h rd v s))

/-- R127, Table 5.4: a branch whose condition holds goes to pc + 4 × off, else to pc + 4; no register changes but DBNZ's.
R127, R128, Table 5.13: the jumps, the calls and the moves to and from lk. -/
def Obligations.ControlFlowResults : Prop :=
  (∀ (h : Hart) (ra rb : BitVec 5) (off : BitVec 16) (s : State), Issues s h →
      let a := s.operand h ra.toNat
      let b := s.operand h rb.toNat
      let target := (s.pcOf h : Int) + off.toInt * 4
      let goes := fun (c : Instr) (p : Prop) =>
        (p → TargetOk h target → Runs c s (Done h 0 0 (targetPc target) (s.lkOf h) s))
        ∧ (¬ p → Falls s h → Runs c s (Done h 0 0 (s.nextPc h) (s.lkOf h) s))
      goes (.beq h ra rb off) (a = b) ∧ goes (.bne h ra rb off) (a ≠ b)
      ∧ goes (.blt h ra rb off) (a.toInt < b.toInt) ∧ goes (.bge h ra rb off) (b.toInt ≤ a.toInt)
      ∧ goes (.bltu h ra rb off) (a.toNat < b.toNat) ∧ goes (.bgeu h ra rb off) (b.toNat ≤ a.toNat)
      ∧ (ra ≠ 0 →
          (a ≠ 1 → TargetOk h target → Runs (.dbnz h ra off) s (Done h ra.toNat (a - 1) (targetPc target) (s.lkOf h) s))
          ∧ (a = 1 → Falls s h → Runs (.dbnz h ra off) s (Done h ra.toNat 0 (s.nextPc h) (s.lkOf h) s))))
  ∧ (∀ (h : Hart) (rd ra : BitVec 5) (off : BitVec 26) (s : State), Issues s h →
      let a := (s.operand h ra.toNat).toNat
      let target := (s.pcOf h : Int) + off.toInt * 4
      (TargetOk h target → Falls s h → Runs (.jal h off) s (Done h 0 0 (targetPc target) (s.nextPc h) s))
      ∧ (TargetOk h a → Runs (.jr h ra) s (Done h 0 0 a (s.lkOf h) s))
      ∧ (TargetOk h a → Falls s h → Runs (.jalr h ra) s (Done h 0 0 a (s.nextPc h) s))
      ∧ (TargetOk h (s.lkOf h) → Runs (.ret h) s (Done h 0 0 (s.lkOf h) (s.lkOf h) s))
      ∧ (Falls s h → Runs (.mflk h rd) s (Wrote h rd (BitVec.ofNat 64 (s.lkOf h)) s))
      ∧ (TargetOk h a → Falls s h → Runs (.mtlk h ra) s (Done h 0 0 (s.nextPc h) a s))
      ∧ (Falls s h → Runs (.fence h) s (Done h 0 0 (s.nextPc h) (s.lkOf h) s)))

/-- Tables 5.6 and 5.9: TRAP raises SOFT with imm; an illegal word raises ILLEGAL with the word; a jump that the pc could not take raises
ADDRESS or MISALIGN with its target. On a packet core these are the traps of a pool thread.
R114: where the hart fetches another word than the command's, an illegal one traps with that word, and a legal one is no business of the
command (log entry 203, the model's choice). -/
def Obligations.SoftIllegalAndJumpTraps : Prop :=
  ∀ (h : Hart) (rd ra : BitVec 5) (imm off : BitVec 16) (lsb wm1 : BitVec 6) (sg : Bool) (s : State), Issues s h →
    (∀ n k, h ≠ .pkt n k 7) →
    let a := (s.operand h ra.toNat).toNat
    Runs (.trap h imm) s (TookTrap h 8 imm.toNat s)
    ∧ Runs (.dbnz h 0 off) s (TookTrap h 0 (0x26 * 2 ^ 26 + off.toNat) s)
    ∧ (64 < lsb.toNat + wm1.toNat + 1 →
        Runs (.bfx h rd ra lsb wm1 sg) s (TookTrap h 0 (0xB * 2 ^ 26 + rd.toNat * 2 ^ 21 + ra.toNat * 2 ^ 16
          + (lsb.toNat + wm1.toNat * 64 + (if sg then 4096 else 0)) % 2 ^ 16) s)
        ∧ Runs (.bfi h rd ra lsb wm1) s (TookTrap h 0 (0xC * 2 ^ 26 + rd.toNat * 2 ^ 21 + ra.toNat * 2 ^ 16
          + (lsb.toNat + wm1.toNat * 64)) s))
    ∧ (threadOf h ≠ none → 0xFFFF < a → Runs (.jr h ra) s (TookTrap h 2 a s))
    ∧ (a ≤ 0xFFFF → a % 4 ≠ 0 → Runs (.jr h ra) s (TookTrap h 1 a s))
    ∧ (∀ n k t rb, h = .pkt n k t → (s.thread (threadId n k t)).pc.toNat = 0xFFFC → Runs (.add h rd ra rb) s (TookTrap h 2 0x10000 s))
    ∧ (∀ c w x, wordOf c = some (h, w) → Fetches s h x → x ≠ w →
        let legal := if threadOf h = none then ctlLegal x else pktLegal false x
        (legal = true → exec c s = .next s) ∧ (legal = false → Gives c s (TookTrap h 0 x s)))

/-- R132: a parked thread issues nothing.
R114, R116, R141: outside kernel mode a privileged instruction raises PRIV, but for MFSR of CYCLE and CORE_ID; on a packet core it is
illegal, and so are the packet-core instructions on a control core. -/
def Obligations.PrivilegeAndParkedThreads : Prop :=
  (∀ (n : Fin 16) (k : Fin 10) (t : Fin 8) (rd ra rb : BitVec 5) (imm : BitVec 16) (ch : BitVec 4) (s : State),
      (s.thread (threadId n k t)).run = .parked →
      let h := Hart.pkt n k t
      exec (.add h rd ra rb) s = .next s ∧ exec (.addi h rd ra imm) s = .next s ∧ exec (.ld h rd ra imm) s = .next s
      ∧ exec (.sd h rd ra imm) s = .next s ∧ exec (.jr h ra) s = .next s ∧ exec (.chrd h rd ch) s = .next s
      ∧ exec (.trap h imm) s = .next s ∧ exec (.quit h) s = .next s ∧ exec (.fork h rd ra rb) s = .next s)
  ∧ (∀ (c : Fin 4) (rd ra rb : BitVec 5) (sr : BitVec 8) (ch : BitVec 4) (xs : BitVec 3) (w port : BitVec 2) (s : State), Issues s (.ctl c) →
      let h := Hart.ctl c
      let priv := fun (fn : Nat) => 0x3E * 2 ^ 26 + fn
      (s.kernel c = false →
        Runs (.eret h) s (TookTrap h 18 (priv 0) s)
        ∧ (sr.toNat ≤ 0xC → sr ≠ 9 → sr ≠ 0xA →
            Runs (.mfsr h rd sr) s (TookTrap h 18 (priv 1 + rd.toNat * 2 ^ 21 + sr.toNat * 2 ^ 8) s))
        ∧ (sr.toNat ≤ 0xC → Runs (.mtsr h sr ra) s (TookTrap h 18 (priv 2 + ra.toNat * 2 ^ 16 + sr.toNat * 2 ^ 8) s))
        ∧ Runs (.wfi h) s (TookTrap h 18 (priv 3) s)
        ∧ Runs (.tlbi h ra) s (TookTrap h 18 (priv 4 + ra.toNat * 2 ^ 16) s)
        ∧ Runs (.tlbia h) s (TookTrap h 18 (priv 5) s)
        ∧ Runs (.dcwb h ra) s (TookTrap h 18 (priv 6 + ra.toNat * 2 ^ 16) s)
        ∧ Runs (.dcinv h ra) s (TookTrap h 18 (priv 7 + ra.toNat * 2 ^ 16) s)
        ∧ Runs (.icinv h ra) s (TookTrap h 18 (priv 8 + ra.toNat * 2 ^ 16) s))
      ∧ (∃ v, Runs (.chrd h rd ch) s (TookTrap h 0 v s)) ∧ (∃ v, Runs (.chwr h ra ch true) s (TookTrap h 0 v s))
      ∧ (∃ v, Runs (.fork h rd ra rb) s (TookTrap h 0 v s)) ∧ (∃ v, Runs (.quit h) s (TookTrap h 0 v s))
      ∧ (∃ v, Runs (.tauNow h xs ra rb) s (TookTrap h 0 v s)) ∧ (∃ v, Runs (.xget h rd xs w) s (TookTrap h 0 v s))
      ∧ (∃ v, Runs (.srqFdb h port ra rb) s (TookTrap h 0 v s)) ∧ (∃ v, Runs (.tres h rd ra xs) s (TookTrap h 0 v s))
      ∧ (∀ (n : Fin 16) (k : Fin 10) (t : Fin 8), t ≠ 7 → Issues s (.pkt n k t) →
          let p := Hart.pkt n k t
          Runs (.eret p) s (TookTrap p 0 (priv 0) s) ∧ Runs (.wfi p) s (TookTrap p 0 (priv 3) s)
          ∧ Runs (.tres p rd ra xs) s (TookTrap p 0 (0x3D * 2 ^ 26 + rd.toNat * 2 ^ 21 + ra.toNat * 2 ^ 16 + xs.toNat * 2 ^ 8) s)
          ∧ Runs (.chflush p ch) s (TookTrap p 0 (0x33 * 2 ^ 26 + ch.toNat * 2 ^ 17) s)))

/-- R136, R137, Table 5.8: the supervisor of a core reads, writes, resumes and returns its pool threads. -/
def Obligations.SupervisorResults : Prop :=
  ∀ (n : Fin 16) (k : Fin 10) (rd ra r : BitVec 5) (t : BitVec 3) (s : State), Issues s (.pkt n k 7) → Falls s (.pkt n k 7) → t ≠ 7 →
    let h := Hart.pkt n k 7
    let j := threadId n k t.toNat
    let v := s.operand h ra.toNat
    let parked := (s.thread j).run = .parked
    let result := fun (u : State) (x : DWord) => u.rget h rd.toNat = if rd = 0 then 0 else x
    (parked → v.toNat < 0x10000 → v.toNat % 4 = 0 → Runs (.tres h rd ra t) s (fun u =>
        (u.thread j).run = .ready ∧ (u.thread j).pc.toNat = v.toNat ∧ (u.thread j).gen = ((s.thread j).gen + 1) % 256 ∧ result u 0))
    ∧ (¬ parked → Runs (.tres h rd ra t) s (fun u => u.thread j = s.thread j ∧ result u 1))
    ∧ Runs (.trdw h rd r t) s (fun u => u.thread j = s.thread j ∧ result u ((s.thread j).get r.toNat))
    ∧ (parked → Runs (.twrw h r ra t) s (fun u => ∀ q, (u.thread j).get q = if q = r.toNat ∧ q ≠ 0 then v else (s.thread j).get q))
    ∧ (¬ parked → Runs (.twrw h r ra t) s (fun u => u.thread j = s.thread j))
    ∧ Runs (.tstat h rd t) s (fun u => u.thread j = s.thread j ∧ (rd ≠ 0 → (u.rget h rd.toNat).getLsbD 0 = decide parked))
    ∧ ((s.thread j).binding = none → s.isDispatch j = false → (s.thread j).run ≠ .free → Runs (.tent h rd t) s (fun u =>
        (u.thread j).run = .free ∧ (u.thread j).binding = none ∧ result u 0))
    ∧ (s.atEntry j = true → Runs (.tent h rd t) s (fun u => u.thread j = s.thread j ∧ result u 1))

/-- R140–R142, Tables 5.10 and 5.11: the privileged instructions in kernel mode, translation off for the cache operations. -/
def Obligations.PrivilegedResults : Prop :=
  ∀ (c : Fin 4) (rd ra : BitVec 5) (sr : BitVec 8) (s : State), Issues s (.ctl c) → s.kernel c = true →
    let h := Hart.ctl c
    let v := s.operand h ra.toNat
    let st := s.sysReg c 0
    let line := fun (u : State) => (u.ctlc c).dirty.filter (fun l => l.line == v.toNat / 64)
    ((getField st 2 1 = 1 ∨ s.trans c = true) → Runs (.eret h) s (fun u =>
        u.pcOf h = (s.sysReg c 1).toNat ∧ getField (u.sysReg c 0) 0 1 = getField st 2 1 ∧ getField (u.sysReg c 0) 1 1 = getField st 3 1))
    ∧ (sr.toNat ≤ 0xC → Runs (.mfsr h rd sr) s (fun u => u.pcOf h = s.nextPc h ∧ (rd ≠ 0 → u.rget h rd.toNat = s.sysReg c sr.toNat)))
    ∧ ((sr = 1 ∨ sr = 2 ∨ sr = 3 ∨ sr = 7 ∨ sr = 8 ∨ sr = 0xB ∨ sr = 0xC) →
        Runs (.mtsr h sr ra) s (fun u => u.pcOf h = s.nextPc h ∧ u.sysReg c sr.toNat = v))
    ∧ ((sr = 9 ∨ sr = 0xA) → Runs (.mtsr h sr ra) s (fun u => u.pcOf h = s.nextPc h ∧ u.sysReg c sr.toNat = s.sysReg c sr.toNat))
    ∧ Runs (.tlbi h ra) s (fun u => u.pcOf h = s.nextPc h ∧ ∀ e ∈ (u.ctlc c).tlb, e.hits (getField (s.sysReg c 6) 0 8) v.toNat = false)
    ∧ Runs (.tlbia h) s (fun u => u.pcOf h = s.nextPc h ∧ (u.ctlc c).tlb = [])
    ∧ (s.trans c = false →
        Runs (.dcwb h ra) s (fun u => u.pcOf h = s.nextPc h ∧ line u = [])
        ∧ Runs (.dcinv h ra) s (fun u => u.pcOf h = s.nextPc h ∧ line u = [] ∧ u.mem = s.mem)
        ∧ Runs (.icinv h ra) s (fun u => u.pcOf h = s.nextPc h ∧ u.mem = s.mem ∧ ∀ r, u.rget h r = s.operand h r))
    ∧ ((s.irqLine c).isSome = true → Runs (.wfi h) s (fun u => u.pcOf h = s.nextPc h ∧ (u.ctlc c).waiting = false))

/-- R123, R124, Table 5.4: a load of a packet core reads at issue and delivers 3 instructions later from its data scratch, 4 from station
shared memory; until then every register reads as before. -/
def Obligations.PacketLoadResults : Prop :=
  ∀ (n : Fin 16) (k : Fin 10) (t : Fin 8) (rd ra : BitVec 5) (imm : BitVec 16) (s : State),
    let h := Hart.pkt n k t
    let i := threadId n k t
    Issues s h → Falls s h →
    let ea := (s.operand h ra.toNat + imm.signExtend 64).toNat
    let near := ea < 0x20000
    let far := 0x200000 ≤ ea ∧ ea < 0x400000
    let opens := fun (c : Instr) (size : Nat) (ext : Nat → DWord) => (near ∨ far) → ea % size = 0 → s.upset (localPa i ea) = false →
      Runs c s (fun u => (∀ r, u.rget h r = s.operand h r) ∧ u.pcOf h = s.nextPc h ∧ Frame s u h
        ∧ (u.thread i).loads.getLast? = some ⟨rd.toNat, ext (s.cnum (localPa i ea) size), if near then 3 else 4, none⟩)
    opens (.lb h rd ra imm) 1 (fun v => (BitVec.ofNat 8 v).signExtend 64)
    ∧ opens (.lbu h rd ra imm) 1 (fun v => (BitVec.ofNat 8 v).setWidth 64)
    ∧ opens (.lh h rd ra imm) 2 (fun v => (BitVec.ofNat 16 v).signExtend 64)
    ∧ opens (.lhu h rd ra imm) 2 (fun v => (BitVec.ofNat 16 v).setWidth 64)
    ∧ opens (.lw h rd ra imm) 4 (fun v => (BitVec.ofNat 32 v).signExtend 64)
    ∧ opens (.lwu h rd ra imm) 4 (fun v => (BitVec.ofNat 32 v).setWidth 64)
    ∧ opens (.ld h rd ra imm) 8 (fun v => BitVec.ofNat 64 v)

/-- R123, R4: a store of a packet core writes the low bytes of rs, lowest address first, into its data scratch or station shared memory,
and no other byte of memory and no register changes. -/
def Obligations.PacketStoreResults : Prop :=
  ∀ (n : Fin 16) (k : Fin 10) (t : Fin 8) (rs ra : BitVec 5) (imm : BitVec 16) (s : State),
    let h := Hart.pkt n k t
    Issues s h → Falls s h →
    let ea := (s.operand h ra.toNat + imm.signExtend 64).toNat
    let a := localPa (threadId n k t) ea
    let stores := fun (c : Instr) (size : Nat) => (ea < 0x20000 ∨ 0x200000 ≤ ea ∧ ea < 0x400000) → ea % size = 0 →
      Runs c s (fun u => (∀ b, u.byte b = if a ≤ b ∧ b < a + size then (s.operand h rs.toNat).extractLsb' (8 * (b - a)) 8 else s.byte b)
        ∧ (∀ r, u.rget h r = s.operand h r) ∧ u.pcOf h = s.nextPc h ∧ ∀ c q, u.sysReg c q = s.sysReg c q)
    stores (.sb h rs ra imm) 1 ∧ stores (.sh h rs ra imm) 2 ∧ stores (.sw h rs ra imm) 4 ∧ stores (.sd h rs ra imm) 8

/-- R139, R119, R120, Table 5.9: loads and stores of a control core with translation off: memory answers at once; outside the map they
trap ADDRESS, misaligned they trap MISALIGN, and a control-space access that is not an aligned word traps ACCESS.
The model's choices it rests on: log entries 104, 105. -/
def Obligations.ControlLoadStoreResults : Prop :=
  ∀ (c : Fin 4) (rd ra : BitVec 5) (imm : BitVec 16) (s : State),
    let h := Hart.ctl c
    Issues s h → s.trans c = false →
    let ea := (s.operand h ra.toNat + imm.signExtend 64).toNat
    let r := s.region ea
    let loads := fun (i : Instr) (size : Nat) (ext : Nat → DWord) =>
      ((r = .yard ∨ r = .stnMem ∨ r = .data ∨ r = .table) → ea % size = 0 → s.upset ea = false →
        Runs i s (Done h rd.toNat (ext (s.cnum ea size)) (s.nextPc h) (s.lkOf h) s))
      ∧ (r = .none → Runs i s (TookTrap h 2 ea s))
      ∧ ((r = .sram ∨ r = .yard) → ea % size ≠ 0 → Runs i s (TookTrap h 1 ea s))
      ∧ (r = .ctl → (size ≠ 4 ∨ ea % 4 ≠ 0) → Runs i s (TookTrap h 20 ea s))
    let stores := fun (i : Instr) (size : Nat) =>
      ((r = .yard ∨ r = .stnMem ∨ r = .data) → ea % size = 0 →
        Runs i s (fun u => u.pcOf h = s.nextPc h ∧ (∀ q, u.rget h q = s.operand h q)
          ∧ ∀ b, u.byte b = if ea ≤ b ∧ b < ea + size then (s.operand h rd.toNat).extractLsb' (8 * (b - ea)) 8 else s.byte b))
      ∧ (r = .none → Runs i s (TookTrap h 2 ea s)) ∧ (r = .rom → Runs i s (TookTrap h 20 ea s))
    loads (.lb h rd ra imm) 1 (fun v => (BitVec.ofNat 8 v).signExtend 64) ∧ loads (.lbu h rd ra imm) 1 (fun v => (BitVec.ofNat 8 v).setWidth 64)
    ∧ loads (.lh h rd ra imm) 2 (fun v => (BitVec.ofNat 16 v).signExtend 64) ∧ loads (.lhu h rd ra imm) 2 (fun v => (BitVec.ofNat 16 v).setWidth 64)
    ∧ loads (.lw h rd ra imm) 4 (fun v => (BitVec.ofNat 32 v).signExtend 64) ∧ loads (.lwu h rd ra imm) 4 (fun v => (BitVec.ofNat 32 v).setWidth 64)
    ∧ loads (.ld h rd ra imm) 8 (fun v => BitVec.ofNat 64 v)
    ∧ stores (.sb h rd ra imm) 1 ∧ stores (.sh h rd ra imm) 2 ∧ stores (.sw h rd ra imm) 4 ∧ stores (.sd h rd ra imm) 8

/-- R129, R130, R153, R154: what the channel instructions of a pool thread do at a link channel that it consumes or produces. -/
def Obligations.ChannelResults : Prop :=
  ∀ (n : Fin 16) (k : Fin 10) (t : Fin 8) (rd ra : BitVec 5) (ch : BitVec 4) (last : Bool) (s : State),
    let h := Hart.pkt n k t
    let i := threadId n k t
    let l := coreOf i * 8 + (ch.toNat - 6)
    Issues s h → Falls s h → t ≠ 7 →
    let readable := (s.link l).readable s.coreNow
    (∀ v e w, s.portOf i ch.toNat = .linkIn l → (s.link l).words = (v, e) :: w → readable = true →
      Runs (.chrd h rd ch) s (fun u => u.rget h rd.toNat = (if rd = 0 then 0 else v) ∧ (u.link l).words = w ∧ u.pcOf h = s.nextPc h))
    ∧ (s.portOf i ch.toNat = .linkIn l → readable = false →
      Runs (.chrd h rd ch) s (fun u => (u.thread i).run = .waiting (.chrd rd.toNat ch.toNat) ∧ u.pcOf h = s.pcOf h ∧ u.link l = s.link l))
    ∧ ((s.link l).words = [] → readable = false)
    ∧ (s.portOf i ch.toNat = .linkOut l → (s.link l).cut = false → (s.link l).depth < 4 → (s.link l).open_ < 7 →
      (s.link l).flushed ≠ some s.coreNow →
      Runs (.chwr h ra ch last) s (fun u => (u.link l).words = (s.link l).words ++ [(s.operand h ra.toNat, last)] ∧ u.pcOf h = s.nextPc h
        ∧ ((s.link l).words = [] → (u.link l).readable s.coreNow = false)))
    ∧ (s.portOf i ch.toNat = .linkIn l → Runs (.chpoll h rd ch) s (fun u => rd ≠ 0 → (u.rget h rd.toNat).getLsbD 0 = readable))
    ∧ (s.portOf i ch.toNat = .bad → Runs (.chrd h rd ch) s (TookTrap h 5 ch.toNat s) ∧ Runs (.chwr h ra ch last) s (TookTrap h 5 ch.toNat s)
        ∧ Runs (.chpoll h rd ch) s (TookTrap h 5 ch.toNat s))

/-- R130, R134, R150, R154, R157: what completes a waiting channel instruction or a waiting JOIN, what a flush of a link channel removes,
and when a deferred item goes out. -/
def Obligations.ResumeResults : Prop :=
  ∀ (n : Fin 16) (k : Fin 10) (t : Fin 8) (rd ch j : Nat) (v : DWord) (last : Bool) (s : State),
    let i := threadId n k t
    let l := coreOf i * 8 + (ch - 6)
    let helper := coreOf i * 8 + j
    let goesOn := fun (u : State) => (u.thread i).run = .ready ∧ (u.thread i).pc = (s.thread i).pc + 4
    (∀ x e w, (s.thread i).run = .waiting (.chrd rd ch) → s.portOf i ch = .linkIn l → (s.link l).words = (x, e) :: w →
      Gives (.chrdResume n k t) s (fun u => goesOn u ∧ (u.thread i).get rd = (if rd = 0 then 0 else x) ∧ (u.link l).words = w))
    ∧ ((s.thread i).run = .waiting (.chwr ch v last) → s.portOf i ch = .linkOut l → (s.link l).depth < 4 → (s.link l).cut = false →
      Gives (.chwrResume n k t) s (fun u => goesOn u ∧ (u.link l).words = (s.link l).words ++ [(v, last)]))
    ∧ ((s.thread i).run = .waiting (.join rd j) → helper ≠ i → (s.thread helper).run = .quit →
      Gives (.joinResume n k t) s (fun u => goesOn u ∧ (u.thread helper).run = .free
        ∧ (u.thread i).get rd = if rd = 0 then 0 else (s.thread helper).get 1))
    ∧ (∀ it rest, s.deferred (n * 10 + k) = it :: rest → (s.ch14 (n * 10 + k)).depth < 4 →
      Gives (.trapItemDeferredSend n k) s (fun u => u.deferred (n * 10 + k) = rest
        ∧ u.ch14 (n * 10 + k) = ((s.ch14 (n * 10 + k)).pushItem it).stamp s.coreNow it.length))
    ∧ (∀ c : BitVec 4, Issues s (.pkt n k 7) → Falls s (.pkt n k 7) → 6 ≤ c.toNat → c.toNat ≤ 13 →
      Runs (.chflush (.pkt n k 7) c) s (fun u => (u.link (coreOf (threadId n k 7) * 8 + (c.toNat - 6))).words = []))
    ∧ (s.coreRuns (n * 10 + k) = true → (∃ q : Fin 7, s.blocked ((n * 10 + k) * 8 + q) = true) → aget (fun _ => false) s.cpu.stood (n * 10 + k) = false →
      Gives (.standstill n k) s (fun u => aget (fun _ => false) u.cpu.stood (n * 10 + k) = true
        ∧ (Src.stnFault n) ∈ u.flt.raises.map (·.src)))

/-- R149, R150: FORK starts the lowest free helper of the core, JOIN collects a helper that has quit, QUIT stops a helper. -/
def Obligations.ForkJoinQuitResults : Prop :=
  ∀ (n : Fin 16) (k : Fin 10) (t : Fin 8) (rd ra rb : BitVec 5) (j : Fin 7) (s : State),
    let h := Hart.pkt n k t
    let i := threadId n k t
    let helper := coreOf i * 8 + j
    let a := (s.operand h ra.toNat).toNat
    let free := fun (x : Nat) => s.isDispatch x = false ∧ (s.thread x).run = .free
    Issues s h → Falls s h → t ≠ 7 → helper ≠ i →
    (a < 0x10000 → a % 4 = 0 → free helper → (∀ q : Fin 7, q < j → ¬ free (coreOf i * 8 + q)) →
      Runs (.fork h rd ra rb) s (fun u => (u.thread helper).run = .ready ∧ (u.thread helper).pc.toNat = a
        ∧ (u.thread helper).get 1 = s.operand h rb.toNat ∧ (u.thread helper).binding = (s.thread i).binding
        ∧ (u.thread helper).parent = some i ∧ u.rget h rd.toNat = if rd = 0 then 0 else BitVec.ofNat 64 j))
    ∧ (a < 0x10000 → a % 4 = 0 → (∀ q : Fin 7, ¬ free (coreOf i * 8 + q)) →
      Runs (.fork h rd ra rb) s (fun u => u.rget h rd.toNat = if rd = 0 then 0 else BitVec.allOnes 64))
    ∧ (a % 8 = j → s.isDispatch helper = false → (s.thread helper).parent = some i → (s.thread helper).run = .quit →
      Runs (.join h rd ra) s (fun u => (u.thread helper).run = .free ∧ (u.thread helper).parent = none
        ∧ u.rget h rd.toNat = if rd = 0 then 0 else (s.thread helper).get 1))
    ∧ (s.isDispatch i = false → Runs (.quit h) s (fun u => (u.thread i).run = .quit ∧ u.pcOf h = s.pcOf h))

/-- R161, R162: an XOP is accepted into its scoreboard bit, with the operands it read, when the bit is free, its unit has taken no other
operation of the core in this cycle and HSH does not stream.
R161, R165, Tables 6.3 to 6.5: the results of operations taken from a waiting XOP, their latencies, the CRY lock, and XGET.
The model's choices it rests on: log entry 72. -/
def Obligations.XopCommands : Prop :=
  (∀ (n : Fin 16) (k : Fin 10) (t : Fin 8) (xs : BitVec 3) (ra rb : BitVec 5) (s : State),
      let h := Hart.pkt n k t
      let i := threadId n k t
      Issues s h → Falls s h → ((s.thread i).xsOf xs.toNat).op = none → aget (fun _ => 0) s.cpu.hsh (coreOf i) ≤ s.coreNow →
      (∀ u < 2, aget (fun _ => 0) s.cpu.xopAt (coreOf i * 2 + u) ≠ s.coreNow + 1) →
      let takes := fun (c : Instr) (unit fn : Nat) => Runs c s (fun u => u.pcOf h = s.nextPc h ∧ (∀ r, u.rget h r = s.operand h r)
        ∧ ∃ op, ((u.thread i).xsOf xs.toNat).op = some op ∧ op.unit = unit ∧ op.fn = fn ∧ op.a = s.operand h ra.toNat ∧ op.b = s.operand h rb.toNat
            ∧ op.issued = s.coreNow)
      takes (.tauNow h xs ra rb) 0 0 ∧ takes (.tauConv h xs ra rb) 0 1 ∧ takes (.tauAddns h xs ra rb) 0 2 ∧ takes (.tauDiff h xs ra rb) 0 3
      ∧ takes (.tauResid h xs ra rb) 0 4
      ∧ takes (.hshCrc32c h xs ra rb) 1 0 ∧ takes (.hshCrc32 h xs ra rb) 1 1 ∧ takes (.hshCrc0 h xs ra rb) 1 2 ∧ takes (.hshHash h xs ra rb) 1 3
      ∧ (t ≠ 7 → takes (.cryAcq h xs ra rb) 2 0 ∧ takes (.cryRel h xs ra rb) 2 1 ∧ takes (.cryTag h xs ra rb) 2 2
          ∧ takes (.cryVerify h xs ra rb) 2 3 ∧ takes (.crySync h xs ra rb) 2 4))
  ∧ (∀ (n : Fin 16) (k : Fin 10) (t : Fin 8) (xs : Fin 8) (rd : BitVec 5) (x : BitVec 3) (w : BitVec 2) (a b : DWord) (s : State),
      let i := threadId n k t
      let hi := fun (v : DWord) => (v.extractLsb' 32 32).toNat
      let lo := fun (v : DWord) => (v.extractLsb' 0 32).toNat
      let answers := fun (unit fn lat : Nat) (l : List DWord) =>
        (s.thread i).run = .waiting (.xop xs unit fn a b) → s.xopBlocked i xs unit = false →
        Gives (.xopResume n k t) s (fun u => (u.thread i).run = .ready ∧ ∃ op, ((u.thread i).xsOf xs).op = some op
          ∧ op.words = l ∧ op.late = none ∧ op.due = some (s.coreNow + lat))
      let m := ((hi a * 1000000000 + lo a : Nat) + b.toInt) % ((2 ^ 32 * 1000000000 : Nat) : Int)
      (lo a < 1000000000 → answers 0 2 3 [BitVec.ofNat 64 (m.toNat / 1000000000 * 2 ^ 32 + m.toNat % 1000000000), 0, 0, 0])
      ∧ (lo a < 1000000000 → lo b < 1000000000 → hi a = hi b → answers 0 3 3 [BitVec.ofInt 64 ((lo a : Int) - lo b), 0, 0, 0])
      ∧ answers 1 3 4 [BitVec.ofNat 64 (crc32c (bytesLE 8 a.toNat ++ bytesLE 8 b.toNat)), BitVec.ofNat 64 (crc32 (bytesLE 8 a.toNat ++ bytesLE 8 b.toNat)), 0, 0]
      ∧ (s.absent (unitId 6 n) = false → (s.cry n).holder = none → (s.cry n).queue = [] → (s.cry n).freedAt ≠ some s.coreNow →
          (s.thread i).run = .waiting (.xop xs 2 0 a b) → s.xopBlocked i xs 2 = false →
          Gives (.xopResume n k t) s (fun u => (u.cry n).holder = some i ∧ (u.cry n).ctx = a.toNat))
      ∧ (∀ op d, ((s.thread i).xsOf xs).op = some op → op.due = some d → op.tail = false → op.late = none → op.src = none → op.discarded = false →
          Gives (.xopResult n k t xs) s (fun u => ((u.thread i).xsOf xs).op = none ∧ ((u.thread i).xsOf xs).words = op.words
            ∧ u.now = max s.now (d * coreU)))
      ∧ (∀ op e, ((s.thread i).xsOf xs).op = some op → op.late = some e → op.tail = false → op.src = none → op.discarded = false →
          (s.thread i).run = .ready → t ≠ 7 →
          Gives (.xopLateError n k t xs) s (fun u => (u.thread i).run = .parked ∧ ((u.thread i).xsOf xs).op = none))
      ∧ (∀ ws, Issues s (.pkt n k t) → Falls s (.pkt n k t) → ((s.thread i).xsOf x.toNat) = { op := none, words := ws } →
          Runs (.xget (.pkt n k t) rd x w) s (Wrote (.pkt n k t) rd (ws.getD w.toNat 0) s))
      ∧ (∀ r ws, (s.thread i).run = .waiting (.xget r xs w.toNat) → ((s.thread i).xsOf xs) = { op := none, words := ws } →
          Gives (.xgetResume n k t) s (fun u => (u.thread i).run = .ready ∧ (u.thread i).get r = if r = 0 then 0 else ws.getD w.toNat 0))
      ∧ (∀ f kk ctx rest, (s.cry n).holder = some f → (s.cry n).releasing = true → s.cryFlying f = false → (s.cry n).queue = (i, kk, ctx) :: rest →
          Gives (.cryLockGrant n) s (fun u => (u.cry n).holder = some i ∧ (u.cry n).queue = rest ∧ (u.cry n).releasing = false)))

/-- R32, R156, R183, R197: a search request of a thread bound to a coach joins the requests when its key can be read and the station's
search bound allows it; the same for a waiting one. A request out of form is answered RANGE.
R181, R192, R193, R201, R203, R377: results of searches, learning, aging and the sparing of clause blocks.
The model's choices it rests on: log entry 131. -/
def Obligations.SearchResults : Prop :=
  (∀ (n : Fin 16) (k : Fin 10) (t : Fin 8) (port : BitVec 2) (ra rb : BitVec 5) (s : State),
      let h := Hart.pkt n k t
      let i := threadId n k t
      let a := s.operand h ra.toNat
      let b := s.operand h rb.toNat
      let sends := fun (c : Instr) (eng : Nat) => ∀ q x key, Issues s h → Falls s h → t ≠ 7 → s.srqPlaces i port.toNat < 4 →
        (s.thread i).binding = some q → s.coach q = some x → s.srqKey i eng a b = .ok key → x.searches + 1 ≤ s.searchCap n →
        (if eng = 0 then s.clauseAbsent (getField b 0 5) else s.absent (unitId 5 eng)) = false →
        Runs c s (fun u => u.pcOf h = s.nextPc h ∧ (u.coach q).map (·.searches) = some (x.searches + 1)
          ∧ ∃ r, u.cpu.reqs = s.cpu.reqs ++ [r] ∧ r.eng = eng ∧ r.thread = i ∧ r.port = port.toNat ∧ r.coach = q ∧ r.key = key ∧ r.ready = none)
      sends (.srqClause h port ra rb) 0 ∧ sends (.srqFdb h port ra rb) 1 ∧ sends (.srqLpm h port ra rb) 2 ∧ sends (.srqStream h port ra rb) 3
      ∧ sends (.srqTread h port ra rb) 4
      ∧ (∀ eng p va vb, (s.thread i).run = .waiting (.srq eng p va vb) → s.srqPlaces i p < 4 → (s.thread i).binding = none →
          Gives (.srqResume n k t) s (fun u => (u.thread i).run = .ready
            ∧ u.result (i * 4 + p) = ((s.result (i * 4 + p)).write s.coreNow (BitVec.ofNat 64 (3 * 2 ^ 60)) true).2)))
  ∧ (∀ (eng : Fin 5) (ok : Bool) (v : Word) (e : SlotErr) (m : List (BitVec 8 × BitVec 16)) (s : State),
      (∀ q, s.cpu.reqs = [q] → q.eng = eng → q.ready = some 0 → q.apply = none → q.learned = false → q.discarded = false →
          s.absent (unitId 5 eng) = false → eng ≠ 0 →
          Gives (.searchResult eng) s (fun u => u.cpu.reqs = [] ∧ u.result (q.thread * 4 + q.port) = (s.result (q.thread * 4 + q.port)).pushItem q.words))
      ∧ (∀ it rest, s.cls.learn = it :: rest → rest.head? ≠ some it → s.fwdPending 1 = false → (∀ x o, s.nextSlot 1 = some (x, o) → o = 0xC2) →
          let slot := fun (u : State) => ∀ x o, s.nextSlot 1 = some (x, o) → aget (fun _ => 0) u.cpu.lastSlot 1 = x + 1
          (it.verdict = some 1 → Gives (.learnItemRun) s (fun u => u.cls.learn = rest ∧ u.mem = s.mem ∧ slot u))
          ∧ (∀ a, it.verdict = some 0 → s.fdbFind it.key = some a → s.fdbStatic a = false → s.fdbPort a = it.port →
              Gives (.learnItemRun) s (fun u => u.cls.learn = rest ∧ u.byte (a + 9) = BitVec.ofNat 8 s.ageNow ∧ slot u)))
      ∧ Gives (.clauseBlockCopyDone) s (fun u => u.cls.blockReady = (s.cls.blockReady || s.cls.blockMove.isSome))
      ∧ (s.cls.blockTesting.isSome = true → Gives (.clauseBlockTestDone ok) s (fun u => u.cls.blockTesting = none))
      ∧ (s.fld fwdB 0 8 ≠ 0 → s.cls.agePass = false →
          Gives (.ageTick) s (fun u => u.cls.agePass = true ∧ u.cls.ageNext = 0 ∧ u.fld fwdB 16 8 = (s.ageNow + 1) % 256))
      ∧ Gives (.ageTickWrite v) s (fun u => u.fld fwdB 0 16 = (v.extractLsb' 0 16).toNat ∧ u.cls.ageTickAt = s.now)
      ∧ (∀ p rest, s.bit (fltB + 0x80) 17 = true → 2 ≤ s.fld spareR 0 3 → s.cls.blockTesting = none → s.cls.blockMove = none → s.spareBlocks = p :: rest →
          Gives (.blockRotation) s (fun u => u.cls.blockMove = some (s.cls.blockNext, p) ∧ u.cls.blockNext = (s.cls.blockNext + 1) % 48))
      ∧ (∀ w q, s.image.tt.wheels = [w] → w.kind = 1 → w.inst = 4 → w.pos = [0x80] → s.pathRun = true → s.cpu.reqs = [q] → q.eng = 4 →
          q.thread < 80 → q.port ≠ 4 → q.ready = none →
          s.absent (unitId 5 4) = false → s.tableBad (0x30C00000 + q.a.toNat) (8 * q.b.toNat) = false → e = .clean →
          Gives (.searchSlotServe 4 e m) s (fun u => ∃ r, u.cpu.reqs = [r]
            ∧ r.ready = some (2 * max (aget (fun _ => 0) s.cpu.lastSlot 4) s.srchCycle + 14)
            ∧ r.words = (List.range q.b.toNat).map (fun j => BitVec.ofNat 64 (s.cnum (0x30C00000 + q.a.toNat + 8 * j) 8)) ++ [0])))

/-- R62, R68: a write of INCR_LO is held; a write of INCR_HI commits both words, the held low word or the one in force, from the next TIME
cycle on, limited to ±500 ppm with CIn_ALARM, and the registers then show the increment in force.
R63: START begins a slew of AMT at RATE ppm, and a slew ends at its own cycle. R64, R65: ARM arms a step at its instant, refuses one
that is out of range or less than 1 µs ahead; an armed step sets the instance at the first TIME cycle at or after its instant.
Each of the six commands completes with this effect, in every state that meets what stands before its arrow; CI0 has none of it. -/
def Obligations.InstanceResults : Prop :=
  (∀ (n : Fin 9) (v : Word) (s : State),
      let x := v.toNat * 2 ^ 32 + (match (s.inst n).heldLo with | some w => w.toNat | none => (s.inst n).incr % 2 ^ 32)
      let taken := max 351667799027876 (min 352019642748764 x)
      (n ≠ 0 → Gives (.timeIncrLoWrite n v) s (fun u => (u.inst n).heldLo = some v ∧ u.reg (ciR n 0x10) = v
        ∧ (u.inst n).incr = (s.inst n).incr ∧ (u.inst n).segs = (s.inst n).segs))
      ∧ (n ≠ 0 → Gives (.timeIncrCommit n v) s (fun u =>
          (u.inst n).incr = taken ∧ (u.inst n).heldLo = none ∧ u.reg2 (ciR n 0x10) (ciR n 0x14) = taken
          ∧ (x ≠ taken → Raises u (Src.ciAlarm n))
          ∧ ∃ g, (u.inst n).segs.head? = some g ∧ g.k = s.tick + 1 ∧ g.v = s.instAt n (s.tick + 1) ∧ ((s.inst n).slew = none → g.incr = taken)))
      ∧ exec (.timeIncrLoWrite 0 v) s = .next s ∧ exec (.timeIncrCommit 0 v) s = .next s
      ∧ exec (.slewStart 0 v) s = .next s ∧ exec (.stepArm 0 v) s = .next s)
  ∧ (∀ (n : Fin 9) (v : Word) (s : State),
      let rate := getField v 0 9
      let atNs := (s.reg (ciR n 0x24)).toNat
      let sec := secOf s.now / 2 ^ 32 * 2 ^ 32 + (s.reg (ciR n 0x20)).toNat
      let instant := (sec * 1000000000 + atNs) * nsU
      let ns := s.reg (ciR n 0x2C)
      (n ≠ 0 → Gives (.slewStart n v) s (fun u => u.bit (ciR n 0x1C) 10 = true
          ∧ ∃ w, (u.inst n).slew = some w ∧ w.left = (s.reg (ciR n 0x18)).toInt * 2 ^ 40
              ∧ w.size = 351843720888320 * (if rate = 0 then 500 else min rate 500) / 1000000))
      ∧ (∀ w g r, (s.inst n).slew = some w → (s.inst n).segs = g :: r → w.part ≠ 0 →
          Gives (.slewEnd n) s (fun u => (u.inst n).slew = none ∧ u.bit (ciR n 0x1C) 10 = false))
      ∧ ((s.inst n).slew = none → exec (.slewEnd n) s = .next s)
      ∧ (n ≠ 0 → getField v 1 1 = 1 → atNs ≤ 999999999 → ns.toNat ≤ 999999999 → s.now + 1000 * nsU ≤ instant →
          Gives (.stepArm n v) s (fun u => u.bit (ciR n 0x30) 0 = true ∧ ∃ a, (u.inst n).step = some a ∧ a.instant = instant ∧ a.absolute = true
            ∧ a.sec.toNat = getField v 16 16 * 2 ^ 32 + (s.reg (ciR n 0x28)).toNat ∧ a.ns = ns))
      ∧ (n ≠ 0 → getField v 1 1 = 0 → atNs ≤ 999999999 → ns.toInt.natAbs ≤ 999999999 → s.instState n ≠ 3 → s.now + 1000 * nsU ≤ instant →
          Gives (.stepArm n v) s (fun u => u.bit (ciR n 0x30) 0 = true ∧ ∃ a, (u.inst n).step = some a ∧ a.instant = instant ∧ a.absolute = false
            ∧ a.sec = (s.reg (ciR n 0x28)).signExtend 48 ∧ a.ns = ns))
      ∧ (n ≠ 0 → (instant < s.now + 1000 * nsU ∨ 999999999 < atNs) →
          Gives (.stepArm n v) s (fun u => (u.inst n).step = (s.inst n).step ∧ u.bit (ciR n 0x30) 2 = true ∧ Raises u (Src.ciAlarm n)))
      ∧ (∀ a, n ≠ 0 → (s.inst n).step = some a → a.absolute = true → Gives (.stepApply n) s (fun u =>
          (u.inst n).step = none ∧ Raises u Src.timeStep
          ∧ ∃ g, g ∈ (u.inst n).segs ∧ g.k = max s.tick ((a.instant + tickU - 1) / tickU)
              ∧ g.v = (a.sec.toNat * 1000000000 + a.ns.toNat) * nsU))
      ∧ ((s.inst n).step = none → exec (.stepApply n) s = .next s))

/-- R67, R69, R85: SEC_HI loads the read latch unless HELD is set, TAKE loads all nine latches and holds them, RELEASE frees them; a
conversion writes value and status over its operands; a read of TXTS_W0 takes the oldest stamp.
The model's choices it rests on: log entries 54, 120. -/
def Obligations.TimeReadingResults : Prop :=
  ∀ (n : Fin 9) (v : Word) (s : State),
    let cur := if s.bit timeB 2 then (s.inst n).latch else s.instAt n s.tick / 2 ^ 32
    let r := fun o => (s.reg (timeB + o)).toNat
    let x := join16 (r 0x84 % 2 ^ 16 * 2 ^ 32 + r 0x88) (r 0x8C) (r 0x90 % 2 ^ 16)
    Gives (.timeSecHiRead n) s (fun u => (u.inst n).latch = cur ∧ u.resp = .ok (sec16 cur / 2 ^ 32))
    ∧ Gives (.timeSnapTake) s (fun u => u.bit timeB 2 = true ∧ ∀ m : Fin 9, (u.inst m).latch = s.instAt m s.tick / 2 ^ 32)
    ∧ Gives (.timeSnapRelease) s (fun u => u.bit timeB 2 = false ∧ ∀ m : Fin 9, (u.inst m).latch = (s.inst m).latch)
    ∧ (s.time.convBusy = false → Gives (.timeConvGo v) s (fun u => u.fld (timeB + 0x80) 0 8 = getField v 0 8
        ∧ if getField v 0 4 ≤ 8 ∧ getField v 4 4 ≤ 8 then u.time.convBusy = true ∧ u.bit (timeB + 0x80) 8 = true
          else u.time.convBusy = false ∧ u.bit (timeB + 0x80) 8 = false ∧ u.fld (timeB + 0x80) 10 2 = 3))
    ∧ (s.time.convBusy = true → Gives (.timeConvGo v) s (fun u => u = s))
    ∧ (∀ t c y, s.time.convBusy = true → s.instState (s.fld (timeB + 0x80) 0 4) ≠ 3 → s.instState (s.fld (timeB + 0x80) 4 4) ≠ 3 →
        s.toCi0 (s.fld (timeB + 0x80) 0 4) x = some (t, c) → s.fromCi0 (s.fld (timeB + 0x80) 4 4) t = some y →
        Gives (.timeConvDone) s (fun u => u.time.convBusy = false ∧ u.bit (timeB + 0x80) 8 = false ∧ u.fld (timeB + 0x80) 10 2 = c.code
          ∧ u.fld (timeB + 0x84) 0 16 = sec16 y / 2 ^ 32 ∧ (u.reg (timeB + 0x88)).toNat = sec16 y % 2 ^ 32
          ∧ (u.reg (timeB + 0x8C)).toNat = ns16 y ∧ u.fld (timeB + 0x90) 0 16 = frac16 y))
    ∧ (∀ e rest, s.time.txts = e :: rest → rest.length < 256 → Gives (.txtsPop) s (fun u => u.time.txts = rest
        ∧ u.fld (timeB + 0xA0) 0 9 = rest.length
        ∧ u.resp = .ok ((e.seqId + e.port * 2 ^ 16 + e.ci * 2 ^ 22 + e.msg * 2 ^ 26 + 2 ^ 31) % 2 ^ 32)))
    ∧ (s.time.txts = [] → Gives (.txtsPop) s (fun u => u.time.txts = [] ∧ u.resp = .ok ((s.reg (timeB + 0xA4)).toNat % 2 ^ 31)))

/-- R70–R77: the reference and the states of an instance, WARM, the oscillator measurement and the accumulator check.
The model's choices it rests on: log entries 9, 53. -/
def Obligations.ReferenceResults : Prop :=
  ∀ (n : Fin 9) (v : Word) (s : State),
    let src := s.fld (ciR n 0x34) 0 2
    let hold := ciR n 0x3C
    let bound := max 1 (s.fld (ciR n 0x34) 16 8) * 256
    let i := s.inst n
    let z7 := s.sfld (pwrB + 0x5C) 0 8
    ((n = 0 ∨ src ≠ 3) → exec (.timeOfsWrite n v) s = .next s)
    ∧ (n ≠ 0 → src = 3 → s.instState n = 1 → Gives (.timeOfsWrite n v) s (fun u => u.reg (ciR n 0x38) = v ∧ u.bit hold 3 = false
        ∧ (u.inst n).run = (if v.toInt.natAbs ≤ bound then i.run + 1 else 0) ∧ (u.inst n).lastUpdate = s.now ∧ u.instState n = 1))
    ∧ (n ≠ 0 → src = 3 → (s.instState n = 0 ∨ s.instState n = 2) → v.toInt.natAbs ≤ bound → 7 ≤ i.run →
        Gives (.timeOfsWrite n v) s (fun u => u.instState n = 1))
    ∧ (n ≠ 0 → s.instState n ≠ 3 → Gives (.timeRefSrcClear n v) s (fun u => u.instState n = 0 ∧ u.fld (ciR n 0x34) 0 2 = 0))
    ∧ exec (.timeRefSrcClear 0 v) s = .next s
    ∧ (n ≠ 0 → src = 3 → s.instState n = 1 → Gives (.refTimeout n) s (fun u => u.instState n = 2 ∧ Raises u Src.holdoverEnter ∧ u.fld hold 20 12 = 0
        ∧ u.now = max s.now (i.lastUpdate + max 1 (s.fld (ciR n 0x34) 8 8) * 100 * msU)
        ∧ (s.fld (ciR n 0x34) 2 1 = 0 → (u.inst n).incr = i.holdIncr)))
    ∧ (n ≠ 0 → s.instState n = 1 → Gives (.holdIncrUpdate n) s (fun u =>
        (u.inst n).holdIncr = ((i.holdIncr : Int) + ((i.incr : Int) - i.holdIncr) / 2 ^ s.fld (ciR n 0x34) 4 4).toNat))
    ∧ (n ≠ 0 → s.instState n = 2 → i.hwHold = true → Gives (.holdoverTcomp n) s (fun u =>
        let t := z7 - i.tempEntry
        let ppb := s.sfld (timeB + 0x14) 0 16 * t * 16 + s.sfld (timeB + 0x14) 16 16 * t * t
        (u.inst n).incr = ((i.holdIncr : Int) - (i.holdIncr : Int) * ppb / (2 ^ 12 * 1000000000)).toNat))
    ∧ (n ≠ 0 → s.instState n = 2 → Gives (.holdoverElapsedTick n) s (fun u => u.fld hold 20 12 = min 4095 (s.fld hold 20 12 + 1)
        ∧ u.now = max s.now (i.holdSince + (s.fld hold 20 12 + 1) * 10 * secU)))
    ∧ (s.bit (clkB + 4) 1 = true → Gives (.warmSet) s (fun u => u.bit timeB 1 = true ∧ u.now = max s.now (s.time.refSince + 600 * secU)))
    ∧ (s.bit (clkB + 4) 1 = false → exec (.warmSet) s = .next s)
    ∧ (n ≠ 0 → s.fld (timeB + 8) 0 4 = n → s.instState n = 1 → Gives (.oscMeasure) s (fun u =>
        u.reg (timeB + 0xC) = BitVec.ofInt 32 ((351843720888320 - (i.holdIncr : Int)) * (1000000000 * 256) / i.holdIncr)))
    ∧ (n ≠ 0 → Gives (.timeParityError n) s (fun u => u.instState n = 3 ∧ Raises u Src.timeParity))
    ∧ Gives (.timeParityError 0) s (fun u => (∀ m : Fin 9, u.instState m = 3) ∧ Raises u Src.timeParity ∧ Raises u Src.timeSafeState)

/-- R94–R98, R105, R111: enabling an output, reading, writing and leaving schedule entries, committing and driving edges, and RESUME.
The model's choices it rests on: log entry 117. -/
def Obligations.OutputScheduleResults : Prop :=
  ∀ (n : Fin 24) (e : Fin 64) (w : Fin 8) (i : Fin 28) (k : Fin 4) (v : Word) (s : State),
    let t := s.trig n
    let st := trigR n 8
    let p := s.fld st 0 6
    let words := (List.range 8).map (fun j => s.reg (schedR n p j))
    let s1 := s.advance s.nextPeri
    let ci := getField (words.getD 0 0) 1 4
    let t1 : Trig := { entry := words, startHi := sec16 (s1.instAt ci s1.tick / 2 ^ 32) / 2 ^ 32 }
    let quiet := fun (f : Nat) => s.bit (tioB + 4) 0 = false ∧ s.bit (outDiag f) 4 = false ∧ s.fenced (unitId 0x0C f) = false
      ∧ s.contactOf f ≤ 27 ∧ s.pin.changing.contains (s.contactOf f) = false
    let level := fun (u : State) (f : Nat) => aget (fun _ => Level.z) u.tio.contacts (s.contactOf f)
    (s.bit (trigR n 0) 0 = false → Gives (.trigEnable n v) s (fun u => u.bit (trigR n 0) 0 = true ∧ (u.trig n).run = .scanning
        ∧ u.fld st 0 6 = getField v 8 6 ∧ (quiet n → t.edges = [] → t.open_ = none → level u n = if getField v 1 1 = 1 then .high else .low)))
    ∧ (s.bit (trigR n 0) 0 = true → Gives (.trigDisable n v) s (fun u => u.bit (trigR n 0) 0 = false
        ∧ if t.open_ = none ∧ t.edges = [] then (u.trig n).run = .off else (u.trig n).stopping = true ∧ (u.trig n).edges = t.edges))
    ∧ (t.run = .scanning → getField (s.reg (schedR n p 0)) 0 1 = 0 → Gives (.trigEntryRead n) s (fun u =>
        u.fld st 0 6 = (if p = 63 ∨ getField (s.reg (schedR n p 0)) 5 1 = 1 then 0 else p + 1)
        ∧ (u.trig n).run = if t.passed + 1 = 64 then .idle else .scanning))
    ∧ (t.run = .scanning → getField (s.reg (schedR n p 0)) 0 1 = 1 → t1.bad = true → Gives (.trigEntryRead n) s (fun u =>
        u.bit st 9 = true ∧ Raises u (Src.output n) ∧ u.bit st 6 = false))
    ∧ (∀ x, t.run = .scanning → getField (s.reg (schedR n p 0)) 0 1 = 1 → t1.bad = false → s.instState ci ≠ 3 →
        s.place ci (t1.lead16 0) (s.trigCal n) = some x → s1.now + 320 * nsU ≤ x →
        Gives (.trigEntryRead n) s (fun u => (u.trig n).run = .running ∧ (u.trig n).entry = words ∧ u.bit st 6 = true))
    ∧ Gives (.trigEntryWrite n e w v) s (fun u => if s.bit st 6 = true ∧ p = e ∧ t.readAt ≠ some (s.now / periU)
        then u.bit st 8 = true ∧ u.reg (schedR n e w) = s.reg (schedR n e w)
        else u.reg (schedR n e w) = v &&& schedMask w)
    ∧ (∀ x, t.run = .running → s.bit (tioB + 4) 0 = false → s.instState t.ci ≠ 3 → t.open_ = none → t.stopping = false →
        (t.count = 0 ∨ t.pulse < t.count) → s.place t.ci (t.lead16 t.pulse) (s.trigCal n) = some x →
        Gives (.trigEdgeCommit n) s (fun u => (u.trig n).edges = t.edges ++ [⟨true, x⟩] ∧ (u.trig n).pulse = t.pulse + 1
          ∧ u.now = max s.now ((x / tickU - 256) * tickU)))
    ∧ (∀ g rest, (if i.val < 24 then (s.trig i).edges else (s.ppso (i.val - 24)).edges) = g :: rest →
        Gives (.trigEdgeDrive i) s (fun u => u.now = max s.now g.instant ∧ (if i.val < 24 then (u.trig i).edges else (u.ppso (i.val - 24)).edges) = rest
          ∧ (quiet i → level u i = s.outLevel i g.leading)))
    ∧ (∀ sec a b, s.bit (ppsoR k 0) 0 = true → s.bit (tioB + 4) 0 = false → s.instState (s.fld (ppsoR k 0) 1 4) ≠ 3 → (s.ppso k).open_ = none →
        s.ppsoNext k = some (sec, a, b) →
        Gives (.ppsoPulse k) s (fun u => (u.ppso k).edges = (s.ppso k).edges ++ [⟨true, a⟩] ∧ (u.ppso k).lastSec = some sec
          ∧ (u.ppso k).open_ = some (s.fld (ppsoR k 0) 1 4, b)))
    ∧ (∀ j x e, (s.ppso k).open_ = some (j, x) → s.bit (tioB + 4) 0 = false → s.instState j ≠ 3 → s.place j x 0 = some e →
        Gives (.ppsoPulse k) s (fun u => (u.ppso k).edges = (s.ppso k).edges ++ [⟨false, e⟩] ∧ (u.ppso k).open_ = none))
    ∧ (s.bit (tioB + 4) 0 = true → s.safePending = false → Gives (.tioResume) s (fun u => u.bit (tioB + 4) 0 = false ∧ u.bit (fltB + 4) 0 = false))
    ∧ (s.safePending = true → exec (.tioResume) s = .next s)

/-- R107–R109, R93: what a driver fault, an open test, a clear of DIAG, an inverted or overdriven input and a lane measurement do.
R100–R104: a selected edge at an event input enters the queue with its stamp, an edge in the dead time is counted DEAD, a read of
EVTQ_W0 takes the oldest stamp; PPS edges a second apart make the input VALID, 1.5 s without one end that.
The model's choices it rests on: log entries 10, 118, 120. -/
def Obligations.InputAndDriverResults : Prop :=
  (∀ (c i : Fin 28) (j : Fin 18) (l : Fin 35) (d : BitVec 16) (v : Word) (s : State),
      let faults := fun (cmd : Instr) (b : Nat) =>
        (∀ f, s.fnOf c = some f → f < 28 → Gives cmd s (fun u => aget (fun _ => Level.z) u.tio.contacts c = .z ∧ u.bit (outDiag f) b = true
          ∧ u.bit (outDiag f) 4 = true ∧ Raises u (Src.output f)))
        ∧ (∀ f, s.fnOf c = some f → 28 ≤ f → Gives cmd s (fun u => aget (fun _ => Level.z) u.tio.contacts c = .z
          ∧ u.bit (pinB + 0x104) (16 + (f - 28)) = true))
        ∧ (s.fnOf c = none → exec cmd s = .next s)
      faults (.driverShortGnd c) 0 ∧ faults (.driverShortNet c) 1 ∧ faults (.driverThermal c) 2
      ∧ (∀ f, s.fnOf c = some f → f < 24 → s.bit (trigR f 0) 5 = true → s.outLow f = false → s.bit (tioB + 4) 0 = false → s.openGap f = true →
          aget (fun _ => none) s.tio.openTest c = none →
          Gives (.driverOpenTest c true) s (fun u => u.bit (outDiag f) 3 = true ∧ Raises u (Src.output f))
          ∧ Gives (.driverOpenTest c false) s (fun u => u.bit (outDiag f) 3 = s.bit (outDiag f) 3 ∧ u.flt = s.flt))
      ∧ (let left := fun (b : Nat) => s.bit (outDiag i) b && !(v.getLsbD b && !(s.justSet (outDiag i)).getLsbD b)
         Gives (.diagClear i v) s (fun u => (∀ b < 4, u.bit (outDiag i) b = left b)
          ∧ ((∀ b < 4, left b = false) → u.bit (outDiag i) 4 = false)))
      ∧ (let st := if j.val < 16 then 0 else 1
         let auto := if j.val < 16 then s.bit (evtR j 0) 8 && s.bit (evtR j 0) 7 else s.bit (ppsiR (j.val - 16) 0) 2 && s.bit (ppsiR (j.val - 16) 0) 1
         Gives (.polarityInvert j) s (fun u => u.bit (inStat j) st = (s.bit (inStat j) st != auto) ∧ (auto = true → Raises u (inSource j))))
      ∧ Gives (.inputOvervoltage j) s (fun u => u.bit (inStat j) (if j.val < 16 then 1 else 2) = true ∧ Raises u (inSource j))
      ∧ Gives (.driftMeasure l d) s (fun u => u.fld (lcalR l 8) 0 16 = d.toNat
          ∧ (s.bit (tioB + 8) 16 = true → s.fld (tioB + 8) 0 16 < d.toInt.natAbs → u.bit (lcalR l 8) 16 = true)))
  ∧ (∀ (i : Fin 16) (k : Fin 2) (t : Nat) (falling : Bool) (s : State),
      let cfg := s.reg (evtR i 0)
      let f := (falling != s.bit (evtR i 0) 9) != s.bit (evtR i 8) 0
      let e := edgePhase t
      let takes := cfg.getLsbD 0 = true ∧ (if f then cfg.getLsbD 2 else cfg.getLsbD 1) = true ∧ s.bit (evtR i 8) 1 = false
      let ci := s.fld (evtR i 0) 3 4
      let dead := ∃ l, (s.evIn i).last = some l ∧ t < l + 5 * nsU
      let pf := (falling != s.bit (ppsiR k 0) 3) != s.bit (ppsiR k 4) 1
      let x := s.evIn (16 + k.val)
      let tol := max 1 (s.fld (ppsiR k 0) 8 8) * 1000 * nsU
      let at0 := ((e : Int) - s.sfld (evtR i 4) 0 32 * 2 ^ 40).toNat
      (∀ y, takes → ¬ dead → s.tio.evtq.length < 1024 → s.fromCi0 ci at0 = some y →
        let stamp : Stamp := ⟨i, f, ci, if s.instState ci = 3 then 3 else 0, y, at0⟩
        Gives (.evtEdge i t falling) s (fun u => u.now = max s.now t ∧ ∃ l r, s.tio.evtq = l ++ r ∧ u.tio.evtq = l ++ stamp :: r
          ∧ (∀ x ∈ l, x.at0 < at0 ∨ (x.at0 = at0 ∧ x.input ≤ i))
          ∧ ∀ x, r.head? = some x → at0 < x.at0 ∨ (at0 = x.at0 ∧ i < x.input)))
      ∧ (takes → dead → Gives (.evtEdge i t falling) s (fun u => u.tio.evtq = s.tio.evtq ∧ u.fld (evtR i 0xC) 0 16 = min 65535 (s.fld (evtR i 0xC) 0 16 + 1)))
      ∧ (¬ takes → Gives (.evtEdge i t falling) s (fun u => u = s.advance t))
      ∧ (∀ e rest, s.tio.evtq = e :: rest → rest.length < 1024 → Gives (.evtqPop) s (fun u => u.tio.evtq = rest ∧ u.fld (tioB + 0x10) 0 11 = rest.length
          ∧ u.resp = .ok ((e.input + (if e.falling then 32 else 0) + e.ci * 64 + e.status * 1024 + 2 ^ 31) % 2 ^ 32)))
      ∧ (s.tio.evtq = [] → Gives (.evtqPop) s (fun u => u.tio.evtq = [] ∧ u.resp = .ok ((s.reg (tioB + 0x14)).toNat % 2 ^ 31)))
      ∧ (∀ l, s.bit (ppsiR k 0) 0 = true → pf = s.bit (ppsiR k 0) 5 → s.bit (ppsiR k 4) 2 = false → x.last = some l →
          l + 5 * nsU ≤ e → secU ≤ e - l + tol → e - l ≤ secU + tol →
          Gives (.ppsInEdge k t falling) s (fun u => (u.evIn (16 + k.val)).lastValid = some e ∧ u.bit (ppsiR k 4) 0 = true
            ∧ aget (fun _ => 0) u.tio.ppsiStamp k = e / 2 ^ 32))
      ∧ (s.bit (ppsiR k 0) 0 = true → pf = s.bit (ppsiR k 0) 5 → s.bit (ppsiR k 4) 2 = false → x.last = none →
          Gives (.ppsInEdge k t falling) s (fun u => (u.evIn (16 + k.val)).last = some e ∧ u.fld (ppsiR k 4) 16 16 = min 65535 (s.fld (ppsiR k 4) 16 16 + 1)))
      ∧ (∀ l, x.lastValid = some l → Gives (.ppsInLost k) s (fun u => u.bit (ppsiR k 4) 0 = false ∧ (u.evIn (16 + k.val)).lastValid = none
          ∧ Raises u (Src.ppsLost k) ∧ u.now = max s.now (l + 3 * secU / 2)))
      ∧ Gives (.ppsiSecHiRead k) s (fun u => aget (fun _ => 0) u.tio.ppsiLatch k = aget (fun _ => 0) s.tio.ppsiStamp k
          ∧ u.resp = .ok (sec16 (aget (fun _ => 0) s.tio.ppsiStamp k) / 2 ^ 32)))

/-- R19, R38, R40, R43, R240: FRAME_RECEIVE, BODY_CELL_ARRIVAL and VERDICT_FINAL complete: an admitted frame takes its coach cell and
becomes the coach of the next SEQ; a port without a rate refuses it; body bytes take a chain cell each 256; a passing verdict makes LEN
final, a failing one in the parser ends the coach, the first reason in the list of R48 standing.
R43, R173, R182, R188, R207: LENS_SCAN_DONE, ENTRY_SEARCH, INGRESS_STREAM_SEARCH and COACH_ENTER_S0 complete: the lens writes its bits,
the searches are made in slots of station 0 (here on a wheel of that one slot; without a wheel they wait), and a coach enters S0 at its
edge with the tense in force there. R207, R211: FRER_LATENT_CHECK and a write of FWD_PORTp complete. -/
def Obligations.IngressResults : Prop :=
  (∀ (p : Fin 34) (t len : Nat) (lane : Fin 8) (head bytes : List Byte) (v : Verdict) (s : State),
      let q := s.path.nextSeq
      let none33 := s.portOpen p = false ∨ s.rxFree p = false ∨ (s.jenAt p head).isSome = true
      let wire := fun (l : List Byte) => if s.macsecOn p then Config.macsecProtect p l else l
      let reason := fun (l : List Byte) =>
        if v.linkLost then 15
        else if 9212 < (wire l).length then 14
        else if v.icvBad = true ∧ s.macsecOn p = true then 16
        else if (wire l).length < 60 ∨ v.symbol = true ∨ v.fragment = true ∨ v.fcs ≠ BitVec.ofNat 32 (crc32 (wire l)) then 1 else 0
      (s.portOpen p = true → s.rxList p = [] → s.jenAt p head = none → s.path.degraded = false → 0 < s.fld (admitR p 0) 0 20 →
          (secU : Int) ≤ ((aget (fun _ => {}) s.meters p).refill (s.fld (admitR p 0) 0 20 * 4096) (s.fld (admitR p 0) 20 12 * secU) (max s.now t)).credit →
          s.p0Reserve < s.poolFree 0 → (s.takeHead 0).isSome = true →
          Gives (.frameReceive p t len ⟨lane, head⟩) s (fun u => u.rxOf p = some q ∧ u.path.nextSeq = (q + 1) % 2 ^ 32
            ∧ ∃ c, u.coach q = some c ∧ c.loc = .parser ∧ c.tsIn = s.tsInOf p t lane ∧ c.verdict = none ∧ c.inPort = p ∧ c.kind = 0
              ∧ c.seq = q % 2 ^ 32 ∧ c.got = min head.length 192))
      ∧ (s.portOpen p = true → s.rxList p = [] → s.jenAt p head = none → s.path.degraded = false → s.fld (admitR p 0) 0 20 = 0 →
          Gives (.frameReceive p t len ⟨lane, head⟩) s (fun u => u.rxOf p = none ∧ u.coaches = s.coaches ∧ u.path.nextSeq = q
            ∧ (u.reg (admitR p 8)).toNat = min (2 ^ 32 - 1) ((s.reg (admitR p 8)).toNat + 1)
            ∧ (u.reg (dropR p 8 3)).toNat = min (2 ^ 32 - 1) ((s.reg (dropR p 8 3)).toNat + 1)))
      ∧ (none33 → exec (.frameReceive p t len ⟨lane, head⟩) s = .next (s.advance t))
      ∧ (∀ k c i u', s.rxOf p = some k → s.coach k = some c → c.verdict = none → c.kind = 0 → 0 < bytes.length → bytes.length ≤ 256 →
          c.got + bytes.length ≤ 9212 → s.takeCell p (c.resCells != 0) = (some i, u') →
          Gives (.bodyCellArrival p bytes) s (fun u => u.rxOf p = some k
            ∧ (∀ j < bytes.length, u.byte (s.bufAddr 0 i + j) = bytes.getD j 0)
            ∧ ∃ d, u.coach k = some d ∧ d.got = c.got + bytes.length ∧ d.cells = c.cells ++ [i]))
      ∧ (s.rxList p = [] → exec (.bodyCellArrival p bytes) s = .next s)
      ∧ (∀ x rest k c, s.rxList p = x :: rest → x.coach = some k → s.coach k = some c → c.verdict = none → c.kind = 0 → c.loc ≠ .egress →
          reason x.body = 0 →
          Gives (.verdictFinal p t v) s (fun u => u.rxList p = rest ∧ u.now = max s.now (s.verdictInstant p t)
            ∧ ∃ d, u.coach k = some d ∧ d.verdict = some 0 ∧ d.len = c.got % 2 ^ 14 ∧ d.loc = c.loc))
      ∧ (∀ x rest k c, s.rxList p = x :: rest → x.coach = some k → s.coach k = some c → c.verdict = none → c.kind = 0 → c.reason = 0 →
          c.loc = .parser → reason x.body ≠ 0 →
          Gives (.verdictFinal p t v) s (fun u => u.rxList p = rest ∧ u.coach k = none
            ∧ (u.reg (dropR c.inPort 8 (reason x.body))).toNat = min (2 ^ 32 - 1) ((s.reg (dropR c.inPort 8 (reason x.body))).toNat + 1)))
      ∧ (s.rxList p = [] → exec (.verdictFinal p t v) s = .next (s.advance (s.verdictInstant p t))))
  ∧ (∀ (q : BitVec 32) (c : Coach) (s : State), s.coach q.toNat = some c → c.loc = .parser →
      let k := q.toNat
      let g := s.fld (parseR c.inPort) 0 5
      let kind := skindOf (s.fld (fwdPort c.inPort) 2 3)
      let edge := s.entryEdge c
      let scanned := c.lensDone = false ∧ (c.verdict.isSome = true ∨ s.lensDepth ≤ c.got)
      let mine := fun (eng : Nat) => ∃ f, s.image.tt.wheels = [⟨1, eng, f, [0x80]⟩]
      let budget := fun (u : State) => (u.reg (stnR 0 0x1C)).toNat = min (2 ^ 32 - 1) ((s.reg (stnR 0 0x1C)).toNat + 1) ∧ Raises u (Src.stnBudget 0)
      let asksEntry := c.entrySearched = false ∧ s.bit (parseR c.inPort) 5 = true ∧ s.grpValid g = true
      let asksStream := c.streamSearched = false ∧ kind ≠ 0 ∧ c.kind = 0
      let ready := c.lensDone = true ∧ s.pathRun = true ∧ s.askedOf 0 k = false ∧ s.askedOf 3 k = false
        ∧ (c.kind ≠ 0 ∨ 192 < c.total ∨ c.verdict.isSome = true)
      (scanned → Gives (.lensScanDone q) s (fun u => u.cls.lensHeld = s.cls.lensHeld - c.lensSize
          ∧ ∃ d, u.coach k = some d ∧ d.lensDone = true ∧ d.loc = .parser))
      ∧ (¬ scanned → exec (.lensScanDone q) s = .next s)
      ∧ (mine 0 → s.pathRun = true → asksEntry → s.cpu.reqs = [] → c.searches + 1 ≤ s.searchCap 0 → s.clauseAbsent g = false →
          Gives (.entrySearch q) s (fun u => u.cpu.reqs = [] ∧ ∃ d, u.coach k = some d ∧ d.entrySearched = true
            ∧ d.searches = c.searches + 1
            ∧ d.raw = (c.entryResult u.coreNow (s.clauseSearch g (s.tenseAt edge) (fromLE (s.vectorKey g c.vector)))).raw))
      ∧ (s.wheel 1 0 = none → asksEntry → c.searches + 1 ≤ s.searchCap 0 → s.clauseAbsent g = false →
          Gives (.entrySearch q) s (fun u => u.askedOf 0 k = true ∧ u.now = s.now))
      ∧ (s.cpu.reqs = [] → asksEntry → s.searchCap 0 < c.searches + 1 → Gives (.entrySearch q) s (fun u => budget u ∧ u.cpu.reqs = []))
      ∧ (s.cpu.reqs = [] → asksEntry → c.searches + 1 ≤ s.searchCap 0 → s.clauseAbsent g = true → c.reason = 0 →
          Gives (.entrySearch q) s (fun u => u.cpu.reqs = [] ∧ ∃ d, u.coach k = some d ∧ d.reason = 12))
      ∧ (mine 3 → s.pathRun = true → asksStream → s.cpu.reqs = [] → c.searches + 1 ≤ s.searchCap 0 → s.absent (unitId 5 3) = false →
          (∀ i ∈ strSlots (c.streamKey kind), s.tableBad (strAddr i) 64 = false) → s.strFind (c.streamKey kind) (s.tenseAt edge) = none →
          Gives (.ingressStreamSearch q) s (fun u => u.cpu.reqs = [] ∧ ∃ d, u.coach k = some d ∧ d.streamSearched = true ∧ d.streamSt = 2
            ∧ d.searches = c.searches + 1))
      ∧ (s.cpu.reqs = [] → asksStream → s.searchCap 0 < c.searches + 1 → Gives (.ingressStreamSearch q) s (fun u => budget u
          ∧ ∃ d, u.coach k = some d ∧ d.streamSt = 2))
      ∧ (ready → (s.stn 0).order.length < 256 →
          Gives (.coachEnterS0 q) s (fun u => u.now = max s.now edge ∧ k ∈ (u.stn 0).order
            ∧ ∃ d, u.coach k = some d ∧ d.loc = .station 0 ∧ d.tIn = edge ∧ d.tense = s.tenseAt edge % 16 ∧ d.server = none ∧ d.issued = 0))
      ∧ (¬ ready → exec (.coachEnterS0 q) s = .next s))
  ∧ (∀ (p : Fin 34) (v : Word) (s : State),
      let old := s.fld (fwdPort p) 2 3
      let refused := skindOf old = 0 ∧ skindOf (getField v 2 3) ≠ 0 ∧ s.searchCap 0 < (if s.bit (parseR p) 5 then 2 else 1)
      (s.fld (fwdB + 0x28) 0 16 ≠ 0 → Gives (.frerLatentCheck) s (fun u =>
          u.cls.latAt = s.cls.latAt + s.fld (fwdB + 0x28) 0 16 * msU ∧ u.now = max s.now u.cls.latAt))
      ∧ (s.fld (fwdB + 0x28) 0 16 = 0 → exec .frerLatentCheck s = .next s)
      ∧ Gives (.fwdPortSkindWrite p v) s (fun u => u.fld (fwdPort p) 2 3 = if refused then old else getField v 2 3))

/-- R28, R30, R33, R34, R37, R41, R159: COUPLER_RELEASE, DISPATCH, DISPATCH_STALL, a write of STN_MONn and a read of STN_EPOCH_LO
complete: release at t_in + L_n, of a coach that was complete before that cycle into the next station, of a late one to its end with
STN_BUDGET; the hand-off of a coach to a waiting thread, at most four in a CORE cycle; the stall of the dispatcher; the monitor and
epoch registers. -/
def Obligations.StationResults : Prop :=
  ∀ (n : Fin 16) (q : Nat) (rest : List Nat) (c : Coach) (v : Word) (path : Bool) (s : State),
    let edge := c.tIn + s.latOf n * coreU
    let lo := if path then stnB + 0x18 else stnB + 0x10
    let inTime := c.complete = true ∧ c.completeAt < edge / coreU
    let lateDrop := ∃ by_, c.dropBy = some by_ ∧ edge / coreU ≤ by_.1
    let first := (s.stn n).order = q :: rest ∧ s.coach q = some c
    (first → inTime → c.reason = 0 → c.verdict.getD 0 = 0 → n.val < 15 → (s.stn (n.val + 1)).order.length < 256 →
        Gives (.couplerRelease n) s (fun u => u.now = max s.now edge ∧ (u.stn n).order = rest ∧ q ∈ (u.stn (n.val + 1)).order
          ∧ ∃ d, u.coach q = some d ∧ d.loc = .station (n.val + 1) ∧ d.tIn = edge ∧ d.raw = c.raw ∧ d.complete = false ∧ d.issued = 0))
    ∧ (first → ¬ inTime → c.reason = 0 →
        Gives (.couplerRelease n) s (fun u => u.now = max s.now edge ∧ u.coach q = none ∧ Raises u (Src.stnBudget n)
          ∧ (u.reg (stnR n 0x14)).toNat = min (2 ^ 32 - 1) ((s.reg (stnR n 0x14)).toNat + 1)))
    ∧ (first → c.reason ≠ 0 → (inTime ∨ ¬ lateDrop) →
        Gives (.couplerRelease n) s (fun u => u.coach q = none
          ∧ (u.reg (dropR c.inPort 8 c.reason)).toNat = min (2 ^ 32 - 1) ((s.reg (dropR c.inPort 8 c.reason)).toNat + 1)))
    ∧ ((s.stn n).order = [] → exec (.couplerRelease n) s = .next s)
    ∧ ((4 ≤ s.handedNow n ∨ s.nextCoach n = none ∨ s.chooseCore n = none) → exec (.dispatch n) s = .next s)
    ∧ (∀ (k : Fin 10) (t : Fin 7) rd, s.handedNow n < 4 → s.nextCoach n = some (q, c) → s.coach q = some c → s.chooseCore n = some (k.val, t.val) →
        (s.thread (threadId n k t)).run = .waiting (.chrd rd 0) →
        Gives (.dispatch n) s (fun u => let th := u.thread (threadId n k t)
          th.binding = some q ∧ th.run = .ready ∧ (rd ≠ 0 → th.get rd = BitVec.ofNat 64 q)
          ∧ ∃ d, u.coach q = some d ∧ d.server = some (k.val, t.val) ∧ d.issued = c.issued + 1))
    ∧ ((s.stationCoaches n).find? (fun e => e.2.isWaiting && !e.2.stallRaised && e.2.reason == 0) = some (q, c) → s.dBound n < s.latOf n →
        Gives (.dispatchStall n) s (fun u => Raises u Src.dispatchStall ∧ u.now = max s.now (c.tIn + (s.dBound n + 1) * coreU)
          ∧ (u.coach q).map (·.stallRaised) = some true))
    ∧ (s.latOf n ≤ s.dBound n → exec (.dispatchStall n) s = .next s)
    ∧ Gives (.stnMonClear n v) s (fun u => u.fld (stnR n 8) 0 2 = (if getField v 0 2 = 3 then s.fld (stnR n 8) 0 2 else getField v 0 2)
        ∧ u.fld (stnR n 0xC) 0 12 = if getField v 4 1 = 1 then 0 else s.fld (stnR n 0xC) 0 12)
    ∧ Gives (.stnEpochLoRead path) s (fun u => u.resp = .ok (s.reg lo).toNat ∧ aget (fun _ => none) u.hiLatch (lo + 4) = some (s.reg (lo + 4)))

/-- R15, R24, R188, R340, R348–R350: BIST_DONE, IMAGE_SELECT, IMAGE_LOAD_DONE, PACKET_PATH_START and EPOCH_BOUNDARY complete: the start
sequence from BIST to the packet path, and the epoch boundary; out of their phase they change nothing.
The model's choices it rests on: log entries 130, 134, 138. -/
def Obligations.StartSequenceResults : Prop :=
  ∀ (r : Bist) (fa fb nor : Bool) (slot : Nat) (s : State),
    let read := (((s.norFails 0 fa).norFails 1 fb).readHeader 0).readHeader 1
    let h := (s.norFails slot nor).readHeader slot
    let img := h.norBytes slot 0 (imageLen (h.norBytes slot 0 256))
    let staged := (((h.storeBytes (h.dramEnd - img.length) img).freshPath.takeImage slot img).excludeChannel img).setPhase 4
    let epoch := s.reg2 (stnB + 0x10) (stnB + 0x14) + 1
    (s.fld bootB 0 4 = 1 → s.boot.resetHeld = false → Gives (.bistDone r) s (fun u => u.fld bootB 0 4 = 2))
    ∧ ((s.fld bootB 0 4 ≠ 1 ∨ s.boot.resetHeld = true) → exec (.bistDone r) s = .next s)
    ∧ (s.fld bootB 0 4 ≠ 2 → exec (.imageSelect fa fb) s = .next s)
    ∧ ((s.fld bootB 0 4 ≠ 3 ∨ s.boot.loading = none) → exec (.imageLoadDone nor) s = .next s)
    ∧ ((s.boot.ready = false ∨ s.pathRun = true) → exec .packetPathStart s = .next s)
    ∧ (s.pathRun = false → exec .epochBoundary s = .next s)
    ∧ (∀ x, s.fld bootB 0 4 = 2 → read.choice = some x → Gives (.imageSelect fa fb) s (fun u =>
        u.fld bootB 0 4 = 3 ∧ u.boot.loading = some x ∧ u.boot.triedOther = false))
    ∧ (s.fld bootB 0 4 = 2 → read.choice = none → Gives (.imageSelect fa fb) s (fun u => u.fld bootB 0 4 = 8 ∧ u.boot.loading = none))
    ∧ (s.fld bootB 0 4 = 3 → s.boot.loading = some slot → h.fld (slotR slot) 4 2 ≠ 1 → s.boot.triedOther = true →
        Gives (.imageLoadDone nor) s (fun u => u.fld bootB 0 4 = 8 ∧ u.boot.loading = none))
    ∧ (∀ w, s.fld bootB 0 4 = 3 → s.boot.loading = some slot → h.fld (slotR slot) 4 2 = 1 → h.imageFault slot img = none →
        staged.applyAll img = (none, w) →
        Gives (.imageLoadDone nor) s (fun u => u.boot.loading = none ∧ u.fld bootB 4 1 = slot % 2
          ∧ u.fld bootB 0 4 = if w.fld (stnB + 4) 8 4 = 13 ∨ aget (fun _ => false) w.flt.causes Src.carrierId = true then 9 else 5))
    ∧ (s.boot.ready = true → s.pathRun = false → Gives (.packetPathStart) s (fun u =>
        u.path.start = ceilTo epochU s.now ∧ u.now = ceilTo epochU s.now ∧ u.pathRun = true ∧ u.boot.ready = false
        ∧ u.current = 0 ∧ u.pendingTense = 1 ∧ u.live = 1))
    ∧ (s.pathRun = true → epoch < 2 ^ 64 → Gives (.epochBoundary) s (fun u => u.reg2 (stnB + 0x10) (stnB + 0x14) = epoch
        ∧ ((∀ n : Fin 16, s.migOf n = none) → u.path.degraded = (s.path.degraded || s.path.degradePending))
        ∧ s.path.start + epoch * epochU ≤ u.now))

/-- R25, R376, R378, R236: MIGRATION_PREP_DONE, MIGRATION_DONE, CORE_ROTATION, ROTATION_TEST_DONE, LANE_AGING_MEASURE and
YARD_SCRUB_STEP complete: preparing, switching and rotating cores, the aging measurements, and a step of the yard scrubber; where no
migration, rotation or test is under way they change nothing.
The model's choices it rests on: log entry 87. -/
def Obligations.MigrationAndAgingResults : Prop :=
  ∀ (n : Fin 16) (m : Migration) (age : BitVec 16) (margins : List (BitVec 16)) (rows : List (BitVec 8 × BitVec 16)) (s : State),
    (s.migOf n = some m → m.ready = false → m.leaveAt = none → Gives (.migrationPrepDone n true) s (fun u =>
        u.migOf n = some { m with ready := true } ∧ (u.thread (m.incoming * 8 + 7)).run = .ready))
    ∧ (s.migOf n = some m → m.ready = false → m.leaveAt = none → m.incoming ≠ m.outgoing → (s.roleOf m.outgoing).serves = true →
        Gives (.migrationPrepDone n false) s (fun u => u.migOf n = none ∧ u.roleOf m.incoming = .failed ∧ Raises u Src.migrationFail
          ∧ Raises u Src.spareLow))
    ∧ (∀ t, s.migOf n = some m → m.leaveAt = some t → s.roleOf m.outgoing ≠ .retired → Gives (.migrationDone n) s (fun u =>
        u.migOf n = none ∧ u.now = max s.now t ∧ Raises u Src.migrationDone ∧ u.roleOf m.outgoing = if m.retire then .retired else .testing))
    ∧ (s.migOf n = none → exec (.migrationPrepDone n true) s = .next s ∧ exec (.migrationPrepDone n false) s = .next s
        ∧ exec (.migrationDone n) s = .next s)
    ∧ ((s.bit (fltB + 0x80) 16 = false ∨ s.pathRun = false) → exec (.coreRotation n) s = .next s)
    ∧ ((stnCores n).find? (fun c => decide (s.roleOf c = CoreRole.testing)) = none →
        exec (.rotationTestDone n true age) s = .next s ∧ exec (.rotationTestDone n false age) s = .next s)
    ∧ (∀ r c k, s.bit (fltB + 0x80) 16 = true → s.pathRun = true → s.migOf n = none → s.migPending = false → s.rotationCore n = some r →
        s.longest n = some (c, k) → (s.core r).testPassed = true →
        Gives (.coreRotation n) s (fun u => u.migOf n = some { incoming := r, outgoing := c, slot := k }))
    ∧ (∀ c, (stnCores n).find? (fun c => decide (s.roleOf c = CoreRole.testing)) = some c → s.fld (fltB + 0x84) 8 8 = 0 →
        Gives (.rotationTestDone n true age) s (fun u => u.roleOf c = .rotation ∧ (u.core c).testPassed = true)
        ∧ Gives (.rotationTestDone n false age) s (fun u => u.roleOf c = .retired ∧ Raises u (Src.stnFault n)))
    ∧ Gives (.laneAgingMeasure margins) s (fun u => u.now = max s.now ((s.now / (10 * secU) + 1) * (10 * secU))
        ∧ ∀ l < 34, l < margins.length → u.fld (laneB + l * 0x10 + 4) 8 8 = min 255 (margins.getD l 0).toNat)
    ∧ (s.pool.scrubAt + 1 < 3145728 → Gives (.yardScrubStep .clean rows) s (fun u => u.pool.scrubAt = s.pool.scrubAt + 1 ∧ u.mem = s.mem))

/-- R89, R225, R229, R400: LINK_UP and LINK_DOWN complete: a link that comes up, with the skews it has measured, and one that goes
down. A line port does not train before the packet path has started (R350). -/
def Obligations.LinkResults : Prop :=
  ∀ (p : Fin 33) (t : Nat) (inv lanes : List Nat) (skews : List Int) (partner cut : Bool) (s : State),
    let all := if p.val < 32 then (List.range (be (s.image.ports.getD p []) 1 1)).map (· + p.val) else []
    let trains := p = 32 ∨ s.fld bootB 0 4 = 6 ∨ s.fld bootB 0 4 = 7
    (s.fenced (unitId 0xA p) = false → (∀ l ∈ all, s.fenced (unitId 9 l) = false) → trains →
        Gives (.linkUp p t ⟨inv, skews⟩) s (fun u => u.bit (egrPR p 4) 0 = true ∧ u.now = max s.now t ∧ (u.egrPort p).skews = skews
          ∧ u.fld (egrPR p 4) 1 2 = if p.val < 32 ∧ s.bit (egrPR p 0) 15 = true then (if s.bit (egrPR p 0) 26 then 2 else 1) else 0))
    ∧ (¬ trains → Gives (.linkUp p t ⟨inv, skews⟩) s (fun u => u.bit (egrPR p 4) 0 = s.bit (egrPR p 4) 0 ∧ u.now = max s.now t))
    ∧ (s.bit (egrPR p 4) 0 = true → Gives (.linkDown p t lanes partner cut) s (fun u => u.bit (egrPR p 4) 0 = false
        ∧ u.fld (egrPR p 4) 1 2 = 0 ∧ (u.egrPort p).sending = none ∧ (u.egrPort p).preempted = none ∧ u.now = max s.now t))
    ∧ (s.bit (egrPR p 4) 0 = false → Gives (.linkDown p t lanes partner cut) s (fun u => u.bit (egrPR p 4) 0 = false ∧ u.now = max s.now t))

/-- R217, R220–R223, R225, R226, R229, R233: EGRESS_SELECTION, COPY_TRANSMIT_END, a write of EGR_QCFGq_c, GCL_ARM, GCL_BANK_SWITCH,
GATE_BOUNDARY, the commands of verification, QUEUE_FLUSH and REFUSAL_NOTICE complete: selection from the instant at which the port is
free, the end of a frame with its FCS and the gap after it, quotas, gate lists, preemption and flushing; a command whose event cannot
come changes nothing.
The model's choices it rests on: log entry 121. -/
def Obligations.EgressPortResults : Prop :=
  ∀ (q : Fin 34) (l : Fin 32) (c : Fin 8) (v : Word) (hp bp : Bool) (s : State),
    let gcl := egrPR l 0xC
    let st := egrPR l 4
    let bank := getField v 1 1
    let count := getField v 16 11
    let cycle := (s.reg (egrPR l 0x10)).toNat
    (∀ h rest t0, s.bit (egrPR l 4) 0 = true → (s.egrPort l).sending = none → s.preemptable l 7 = false → s.queue l 7 = h :: rest →
        h.port = l → h.cls = 7 → (s.advance (s.egrPort l).freeAt).headFate h = .start t0 →
        Gives (.egressSelection (l.castLE (by decide))) s (fun u => u.queue l 7 = rest ∧ u.now = max s.now (s.egrPort l).freeAt
          ∧ ∃ cut, (u.egrPort l).sending = some { h with startedAt := t0, fragAt := t0, done := 0, ci := s.portCi l, cut := cut }))
    ∧ (s.bit (egrPR l 4) 0 = false → exec (.egressSelection (l.castLE (by decide))) s = .next s)
    ∧ (∀ cp, q ≠ 33 → (s.egrPort q).sending = some cp →
        let on := s.sentSize cp - cp.done + 8
        let bad := cp.stomp.isSome || hp || bp || s.copyBad cp || s.overlong cp
        Gives (.copyTransmitEnd q hp bp) s (fun u => (u.egrPort q).sending = none ∧ u.now = max s.now (cp.fragAt + s.wireTime q on)
          ∧ (u.egrPort q).freeAt = cp.fragAt + s.wireTime q (on + 12)
          ∧ (cp.coach = none → (aget (fun _ => {}) u.egr.sent q).bytes
              = fcsFrame (cp.frame ++ List.replicate (60 - cp.frame.length) 0) bad)))
    ∧ ((q = 33 ∨ (s.egrPort q).sending = none) → exec (.copyTransmitEnd q hp bp) s = .next s)
    ∧ Gives (.egrQuotaWrite q c v) s (fun u => u.fld (egrQR q c 0) 0 19 =
        if s.reservedQueue c = true ∧ s.fld (egrB + 8) 0 19 < s.reservedQuota - s.fld (egrQR q c 0) 0 19 + getField v 0 19
        then s.fld (egrQR q c 0) 0 19 else getField v 0 19)
    ∧ (∀ v16, s.gclBad l bank count cycle = false → s.fromCi0 (s.portCi l) s.now = some v16 →
        Gives (.gclArm l v) s (fun u => u.bit gcl 0 = true ∧ u.bit gcl 4 = true
          ∧ ∃ g, (u.egrPort l).gclNext = some g ∧ g.bank = bank ∧ g.count = count ∧ g.cycle = cycle ∧ v16 + 10000 * 2 ^ 16 ≤ g.base16))
    ∧ (s.gclBad l bank count cycle = true → Gives (.gclArm l v) s (fun u => u.bit gcl 0 = false ∧ u.bit gcl 3 = true
        ∧ (u.egrPort l).gclNext = (s.egrPort l).gclNext))
    ∧ ((s.egrPort l).gclNext = none → exec (.gclBankSwitch l) s = .next s)
    ∧ (s.gateList l = none → exec (.gateBoundary l) s = .next s)
    ∧ (s.fld st 1 2 ≠ 1 → exec (.preemptVerifySend l) s = .next s ∧ exec (.preemptVerifyResponse l) s = .next s
        ∧ exec (.preemptVerifyFail l) s = .next s)
    ∧ (∀ g, (s.egrPort l).gclNext = some g → Gives (.gclBankSwitch l) s (fun u => (u.egrPort l).gcl = some g ∧ (u.egrPort l).gclNext = none
        ∧ u.bit gcl 0 = false ∧ u.fld gcl 2 1 = g.bank % 2))
    ∧ (∀ g x, s.gateList l = some g → s.fromCi0 (s.portCi l) s.now = some x → x < g.base16 → 0 < g.cycle → 0 < g.count → 10#32 ≤ s.reg (gclR l g.bank 0 0) →
        Gives (.gateBoundary l) s (fun u => u.fld (egrPR l 0x1C) 0 10 = 0
          ∧ (getField (s.reg (gclR l g.bank 0 1)) 8 2 = 1 → u.bit st 3 = true) ∧ (getField (s.reg (gclR l g.bank 0 1)) 8 2 = 2 → u.bit st 3 = false)))
    ∧ (s.fld st 1 2 = 1 → (s.egrPort l).verifySent < 3 → Gives (.preemptVerifySend l) s (fun u =>
        (u.egrPort l).verifySent = (s.egrPort l).verifySent + 1))
    ∧ (s.fld st 1 2 = 1 → Gives (.preemptVerifyResponse l) s (fun u => u.fld st 1 2 = 2))
    ∧ (s.fld st 1 2 = 1 → 3 ≤ (s.egrPort l).verifySent → Gives (.preemptVerifyFail l) s (fun u => u.fld st 1 2 = 3
        ∧ u.now = max s.now ((s.egrPort l).verifyAt + 10 * msU)))
    ∧ Gives (.queueFlush q c) s (fun u => u.queue q c = [])
    ∧ (let per := if s.fld (egrB + 4) 0 16 = 0 then 100 else s.fld (egrB + 4) 0 16
       Gives (.refusalNotice) s (fun u => u.egr.refusalAt = max s.now (s.egr.refusalAt + per * msU) ∧ u.now = u.egr.refusalAt
         ∧ (s.bit (egrB + 4) 20 = false → u.egr.refused = [])))

/-- R249–R255, R258: the commands of the rewind store complete: it records, freezes, resumes and drains, each command changing its
state as Table 10.5 says, and none where the table has no transition.
The model's choices it rests on: log entry 62. -/
def Obligations.RewindResults : Prop :=
  ∀ (i : Fin 4) (s : State),
    let st := rewB + 4
    let state := s.fld st 0 3
    let low : Nat := [rewB + 0x10, rewB + 0x20, rewB + 0x60, rewB + 0x68].getD i 0
    let q := s.fld (rewB + 0x40) 0 6
    let c := s.fld (rewB + 0x40) 6 3
    let sameCycle := ∃ w v, s.rew.resumed = some (w, v) ∧ w / periU = s.now / periU
    let counted := fun (u : State) => (u.reg (rewB + 0x34)).toNat = min (2 ^ 32 - 1) ((s.reg (rewB + 0x34)).toNat + 1)
    (∀ p rest x, s.rew.pending = p :: rest → s.coach p.coach = some x → x.verdict.isSome = true → s.rew.fill + (s.recordOf p x).length ≤ 1048576 →
        Gives (.rewindRecordWrite) s (fun u => u.rew.pending = rest ∧ u.rew.fill = s.rew.fill + (s.recordOf p x).length
          ∧ u.rew.records = s.rew.records + 1 ∧ ∀ j < (s.recordOf p x).length, u.byte (s.segAddr s.rewHead + s.rew.fill + j) = (s.recordOf p x).getD j 0))
    ∧ (state = 0 → s.rewSegs ≠ 0 → Gives (.rewCtlEnable) s (fun u => u.fld st 0 3 = 1 ∧ u.bit rewB 0 = true ∧ u.rew.fill = 0 ∧ u.rew.records = 0))
    ∧ (s.rewSegs = 0 → exec (.rewCtlEnable) s = .next s)
    ∧ (state ≠ 4 → Gives (.rewCtlDisable) s (fun u => u.fld st 0 3 = 0 ∧ u.bit rewB 0 = false ∧ u.rew.pending = []))
    ∧ (state = 4 → exec (.rewCtlDisable) s = .next s)
    ∧ (s.rew.pending = [] → exec .rewindRecordWrite s = .next s)
    ∧ (state = 1 → s.rew.freezing = false → ¬ sameCycle → s.fld (rewB + 8) 0 16 ≠ 0 → Gives (.rewCtlFreeze) s (fun u =>
        u.fld st 0 3 = 2 ∧ u.rew.freezeAt = s.now / tickU * tickU ∧ u.rew.freezeBy = (0, 0)))
    ∧ (state = 1 → s.rew.freezing = false → ¬ sameCycle → s.fld (rewB + 8) 0 16 = 0 → Gives (.rewCtlFreeze) s (fun u =>
        u.fld st 0 3 = 1 ∧ u.rew.freezing = true ∧ u.rew.freezeAt = s.now / tickU * tickU))
    ∧ (state = 0 → Gives (.rewCtlFreeze) s (fun u => u.fld st 0 3 = 0 ∧ u.rew.freezing = s.rew.freezing ∧ u.rew.freezeAt = s.rew.freezeAt))
    ∧ (state = 1 → s.rew.freezing = false → sameCycle → Gives (.rewCtlFreeze) s (fun u => u.fld st 0 3 = 3 ∧ u.rew.resumed = none ∧ counted u))
    ∧ ((2 ≤ state ∨ (state = 1 ∧ s.rew.freezing = true)) → Gives (.rewCtlFreeze) s (fun u => u.fld st 0 3 = state ∧ counted u))
    ∧ (state ≠ 2 → exec .rewindPostEnd s = .next s)
    ∧ (s.rew.freezing = false → exec .rewindFrozenEntry s = .next s)
    ∧ (state = 3 → s.rew.trigAt.all (fun t => t / periU != s.now / periU) = false → exec .rewCtlResume s = .next s)
    ∧ (state ≠ 4 → exec .rewCtlAbort s = .next s ∧ exec .drainFrameSend s = .next s)
    ∧ (s.rew.endSent = false → exec .drainComplete s = .next s)
    ∧ (s.rew.drain = none → exec .drainPaceContinue s = .next s ∧ exec .drainStall s = .next s)
    ∧ (state = 2 → Gives (.rewindPostEnd) s (fun u => u.rew.freezing = true ∧ u.now = max s.now (s.rew.freezeAt + s.fld (rewB + 8) 0 16 * msU)))
    ∧ ((state = 1 ∨ state = 2) → s.rew.freezing = true → s.rew.pending = [] → Gives (.rewindFrozenEntry) s (fun u => u.fld st 0 3 = 3
        ∧ u.reg (rewB + 0x1C) = s.reg (rewB + 0x1C) + 1 ∧ u.rew.freezing = false ∧ Raises u Src.rewindFrozen
        ∧ (u.reg2 (rewB + 0x20) (rewB + 0x24)) = s.rew.freezeAt / nsU % 2 ^ 64))
    ∧ (state = 3 → s.rew.trigAt.all (fun t => t / periU != s.now / periU) = true → Gives (.rewCtlResume) s (fun u => u.fld st 0 3 = 1
        ∧ u.rewHead = (s.rewHead + 1) % max 1 s.rewSegs % 2 ^ 17 ∧ u.rew.fill = 0))
    ∧ (state ≠ 3 → exec (.rewCtlResume) s = .next s)
    ∧ (state = 3 → Gives (.rewCtlDrain) s (fun u => u.fld st 0 3 = 4 ∧ u.reg (rewB + 0x74) = 0 ∧ ∃ d, u.rew.drain = some d ∧ d.aborted = false
        ∧ d.segs = s.drainSelect (s.reg2 (rewB + 0x60) (rewB + 0x64)) (s.reg2 (rewB + 0x68) (rewB + 0x6C)) ∧ d.index = d.segs))
    ∧ (state ≠ 3 → exec (.rewCtlDrain) s = .next s)
    ∧ (∀ d, state = 4 → s.rew.drain = some d → Gives (.rewCtlAbort) s (fun u => ∃ e, u.rew.drain = some e ∧ e.aborted = true ∧ e.segs = [] ∧ e.index = []))
    ∧ (∀ d, s.rew.drain = some d → state = 4 → d.pausedAt = none → s.rew.endSent = false → s.drainHeld = true →
        Gives (.drainFrameSend) s (fun u => u.bit (rewB + 0x70) 17 = true ∧ u.rew.drain = some { d with pausedAt := some s.now, stallRaised := false }))
    ∧ (∀ d, s.rew.drain = some d → s.rew.endSent = true → d.aborted = true → Gives (.drainComplete) s (fun u => u.fld st 0 3 = 3
        ∧ u.rew.drain = none ∧ u.bit st 3 = s.bit st 3))
    ∧ (∀ d, s.rew.drain = some d → s.rew.endSent = true → d.aborted = false → Gives (.drainComplete) s (fun u => u.fld st 0 3 = 3
        ∧ u.rew.drain = none ∧ u.bit st 3 = true))
    ∧ (∀ d t, s.rew.drain = some d → d.pausedAt = some t → s.bit (egrPR q 4) 0 = true → s.fld (egrQR q c 0x10) 0 19 ≤ s.drainLow →
        Gives (.drainPaceContinue) s (fun u => u.bit (rewB + 0x70) 17 = false ∧ u.rew.drain = some { d with pausedAt := none }))
    ∧ (∀ d t, s.rew.drain = some d → d.pausedAt = some t → d.stallRaised = false → s.fld (rewB + 0x5C) 0 16 ≠ 0 →
        Gives (.drainStall) s (fun u => Raises u Src.rewindDrainStall ∧ u.now = max s.now (t + s.fld (rewB + 0x5C) 0 16 * msU)))
    ∧ Gives (.rewLoRead i) s (fun u => u.resp = .ok (s.reg low).toNat ∧ aget (fun _ => none) u.hiLatch (low + 4) = some (s.reg (low + 4)))

/-- R239–R246, R237: POOL_GET, POOL_PUT, POOL_GIVE, POOL_MIN_CLEAR, AUDIT_SEL_WRITE, AUDIT_PASS_END and YARD_BANK_COPY_DONE complete:
a GET hands out a buffer with its handle; PUT and GIVE move what the requester owns and refuse the rest; the minimum, the audit window
and a pass; the copy of a yard bank. A requester without an owner id (R241) has no path to the manager. -/
def Obligations.PoolResults : Prop :=
  ∀ (r : Requester) (k : Fin 5) (v : Word) (t o : Nat) (s : State),
    let dst := s.fld (poolB + 0x120 + k * 8) 0 12
    let log := poolB + 0x110
    (s.poolOwner r = none → exec (.poolPut r v) s = .next s ∧ exec (.poolGive r k v) s = .next s
        ∧ Gives (.poolGet r k) s (fun u => u.resp = .ok 0 ∧ u.pool = s.pool))
    ∧ (∀ i w, s.poolOwner r = some o → 0 < s.poolFree k → (k = 0 → s.p0Reserve < s.poolFree 0) → s.takeHead k = some (i, w) →
        Gives (.poolGet r k) s (fun u => u.resp = .ok ((i % 2 ^ 20 + k * 2 ^ 20 + 2 ^ 31) % 2 ^ 32) ∧ u.poolFree k = s.poolFree k - 1
          ∧ (u.heldAt k i).map (·.owner) = some o))
    ∧ (∀ j i h, s.poolOwner r = some o → s.readHandle v.toNat = some (j, i) → s.heldAt j i = some h →
        (h.owner = o → Gives (.poolPut r v) s (fun u => u.heldAt j i = none ∧ u.lastOwner j i = o)
          ∧ Gives (.poolGive r k v) s (fun u => (u.heldAt j i).map (·.owner) = some dst ∧ u.lastOwner j i = o))
        ∧ (h.owner ≠ o → Gives (.poolPut r v) s (fun u => u.heldAt j i = some h ∧ Raises u Src.poolForeignFree
              ∧ u.fld log 12 12 = min 4095 (s.fld log 12 12 + 1))
          ∧ Gives (.poolGive r k v) s (fun u => u.heldAt j i = some h ∧ Raises u Src.poolForeignFree)))
    ∧ (∀ j i, s.poolOwner r = some o → s.readHandle v.toNat = some (j, i) → s.heldAt j i = none →
        Gives (.poolPut r v) s (fun u => u.heldAt j i = none ∧ Raises u Src.poolDoubleFree ∧ u.fld log 0 12 = min 4095 (s.fld log 0 12 + 1)
          ∧ u.poolFree j = s.poolFree j))
    ∧ (s.poolOwner r = some o → s.readHandle v.toNat = none → Gives (.poolPut r v) s (fun u => u.fld log 24 8 = min 255 (s.fld log 24 8 + 1)
        ∧ u.pool = s.pool))
    ∧ Gives (.poolMinClear k v) s (fun u => u.fld (poolR k 0x18) 0 20 = if v.getLsbD 31 = true then s.poolFree k else s.fld (poolR k 0x18) 0 20)
    ∧ Gives (.auditSelWrite v) s (fun u => let e := getField v 0 8
        u.fld (poolB + 0x180) 0 8 = e ∧ u.reg (poolB + 0x184) = BitVec.ofNat 32 ((s.auditOwner e).1 + if (s.auditOwner e).2 then 4096 else 0)
        ∧ ∀ j : Fin 5, u.reg (poolB + 0x190 + j * 4) = BitVec.ofNat 32 ((s.auditAt e).counts.getD j 0))
    ∧ Gives (.auditPassEnd t) s (fun u => u.now = max s.now t ∧ u.pool.auditStart = u.now
        ∧ u.fld (poolB + 0x1A4) 0 16 = min 65535 ((max s.now t - s.pool.auditStart) / msU))
    ∧ Gives (.yardBankCopyDone) s (fun u => u.pool.bankReady = (s.pool.bankReady || s.pool.bankMove.isSome) ∧ u.mem = s.mem)

/-- R298–R302: the commands of the lock words complete: a read of a free lock word's alias takes it and answers 0, of a held one answers
the word; a store of 0 by the owner frees it, any other owner's store is counted; leases run out, old locks are reported, a break ends a
lock. -/
def Obligations.LockResults : Prop :=
  ∀ (r : Requester) (a : BitVec 39) (v : Word) (o : Nat) (e : LockEnt) (s : State),
    let n := a.toNat
    let ok := s.ownerId r = some o ∧ n % 4 = 0 ∧ s.lockPlace n = true
    let lease := if s.fld lockB 0 14 = 0 then 63 else s.fld lockB 0 14
    let isLease := o < 0x500 ∨ 0xD00 ≤ o ∧ o ≤ 0xD3F
    let tick := (s.now / (1024 * nsU) + 1) * (1024 * nsU)
    let brk := s.reg2 (lockB + 0x10) (lockB + 0x14)
    (ok → s.upset n = false → s.cnum n 4 < 2 ^ 31 → s.cpu.locks.length < 2048 →
        Gives (.lockAcquire r a) s (fun u => u.resp = .ok 0
          ∧ u.num n 4 = (2 ^ 31 + (if isLease then lease * 65536 else 2 ^ 30) + o) % 2 ^ 32
          ∧ ∃ x, u.lockEnt n = some x ∧ x.owner = o ∧ x.since = s.now ∧ (x.stuck = true ↔ ¬ isLease)))
    ∧ (ok → s.upset n = false → 2 ^ 31 ≤ s.cnum n 4 → Gives (.lockAcquire r a) s (fun u => u.resp = .ok (s.cnum n 4) ∧ u.mem = s.mem
        ∧ u.cpu.locks = s.cpu.locks))
    ∧ (ok → s.lockEnt n = some e → e.owner = o → Gives (.lockAliasStore r a 0) s (fun u => u.lockEnt n = none
        ∧ (s.cnum n 4 % 4096 = o → u.num n 4 = 0)))
    ∧ (ok → s.lockEnt n = some e → e.owner ≠ o → Gives (.lockAliasStore r a v) s (fun u => u.cpu.locks = s.cpu.locks ∧ u.mem = s.mem
        ∧ u.fld (lockB + 0xC) 0 16 = min 65535 (s.fld (lockB + 0xC) 0 16 + 1)))
    ∧ (s.ownerId r = some o → (n % 4 ≠ 0 ∨ s.lockPlace n = false) → Gives (.lockAcquire r a) s (fun u => u.resp = .error ∧ u.mem = s.mem)
        ∧ Gives (.lockAliasStore r a v) s (fun u => u.resp = .error ∧ u.mem = s.mem))
    ∧ ((∀ x ∈ s.cpu.locks, x.stuck = false → 2 ≤ x.left) → Gives (.leaseTick) s (fun u => u.now = max s.now tick
        ∧ u.cpu.locks = s.cpu.locks.map (fun x => if x.stuck then x else { x with left := x.left - 1 })))
    ∧ (s.cpu.locks = [e] → e.stuck = false → e.left = 1 → Gives (.leaseTick) s (fun u => u.cpu.locks = [] ∧ Raises u Src.leaseExpired
        ∧ u.fld (lockB + 8) 0 16 = min 65535 (s.fld (lockB + 8) 0 16 + 1)))
    ∧ (s.cpu.locks = [e] → e.stuck = true → e.aged = false → s.fld lockB 16 16 ≠ 0 → e.since + s.fld lockB 16 16 * msU < (s.now / msU + 1) * msU →
        Gives (.stuckLockCheck) s (fun u => u.cpu.locks = [{ e with aged := true }] ∧ Raises u Src.stuckLockAge))
    ∧ (brk % 4 = 0 → brk < 2 ^ 39 → s.lockPlace brk = true → s.lockEnt brk = some e →
        Gives (.lockBreakGo) s (fun u => u.lockEnt brk = none ∧ u.fld (lockB + 0x18) 1 3 = 0))
    ∧ (brk % 4 = 0 → brk < 2 ^ 39 → s.lockPlace brk = true → s.lockEnt brk = none →
        Gives (.lockBreakGo) s (fun u => u.cpu.locks = s.cpu.locks ∧ u.mem = s.mem ∧ u.fld (lockB + 0x18) 1 3 = 3))

/-- R288–R290, Table 12.2: the commands of the task unit complete, each with the operation Table 12.2 gives it. -/
def Obligations.TaskResults : Prop :=
  ∀ (c : Fin 4) (t : Fin 1024) (v : Word) (s : State),
    let p := s.slotPrio t
    let run := s.runsOn c t = true
    let refused := fun (u : State) => u.slotState t = s.slotState t ∧ u.fld (taskB + 0x24) 0 16 = min 65535 (s.fld (taskB + 0x24) 0 16 + 1)
    (∀ x, (List.range 1024).find? (fun t => s.slotState t == 0) = some x →
        Gives (.taskAlloc) s (fun u => u.slotState x = 1 ∧ u.resp = .ok (2 ^ 31 + x)))
    ∧ ((List.range 1024).find? (fun t => s.slotState t == 0) = none → Gives (.taskAlloc) s (fun u => u.resp = .ok 0 ∧ Raises u Src.taskFull))
    ∧ (s.slotState t = 0 → Gives (.taskPost t) s refused)
    ∧ (s.slotState t = 1 → Gives (.taskPost t) s (fun u => u.slotState t = 2 ∧ u.readyList p = s.readyList p ++ [t.val]))
    ∧ (s.slotState t = 3 → Gives (.taskPost t) s (fun u => u.slotState t = 3 ∧ u.bit (slotStR t) 2 = true))
    ∧ (∀ x, s.slotOf c = none → s.bestSlot = some x → Gives (.taskTake c) s (fun u => u.slotState x = 3 ∧ u.fld (slotStR x) 4 2 = c
        ∧ u.resp = .ok ((2 ^ 31 + x) % 2 ^ 32) ∧ getField (u.sysReg c 0xB) 0 10 = x % 1024 ∧ x ∉ u.readyList (s.slotPrio x)))
    ∧ (s.slotOf c = none → s.bestSlot = none → Gives (.taskTake c) s (fun u => u.resp = .ok 0 ∧ u.cpu = s.cpu))
    ∧ (run → Gives (.taskYield c t) s (fun u => u.slotState t = 2 ∧ u.readyList p = s.readyList p ++ [t.val]))
    ∧ (run → Gives (.taskPreempt c t) s (fun u => u.slotState t = 2 ∧ u.readyList p = t.val :: s.readyList p))
    ∧ (run → s.bit (slotStR t) 2 = false → Gives (.taskDone c t) s (fun u => u.slotState t = 1))
    ∧ (run → s.bit (slotStR t) 2 = true → Gives (.taskDone c t) s (fun u => u.slotState t = 2 ∧ u.bit (slotStR t) 2 = false))
    ∧ (¬ run → Gives (.taskYield c t) s refused ∧ Gives (.taskPreempt c t) s refused ∧ Gives (.taskDone c t) s refused)
    ∧ (s.slotState t = 1 → Gives (.taskFree t) s (fun u => u.slotState t = 0))
    ∧ (s.slotState t ≠ 1 → Gives (.taskFree t) s refused)
    ∧ (s.slotState t ≤ 1 → Gives (.taskSlotCfgWrite t v) s (fun u => u.reg (slotCfgR t) = v &&& 0xFFFF003F#32))
    ∧ (2 ≤ s.slotState t → exec (.taskSlotCfgWrite t v) s = .next s)

/-- R141, R280, R286, R292, R295: CTL_INTERRUPT, WFI_WAKE, the watchdog commands, L2_EVICT_ACK and the commands of the I/O TLB complete:
what outside events do to a control core: an interrupt, the wake of a WFI, its watchdog, the acknowledgement of an evicted line; and
the invalidation of the I/O TLB, of what stood at GO. -/
def Obligations.ControlCoreEventResults : Prop :=
  ∀ (c : Fin 4) (v : Word) (s : State),
    let wd := ctlB + 0x40 + c * 4
    let ms := max 1 (s.fld wd 0 16)
    let inv := mmuB + 8
    let page := (s.reg (mmuB + 0xC)).toNat + s.fld (mmuB + 0x10) 0 7 * 2 ^ 32
    (∀ j, s.irqLine c = some j → s.ctlRuns c = true → s.intEnable c = true → (s.ctlc c).waiting = false →
        Gives (.ctlInterrupt c) s (TookTrap (.ctl c) (19 + 2 ^ 63) j s))
    ∧ (s.irqLine c = none → exec (.ctlInterrupt c) s = .next s)
    ∧ ((s.irqLine c = none ∨ (s.ctlc c).waiting = false) → exec (.wfiWake c) s = .next s)
    ∧ (∀ j, s.irqLine c = some j → (s.ctlc c).waiting = true → Gives (.wfiWake c) s (fun u => (u.ctlc c).waiting = false
        ∧ (u.ctlc c).pcOf = (s.ctlc c).pcOf + 4))
    ∧ Gives (.watchdogKick c v) s (fun u => (u.ctlc c).kicked = s.now ∧ (u.ctlc c).half = false ∧ (u.ctlc c).expired = false
        ∧ u.fld wd 0 17 = getField v 0 17)
    ∧ (s.bit wd 16 = true → (s.ctlc c).half = false → (s.ctlc c).expired = false → Gives (.watchdogHalf c) s (fun u => (u.ctlc c).half = true
        ∧ u.now = max s.now ((s.ctlc c).kicked + ms * msU / 2)))
    ∧ (s.bit wd 16 = true → (s.ctlc c).expired = false → Gives (.watchdogExpire c) s (fun u => (u.ctlc c).expired = true
        ∧ Raises u Src.ctlWatchdog ∧ u.now = max s.now ((s.ctlc c).kicked + ms * msU)))
    ∧ (s.bit inv 0 = false → Gives (.iotlbInvalidate v) s (fun u => u.bit inv 0 = true ∧ u.bit inv 1 = v.getLsbD 1
        ∧ u.fld inv 8 8 = getField v 8 8 ∧ u.dma.iotlbGo = some ⟨v.getLsbD 1, getField v 8 8, page⟩))
    ∧ (s.bit inv 0 = true → Gives (.iotlbInvalidate v) s (fun u => u.bit inv 0 = true ∧ u.dma = s.dma))
    ∧ (∀ y, s.dma.iotlbGo = some y → Gives (.iotlbInvalidateDone) s (fun u => u.bit inv 0 = false ∧ u.dma.iotlbGo = none
        ∧ (y.all = true → u.dma.iotlb = []) ∧ ∀ x ∈ u.dma.iotlb, x.hits y.asid y.va = false))
    ∧ (s.dma.iotlbGo = none → exec .iotlbInvalidateDone s = .next s)
    ∧ (∀ l rest, (s.ctlc c).evict = l :: rest → Gives (.l2EvictAck c) s (fun u => (u.ctlc c).evict = rest
        ∧ (l.taken = true → u.mem = s.mem) ∧ (l.taken = false → ∀ j < l.bytes.length, u.byte (l.line * 64 + j) = l.bytes.getD j 0)))

/-- R175–R177: a write of PARSE_RAWj_CFG, RAW_HUNT_MATCH, RAW_CONFIRM_CHECK and RAW_FRAME_DELIVER complete: raw framing hunts for SYNC,
confirms K frames, counts the frames passed by until then, delivers in LOCKED and falls back to HUNT after M misses. -/
def Obligations.RawFramingResults : Prop :=
  ∀ (j : Fin 8) (t : Nat) (l : List Byte) (v : Word) (s : State),
    let st := rawR j 4
    let x := (s.rawUnit j).feed l
    let o := x.next
    let good := x.sync o = true ∧ lenValid (x.len o) = true
    let k := if s.fld (rawR j 0) 1 3 = 0 then 3 else s.fld (rawR j 0) 1 3
    let m := if s.fld (rawR j 0) 4 3 = 0 then 2 else s.fld (rawR j 0) 4 3
    (s.bit (rawR j 0) 0 = false → Gives (.rawEnable j v) s (fun u => u.fld st 0 2 = 1 ∧ u.fld st 2 3 = 0 ∧ u.rawUnit j = {} ∧ u.bit (rawR j 0) 0 = true))
    ∧ (s.bit (rawR j 0) 0 = true → Gives (.rawEnable j v) s (fun u => u.fld st 0 2 = s.fld st 0 2 ∧ u.rawUnit j = s.rawUnit j))
    ∧ (s.bit (rawR j 0) 0 = true → Gives (.rawDisable j v) s (fun u => u.fld st 0 2 = 0 ∧ u.rawUnit j = {} ∧ u.bit (rawR j 0) 0 = false))
    ∧ (s.bit (rawR j 0) 0 = false → Gives (.rawDisable j v) s (fun u => u.rawUnit j = s.rawUnit j ∧ u.bit (rawR j 0) 0 = false))
    ∧ (s.fld st 0 2 ≠ 1 → exec (.rawHuntMatch j l) s = .next s)
    ∧ (s.fld st 0 2 ≠ 2 → exec (.rawConfirmCheck j l) s = .next s)
    ∧ (s.fld st 0 2 ≠ 3 → exec (.rawFrameDeliver j t l) s = .next s)
    ∧ (∀ y, s.fld st 0 2 = 1 → x.search (x.buf.length + 1) x.next = some y → Gives (.rawHuntMatch j l) s (fun u => u.fld st 0 2 = 2
        ∧ (u.rawUnit j).cand = y ∧ (u.rawUnit j).next = y + 20 + x.len y))
    ∧ (s.fld st 0 2 = 1 → x.search (x.buf.length + 1) x.next = none → Gives (.rawHuntMatch j l) s (fun u => u.fld st 0 2 = 1
        ∧ (s.rawUnit j).next ≤ (u.rawUnit j).next))
    ∧ (s.fld st 0 2 = 2 → x.has (o + 10) = false → Gives (.rawConfirmCheck j l) s (fun u => u.fld st 0 2 = 2 ∧ u.rawUnit j = x))
    ∧ (s.fld st 0 2 = 2 → x.has (o + 10) = true → good → k ≤ x.count + 1 → Gives (.rawConfirmCheck j l) s (fun u => u.fld st 0 2 = 3
        ∧ (u.rawUnit j).misses = 0 ∧ (u.rawUnit j).next = o
        ∧ (u.reg (rawR j 8)).toNat = min (2 ^ 32 - 1) ((s.reg (rawR j 8)).toNat
            + (x.count + 1 + x.hunted + if x.huntFrom < x.chain then 1 else 0))))
    ∧ (s.fld st 0 2 = 2 → x.has (o + 10) = true → good → x.count + 1 < k → Gives (.rawConfirmCheck j l) s (fun u => u.fld st 0 2 = 2
        ∧ u.fld st 2 3 = x.count + 1 ∧ (u.rawUnit j).next = o + 20 + x.len o))
    ∧ (s.fld st 0 2 = 2 → x.has (o + 10) = true → ¬ good → Gives (.rawConfirmCheck j l) s (fun u => u.fld st 0 2 = 1
        ∧ (u.rawUnit j).next = x.cand + 1))
    ∧ (s.fld st 0 2 = 3 → x.part = none → x.has (o + 20 + x.len o) = true → good → Gives (.rawFrameDeliver j t l) s (fun u =>
        u.fld st 0 2 = 3 ∧ max s.now t ≤ u.now ∧ (u.rawUnit j).next = o + 20 + x.len o ∧ (u.rawUnit j).misses = 0 ∧ (u.rawUnit j).part = none))
    ∧ (s.fld st 0 2 = 3 → x.part = none → x.has (o + 10) = true → ¬ good → x.misses + 1 < m → Gives (.rawFrameDeliver j t l) s (fun u =>
        u.fld st 0 2 = 3 ∧ (u.rawUnit j).misses = x.misses + 1
        ∧ (u.rawUnit j).next = o + 20 + if lenValid (x.len o) then x.len o else x.lastLen))
    ∧ (s.fld st 0 2 = 3 → x.part = none → x.has (o + 10) = true → ¬ good → m ≤ x.misses + 1 → Gives (.rawFrameDeliver j t l) s (fun u =>
        u.fld st 0 2 = 1 ∧ (u.rawUnit j).next = o + 1 ∧ Raises u (Src.rawAlign j)))

/-- R185–R187, Table 7.6: the operations of CLAUSE_UPD_CTL complete: one that STATUS does not refuse starts and holds GO, a refused one
sets STATUS, and while GO reads 1 another changes nothing. CLAUSE_UPDATE_DONE completes: the effect is made and STATUS set, here where
the operation has its slots at once (no slots turn, or every slot is UPDATE); an operation that a fence has cut makes none.
CLAUSE_UPDATE_STALL completes.
The model's choice it rests on: log entry 206. -/
def Obligations.ClauseUpdateResults : Prop :=
  ∀ (g : Fin 32) (s : State),
    let ctl := clauseB + 0x10
    let e := s.updEntry
    let r := s.cbytes s.updSrc 256
    let t := s.pendingTense
    let asked := fun (cmd : Instr) (op slots : Nat) =>
      let st := if s.updSrc % 256 ≠ 0 then 2 else s.clauseStatus op g e r
      let x : Update := { op := op, group := g, entry := e, began := s.now, status := 0, need := slots, record := r }
      (s.bit ctl 8 = false → st = 0 → Gives cmd s (fun u => u.bit ctl 8 = true ∧ u.mem = s.mem ∧ u.cls = { s.cls with upd := some x }))
      ∧ (s.bit ctl 8 = false → st ≠ 0 → Gives cmd s (fun u => u.bit ctl 8 = false ∧ u.fld ctl 12 3 = st ∧ u.cls = s.cls ∧ u.mem = s.mem))
      ∧ (s.bit ctl 8 = true → Gives cmd s (fun u => u.bit ctl 8 = true ∧ u.cls = s.cls ∧ u.mem = s.mem))
    let prompt := s.wheel 1 0 = none ∨ s.pathRun = false ∨ ∃ f, s.image.tt.wheels = [⟨1, 0, f, [0xC2]⟩]
    let w := s.grpBytes g / 12
    asked (.clauseInsert g) 1 w ∧ asked (.clauseDelete g) 2 1 ∧ asked (.privWrite g) 3 (w + 2) ∧ asked (.privClear g) 4 1
    ∧ asked (.clauseRead g) 5 1
    ∧ (∀ x, s.cls.upd = some x → x.jen = false →
        let old := s.clause x.group x.entry
        let key := x.group * 2 ^ 18 + x.entry
        let made := fun (u : State) =>
          (x.op = 1 → u.clause x.group x.entry = recordClause x.record (BitVec.ofNat 16 (1 + t * 8))
            ∧ u.cls.log = s.cls.log ++ [⟨t, true, 0, key⟩])
          ∧ (x.op = 2 → if ctlBorn old.control = t ∧ ctlSettled old.control = false
            then u.clause x.group x.entry = { old with control := putField old.control 0 1 0 } ∧ u.cls.log = s.cls.log
            else u.clause x.group x.entry = { old with control := diedWord old.control t } ∧ u.cls.log = s.cls.log ++ [⟨t, false, 0, key⟩])
          ∧ (x.op = 3 → u.clause x.group x.entry = recordClause x.record 3 ∧ u.cls.log = s.cls.log)
          ∧ (x.op = 4 → u.clause x.group x.entry = { old with control := putField old.control 0 1 0 } ∧ u.cls.log = s.cls.log)
          ∧ (x.op = 5 → u.clause x.group x.entry = old ∧ ∀ j < 198, u.byte (s.updSrc + j) = old.record.getD j 0)
        let ended := fun (u : State) => u.cls.upd = none ∧ u.bit ctl 8 = false ∧ u.fld ctl 12 3 = x.status % 8
        (prompt → x.status = 0 → Gives .clauseUpdateDone s (fun u => ended u ∧ made u))
        ∧ (x.status ≠ 0 → Gives .clauseUpdateDone s (fun u => ended u ∧ u.cls.clauses = s.cls.clauses ∧ u.cls.log = s.cls.log ∧ u.mem = s.mem)))
    ∧ (s.cls.upd = none → exec .clauseUpdateDone s = .next s ∧ exec .clauseUpdateStall s = .next s)
    ∧ (∀ x, s.cls.upd = some x → x.stalled = false → s.fld (clauseB + 0x20) 0 16 ≠ 0 → Gives (.clauseUpdateStall) s (fun u =>
        Raises u Src.clauseUpdateStall ∧ u.now = max s.now (x.began + s.fld (clauseB + 0x20) 0 16 * usU)
        ∧ u.cls.upd = some { x with stalled := true }))

/-- R188–R190: the commands of the tenses complete: COMMIT takes an instant, an exhausted table refuses it; ABORT and VOID; what happens
at t_c, at the end of an undo and of a settle pass, and at the check of draining tenses. -/
def Obligations.TenseResults : Prop :=
  ∀ (s : State),
    let busy := s.commitBusy = true
    let idle := s.cls.upd = none ∧ s.cls.fwdUpd = none ∧ s.cls.commitAt = none
    let p := s.pendingTense
    (¬ busy → s.cls.undoing = false → popCount 16 s.live < 4 → idle → Gives (.clauseTenseCommit) s (fun u => u.bit clauseB 27 = true
        ∧ ∃ c, u.cls.commitAt = some c ∧ c % 4096 = 0 ∧ s.coreCycle + 4096 ≤ c ∧ c < s.coreCycle + 8192))
    ∧ (¬ busy → s.cls.undoing = false → 4 ≤ popCount 16 s.live → Gives (.clauseTenseCommit) s (fun u => u.bit clauseB 27 = false
        ∧ u.cls = s.cls ∧ Raises u Src.tenseExhausted))
    ∧ (¬ busy → Gives (.clauseTenseAbort) s (fun u => u.cls.undoing = true))
    ∧ (busy → exec (.clauseTenseCommit) s = .next s ∧ exec (.clauseTenseAbort) s = .next s)
    ∧ (1 < popCount 16 s.live → Gives (.clauseTenseVoid) s (fun u => u.cls.voided = s.oldest :: s.cls.voided
        ∧ ∀ q c n, s.coach q = some c → c.tense = s.oldest → c.loc = .station n → c.reason = 0 → (u.coach q).map (·.reason) = some 18))
    ∧ (popCount 16 s.live ≤ 1 → exec (.clauseTenseVoid) s = .next s)
    ∧ (s.cls.commitAt = none → exec .tenseCommitEffect s = .next s)
    ∧ (s.cls.undoing = false → exec .tenseAbortDone s = .next s)
    ∧ (s.drainedOut = false → exec .settlePassStart s = .next s)
    ∧ (s.bit (clauseB + 4) 17 = false → exec .settlePassDone s = .next s)
    ∧ (∀ c, s.cls.commitAt = some c → Gives (.tenseCommitEffect) s (fun u => u.current = p ∧ u.pendingTense = (p + 1) % 16
        ∧ u.live = s.live ||| 2 ^ p ∧ u.commitBusy = false ∧ u.cls.commitAt = none ∧ u.now = max s.now (s.path.start + c * coreU)))
    ∧ (s.cls.undoing = true → Gives (.tenseAbortDone) s (fun u => u.cls.undoing = false ∧ ∀ r ∈ u.cls.log, r.tense ≠ p))
    ∧ (s.drainedOut = true → Gives (.settlePassStart) s (fun u => u.bit (clauseB + 4) 17 = true))
    ∧ (s.bit (clauseB + 4) 17 = true → Gives (.settlePassDone) s (fun u => u.bit (clauseB + 4) 17 = false ∧ u.live.testBit s.oldest = false
        ∧ u.oldest = (s.oldest + 1) % 16 ∧ ∀ r ∈ u.cls.log, r.tense ≠ s.oldest))
    ∧ Gives (.tenseDrainCheck) s (fun u => u.now = max s.now (ceilTo usU (s.now + 1))
        ∧ ∀ t < 16, s.live.testBit t = true → t ≠ s.current → s.fld (clauseB + 8) 0 16 ≠ 0 → aget (fun _ => false) s.cls.drained t = false →
            aget (fun _ => 0) s.cls.ceased t + s.fld (clauseB + 8) 0 16 * usU < u.now → Raises u Src.tenseDrain)

/-- R205, R209, R210, R213, Table 8.7: the operations of FWD_UPD_CTL complete: one that STATUS does not refuse starts and holds GO, a
refused one sets STATUS, and while GO reads 1 another changes nothing. FWD_UPDATE_DONE completes: the effect is made and STATUS set,
here where the operation has its slot at once (no slots turn, or every slot is UPDATE); an operation that a fence has cut makes none.
The model's choices it rests on: log entries 75, 126, 206. -/
def Obligations.ForwardingUpdateResults : Prop :=
  ∀ (s : State),
    let r := s.cbytes s.fwdSrc 640
    let t := s.pendingTense
    let asked := fun (cmd : Instr) (op : Nat) =>
      let st := if s.fwdSrc % 64 ≠ 0 then 2 else s.fwdStatus op r
      let kind := if op = 8 ∨ op = 10 then le r 0 1 else 0
      let x : Update := { op := op, group := kind, entry := 0, began := s.now, status := 0, record := r }
      (s.bit fwdCtl 8 = false → st = 0 → Gives cmd s (fun u => u.bit fwdCtl 8 = true ∧ u.mem = s.mem ∧ u.cls = { s.cls with fwdUpd := some x }))
      ∧ (s.bit fwdCtl 8 = false → st ≠ 0 →
          Gives cmd s (fun u => u.bit fwdCtl 8 = false ∧ u.fld fwdCtl 12 3 = st ∧ u.cls = s.cls ∧ u.mem = s.mem))
      ∧ (s.bit fwdCtl 8 = true → Gives cmd s (fun u => u.bit fwdCtl 8 = true ∧ u.cls = s.cls ∧ u.mem = s.mem))
    asked .fdbWrite 1 ∧ asked .fdbDelete 2 ∧ asked .fdbFlush 3 ∧ asked .lpmAdd 4 ∧ asked .lpmDelete 5 ∧ asked .strInsert 6
    ∧ asked .strDelete 7 ∧ asked .paramWrite 8 ∧ asked .frerReset 9 ∧ asked .fwdRead 10
    ∧ (s.cls.fwdUpd = none → exec .fwdUpdateDone s = .next s)
    ∧ (∀ x, s.cls.fwdUpd = some x → x.jen = false → x.record.length = 640 →
        let r := x.record
        let eng := fwdEngine x.op x.group
        let prompt := s.wheel 1 eng = none ∨ s.pathRun = false ∨ ∃ f, s.image.tt.wheels = [⟨1, eng, f, [0xC2]⟩]
        let key := le r 0 8
        let slot := (fdbSlots key).find? (fun a => s.fdbValid a && s.num a 8 == key)
        let obj := le r 0 1
        let ix := le r 2 2
        let made := fun (u : State) =>
          (x.op = 1 → ∃ a ∈ fdbSlots key, (∀ y, slot = some y → a = y) ∧ ∀ j < 16, u.byte (a + j) = r.getD j 0)
          ∧ (x.op = 2 → ∀ a, slot = some a → u.fdbValid a = false)
          ∧ (x.op = 3 → ∀ a, fdbBase ≤ a → a + 12 < groupBase → a % 16 = 0 → s.fdbValid a = true →
              (s.fdbStatic a = true → u.fdbValid a = true)
              ∧ (s.fdbStatic a = false → (le r 1 1 % 2 = 0 ∨ s.fdbPort a = obj) → (le r 1 1 / 2 % 2 = 0 ∨ s.num (a + 6) 2 = ix) →
                  u.fdbValid a = false))
          ∧ (x.op = 4 → u.cls.prefixes = s.cls.prefixes ++
              [⟨(prefixOf r).1, (prefixOf r).2.1, (prefixOf r).2.2.1, (prefixOf r).2.2.2, le r 4 4 % 2 ^ 20, BitVec.ofNat 16 (1 + t * 8)⟩])
          ∧ (x.op = 5 → ∀ i q, s.prefixIx r t = some i → s.cls.prefixes[i]? = some q →
              (ctlBorn q.control ≠ t ∨ ctlSettled q.control = true) → u.cls.prefixes[i]? = some { q with control := diedWord q.control t })
          ∧ (x.op = 6 → ∀ i, s.strFree (r.take 48) = some i → u.strControl i = BitVec.ofNat 16 (1 + t * 8)
              ∧ ∀ j < 48, u.byte (strAddr i + j) = r.getD j 0)
          ∧ (x.op = 7 → ∀ i, s.strFind (r.take 48) t = some i →
              u.strControl i = if ctlBorn (s.strControl i) = t ∧ ctlSettled (s.strControl i) = false
                then putField (s.strControl i) 0 1 0 else diedWord (s.strControl i) t)
          ∧ (x.op = 8 → ∀ j < objSize obj, u.byte (objBase obj + ix * objStride obj + j) = r.getD (objAt obj + j) 0)
          ∧ (x.op = 9 → (u.rcvy ix).takeAny = true ∧ u.mem = s.mem)
          ∧ (x.op = 10 → ∀ j < (s.fwdFound r).length, u.byte (s.fwdSrc + j) = (s.fwdFound r).getD j 0)
        let ended := fun (u : State) (st : Nat) => u.cls.fwdUpd = none ∧ u.bit fwdCtl 8 = false ∧ u.fld fwdCtl 12 3 = st % 8
        (prompt → x.status = 0 → (x.op = 1 → s.fwdStatus 1 r = 0) → Gives .fwdUpdateDone s (fun u => ended u 0 ∧ made u))
        ∧ (x.status ≠ 0 → Gives .fwdUpdateDone s (fun u => ended u x.status ∧ u.cls.prefixes = s.cls.prefixes ∧ u.mem = s.mem)))

/-- R260–R275: the commands of the siding memory controller complete: a data slot serves the request that waits, refreshes, temperature,
self-refresh, the change of the data rate, and the retirement of a channel; outside their conditions they change nothing.
The model's choices it rests on: log entries 81, 84, 132. -/
def Obligations.SidingMemoryResults : Prop :=
  ∀ (ch : Fin 16) (v : Word) (t : Nat) (s : State),
    let st := smcB + 4
    let last := fun (u : State) => aget (fun _ => 0) u.smc.lastRefresh ch
    let sr := smcB + 0xC
    let unit := 4 * dctlU s.smcFreq
    let f := getField v 0 2
    let before := fun (x : Nat) => ∀ e, s.smc.change = some e → x < e
    (∀ k r, s.slotFrom ch 4096 (max (ceilTo unit s.now / unit) (aget (fun _ => 0) s.smc.slot ch)) = some k → s.chServes ch (k * unit) = true →
        s.smcQueue ch = [r] → r.cls < 4 → (aget (fun _ => []) s.smc.groups ch).contains ((s.dramBurst r.addr).2 / 32) = true →
        Gives (.dramSlotServe ch .clean) s (fun u => u.smcQueue ch = [] ∧ u.now = max s.now (k * unit) ∧ aget (fun _ => 0) u.smc.slot ch = k + 1
          ∧ u.mem = s.mem))
    ∧ (s.slotFrom ch 4096 (max (ceilTo unit s.now / unit) (aget (fun _ => 0) s.smc.slot ch)) = none → exec (.dramSlotServe ch .clean) s = .next s)
    ∧ (∀ x, s.nextRun ch (s.now + 1) = some x → s.fld sr (16 + ch) 1 = 0 → s.retiredCh ≠ some ch.val → s.absent (unitId 8 ch) = false →
        before x →
        Gives (.refreshIssue ch true) s (fun u => u.now = max s.now x ∧ last u = u.now)
        ∧ Gives (.refreshIssue ch false) s (fun u => last u = last s ∧ Raises u Src.dramRefresh))
    ∧ (s.nextRun ch (s.now + 1) = none → exec (.refreshIssue ch true) s = .next s ∧ exec (.extraRefresh ch) s = .next s)
    ∧ (s.fld smcTherm (2 * ch) 2 < 2 → exec (.extraRefresh ch) s = .next s)
    ∧ ((s.fld sr 0 16 = 0 ∨ s.smcQueue ch ≠ [] ∨ s.rtEnabled = true ∨ s.fld (smcCh ch) 0 3 ≠ 0) → exec (.selfRefreshEntry ch) s = .next s)
    ∧ ((s.fld (smcCh ch) 0 3 ≠ 1 ∨ s.smcQueue ch = []) → exec (.selfRefreshExit ch) s = .next s)
    ∧ (s.smc.change = none → exec (.dphyPllLock t) s = .next s ∧ exec .freqChangeComplete s = .next s ∧ exec .freqChangeFail s = .next s)
    ∧ Gives (.mr4Read v) s (fun u => u.reg smcTherm = v ∧ u.now = max s.now ((s.now / (4 * msU) + 1) * (4 * msU))
        ∧ ∀ n < 16, getField v (2 * n) 2 = 2 → s.fld smcTherm (2 * n) 2 < 2 → Raises u Src.dramThermal)
    ∧ (∀ x k, 2 ≤ s.fld smcTherm (2 * ch) 2 → s.nextRun ch (s.now + 1) = some x →
        let half := max (max (ceilTo unit ((last s + x) / 2)) (ceilTo unit s.now) / unit) (aget (fun _ => 0) s.smc.slot ch)
        let n := [75, 38, 19].getD s.smcFreq 75
        s.extraSlots ch half n (x / unit) = some k →
        Gives (.extraRefresh ch) s (fun u => u.now = max s.now (k * unit) ∧ last u = u.now ∧ aget (fun _ => 0) u.smc.slot ch = k + n))
    ∧ (∀ x, s.fld sr 0 16 ≠ 0 → s.smcQueue ch = [] → (s.rewState = 0 ∨ s.rewState = 3) → s.rtEnabled = false → s.fld (smcCh ch) 0 3 = 0 →
        s.nextRun ch (max (s.now + 1) (aget (fun _ => 0) s.smc.lastReq ch + s.fld sr 0 16 * usU)) = some x → before x →
        Gives (.selfRefreshEntry ch) s (fun u => u.fld (smcCh ch) 0 3 = 1 ∧ u.fld sr (16 + ch) 1 = 1 ∧ u.now = max s.now x))
    ∧ (s.fld (smcCh ch) 0 3 = 1 → s.smcQueue ch ≠ [] → Gives (.selfRefreshExit ch) s (fun u => u.fld (smcCh ch) 0 3 = 0
        ∧ u.fld sr (16 + ch) 1 = 0 ∧ last u = s.now))
    ∧ (f ≠ s.smcFreq → f ≠ 3 → s.smc.change = none → s.smc.retiring = none → Gives (.smcFreqGo v) s (fun u => u.bit st 13 = true
        ∧ u.smc.change = some (ceilTo epochU (s.now + 10 * usU)) ∧ u.smc.target = f ∧ u.smcFreq = s.smcFreq))
    ∧ ((f = s.smcFreq ∨ f = 3 ∨ s.smc.change ≠ none ∨ s.smc.retiring ≠ none) → Gives (.smcFreqGo v) s (fun u => u.smc = s.smc
        ∧ u.fld (smcB + 8) 4 3 = 3))
    ∧ (∀ e, s.smc.change = some e → e + usU / 2 ≤ max s.now t → max s.now t ≤ e + 13 * usU / 2 →
        Gives (.dphyPllLock t) s (fun u => u.smc.locked = true ∧ u.bit (clkB + 4) 4 = true ∧ u.now = max s.now t))
    ∧ (∀ e, s.smc.change = some e → (max s.now t < e + usU / 2 ∨ e + 13 * usU / 2 < max s.now t) → exec (.dphyPllLock t) s = .next s)
    ∧ (∀ e, s.smc.change = some e → s.smc.locked = true → Gives (.freqChangeComplete) s (fun u => u.smcFreq = s.smc.target % 4
        ∧ u.bit st 13 = false ∧ u.smc.change = none ∧ u.fld (smcB + 8) 4 3 = 0 ∧ u.now = max s.now (e + 8 * usU)))
    ∧ (s.smc.locked = false → exec .freqChangeComplete s = .next s)
    ∧ (s.smc.locked = true → exec .freqChangeFail s = .next s)
    ∧ (∀ e, s.smc.change = some e → s.smc.locked = false → Gives (.freqChangeFail) s (fun u => u.smcFreq = s.smcFreq ∧ u.bit st 13 = false
        ∧ u.smc.change = none ∧ u.fld (smcB + 8) 4 3 = 6 ∧ Raises u Src.dphyPll
        ∧ max s.now (e + 13 * usU / 2) ≤ u.now ∧ u.now ≤ max s.now (e + 16 * usU)))
    ∧ (s.smc.change = none → s.retiredCh = none → s.smc.retiring = none → (∀ n < 16, s.fld (smcCh n) 0 3 ≠ 5) → 3968 ≤ s.fld (rewB + 0xC) 0 17 →
        Gives (.smcRetireGo v) s (fun u => u.smc.retiring = some (getField v 0 4) ∧ u.bit st 14 = true ∧ u.fld smcRetireR 5 3 = 0
          ∧ u.fld (rewB + 0xC) 0 17 = s.fld (rewB + 0xC) 0 17 - 3968))
    ∧ ((s.retiredCh ≠ none ∨ s.smc.retiring ≠ none) → Gives (.smcRetireGo v) s (fun u => u.smc = s.smc ∧ u.fld smcRetireR 5 3 = 3))
    ∧ (s.smc.change ≠ none → (∀ w o, s.smc.go = some (w, o) → w / periU ≠ s.now / periU) →
        Gives (.smcRetireGo v) s (fun u => u.smc = s.smc ∧ u.fld smcRetireR 5 3 = 3))
    ∧ Gives (.retireCopyDone) s (fun u => u.smc.copied = (s.smc.copied || s.smc.retiring.isSome))

/-- R306–R309, R313, R315, R317: the commands of a DMA channel complete: what they do to it, and when they leave it alone.
The model's choices it rests on: log entry 102. -/
def Obligations.DmaChannelResults : Prop :=
  ∀ (k : Fin 64) (e : Fin 4) (upTo : Nat) (v : Word) (s : State),
    let stat := dmaR k 8
    let ch := s.dch k
    let head := s.descAt k (s.dmaHead k)
    (s.dmaEn k = false → s.ringOk k = true → Gives (.dmaEnable k v) s (fun u => u.dmaEn k = true ∧ u.dmaHead k = 0 ∧ u.dch k = {}
        ∧ u.dmaState k = 0 ∧ u.dmaKind k = getField v 1 2 % 3 ∧ u.fld (dmaR k 0) 3 3 = getField v 3 3))
    ∧ (s.dmaEn k = false → s.ringOk k = false → Gives (.dmaEnable k v) s (fun u => u.dmaEn k = false ∧ u.fld stat 4 4 = 6))
    ∧ (s.dmaEn k = false → exec (.dmaKick k) s = .next s)
    ∧ (s.dmaEn k = true → s.dmaState k ≠ 2 → ch.desc = none → s.absent (unitId 0xD k) = false → ch.redoTo = none →
        (s.dmaKind k = 2 → s.descBad k head = false) → Gives (.dmaKick k) s (fun u => (u.dch k).owned = dOwn head ∧ u.mem = s.mem))
    ∧ ((s.dmaBusy e).isSome = true → exec (.dmaDescriptorStart e) s = .next s)
    ∧ (∀ j, s.dmaBusy e = none → s.dmaPick e = some j → s.dmaKind j = 0 → Gives (.dmaDescriptorStart e) s (fun u => u.dmaBusy e = some j
        ∧ u.dmaState j = 1 ∧ (u.dch j).desc = some (s.dmaHead j, (s.dch j).resume, s.descAt j (s.dmaHead j))))
    ∧ (s.dmaState k ≠ 3 → exec (.dmaTxContinue k) s = .next s)
    ∧ (s.dmaState k = 3 → s.bit (dmaR k 0x20) 24 = false → (secU : Int) ≤ s.tokens33.1.credit →
        Gives (.dmaTxContinue k) s (fun u => u.dmaState k = 0 ∧ u.now = s.now))
    ∧ (s.dmaState k = 2 → s.dmaKind k = 0 → Gives (.dmaResume k) s (fun u => u.dmaState k = 0 ∧ (u.dch k).owned = true
        ∧ (u.dch k).resume = ch.resume))
    ∧ (s.dmaState k = 2 → s.dmaKind k = 2 → ch.redoTo = none → (dOwn head = false ∨ s.descBad k head = false) → Gives (.dmaResume k) s (fun u =>
        u.dmaState k = 0 ∧ (u.dch k).owned = (dOwn head && s.dmaEn k) ∧ (u.dch k).resume = 0))
    ∧ (s.dmaState k = 2 → s.dmaKind k = 1 → Gives (.dmaResume k) s (fun u => u.dmaState k = 0 ∧ u.dmaHead k = ch.startAt % 4096
        ∧ (u.dch k).resume = 0))
    ∧ (s.dmaState k ≠ 2 → exec (.dmaResume k) s = .next s ∧ exec (.dmaSkip k) s = .next s)
    ∧ (s.dmaState k = 2 → s.dmaKind k ≠ 1 → Gives (.dmaSkip k) s (fun u => u.dmaState k = 0 ∧ (u.dch k).owned = false
        ∧ u.dmaHead k = (s.dmaHead k + 1) % max 1 (s.dmaCount k) % 4096))
    ∧ (s.dmaState k = 1 → Gives (.dmaAbort k) s (fun u => u.dch k = { ch with aborting := true } ∧ u.dmaState k = 1))
    ∧ (s.dmaState k ≠ 1 → exec (.dmaAbort k) s = .next s)
    ∧ Gives (.ringSeenWrite k v) s (fun u => u.fld (dmaR k 0x1C) 0 12 = getField v 0 12 ∧ u.mem = s.mem ∧ u.dma = s.dma)
    ∧ (∀ h off d, s.dmaBusy e = some k.val → k.val / 16 = e.val → ch.desc = some (h, off, d) → s.dmaKind k = 0 → s.descBad k d = true →
        Gives (.dmaDescriptorComplete e upTo) s (fun u => u.dmaState k = 2 ∧ u.fld stat 4 4 = 6 ∧ u.fld stat 8 17 = 0 ∧ u.dmaBusy e = none
          ∧ (u.dch k).desc = none ∧ u.bit (dmaB + k.val / 16 * 4) (k.val % 16) = true ∧ Raises u (Src.dmaErr (k.val / 16))))

/-- R305, R306, R310, R312, R318: DMA_DESCRIPTOR_COMPLETE and RX_RING_WRITE complete: a one-byte move between addresses of control SRAM,
and a module frame written into its receive ring, while no core holds a line dirty; with nothing under way they change nothing. -/
def Obligations.DmaMoveResults : Prop :=
  ∀ (e : Fin 4) (upTo : Nat) (p q : Bool) (s : State), (∀ ln, s.dirtyLine ln = none) →
    let sram := fun (a n : Nat) => 0x20000000 ≤ a ∧ a + n ≤ 0x20400000
    let ring := fun (k : Nat) => 4 ≤ s.dmaCount k ∧ s.dmaHead k < s.dmaCount k ∧ s.dmaCount k ≤ 4096
    let off := fun (k a n : Nat) => a + n ≤ s.dmaBase k ∨ s.dmaBase k + 32 * s.dmaCount k ≤ a
    (s.dmaBusy e = none → exec (.dmaDescriptorComplete e upTo) s = .next s)
    ∧ ((s.egrPort 33).sending = none → exec (.rxRingWrite p q) s = .next s)
    ∧ (∀ (k : Fin 64) d, s.dmaBusy e = some k.val → k.val / 16 = e.val → (s.dch k).desc = some (s.dmaHead k, 0, d) → (s.dch k).aborting = false →
        (s.dch k).disabling = false → s.dmaKind k = 0 → s.dmaState k = 1 → s.descBad k d = false → dVirt d = false → dLen d = 1 → ring k →
        sram (dSrc d) 1 → sram (dDst d) 1 → off k (dDst d) 1 → s.upset (dSrc d) = false →
        Gives (.dmaDescriptorComplete e upTo) s (fun u => u.byte (dDst d) = s.byte (dSrc d) ∧ u.dmaBusy e = none ∧ u.dmaState k = 0
          ∧ u.dmaHead k = (s.dmaHead k + 1) % s.dmaCount k % 4096 ∧ u.num (s.dmaBase k + s.dmaHead k * 32 + 24) 4 = 1))
    ∧ (∀ cp k, (s.egrPort 33).sending = some cp → cp.coach = none → cp.cells = [] → cp.cls < 8 → s.ringReady cp.cls = some k → ring k →
        let d := s.descAt k (s.dmaHead k)
        let n := 64 + cp.frame.length
        n ≤ dLen d → sram (dDst d) n → off k (dDst d) n →
        Gives (.rxRingWrite p q) s (fun u => (u.egrPort 33).sending = none ∧ u.dmaHead k = (s.dmaHead k + 1) % s.dmaCount k % 4096
          ∧ (∀ j < cp.frame.length, u.byte (dDst d + 64 + j) = cp.frame.getD j 0)
          ∧ u.num (s.dmaBase k + s.dmaHead k * 32 + 24) 4 = n + (if p = true ∨ q = true ∨ cp.stomp = some 10 ∨ cp.stomp = some 20 then 10 else 0) * 2 ^ 20
          ∧ u.num (s.dmaBase k + s.dmaHead k * 32) 4 / 2 ^ 17 % 4 = 3 ∧ u.num (s.dmaBase k + s.dmaHead k * 32) 4 / 2 ^ 31 = 0))

/-- R320–R326: JEN_FRAME_RECEIVE and JEN_ACK complete: at a port whose link is up and whose meter allows it, what is discarded, what is
counted, what a COMMAND and an ACK do.
The model's choices it rests on: log entry 153. -/
def Obligations.JenitorFrameResults : Prop :=
  ∀ (p : Fin 34) (t o : Nat) (f : List Byte) (s : State),
    let m := f.drop o
    let now := s.advance t
    let metered := s.jenAt p f = some o ∧ s.bit (egrPR p 4) 0 = true ∧ (now.jenMeter p).1 = true
    let find := (List.range 16).find? (fun i => (s.session i).isOpen && (s.session i).id == msgSession m)
    let ctr := fun (u : State) (a : Nat) => u.fld (jenB + a) 0 32 = min (2 ^ 32 - 1) (s.fld (jenB + a) 0 32 + 1)
    (s.jenAt p f = none → exec (.jenFrameReceive p t f) s = .next now)
    ∧ (s.jenAt p f = some o → s.bit (egrPR p 4) 0 = true → (now.jenMeter p).1 = false →
        Gives (.jenFrameReceive p t f) s (fun u => ctr u 0x28 ∧ u.jen.cmds = s.jen.cmds ∧ u.jen.sessions = s.jen.sessions))
    ∧ (metered → msgBad m = true → Gives (.jenFrameReceive p t f) s (fun u => ctr u 0x14 ∧ ctr u 0x20 ∧ u.jen.cmds = s.jen.cmds
        ∧ u.jen.sessions = s.jen.sessions))
    ∧ (metered → msgBad m = false → isOpenMsg m = false → find = none →
        Gives (.jenFrameReceive p t f) s (fun u => ctr u 0x18 ∧ Raises u Src.jenSession ∧ u.jen.cmds = s.jen.cmds))
    ∧ (∀ i, metered → msgBad m = false → isOpenMsg m = false → find = some i → msgSealed (s.session i).key m = false →
        Gives (.jenFrameReceive p t f) s (fun u => ctr u 0x18 ∧ Raises u Src.jenAuth ∧ u.jen.cmds = s.jen.cmds))
    ∧ (∀ i op b rest, metered → msgBad m = false → isOpenMsg m = false → find = some i → msgSealed (s.session i).key m = true →
        msgKind m = 1 → (s.session i).high < msgSeq m → s.jen.cmds = [] → msgItems m = some ((op, b) :: rest) →
        let c : JenCmd := { session := i, id := (s.session i).id, role := (s.session i).role, seq := msgSeq m, tag := msgTag m, stop := msgStop m,
                            items := (op, b) :: rest, answers := [] }
        itemKnown c op b = true → Gives (.jenFrameReceive p t f) s (fun u => u.jen.cmds = [c] ∧ (u.session i).high = msgSeq m
          ∧ (u.session i).port = p ∧ (u.session i).lastFrame = now.now))
    ∧ (∀ i, metered → msgBad m = false → isOpenMsg m = false → find = some i → msgSealed (s.session i).key m = true → msgKind m = 1 →
        msgSeq m + 64 ≤ (s.session i).high → (s.session i).stored.find? (fun r => r.seq == msgSeq m && r.tag == msgTag m) = none →
        Gives (.jenFrameReceive p t f) s (fun u => ctr u 0x1C ∧ u.jen.cmds = s.jen.cmds ∧ u.jen.sessions = s.jen.sessions))
    ∧ (s.jenAt p f = some o → msgKind m ≠ 4 → exec (.jenAck p t f) s = .next now)
    ∧ (∀ i n c, metered → msgBad m = false → find = some i → msgSealed (s.session i).key m = true → msgKind m = 4 →
        (s.session i).ackHigh < msgSeq m → s.jen.notices = [n] → n.copies = [c] → c.session = i → c.seq = msgSeq m → c.bytes ≠ [] →
        Gives (.jenAck p t f) s (fun u => u.jen.notices = [] ∧ (u.session i).ackHigh = msgSeq m ∧ u.jen.cmds = s.jen.cmds))

/-- R323, R324, R333, R334: SESSION_OPEN, SESSION_CLOSE, SESSION_IDLE_CLOSE, NOTICE_CONFIG and NOTICE_RESEND complete: SESSION_OPEN opens
the lowest free index with the role granted and a key made of both nonces; a session closes on SESSION_CLOSE or when idle; NOTICE_CONFIG
sets the mask; notices are sent again, and parked after the eighth time.
The model's choices it rests on: log entries 148, 155. -/
def Obligations.SessionResults : Prop :=
  ∀ (i : Fin 16) (c : JenCmd) (b : List Byte) (rest : List (Nat × List Byte)) (s : State),
    let idle := s.fld (jenB + 8) 16 16
    (∀ x role key j, s.jen.cmds = [c] → c.waiting = false → c.items = [(0x16, b)] → c.origin = some x → b.length = 18 →
        s.openKey (be b 0 1) = some (role, key) → msgSealed key x.msg = true → (List.range 16).find? (fun i => !(s.session i).isOpen) = some j →
        Gives (.sessionOpen) s (fun u => u.jen.cmds = [] ∧ (u.session j).isOpen = true ∧ (u.session j).role = min (be b 1 1) role
          ∧ (u.session j).port = x.port ∧ (u.session j).lastFrame = s.now ∧ (u.session j).id = (((s.session j).opens + 1) * 16 + j) % 2 ^ 32
          ∧ ∃ nd : List Byte, nd.length = 16
              ∧ (u.session j).key = hmac key (bytesBE 4 0x4A4E534B ++ slice b 2 16 ++ nd ++ bytesBE 4 (u.session j).id)))
    ∧ (∀ x role key, s.jen.cmds = [c] → c.waiting = false → c.items = [(0x16, b)] → c.origin = some x → b.length = 18 →
        s.openKey (be b 0 1) = some (role, key) → msgSealed key x.msg = false →
        Gives (.sessionOpen) s (fun u => u.jen.cmds = [] ∧ u.jen.sessions = s.jen.sessions))
    ∧ (s.jen.cmds = [c] → c.waiting = false → c.items = [(0x17, [])] → c.origin = none → s.cmdLive c = true → c.used ≤ 1396 →
        Gives (.sessionClose) s (fun u => u.jen.cmds = [] ∧ (u.session c.session).isOpen = false ∧ Raises u Src.jenSession))
    ∧ (idle = 0 → exec (.sessionIdleClose i) s = .next s)
    ∧ (idle ≠ 0 → (s.session i).isOpen = true → Gives (.sessionIdleClose i) s (fun u => (u.session i).isOpen = false
        ∧ u.now = max s.now ((s.session i).lastFrame + idle * secU) ∧ Raises u Src.jenSession))
    ∧ (Asks s c 0x15 b rest 1 2 → s.cmdLive c = true → be b 0 2 < 512 → Gives (.noticeConfig) s (fun u =>
        Answered c rest 0x15 0 (bytesBE 2 (be b 0 2)) s u ∧ (u.session c.session).mask = be b 0 2))
    ∧ (Asks s c 0x15 b rest 1 2 → 512 ≤ be b 0 2 → Gives (.noticeConfig) s (Answered c rest 0x15 2 [] s))
    ∧ (s.jen.notices = [] → exec (.noticeResend) s = .next s)
    ∧ (∀ n x, s.jen.notices = [n] → n.copies = [x] → x.parked = false → 0 < x.sends → x.sends < 9 → Gives (.noticeResend) s (fun u =>
        u.now = max s.now x.due ∧ ∃ y, u.jen.notices = [{ n with copies := [y] }] ∧ y.sends = x.sends + 1 ∧ y.due = u.now + 10 * msU ∧ y.parked = false))
    ∧ (∀ n x, s.jen.notices = [n] → n.copies = [x] → x.parked = false → 9 ≤ x.sends → Gives (.noticeResend) s (fun u =>
        u.jen.notices = [{ n with copies := [{ x with parked := true }] }] ∧ u.now = max s.now x.due))

/-- R327, R328, R349, Table 14.2: an item that a role may not send is answered DENIED, also in RECOVERY unless it is one of its commands;
one whose answer has no room is answered BAD_ARG and ends the message; a command leaves an item of another OP alone.
The model's choices it rests on: log entries 148, 150, 157. -/
def Obligations.ItemRefusals : Prop :=
  ∀ (c : JenCmd) (b : List Byte) (rest : List (Nat × List Byte)) (s : State),
    let rule := fun (cmd : Instr) (op : Nat) =>
      (∀ x, Fronts s c x b rest → x ≠ op → exec cmd s = .next s) ∧ (c.waiting = true → s.jen.cmds = [c] → exec cmd s = .next s)
    let denied := fun (cmd : Instr) (op role : Nat) (p : Prop) =>
      p → Fronts s c op b rest → c.waiting = false → c.role < role → Gives cmd s (Answered c rest op 7 [] s)
    let isAct := fun (j v : Nat) => be b j 1 = v
    rule .ping 0x01 ∧ rule .read 0x02 ∧ rule .write 0x03 ∧ rule .readBlock 0x04 ∧ rule .tableWrite 0x05 ∧ rule .tenseCommit 0x06
    ∧ rule .tenseCommitAbort 0x06 ∧ rule .tenseCommitVoid 0x06 ∧ rule .stateQuery 0x07 ∧ rule .unitReset 0x08 ∧ rule .unitFence 0x08
    ∧ rule .unitUnfence 0x08 ∧ rule .lockBreak 0x09 ∧ rule .auditRead 0x0A ∧ rule .faultClear 0x0B ∧ rule .journalRead 0x0C
    ∧ rule .imageWrite 0x0D ∧ rule .imageActivateNext 0x0E ∧ rule .imageActivateNow 0x0E ∧ rule .imageActivateRestart 0x0E
    ∧ rule .timeSet 0x0F
    ∧ rule .timeAdjustIncr 0x10 ∧ rule .timeAdjustSlew 0x10 ∧ rule .rewindFreeze 0x11 ∧ rule .rewindFreezeResume 0x11
    ∧ rule .rewindDrainStart 0x12 ∧ rule .rewindDrainAbort 0x12 ∧ rule .placementRead 0x13 ∧ rule .spareRetire 0x14
    ∧ rule .noticeConfig 0x15
    ∧ denied .write 0x03 2 True ∧ denied .tableWrite 0x05 1 True ∧ denied .tenseCommit 0x06 1 (isAct 0 0)
    ∧ denied .tenseCommitAbort 0x06 1 (isAct 0 1) ∧ denied .tenseCommitVoid 0x06 1 (isAct 0 2) ∧ denied .unitReset 0x08 2 (isAct 4 0)
    ∧ denied .unitFence 0x08 2 (isAct 4 1) ∧ denied .unitUnfence 0x08 2 (isAct 4 2) ∧ denied .lockBreak 0x09 2 True
    ∧ denied .faultClear 0x0B 1 True ∧ denied .imageWrite 0x0D 2 True ∧ denied .imageActivateNext 0x0E 2 (isAct 5 0)
    ∧ denied .imageActivateNow 0x0E 2 (isAct 5 1 ∧ isAct 6 0) ∧ denied .imageActivateRestart 0x0E 2 (isAct 5 1 ∧ isAct 6 1)
    ∧ denied .timeSet 0x0F 2 True ∧ denied .timeAdjustIncr 0x10 1 (isAct 1 0)
    ∧ denied .timeAdjustSlew 0x10 1 (isAct 1 1) ∧ denied .rewindFreeze 0x11 1 (isAct 0 0)
    ∧ denied .rewindFreezeResume 0x11 1 (isAct 0 1) ∧ denied .rewindDrainStart 0x12 1 (isAct 0 0)
    ∧ denied .rewindDrainAbort 0x12 1 (isAct 0 1) ∧ denied .spareRetire 0x14 2 True ∧ denied .noticeConfig 0x15 1 True
    ∧ (Fronts s c 0x02 b rest → c.waiting = false → s.fld bootB 0 4 = 8 → Gives (.read) s (Answered c rest 0x02 7 [] s))
    ∧ (Fronts s c 0x01 b rest → c.waiting = false → s.fld bootB 0 4 = 8 → c.used ≤ 1378 → Gives (.ping) s (fun u => ∃ l, Answered c rest 0x01 0 l s u))
    ∧ (Fronts s c 0x01 b rest → c.waiting = false → 1378 < c.used → Gives (.ping) s (fun u => u.jen.cmds = []))

/-- R329, R331, Table 14.2: PING, READ, WRITE, READ_BLOCK, STATE_QUERY, LOCK_BREAK, AUDIT_READ, JOURNAL_READ and PLACEMENT_READ complete:
they answer with what they read, or do what they write.
The model's choices it rests on: log entries 148, 150, 163. -/
def Obligations.ReadItemResults : Prop :=
  ∀ (c : JenCmd) (b : List Byte) (rest : List (Nat × List Byte)) (s : State),
    let a := be b 0 8
    let n := be b 8 2
    let u16 := be b 0 2
    let v := BitVec.ofNat 32 (be b 8 4)
    let plainRead := fun (a : Nat) => a % 4 = 0 ∧ inControl a = true ∧ a ≠ clkB + 4
      ∧ (a - block 0) / 0x100000 ∈ [1, 2, 3, 7, 8, 10, 12, 14, 15, 18, 20, 21, 22, 23, 24, 25]
    let plainWrite' := fun (a : Nat) => a % 4 = 0 ∧ inControl a = true ∧ (a - block 0) / 0x100000 ∈ [1, 6, 7, 14] ∧ s.justSet a = 0
    let recs := (s.journal.filter (fun r => decide (be b 0 4 ≤ le r 0 4))).take (be b 4 1)
    let cls := be b 0 1
    let ix := be b 1 2
    let k := min ((1400 - c.used - 8) / 8) (placedCount cls - ix)
    (Asks s c 0x01 b rest 0 18 → Gives (.ping) s (Answered c rest 0x01 0
        (bytesBE 6 (secOf s.now) ++ bytesBE 4 (nsOf s.now) ++ bytesBE 4 (s.reg stnB).toNat ++ bytesBE 4 s.image.seqNo) s))
    ∧ (Asks s c 0x02 b rest 0 4 → s.jenReach a = false → Gives (.read) s (Answered c rest 0x02 2 [] s))
    ∧ (Asks s c 0x02 b rest 0 4 → plainRead a → Gives (.read) s (Answered c rest 0x02 0 (bytesBE 4 (s.reg a).toNat) s))
    ∧ (Asks s c 0x03 b rest 2 0 → s.jenReach a = false → Gives (.write) s (fun u => Answered c rest 0x03 2 [] s u ∧ u.mem = s.mem))
    ∧ (Asks s c 0x03 b rest 2 0 → plainWrite' a → Gives (.write) s (fun u => Answered c rest 0x03 0 [] s u ∧ u.reg a = plainWrite a (s.reg a) v))
    ∧ (Asks s c 0x04 b rest 0 (4 * n) → 0 < n → n ≤ 344 → (∀ i < n, plainRead (a + 4 * i)) → Gives (.readBlock) s
        (Answered c rest 0x04 0 ((List.range n).flatMap (fun i => bytesBE 4 (s.reg (a + 4 * i)).toNat)) s))
    ∧ (Asks s c 0x04 b rest 0 0 → (n = 0 ∨ 344 < n) → Gives (.readBlock) s (Answered c rest 0x04 2 [] s))
    ∧ (Asks s c 0x07 b rest 0 8 → s.unitExists u16 = false → Gives (.stateQuery) s (Answered c rest 0x07 6 [] s))
    ∧ (Asks s c 0x07 b rest 0 8 → s.unitExists u16 = true → Gives (.stateQuery) s (fun u => ∃ d : BitVec 32,
        Answered c rest 0x07 0 (bytesBE 1 (s.stateOf u16) ++ bytesBE 2 (s.unit u16).gen ++ bytesBE 1 (s.unit u16).epoch ++ bytesBE 4 d.toNat) s u))
    ∧ (Asks s c 0x09 b rest 2 0 → (a % 4 ≠ 0 ∨ 2 ^ 39 ≤ a ∨ s.lockPlace a = false) → Gives (.lockBreak) s (Answered c rest 0x09 2 [] s))
    ∧ (Asks s c 0x09 b rest 2 0 → a % 4 = 0 → a < 2 ^ 39 → s.lockPlace a = true → s.lockEnt a = none → Gives (.lockBreak) s (Answered c rest 0x09 3 [] s))
    ∧ (∀ e, Asks s c 0x09 b rest 2 0 → a % 4 = 0 → a < 2 ^ 39 → s.lockPlace a = true → s.lockEnt a = some e →
        Gives (.lockBreak) s (fun u => Answered c rest 0x09 0 [] s u ∧ u.lockEnt a = none))
    ∧ (Asks s c 0x0A b rest 0 26 → 255 < u16 → Gives (.auditRead) s (Answered c rest 0x0A 2 [] s))
    ∧ (Asks s c 0x0A b rest 0 26 → u16 ≤ 255 → let x := s.auditAt u16
        Gives (.auditRead) s (Answered c rest 0x0A 0 (bytesBE 2 (s.auditOwner u16).1 ++ bytesBE 1 (if (s.auditOwner u16).2 then 1 else 0)
          ++ bytesBE 2 (min 65535 x.oldestMs) ++ bytesBE 1 x.oldestPool ++ (List.range 5).flatMap (fun k => bytesBE 4 (x.counts.getD k 0))) s))
    ∧ (Asks s c 0x0C b rest 0 4 → (be b 4 1 = 0 ∨ 21 < be b 4 1) → Gives (.journalRead) s (Answered c rest 0x0C 2 [] s))
    ∧ (∀ r l, Asks s c 0x0C b rest 0 (4 + 64 * be b 4 1) → 0 < be b 4 1 → be b 4 1 ≤ 21 → recs = r :: l →
        Gives (.journalRead) s (Answered c rest 0x0C 0 (bytesBE 4 (le r 0 4) ++ recs.flatMap id) s))
    ∧ (Asks s c 0x13 b rest 0 4 → cls ∉ [1, 3, 7, 8, 9] → Gives (.placementRead) s (Answered c rest 0x13 2 [] s))
    ∧ (Asks s c 0x13 b rest 0 4 → cls ∈ [1, 3, 7, 8, 9] → Gives (.placementRead) s (fun u => ∃ l : List Byte, l.length = 8 * k
        ∧ Answered c rest 0x13 0 (bytesBE 2 k ++ bytesBE 2 (if ix + k < placedCount cls then ix + k else 0xFFFF) ++ l) s u))

/-- R185, R188, R190, R213, R330, R332: TABLE_WRITE and TENSE_COMMIT with ACTION COMMIT, ABORT and VOID complete: they make what the
registers would make, and wait or answer; a GEN that differs is answered STALE with the unit's STATE and GEN.
The model's choices it rests on: log entries 148, 150, 151. -/
def Obligations.TableItemResults : Prop :=
  ∀ (c : JenCmd) (b : List Byte) (rest : List (Nat × List Byte)) (s : State),
    let op := be b 1 1
    let g := be b 2 1
    let e := be b 3 4
    let r := b.drop 7
    let r' := r ++ List.replicate (640 - r.length) 0#8
    let gen := be b 1 2 = (s.unit (unitId 0xF 0)).gen
    (Asks s c 0x05 b rest 1 (tableSize b) → be b 0 1 = 0 → s.cls.upd.isSome = true → Gives (.tableWrite) s (Answered c rest 0x05 5 [] s))
    ∧ (Asks s c 0x05 b rest 1 (tableSize b) → be b 0 1 = 0 → s.cls.upd = none → g < 32 → e < 2 ^ 18 → s.clauseStatus op g e r ≠ 0 →
        Gives (.tableWrite) s (fun u => Answered c rest 0x05 (s.clauseStatus op g e r) [] s u ∧ u.cls = s.cls))
    ∧ (Asks s c 0x05 b rest 1 (tableSize b) → be b 0 1 = 0 → s.cls.upd = none → g < 32 → e < 2 ^ 18 → s.clauseStatus op g e r = 0 →
        Gives (.tableWrite) s (fun u => Waits c u ∧ ∃ x, u.cls.upd = some x ∧ x.op = op ∧ x.group = g ∧ x.entry = e ∧ x.jen = true
          ∧ x.record = r))
    ∧ (Asks s c 0x05 b rest 1 (tableSize b) → be b 0 1 = 1 → s.cls.fwdUpd.isSome = true → Gives (.tableWrite) s (Answered c rest 0x05 5 [] s))
    ∧ (Asks s c 0x05 b rest 1 (tableSize b) → be b 0 1 = 1 → s.cls.fwdUpd = none → s.fwdStatus op r' ≠ 0 →
        Gives (.tableWrite) s (fun u => Answered c rest 0x05 (s.fwdStatus op r') [] s u ∧ u.cls = s.cls))
    ∧ (Asks s c 0x05 b rest 1 (tableSize b) → be b 0 1 = 1 → s.cls.fwdUpd = none → s.fwdStatus op r' = 0 →
        Gives (.tableWrite) s (fun u => Waits c u ∧ ∃ x, u.cls.fwdUpd = some x ∧ x.op = op ∧ x.jen = true))
    ∧ (Asks s c 0x06 b rest 1 4 → ¬ gen → let stale := fun (cmd : Instr) => Gives cmd s (fun u => u.cls = s.cls ∧ Raises u Src.stateStale
          ∧ Answered c rest 0x06 4 (bytesBE 1 (s.unit (unitId 0xF 0)).state ++ bytesBE 2 (s.unit (unitId 0xF 0)).gen) s u)
        (be b 0 1 = 0 → stale .tenseCommit) ∧ (be b 0 1 = 1 → stale .tenseCommitAbort) ∧ (be b 0 1 = 2 → stale .tenseCommitVoid))
    ∧ (Asks s c 0x06 b rest 1 4 → gen → be b 0 1 = 0 → s.commitBusy = false → s.cls.undoing = false → popCount 16 s.live < 4 →
        Gives (.tenseCommit) s (fun u => Waits c u ∧ u.commitBusy = true))
    ∧ (Asks s c 0x06 b rest 1 4 → gen → be b 0 1 = 0 → s.commitBusy = true → Gives (.tenseCommit) s (fun u => Answered c rest 0x06 3 [] s u ∧ u.cls = s.cls))
    ∧ (Asks s c 0x06 b rest 1 4 → gen → be b 0 1 = 1 → s.commitBusy = false →
        Gives (.tenseCommitAbort) s (fun u => Answered c rest 0x06 0 s.tenseBody s u ∧ u.cls.undoing = true))
    ∧ (Asks s c 0x06 b rest 1 4 → gen → be b 0 1 = 2 → popCount 16 s.live ≤ 1 → Gives (.tenseCommitVoid) s (Answered c rest 0x06 3 [] s))
    ∧ (Asks s c 0x06 b rest 1 4 → gen → be b 0 1 = 2 → 1 < popCount 16 s.live → s.coaches = [] →
        Gives (.tenseCommitVoid) s (fun u => Answered c rest 0x06 0 s.tenseBody s u ∧ u.cls.voided = s.oldest :: s.cls.voided))

/-- R364, R369, R373, R374: UNIT_RESET, UNIT_FENCE, UNIT_UNFENCE, UNIT_RESET_DONE, UNIT_RESET_TIMEOUT, FAULT_CLEAR and SPARE_RETIRE
complete: the modes of UNIT_RESET on a DMA channel and the end of a reset, the clearing of a source, the retirement of a spare part.
The model's choices it rests on: log entries 148, 150, 162. -/
def Obligations.UnitItemResults : Prop :=
  ∀ (c : JenCmd) (b : List Byte) (rest : List (Nat × List Byte)) (w : BitVec 16) (s : State),
    let x := be b 0 2
    let y := s.unit x
    let ch := x / 256 = 0xD ∧ x % 256 < 64 ∧ be b 2 2 = y.gen
    let stale := bytesBE 1 (s.stateOf x) ++ bytesBE 2 y.gen
    let next := (y.gen + 1) % 65536
    let shown := fun (u : State) => (List.range 8).flatMap (fun k => bytesBE 4 (u.reg (pendR k)).toNat)
    let waiting := s.jen.cmds = [c] ∧ c.waiting = true ∧ c.closing = false ∧ c.origin = none ∧ c.items = (8, b) :: rest ∧ be b 4 1 = 0
      ∧ be b 0 2 = w.toNat ∧ ∀ z, rest.head? = some z → itemKnown c z.1 z.2 = true
    (Asks s c 0x08 b rest 2 3 → be b 4 1 = 0 → ch → y.state = 0 → aget (fun _ => none) s.jen.resets x = none → (s.dch (x % 256)).inFrame = false →
        Gives (.unitReset) s (fun u => Waits c u ∧ (u.unit x).state = 2 ∧ aget (fun _ => none) u.jen.resets x = some u.now
          ∧ (u.dch (x % 256)).desc = none ∧ (u.dch (x % 256)).inFrame = false ∧ u.dmaState (x % 256) = 2))
    ∧ (Asks s c 0x08 b rest 2 3 → be b 4 1 = 0 → ch → y.state = 6 → aget (fun _ => none) s.jen.resets x = none →
        Gives (.unitReset) s (Answered c rest 0x08 3 [] s))
    ∧ (Asks s c 0x08 b rest 2 3 → be b 4 1 = 1 → ch → y.state = 0 → Gives (.unitFence) s (fun u => (u.unit x).state = 1 ∧ (u.unit x).gen = next
          ∧ (u.unit x).epoch = (y.epoch + 1) % 16 ∧ Raises u Src.unitFenced ∧ Answered c rest 0x08 0 (bytesBE 1 1 ++ bytesBE 2 next) s u))
    ∧ (Asks s c 0x08 b rest 2 3 → be b 4 1 = 2 → ch → y.state = 1 → s.fencePending x false = false →
        Gives (.unitUnfence) s (fun u => (u.unit x).state = 0 ∧ Answered c rest 0x08 0 (bytesBE 1 0 ++ bytesBE 2 next) s u))
    ∧ (Asks s c 0x08 b rest 2 3 → be b 4 1 = 2 → ch → y.state = 0 → Gives (.unitUnfence) s (Answered c rest 0x08 3 [] s))
    ∧ (Asks s c 0x08 b rest 2 3 → be b 4 1 = 1 → resettable x = true → s.unitExists x = true → be b 2 2 ≠ y.gen →
        Gives (.unitFence) s (fun u => Answered c rest 0x08 4 stale s u ∧ Raises u Src.stateStale ∧ u.units = s.units))
    ∧ (aget (fun _ => none) s.jen.resets w.toNat = none → exec (.unitResetDone w) s = .next s ∧ exec (.unitResetTimeout w) s = .next s)
    ∧ (∀ t, aget (fun _ => none) s.jen.resets w.toNat = some t → w.toNat / 256 = 0xD → (s.unit w.toNat).state = 2 → waiting →
        Gives (.unitResetDone w) s (fun u => (u.unit w.toNat).state = 0 ∧ aget (fun _ => none) u.jen.resets w.toNat = none
          ∧ Answered c rest 0x08 0 (bytesBE 1 0 ++ bytesBE 2 (((s.unit w.toNat).gen + 1) % 65536)) s u))
    ∧ (∀ t, aget (fun _ => none) s.jen.resets w.toNat = some t → w.toNat / 256 = 0xD → waiting →
        Gives (.unitResetTimeout w) s (fun u => u.now = max s.now (t + 2 * secU) ∧ aget (fun _ => none) u.jen.resets w.toNat = none
          ∧ Answered c rest 0x08 0 (bytesBE 1 (s.unit w.toNat).state ++ bytesBE 2 (s.unit w.toNat).gen) s u))
    ∧ (Asks s c 0x0B b rest 1 32 → 255 < x → x ≠ 0xFFFF → Gives (.faultClear) s (Answered c rest 0x0B 2 [] s))
    ∧ (Asks s c 0x0B b rest 1 32 → x < 256 → s.pending? x = true →
        (s.causePersists x = true ∨ (s.justSet (pendR (x / 32))).getLsbD (x % 32) = true) →
        Gives (.faultClear) s (fun u => u.pending? x = true ∧ Answered c rest 0x0B 8 (shown s) s u))
    ∧ (Asks s c 0x0B b rest 1 32 → x < 256 → s.pending? x = true → s.causePersists x = false →
        (s.justSet (pendR (x / 32))).getLsbD (x % 32) = false → x ≠ Src.journalMem → x ≠ Src.tsCalDrift →
        Gives (.faultClear) s (fun u => u.pending? x = false ∧ Answered c rest 0x0B 0 (shown u) s u))
    ∧ (Asks s c 0x14 b rest 2 0 → x / 256 = 4 → x % 256 < 52 → be b 2 2 = y.gen → y.state ≠ 6 → s.cls.blockMove = none →
        (∀ k < 48, s.blockPhys k ≠ x % 256) → Gives (.spareRetire) s (fun u => (u.unit x).state = 6 ∧ Answered c rest 0x14 0 [] s u))
    ∧ (Asks s c 0x14 b rest 2 0 → x / 256 = 4 → x % 256 < 52 → be b 2 2 = y.gen → y.state = 6 → Gives (.spareRetire) s (Answered c rest 0x14 3 [] s))

/-- R62–R65, R251–R253, R329, R330, R353: TIME_SET, TIME_ADJUST, REWIND_FREEZE, REWIND_DRAIN, IMAGE_WRITE, IMAGE_WRITE_DONE,
IMAGE_ACTIVATE and IMAGE_VERIFY_DONE complete: items that change the time, the rewind store and the images.
The model's choices it rests on: log entries 148, 150, 152, 160. -/
def Obligations.ChangeItemResults : Prop :=
  ∀ (c : JenCmd) (b : List Byte) (rest : List (Nat × List Byte)) (s : State),
    let n := be b 0 1
    let state := s.fld (rewB + 4) 0 3
    let x := be b 2 8
    let taken := max 351667799027876 (min 352019642748764 x)
    let v := (BitVec.ofNat 64 x).toInt
    let instant := (be b 1 6 * 1000000000 + be b 7 4) * nsU
    let slot := be b 0 1
    let off := be b 1 4
    let gen := be b 7 2 = (s.unit (unitId 0x10 0)).gen
    let imgs := (s.jen.activate = none ∧ s.writingSlot slot = false ∧ gen ∧ slot ≤ 1)
    (Asks s c 0x0F b rest 2 0 → 1 ≤ n → n ≤ 8 → be b 11 1 = 1 → be b 7 4 ≤ 999999999 → be b 18 4 ≤ 999999999 → s.now + usU ≤ instant →
        instant ≤ s.now + 10 * secU → Gives (.timeSet) s (fun u => Waits c u ∧ u.bit (ciR n 0x30) 0 = true ∧ ∃ a, (u.inst n).step = some a
          ∧ a.instant = instant ∧ a.absolute = true ∧ a.sec.toNat = be b 12 6 ∧ a.ns.toNat = be b 18 4))
    ∧ (Asks s c 0x0F b rest 2 0 → (n = 0 ∨ 8 < n ∨ instant < s.now + usU ∨ s.now + 10 * secU < instant) →
        Gives (.timeSet) s (fun u => Answered c rest 0x0F 2 [] s u ∧ u.time = s.time))
    ∧ (Asks s c 0x10 b rest 1 8 → be b 1 1 = 0 → 1 ≤ n → n ≤ 8 → Gives (.timeAdjustIncr) s (fun u => Answered c rest 0x10 0 (bytesBE 8 taken) s u
        ∧ (u.inst n).incr = taken ∧ (x ≠ taken → Raises u (Src.ciAlarm n))))
    ∧ (Asks s c 0x10 b rest 1 8 → be b 1 1 = 1 → 1 ≤ n → n ≤ 8 → -(2 ^ 31) ≤ v → v < 2 ^ 31 → Gives (.timeAdjustSlew) s (fun u =>
        Answered c rest 0x10 0 (bytesBE 8 0) s u ∧ u.bit (ciR n 0x1C) 10 = true ∧ ∃ w, (u.inst n).slew = some w ∧ w.left = v * 2 ^ 40))
    ∧ (Asks s c 0x10 b rest 1 8 → (n = 0 ∨ 8 < n) → (be b 1 1 = 0 → Gives (.timeAdjustIncr) s (Answered c rest 0x10 2 [] s))
        ∧ (be b 1 1 = 1 → Gives (.timeAdjustSlew) s (Answered c rest 0x10 2 [] s)))
    ∧ (Asks s c 0x11 b rest 1 1 → be b 0 1 = 0 → state = 0 → Gives (.rewindFreeze) s (Answered c rest 0x11 3 [] s))
    ∧ (Asks s c 0x11 b rest 1 1 → be b 0 1 = 0 → state = 1 → s.rew.freezing = false → s.fld (rewB + 8) 0 16 ≠ 0 →
        (∀ w v, s.rew.resumed = some (w, v) → w / periU ≠ s.now / periU) →
        Gives (.rewindFreeze) s (fun u => Answered c rest 0x11 0 (bytesBE 1 2) s u ∧ u.fld (rewB + 4) 0 3 = 2 ∧ u.rew.freezeBy = (1, 0)))
    ∧ (Asks s c 0x11 b rest 1 1 → be b 0 1 = 1 → state ≠ 3 → Gives (.rewindFreezeResume) s (Answered c rest 0x11 3 [] s))
    ∧ (Asks s c 0x11 b rest 1 1 → be b 0 1 = 1 → state = 3 → s.rew.trigAt.all (fun t => t / periU != s.now / periU) = true →
        Gives (.rewindFreezeResume) s (fun u => Answered c rest 0x11 0 (bytesBE 1 1) s u ∧ u.fld (rewB + 4) 0 3 = 1))
    ∧ (Asks s c 0x12 b rest 1 0 → be b 0 1 = 0 → state ≠ 3 → Gives (.rewindDrainStart) s (Answered c rest 0x12 3 [] s))
    ∧ (Asks s c 0x12 b rest 1 0 → be b 0 1 = 0 → state = 3 → Gives (.rewindDrainStart) s (fun u => Answered c rest 0x12 0 [] s u
        ∧ u.fld (rewB + 4) 0 3 = 4 ∧ u.rew.drain.map (·.segs) = some (s.drainSelect (be b 1 8) (be b 9 8))))
    ∧ (∀ d, Asks s c 0x12 b rest 1 0 → be b 0 1 = 1 → state = 4 → s.rew.drain = some d → Gives (.rewindDrainAbort) s (fun u =>
        Answered c rest 0x12 0 [] s u ∧ u.rew.drain.map (·.aborted) = some true))
    ∧ (Asks s c 0x12 b rest 1 0 → be b 0 1 = 1 → state ≠ 4 → Gives (.rewindDrainAbort) s (Answered c rest 0x12 3 [] s))
    ∧ (Asks s c 0x0D b rest 2 0 → slot ≤ 1 → off % 256 = 0 → off + (b.drop 5).length ≤ 2 ^ 26 → ¬ (s.image.valid = true ∧ s.image.slot = slot) →
        s.jen.imageWrite = none → Gives (.imageWrite) s (fun u => Waits c u ∧ u.jen.imageWrite = some (slot, off, b.drop 5)))
    ∧ (Asks s c 0x0D b rest 2 0 → (1 < slot ∨ off % 256 ≠ 0) → Gives (.imageWrite) s (Answered c rest 0x0D 2 [] s))
    ∧ (s.jen.imageWrite = none → exec (.imageWriteDone) s = .next s)
    ∧ (∀ q o l, s.jen.imageWrite = some (q, o, l) → q ≤ 1 → o % 65536 = 0 → l.length ≤ 1024 → s.jen.cmds = [] →
        Gives (.imageWriteDone) s (fun u => u.jen.imageWrite = none ∧ (∀ j < l.length, u.norByte q (o + j) = l.getD j 0)
          ∧ ∀ j, l.length ≤ j → j < 65536 → u.norByte q (o + j) = 0xFF))
    ∧ (Asks s c 0x0E b rest 2 0 → imgs → be b 5 1 = 0 → Gives (.imageActivateNext) s (fun u => Waits c u
        ∧ u.jen.activate = some (slot, off, 0)))
    ∧ (∀ q m, s.jen.activate = some (q, m, 0) → c.waiting = true → Fronts s c 0x0E b rest →
        Gives (.imageVerifyDone) s (fun u => u.jen.activate = none ∧ Answered c rest 0x0E (if (s.goodImage q m).isSome then 0 else 3) [] s u))
    ∧ (s.jen.activate = none → exec (.imageVerifyDone) s = .next s)
    ∧ (∀ img, Asks s c 0x0E b rest 2 0 → imgs → be b 5 1 = 1 → be b 6 1 = 0 → s.commitBusy = false → s.migrating = false → s.goodImage slot off = some img →
        s.mayActivate img = true → Gives (.imageActivateNow) s (fun u => Waits c u ∧ u.jen.activate = some (slot, off, 1)
          ∧ u.image.next.map (·.1) = some slot))
    ∧ (Asks s c 0x0E b rest 2 0 → imgs → be b 5 1 = 1 → be b 6 1 = 0 → s.commitBusy = false → s.migrating = false → s.goodImage slot off = none →
        Gives (.imageActivateNow) s (fun u => Answered c rest 0x0E 3 [] s u ∧ u.image = s.image))
    ∧ (∀ img, Asks s c 0x0E b rest 2 0 → imgs → be b 5 1 = 1 → be b 6 1 = 1 → s.commitBusy = false → s.migrating = false →
        s.goodImage slot off = some img → Gives (.imageActivateRestart) s (fun u => u.fld bootB 0 4 = 3 ∧ u.boot.loading = some slot
          ∧ u.fld (sysB + 4) 0 3 = 4 ∧ u.jen.cmds = [] ∧ ∀ i : Fin 16, (u.session i).isOpen = false))
    ∧ (Asks s c 0x0E b rest 2 0 → imgs → be b 5 1 = 1 → be b 6 1 = 1 → s.commitBusy = false → s.migrating = false → s.goodImage slot off = none →
        Gives (.imageActivateRestart) s (Answered c rest 0x0E 3 [] s))

/-- R60, R350, R355, R361, R390, R394: POWER_UP, RAILS_SEQUENCED, REF_STABLE, ROOT_PLL_LOCK, MODULE_RESET, RESET_N_ASSERT,
RESET_N_RELEASE and HALT_RESET complete: power comes up, the rails, the reference and the root PLL follow, CI0 then beginning at 0, and
the resets of the module start it again; each of them, where its event cannot come, changes nothing.
The model's choices it rests on: log entries 91, 94. -/
def Obligations.StartAndResetResults : Prop :=
  ∀ (lead : Nat) (v : Word) (s : State),
    let phase := fun (u : State) => u.fld bootB 0 4
    let pll := fun (u : State) => u.bit (clkB + 4) 0
    let starts := fun (cause : Nat) (u : State) => u.fld (sysB + 4) 0 3 = cause ∧ pll u = pll s ∧ phase u = (if pll s then 1 else 0) ∧ u.time.now = 0
      ∧ u.mem = s.mem ∧ u.store = s.store ∧ u.jen = {} ∧ u.coaches = [] ∧ (∀ i : Fin 16, u.fld (stnR i 0x18) 0 10 = 0) ∧ u.flt.mram = s.flt.mram
      ∧ u.reg (jour + 4) = s.reg (jour + 4)
    (s.pwr.powered = false → Gives (.powerUp) s (fun u => u.pwr.powered = true ∧ phase u = 0 ∧ u.fld (sysB + 4) 0 3 = 0))
    ∧ (s.pwr.powered = true → exec (.powerUp) s = .next s)
    ∧ (s.pwr.powered = true → s.pwr.rails = false → s.pwr.asleep = false → s.pwr.railsHeld = false →
        Gives (.railsSequenced) s (fun u => u.pwr.rails = true ∧ u.ctl = s.ctl))
    ∧ (s.pwr.powered = false → exec (.railsSequenced) s = .next s)
    ∧ (s.pwr.rails = true → Gives (.refStable) s (fun u => u.bit (clkB + 4) 1 = true))
    ∧ (s.pwr.rails = true → s.bit (clkB + 4) 1 = true → pll s = false → phase s = 0 → Gives (.rootPllLock lead) s (fun u => pll u = true
        ∧ phase u = 1 ∧ u.bit timeB 0 = true ∧ u.now = 0 ∧ u.boot.pwrLead = s.boot.pwrLead + lead))
    ∧ (s.pwr.rails = true → s.bit (clkB + 4) 1 = true → pll s = false → phase s ≠ 0 → Gives (.rootPllLock lead) s (fun u => pll u = true
        ∧ phase u = phase s ∧ u.now = s.now ∧ aget (fun _ => false) u.flt.causes Src.rootUnlock = false))
    ∧ ((s.pwr.rails = false ∨ s.bit (clkB + 4) 1 = false ∨ pll s = true) → exec (.rootPllLock lead) s = .next s)
    ∧ ((s.pwr.rails = true ∨ s.pwr.asleep = true) → exec (.railsSequenced) s = .next s)
    ∧ (s.pwr.rails = false → exec (.refStable) s = .next s)
    ∧ (s.pwr.railsHeld = true → ((∃ r < 5, s.causePersists (Src.conv r) = true) ∨ s.causePersists Src.thermalTrip = true) →
        exec (.railsSequenced) s = .next s)
    ∧ Gives (.moduleReset 0x52534554) s (starts 2)
    ∧ (v ≠ 0x52534554 → exec (.moduleReset v) s = .next s)
    ∧ Gives (.resetNAssert) s (fun u => u.fld (sysB + 4) 0 3 = 1 ∧ u.boot.resetHeld = true ∧ u.mem = s.mem ∧ u.jen = {})
    ∧ Gives (.resetNRelease) s (fun u => u.boot.resetHeld = false ∧ u.ctl = s.ctl ∧ u.mem = s.mem)
    ∧ (s.flt.halt = none → exec (.haltReset) s = .next s)
    ∧ (∀ x due, s.flt.halt = some (x, due) → Gives (.haltReset) s (fun u => u.fld (sysB + 4) 0 3 = 3 ∧ u.flt.halt = none ∧ u.mem = s.mem
        ∧ (((6 ≤ x ∧ x ≤ 10) ∨ x = Src.thermalTrip) → u.pwr.rails = false ∧ pll u = false ∧ phase u = 0)))

/-- R77, R384–R386, R388, R390, Tables 17.3 to 17.5: the commands of the clock monitors, the supply monitors and the loss of input complete.
A source is raised when its condition begins, and not again while it lasts; a loss of input is ridden through for 50 µs, then confirmed,
and the rails go off.
The model's choices it rests on: log entry 91. -/
def Obligations.ClockAndSupplyResults : Prop :=
  ∀ (x : BitVec 8) (on : Bool) (p : Fin 2) (r : Fin 6) (t : Nat) (vin : BitVec 16) (s : State),
    let V := vin.toInt
    let shown := fun (u : State) => u.fld (pwrB + 4) 0 16 = vin.toNat
    let cause := fun (u : State) (k : Nat) => aget (fun _ => false) u.flt.causes k
    let loud := fun (cmd : Instr) (src : Nat) => Gives cmd s (fun u => cause u src = on ∧ (on = true → Raises u src) ∧ (on = false → u.flt.raises = s.flt.raises))
    Gives (.cdcPulseMerge x) s (fun u => Raises u Src.cdcOverrun ∧ u.fld (clkB + 8) 0 16 = min 65535 (s.fld (clkB + 8) 0 16 + 1)
      ∧ u.fld (clkB + 8) 16 8 = x.toNat)
    ∧ loud (.refLost on) Src.refLost ∧ Gives (.refLost on) s (fun u => u.bit (clkB + 4) 1 = !on)
    ∧ loud (.clkMonitor on) Src.clkMonitor ∧ loud (.pwrOsc on) Src.pwrOsc
    ∧ loud (.lanePllLoss p on) (Src.lanePll p) ∧ Gives (.lanePllLoss p on) s (fun u => u.bit (clkB + 4) (2 + p) = !on)
    ∧ loud (.convFault r on) (Src.conv r)
    ∧ (s.bit (clkB + 4) 0 = true → Gives (.rootUnlock) s (fun u => u.bit (clkB + 4) 0 = false ∧ Raises u Src.rootUnlock
        ∧ Raises u Src.timeSafeState ∧ ∀ n : Fin 9, u.instState n = 3))
    ∧ (s.bit (clkB + 4) 0 = false → exec (.rootUnlock) s = .next s)
    ∧ (6050 < V → cause s Src.vinOver = false → Gives (.vinOver vin) s (fun u => shown u ∧ cause u Src.vinOver = true ∧ Raises u Src.vinOver))
    ∧ (V < 6000 → Gives (.vinOver vin) s (fun u => shown u ∧ cause u Src.vinOver = false ∧ u.flt.raises = s.flt.raises))
    ∧ (6000 ≤ V → V ≤ 6050 → Gives (.vinOver vin) s (fun u => shown u ∧ u.flt.causes = s.flt.causes ∧ u.flt.raises = s.flt.raises))
    ∧ (6050 < V → cause s Src.vinOver = true → Gives (.vinOver vin) s (fun u => shown u ∧ u.flt.causes = s.flt.causes ∧ u.flt.raises = s.flt.raises))
    ∧ (1750 ≤ V → V < 1800 → Gives (.vinUnder vin) s (fun u => shown u ∧ u.flt.causes = s.flt.causes ∧ u.flt.raises = s.flt.raises))
    ∧ (V < 1750 → cause s Src.vinUnder = true → Gives (.vinUnder vin) s (fun u => shown u ∧ u.flt.causes = s.flt.causes ∧ u.flt.raises = s.flt.raises))
    ∧ ((-600 ≤ V ∨ s.pwr.lossAt = none ∨ cause s Src.vinReversed = true) → V < 0 → Gives (.vinReversed vin) s (fun u => shown u
        ∧ u.flt.causes = s.flt.causes ∧ u.flt.raises = s.flt.raises))
    ∧ (¬ (s.pwr.powered = true ∧ s.pwr.lossAt = none) → Gives (.inputLoss t vin) s (fun u => shown u ∧ u.pwr = s.pwr ∧ u.now = s.now)
      ∧ Gives (.inputDisconnect t vin) s (fun u => shown u ∧ u.bit pwrB 4 = true ∧ u.pwr = s.pwr ∧ u.now = s.now))
    ∧ (s.pwr.lossAt = none → Gives (.dipEnd t vin) s (fun u => shown u ∧ u.pwr = s.pwr ∧ u.now = s.now)
      ∧ Gives (.inputReconnect t vin) s (fun u => shown u ∧ u.bit pwrB 4 = false ∧ u.pwr = s.pwr ∧ u.now = s.now))
    ∧ (s.pwr.lost = false → exec (.railsOff t) s = .next s) ∧ (s.pwr.lost = true → exec (.lossConfirm) s = .next s)
    ∧ (V < 1750 → cause s Src.vinUnder = false → Gives (.vinUnder vin) s (fun u => shown u ∧ cause u Src.vinUnder = true ∧ Raises u Src.vinUnder))
    ∧ (1800 ≤ V → Gives (.vinUnder vin) s (fun u => shown u ∧ cause u Src.vinUnder = false ∧ u.flt.raises = s.flt.raises))
    ∧ (V < -600 → s.pwr.lossAt.isSome = true → cause s Src.vinReversed = false → Gives (.vinReversed vin) s (fun u => shown u
        ∧ cause u Src.vinReversed = true ∧ Raises u Src.vinReversed))
    ∧ (0 ≤ V → Gives (.vinReversed vin) s (fun u => shown u ∧ cause u Src.vinReversed = false ∧ u.flt.raises = s.flt.raises))
    ∧ Gives (.vinClamp) s (fun u => Raises u Src.vinClamp ∧ u.ctl = s.ctl)
    ∧ (s.pwr.powered = true → s.pwr.lossAt = none → Gives (.inputDisconnect t vin) s (fun u => shown u ∧ u.bit pwrB 4 = true
        ∧ u.pwr.lossAt = some (max s.now t) ∧ u.now = max s.now t)
      ∧ Gives (.inputLoss t vin) s (fun u => shown u ∧ u.pwr.lossAt = some (max s.now t) ∧ u.now = max s.now t))
    ∧ (∀ t0, s.pwr.lossAt = some t0 → s.pwr.lost = false → max s.now t < t0 + 50 * usU → Gives (.dipEnd t vin) s (fun u => shown u
        ∧ u.pwr.lossAt = none ∧ u.now = max s.now t)
      ∧ (s.bit pwrB 4 = true → Gives (.inputReconnect t vin) s (fun u => shown u ∧ u.bit pwrB 4 = false ∧ u.pwr.lossAt = none)))
    ∧ (∀ t0, s.pwr.lossAt = some t0 → t0 + 50 * usU ≤ max s.now t → Gives (.dipEnd t vin) s (fun u => shown u ∧ u.pwr = s.pwr))
    ∧ (s.pwr.lossAt = none → exec (.lossConfirm) s = .next s ∧ exec (.railsOff t) s = .next s)
    ∧ (∀ t0, s.pwr.lossAt = some t0 → s.pwr.lost = false → Gives (.lossConfirm) s (fun u => u.pwr.lost = true ∧ u.fld pwrB 0 2 = 2
        ∧ Raises u Src.vinLost ∧ u.pathRun = false ∧ u.now = max s.now (t0 + 50 * usU)))
    ∧ (∀ t0, s.pwr.lossAt = some t0 → s.pwr.lost = true → Gives (.railsOff t) s (fun u => u.mem = [] ∧ u.pwr.powered = false ∧ u.flt.cell = none
        ∧ u.flt.jqueue = [] ∧ u.store = s.store ∧ u.jen = {} ∧ u.coaches = []))

/-- R387, R389, R391, R392: THERMAL_MEASURE, WAKE_DROP, WAKE_ASSERT, LOW_POWER_ENTER, PWR_CTL_ENTER, PWR_CTL_HOLD, HOLDUP_TEST and
HOLDUP_READY complete: the zones and their warnings, WAKE, the low-power states, the hold-up bank.
The model's choices it rests on: log entries 93, 97, 98. -/
def Obligations.TemperatureAndLowPowerResults : Prop :=
  ∀ (temps : Vector (BitVec 8) 8) (t : Nat) (v : Word) (e : BitVec 16) (s : State),
    let mode := fun (u : State) => u.fld pwrB 0 2
    let temp := fun (z : Fin 8) => (temps[z]).toInt
    let warn := fun (z : Fin 8) => ((s.fld (tempR z) 8 8 : Nat) : Int)
    let trip := fun (z : Fin 8) => ((s.fld (tempR z) 16 8 : Nat) : Int)
    let cause := fun (u : State) (k : Nat) => aget (fun _ => false) u.flt.causes k
    Gives (.thermalMeasure temps) s (fun u => u.now = max s.now ((s.now / msU + 1) * msU)
      ∧ (∀ z : Fin 8, u.fld (tempR z) 0 8 = (temps[z]).toNat)
      ∧ (∀ z : Fin 8, warn z ≠ 0 → warn z ≤ temp z → cause u (Src.tempZ z) = true ∧ (cause s (Src.tempZ z) = false → Raises u (Src.tempZ z)))
      ∧ (∀ z : Fin 8, (warn z = 0 ∨ temp z < warn z - 3) → cause u (Src.tempZ z) = false)
      ∧ ((∃ z : Fin 8, trip z ≤ temp z) → cause u Src.thermalTrip = true ∧ (cause s Src.thermalTrip = false → Raises u Src.thermalTrip)))
    ∧ (s.pwr.wake = false → exec (.wakeDrop t) s = .next s)
    ∧ (s.pwr.wake = true → Gives (.wakeDrop t) s (fun u => u.pwr.wake = false ∧ Raises u Src.wakeDrop ∧ u.now = max s.now t
        ∧ (s.bit (srcR Src.wakeDrop) 0 = true → s.bit (pwrB + 0xC) 1 = false → mode s = 0 → u.pwr.wakeDropAt = some (max s.now t))
        ∧ (s.bit (pwrB + 0xC) 1 = true → u.pwr.wakeDropAt = none)))
    ∧ (s.pwr.wakeDropAt = none → exec (.lowPowerEnter) s = .next s)
    ∧ (∀ t0, s.pwr.wakeDropAt = some t0 → mode s = 0 → s.pwr.rails = true → s.bit (pwrB + 8) 0 = true → Gives (.lowPowerEnter) s (fun u =>
        u.pwr.asleep = true ∧ u.mem = [] ∧ u.jen = {} ∧ u.store = s.store))
    ∧ (∀ t0, s.pwr.wakeDropAt = some t0 → mode s = 0 → s.pwr.rails = true → s.bit (pwrB + 8) 0 = false → Gives (.lowPowerEnter) s (fun u =>
        mode u = 1 ∧ u.pathRun = false ∧ (∀ a, keptInStandby a = true → u.byte a = s.byte a) ∧ ∀ a, keptInStandby a = false → u.byte a = 0))
    ∧ (getField v 1 1 = 0 → mode s = 0 → s.pwr.rails = true → s.pwr.wake = false → s.bit (pwrB + 8) 0 = false →
        Gives (.pwrCtlEnter v) s (fun u => mode u = 1 ∧ u.pathRun = false))
    ∧ (getField v 1 1 = 0 → s.pwr.wake = true → Gives (.pwrCtlEnter v) s (fun u => mode u = mode s ∧ u.bit (pwrB + 0xC) 1 = false ∧ u.pwr = s.pwr))
    ∧ (getField v 0 1 = 0 → mode s = 0 → Gives (.pwrCtlHold v) s (fun u => u.bit (pwrB + 0xC) 1 = true ∧ mode u = 0 ∧ u.pwr.wakeDropAt = none))
    ∧ (s.pwr.asleep = false → mode s = 0 → Gives (.wakeAssert t) s (fun u => u.pwr.wake = true ∧ u.pwr.wakeDropAt = none ∧ mode u = 0
        ∧ cause u Src.wakeDrop = false ∧ u.now = max s.now t))
    ∧ (s.pwr.asleep = false → mode s = 1 → Gives (.wakeAssert t) s (fun u => u.pwr.wake = true ∧ mode u = 0 ∧ u.fld bootB 0 4 = 3
        ∧ u.boot.loading = some s.image.slot))
    ∧ (s.pwr.asleep = true → Gives (.wakeAssert t) s (fun u => u.pwr.asleep = false ∧ u.fld bootB 0 4 = 0 ∧ u.bit pwrB 3 = true))
    ∧ Gives (.holdupTest e) s (fun u => u.fld (pwrB + 0x10) 0 16 = e.toNat ∧ cause u Src.holdupWeak = decide (e.toNat < 1300)
        ∧ (e.toNat < 1300 → cause s Src.holdupWeak = false → Raises u Src.holdupWeak))
    ∧ (s.pwr.powered = true → Gives (.holdupReady) s (fun u => u.bit pwrB 2 = true))
    ∧ (s.pwr.powered = false → exec (.holdupReady) s = .next s)

/-- R356, R359, R361, R363–R365, R368, R370, R381: FAULT_LATCH, COLLECTOR_PARITY_ERROR, FAULT_PEND_CLEAR, FLT_REARM, JOURNAL_WRITE_DONE,
JOURNAL_MEM_FAIL and AVAIL_RECORD complete: the latch of a raise, the collector's parity, the clearing of pending bits (but of one set
in the same cycle, R10), the rearming of FLT_FIRST, the journal writer.
The model's choices it rests on: log entries 28, 46, 191. -/
def Obligations.FaultUnitResults : Prop :=
  ∀ (r : Raise) (rest : List Raise) (t : Nat) (place : Fin 3) (w : BitVec 8) (i : Fin 8) (v : Word) (s : State),
    let cls := s.fld (srcR r.src) 1 2
    let edge := max s.now ((s.tick + 1) * tickU)
    let records := fun (u : State) => u.flt.jqueue.length = s.flt.jqueue.length + 1 ∧ u.reg (jour + 4) = s.reg (jour + 4) + 1
    let slot := skipPins s.flt.mram 512 s.flt.mramNext
    (s.fld bootB 0 4 = 0 → exec (.faultLatch 1 []) s = .next s)
    ∧ (s.fld bootB 0 4 ≠ 0 → s.flt.raises = r :: rest → r.src < 256 → s.bit (srcR r.src) 0 = false → Gives (.faultLatch 1 []) s (fun u =>
        u.flt.raises = rest ∧ u.now = edge ∧ u.ctl = s.ctl))
    ∧ (s.fld bootB 0 4 ≠ 0 → s.flt.raises = r :: rest → r.src < 256 → s.bit (srcR r.src) 0 = true → cls ≠ 1 → Gives (.faultLatch 1 []) s (fun u =>
        u.now = edge ∧ u.pending? r.src = true ∧ u.fld (srcR r.src) 16 8 = min 255 (s.fld (srcR r.src) 16 8 + 1)
        ∧ (s.bit firstR 31 = false → u.fld firstR 0 8 = r.src ∧ u.fld firstR 8 2 = cls ∧ u.bit firstR 31 = true ∧ u.bit firstR 30 = false
            ∧ (u.reg (fltB + 0x14)).toNat = nsOf u.now)
        ∧ (s.bit firstR 31 = true → u.fld firstR 0 30 = s.fld firstR 0 30 ∧ u.bit firstR 30 = true)
        ∧ (2 ≤ cls → u.bit (tioB + 4) 0 = true) ∧ (cls = 3 → u.flt.halt = some (r.src, u.now + 10 * usU))
        ∧ (cls ≠ 0 → r.src ≠ Src.vinLost → s.bit (srcR r.src) 6 = true → s.flt.jqueue.length < 64 → records u)))
    ∧ (∀ k < 4, s.fld bootB 0 4 ≠ 0 → s.flt.raises = r :: rest → r.src = Src.dmaErr k → s.bit (srcR r.src) 0 = true → cls = 1 →
        (s.unit (unitId 0xD (r.ctx.headD 0 % 64))).state = 0 → (s.unit (unitId 0xD (r.ctx.headD 0 % 64))).fencedAt = none →
        Gives (.faultLatch 1 []) s (fun u => u.pending? r.src = true ∧ (u.unit (unitId 0xD (r.ctx.headD 0 % 64))).state = 1
          ∧ (u.unit (unitId 0xD (r.ctx.headD 0 % 64))).fencedBy = some r.src))
    ∧ (max s.now t < s.flt.windowEnd → exec (.collectorParityError t place w) s = .next (s.advance t))
    ∧ (s.flt.windowEnd ≤ max s.now t → Gives (.collectorParityError t place w) s (fun u => u.bit (fltB + 4) 2 = true ∧ u.now = max s.now t
        ∧ (place = 0 → ∀ j < 32, u.pending? (w.toNat % 8 * 32 + j) = true) ∧ (place = 1 → u.reg firstR = 0xE0000000)
        ∧ (place = 2 → s.image.faultMap = [] → u.reg (srcR w.toNat) = putField (Src.dfltWord w.toNat) 8 1 (if s.pending? w.toNat then 1 else 0))))
    ∧ Gives (.faultPendClear i v) s (fun u => ∀ j : Fin 32, let x := 32 * i.val + j.val
        u.pending? x = (if v.getLsbD j = true ∧ s.causePersists x = false ∧ (s.justSet (pendR i)).getLsbD j = false then false else s.pending? x)
        ∧ u.fld (srcR x) 16 8 = s.fld (srcR x) 16 8 ∧ u.fld firstR 0 32 = s.fld firstR 0 32)
    ∧ Gives (.fltRearm v) s (fun u => u.fld firstR 29 3 = 0 ∧ u.fld firstR 0 29 = s.fld firstR 0 29 ∧ u.fld fltB 8 8 = getField v 8 8
        ∧ ∀ x < 256, u.pending? x = s.pending? x)
    ∧ (s.flt.jqueue = [] → exec (.journalWriteDone) s = .next s)
    ∧ (∀ b l, s.flt.jqueue = b :: l → s.ramOnly = false → s.flt.writerOn = true → Gives (.journalWriteDone) s (fun u => u.flt.jqueue = l
        ∧ aget (fun _ => []) u.flt.mram slot = b ∧ u.flt.mramNext = (slot + 1) % 32768 ∧ ∀ k, k ≠ slot → aget (fun _ => []) u.flt.mram k = aget (fun _ => []) s.flt.mram k))
    ∧ (∀ b l, s.flt.jqueue = b :: l → s.ramOnly = true → s.flt.ramRing.length < 512 → Gives (.journalWriteDone) s (fun u => u.flt.jqueue = l
        ∧ u.flt.ramRing = s.flt.ramRing ++ [b] ∧ u.flt.mram = s.flt.mram))
    ∧ (∀ b l, s.flt.jqueue = b :: l → s.ramOnly = false → s.flt.writerOn = true → s.flt.cell = none → Gives (.journalMemFail true) s (fun u =>
        u.flt.cell = some b ∧ u.flt.jqueue = l ∧ u.ramOnly = true ∧ u.fld jour 16 1 = 1 ∧ Raises u Src.journalMem))
    ∧ Gives (.journalMemFail false) s (fun u => aget (fun _ => false) u.flt.causes Src.journalMem = false ∧ u.ctl = s.ctl)
    ∧ (s.flt.jqueue.length < 64 → Gives (.availRecord) s (fun u => records u ∧ u.now = max s.now ((s.now / (3600 * secU) + 1) * (3600 * secU))
        ∧ u.flt.jqueue.getLast?.map (fun b => slice b 4 2) = some (bytesLE 2 0x101)))

/-- R396–R399: PIN_COMMIT, PIN_DRIVE_START, CBUS_TRANSACTION, CBUS_DONE, the MDIO commands and JTAG_INSTRUCTION complete: the pin mux, the
carrier bus, MDIO and JTAG.
The model's choices it rests on: log entries 99, 100, 168. -/
def Obligations.PinAndBusResults : Prop :=
  ∀ (v : Word) (c : Fin 28) (m : Fin 2) (l : List Byte) (data : BitVec 16) (i : Jtag) (s : State),
    let busy := s.bit pinCommitR 1 = true
    let got := min (min l.length s.cbus.rlen) 16
    let a := mdioR m 4
    let starts := fun (cmd : Instr) (o : Nat) => s.bit a 16 = false → Gives cmd s (fun u => u.bit a 16 = true ∧ u.fld a 1 2 = o)
    (busy → v.getLsbD 2 = false → exec (.pinCommit v) s = .next s)
    ∧ (∀ k, ¬ busy → s.pinConflict = some k → Gives (.pinCommit v) s (fun u => u.bit pinCommitR 2 = true ∧ u.fld pinCommitR 8 5 = k % 32
        ∧ Raises u Src.pinMux ∧ ∀ f : Fin 36, u.contactOf f = s.contactOf f))
    ∧ (¬ busy → s.pinConflict = none → Gives (.pinCommit v) s (fun u => (∀ f : Fin 36, u.contactOf f = s.staged f) ∧ u.pin.commitAt = s.now
        ∧ (u.bit pinCommitR 1 = true ↔ u.pin.changing ≠ [])
        ∧ ∀ k : Fin 28, k.val ∈ u.pin.changing ↔ fnAt s.contactOf k ≠ fnAt s.staged k))
    ∧ (c.val ∉ s.pin.changing → exec (.pinDriveStart c) s = .next s)
    ∧ (c.val ∈ s.pin.changing → fnAt s.contactOf c = none → Gives (.pinDriveStart c) s (fun u => u.pin.changing = s.pin.changing.erase c
        ∧ aget (fun _ => .z) u.tio.contacts c = .z ∧ u.now = max s.now ((s.pin.commitAt / periU + 2) * periU)))
    ∧ (∀ f, c.val ∈ s.pin.changing → fnAt s.contactOf c = some f → 28 ≤ f → s.pin.changing.count c.val = 1 → Gives (.pinDriveStart c) s (fun u =>
        u.pin.changing = s.pin.changing.erase c ∧ aget (fun _ => .z) u.tio.contacts c = s.fnLevel f))
    ∧ Gives (.cbusTransaction v) s (fun u => u.bit cbusCmd 24 = true ∧ u.fld cbusCmd 0 7 = getField v 0 7 ∧ u.fld cbusCmd 8 5 = getField v 8 5
        ∧ u.fld cbusCmd 16 5 = getField v 16 5 ∧ u.cbus.rlen = if s.bit cbusCmd 24 = true then s.cbus.rlen else min 16 (getField v 16 5))
    ∧ (s.bit cbusCmd 24 = true → Gives (.cbusDone (.ok l)) s (fun u => u.bit cbusCmd 24 = false ∧ u.fld cbusCmd 25 3 = 0
          ∧ ∀ j < got, u.fld (cbusB + 8 + j / 4 * 4) (j % 4 * 8) 8 = (l.getD j 0).toNat)
        ∧ Gives (.cbusDone .nack) s (fun u => u.bit cbusCmd 24 = false ∧ u.fld cbusCmd 25 3 = 6 ∧ Raises u Src.carrierNack)
        ∧ Gives (.cbusDone .stuck) s (fun u => u.bit cbusCmd 24 = false ∧ u.fld cbusCmd 25 3 = 6 ∧ u.bit cbusCmd 28 = true ∧ Raises u Src.carrierStuck))
    ∧ (s.bit cbusCmd 24 = false → s.cbus.swap = none → exec (.cbusDone (.ok l)) s = .next s ∧ exec (.cbusDone .nack) s = .next s)
    ∧ (s.bit a 16 = false → Gives (.mdioAddress m v) s (fun u => u.bit a 16 = true ∧ u.bit a 0 = true ∧ u.fld a 1 2 = 0
        ∧ aget (fun _ => 0) u.cbus.mdioAddr m = s.fld (mdioR m 8) 0 16))
    ∧ starts (.mdioWrite m v) 1 ∧ starts (.mdioRead m v) 2 ∧ starts (.mdioReadInc m v) 3
    ∧ (s.bit a 16 = false → Gives (.mdioRead m v) s (fun u => m.val ∈ u.cbus.mdioReads) ∧ Gives (.mdioReadInc m v) s (fun u => m.val ∈ u.cbus.mdioReads))
    ∧ (s.bit a 16 = false → exec (.mdioDone m data) s = .next s)
    ∧ (s.bit a 16 = true → Gives (.mdioDone m data) s (fun u => u.bit a 16 = false
        ∧ u.fld (mdioR m 8) 0 16 = if m.val ∈ s.cbus.mdioReads then data.toNat else s.fld (mdioR m 8) 0 16))
    ∧ (i ≠ .other → exec (.jtagInstruction i) s = .next s)
    ∧ Gives (.jtagInstruction .other) s (fun u => Raises u Src.debugAccess ∧ u.ctl = s.ctl)

/-- R7, R8, R10, R355: REGISTER_WRITE completes: off its natural word, or outside control space, it changes nothing but the answer; a write
of a register of the CLK, LANE, PORT or YARD block changes that register alone, by the access codes of its fields, a W1C bit that hardware
set in the same cycle staying 1; a write of a register with a command of its own is that command.
The model's choice it rests on: log entry 191. -/
def Obligations.RegisterWriteResults : Prop :=
  ∀ (r : Requester) (a : BitVec 40) (v : Word) (w : Fin 8) (k : Fin 64) (s : State),
    let n := a.toNat
    let is := fun (b : Nat) (cmd : Instr) => ∀ t, exec cmd s = .next t → exec (.registerWrite r (BitVec.ofNat 40 b) v) s = .next t.answerWrite
    ((n % 4 ≠ 0 ∨ inControl n = false) → exec (.registerWrite r a v) s = .next { s with resp := .error })
    ∧ (n % 4 = 0 → inControl n = true → (n - block 0) / 0x100000 ∈ [1, 6, 7, 14] → Gives (.registerWrite r a v) s (fun u =>
        u.resp = .ok 0 ∧ u.reg n = (plainWrite n (s.reg n) v ||| (s.reg n &&& s.justSet n &&& BitVec.ofNat 32 (fieldRow n).w1c))
          ∧ (∀ b, b ≠ n → u.reg b = s.reg b) ∧ u.mem = s.mem ∧ u.time = s.time ∧ u.flt = s.flt))
    ∧ is (pendR w) (.faultPendClear w v) ∧ is (dmaR k 0x18) (.dmaKick k) ∧ is (dmaR k 0x1C) (.ringSeenWrite k v)
    ∧ (v = 0x52534554 → is (sysB + 8) (.moduleReset v))
    ∧ (v.getLsbD 0 = true → is pinCommitR (.pinCommit v) ∧ is (dmaR k 0) (.dmaEnable k v) ∧ is fltB (.fltRearm v))

/-- A step takes the command at the front of the queue and is its execution on the machine with the queue's rest; every command answers a
next state in every state, so none faults or is refused.
On an empty queue one TIME cycle passes while the TIME domain counts, and nothing else changes (log entry 24, the model's choice). -/
def Obligations.StepAndIdle : Prop :=
  (∀ (c : Instr) (rest : List Instr) (s : State), s.pending = c :: rest → step s = exec c { s with pending := rest })
  ∧ (∀ (c : Instr) (s : State), ∃ t, exec c s = .next t)
  ∧ (∀ (s : State), s.pending = [] → ∃ t, step s = .next t ∧ t.now = (if s.bit timeB 0 = true then s.now + tickU else s.now) ∧ t.ctl = s.ctl
      ∧ t.mem = s.mem ∧ t.tio = s.tio ∧ t.flt = s.flt ∧ t.jen = s.jen ∧ t.cpu = s.cpu ∧ t.egr = s.egr ∧ t.coaches = s.coaches ∧ t.pending = [])

/-- R9, R60, R256: the machine right after reset: every register reads its reset value, among them SYS_ID, the pools of Table 10.8 and
CLAUSE_TENSE; CI0 stands at 0, nothing waits, and memory and control space are in their canonical forms. That memory nobody has written
reads 0 is the model's choice (log entry 2). -/
def Obligations.ResetState : Prop :=
  (∀ a, State.reset.reg a = regReset a) ∧ State.reset.reg sysB = 0x3240 ∧ State.reset.reg (poolR 0 8) = 327680 ∧ State.reset.reg (poolR 1 0) = 0x05000000
  ∧ State.reset.fld (clauseB) 4 4 = 1 ∧ State.reset.fld clauseB 8 16 = 1 ∧ State.reset.now = 0 ∧ State.reset.pending = []
  ∧ (∀ a, State.reset.byte a = 0) ∧ Memory.wf State.reset.mem = true ∧ Control.wf State.reset.ctl = true

/-- Every step keeps memory and control space in their canonical forms: equal memories and equal register contents are equal data. -/
def Obligations.StepKeepsCanonicalForm : Prop :=
  ∀ (s t : State), Memory.wf s.mem = true → Control.wf s.ctl = true → step s = .next t → Memory.wf t.mem = true ∧ Control.wf t.ctl = true

/-- Every command leaves the commands behind it waiting, in their order: a step removes the front of the queue and nothing else. -/
def Obligations.StepsServeTheQueueInOrder : Prop :=
  ∀ (s t : State), step s = .next t → t.pending = s.pending.tail

/-- R143: each control core starts at reset in kernel mode, with TRANS 0 and IE 0, at the boot ROM entry; an ERET to user mode while
TRANS is 0 raises ILLEGAL and the core stays in kernel mode. Where the boot ROM entry lies in the ROM is the model's choice (log entry 15);
the statement names it and rests on no number. -/
def Obligations.ControlCoreStart : Prop :=
  (∀ c : Fin 4, State.reset.kernel c = true ∧ State.reset.trans c = false ∧ State.reset.intEnable c = false
    ∧ State.reset.pcOf (.ctl c) = bootEntry)
  ∧ (∀ (c : Fin 4) (s : State), Gives (.moduleReset 0x52534554) s (fun u => u.kernel c = true ∧ u.trans c = false ∧ u.intEnable c = false
      ∧ u.pcOf (.ctl c) = bootEntry))
  ∧ (∀ (c : Fin 4) (s : State), Issues s (.ctl c) → s.kernel c = true → getField (s.sysReg c 0) 2 1 = 0 → s.trans c = false →
      Runs (.eret (.ctl c)) s (fun u => TookTrap (.ctl c) 0 (0x3E * 2 ^ 26) s u ∧ u.kernel c = true))

/-- R365: FLT_FIRST is rearmed by a FAULT_CLEAR naming all sources after which no pending bit remains, and by a write of FLT_CTL.REARM
whatever the pending bits; bits already pending do not fill the record again, the next latched raise does. -/
def Obligations.FirstFaultRearm : Prop :=
  ∀ (c : JenCmd) (b : List Byte) (rest : List (Nat × List Byte)) (v : Word) (r : Raise) (s : State),
    let rearmed := fun (u : State) => u.fld firstR 29 3 = 0
    (Asks s c 0x0B b rest 1 32 → be b 0 2 = 0xFFFF → (∀ x < 256, s.pending? x = true → s.causePersists x = false
          ∧ (s.justSet (pendR (x / 32))).getLsbD (x % 32) = false) →
        Gives (.faultClear) s (fun u => (∀ x < 256, u.pending? x = false) ∧ rearmed u))
    ∧ (Asks s c 0x0B b rest 1 32 → be b 0 2 = 0xFFFF → (∃ x < 256, s.pending? x = true ∧ s.causePersists x = true) →
        Gives (.faultClear) s (fun u => u.fld firstR 29 3 = s.fld firstR 29 3))
    ∧ (Asks s c 0x0B b rest 1 32 → be b 0 2 < 256 → Gives (.faultClear) s (fun u => u.fld firstR 29 3 = s.fld firstR 29 3))
    ∧ Gives (.fltRearm v) s (fun u => rearmed u ∧ ∀ x < 256, u.pending? x = s.pending? x)
    ∧ (s.fld bootB 0 4 ≠ 0 → rearmed s → Gives (.faultLatch 0 []) s rearmed)
    ∧ (s.fld bootB 0 4 ≠ 0 → rearmed s → s.flt.raises = [r] → r.src < 256 → s.bit (srcR r.src) 0 = true → s.fld (srcR r.src) 1 2 = 0 →
        Gives (.faultLatch 1 []) s (fun u => u.bit firstR 31 = true ∧ u.fld firstR 0 8 = r.src))

/-- R307: on a channel with CFG.RT = 1 a descriptor whose DRAM range exceeds 4 KiB is bad; while any RT channel is enabled, DRAM channels
do not enter idle self-refresh. -/
def Obligations.RealTimeChannels : Prop :=
  (∀ (e : Fin 4) (k : Fin 64) (upTo h off : Nat) (d : List Byte) (s : State), s.dmaBusy e = some k.val → k.val / 16 = e.val →
      (s.dch k).desc = some (h, off, d) → s.dmaKind k = 0 → s.bit (dmaR k 0) 5 = true → 4096 < dLen d → dVirt d = false →
      (s.region (dSrc d) = .dram ∨ s.region (dDst d) = .dram) →
      Gives (.dmaDescriptorComplete e upTo) s (fun u => u.dmaState k = 2 ∧ u.fld (dmaR k 8) 4 4 = 6 ∧ u.fld (dmaR k 8) 8 17 = 0))
  ∧ (∀ (k : Fin 64) (s : State), let d := s.descAt k (s.dmaHead k)
      s.dmaEn k = true → s.dmaState k ≠ 2 → (s.dch k).desc = none → s.absent (unitId 0xD k) = false → s.dmaKind k = 2 → s.bit (dmaR k 0) 5 = true →
      dOwn d = true → 4096 < dLen d → s.region (dDst d) = .dram →
      Gives (.dmaKick k) s (fun u => u.dmaState k = 2 ∧ u.fld (dmaR k 8) 4 4 = 6 ∧ u.fld (dmaR k 8) 8 17 = 0))
  ∧ (∀ (ch : Fin 16) (k : Fin 64) (s : State), s.dmaEn k = true → s.bit (dmaR k 0) 5 = true → exec (.selfRefreshEntry ch) s = .next s)

/-- Isolation: while only commands of the control plane wait, no step changes what the packet path holds; of a station's monitor only the
cycle of the last CLEAR may change. -/
def Obligations.ControlPlaneIsolation : Prop :=
  ∀ (s0 s t : State), (∀ c ∈ s.pending, controlPlane c = true) → SamePath s0 s → step s = .next t →
    (∀ c ∈ t.pending, controlPlane c = true) ∧ SamePath s0 t

/-- Frames of register groups: a command leaves every register outside its own block, or those it names, and every byte of memory as they
were. -/
def Obligations.RegisterFrames : Prop :=
  ∀ (c : Fin 4) (x : Fin 1024) (n : Fin 9) (m : Fin 2) (k : Fin 5) (e : BitVec 16) (i : Fin 18) (v : Word) (h : Fin 64) (z : BitVec 8) (j : Jtag)
    (g : Fin 24) (w : Fin 64) (y : Fin 8) (q : Fin 16) (r : Fin 4) (p : Bool) (s : State),
    let only := fun (l : List Nat) (cmds : List Instr) => ∀ cmd ∈ cmds, Gives cmd s (fun t => OnlyBlocks l s t ∧ ∀ a, t.byte a = s.byte a)
    only [19] [.taskAlloc, .taskPost x, .taskTake c, .taskYield c x, .taskPreempt c x, .taskDone c x, .taskFree x, .taskSlotCfgWrite x v]
    ∧ only [25] [.cbusTransaction v, .mdioAddress m v, .mdioWrite m v, .mdioRead m v, .mdioReadInc m v, .mdioDone m e]
    ∧ only [2] [.vinOver e, .vinUnder e, .vinReversed e, .holdupTest e, .holdupReady]
    ∧ only [1] [.cdcPulseMerge z] ∧ only [] [.vinClamp, .pwrOsc true, .clkMonitor false, .jtagInstruction j]
    ∧ only [4] [.timeIncrLoWrite n v, .timeSecHiRead n, .timeSnapTake, .timeSnapRelease, .timeConvGo v, .timeConvDone, .warmSet, .oscMeasure,
        .txtsPop, .stepArm n v]
    ∧ only [5] [.evtqPop, .polarityInvert i, .inputOvervoltage i, .trigEntryWrite g w y v]
    ∧ only [13] [.poolMinClear k v, .auditSelWrite v] ∧ only [11] [.stnMonClear q v] ∧ only [] [.stnEpochLoRead p, .rewLoRead r]
    ∧ only [21] [.ringSeenWrite h v] ∧ only [22] [.fltRearm v, .availRecord]
end

