-- ==== Sys2Proof/Laws/Bits.lean ====
section
/-!
SUPPORT. Laws/Bits.lean: sparse tables read after write and keep their form; a field reads what was put there and no other bit changes.
-/
namespace Sys2Proof.Machine

/-! ### Sparse tables -/

theorem risingFrom_weaken {β : Type} (m : Map β) : ∀ {a b : Nat}, a ≤ b → risingFrom b m = true → risingFrom a m = true := by
  cases m with
  | nil => intros; rfl
  | cons e t =>
    intro a b hab h
    simp only [risingFrom, Bool.and_eq_true, decide_eq_true_eq] at h ⊢
    exact ⟨by omega, h.2⟩

theorem risingFrom_filter {β : Type} (p : Nat × β → Bool) (m : Map β) : ∀ {lo : Nat}, risingFrom lo m = true →
    risingFrom lo (m.filter p) = true := by
  induction m with
  | nil => intros; rfl
  | cons e t ih =>
    intro lo h
    simp only [risingFrom, Bool.and_eq_true, decide_eq_true_eq] at h
    by_cases hp : p e = true
    · simp only [List.filter_cons_of_pos hp, risingFrom, Bool.and_eq_true, decide_eq_true_eq]
      exact ⟨h.1, ih h.2⟩
    · rw [List.filter_cons_of_neg hp]
      exact risingFrom_weaken _ (by omega) (ih h.2)

theorem risingFrom_ainsert {β : Type} (m : Map β) (k : Nat) (v : β) : ∀ {lo : Nat}, lo ≤ k → risingFrom lo m = true →
    risingFrom lo (ainsert m k v) = true := by
  induction m with
  | nil => intro lo hk _; simp [ainsert, risingFrom, hk]
  | cons e t ih =>
    intro lo hk h
    simp only [risingFrom, Bool.and_eq_true, decide_eq_true_eq] at h
    simp only [ainsert]
    split
    · simp only [risingFrom, Bool.and_eq_true, decide_eq_true_eq]; exact ⟨hk, by omega, h.2⟩
    · split
      · rename_i he; simp only [risingFrom, Bool.and_eq_true, decide_eq_true_eq]; exact ⟨hk, he ▸ h.2⟩
      · simp only [risingFrom, Bool.and_eq_true, decide_eq_true_eq]; exact ⟨h.1, ih (by omega) h.2⟩

theorem mem_ainsert {β : Type} (m : Map β) (k : Nat) (v : β) (e : Nat × β) : e ∈ ainsert m k v → e ∈ m ∨ e = (k, v) := by
  induction m with
  | nil => simp [ainsert]
  | cons x t ih =>
    simp only [ainsert]
    split
    · simp only [List.mem_cons]; tauto
    · split
      · simp only [List.mem_cons]; tauto
      · simp only [List.mem_cons]; intro h; rcases h with h | h
        · exact .inl (.inl h)
        · rcases ih h with h | h
          · exact .inl (.inr h)
          · exact .inr h

/-- Every write keeps the canonical form. -/
theorem awf_aset {β : Type} [DecidableEq β] (d : Nat → β) (m : Map β) (k : Nat) (v : β) (h : awf d m = true) :
    awf d (aset d m k v) = true := by
  simp only [awf, Bool.and_eq_true, List.all_eq_true, decide_eq_true_eq] at h ⊢
  unfold aset
  split
  · exact ⟨risingFrom_filter _ m h.1, fun e he => h.2 e (List.mem_filter.1 he).1⟩
  · refine ⟨risingFrom_ainsert m k v (Nat.zero_le _) h.1, fun e he => ?_⟩
    rcases mem_ainsert m k v e he with he | rfl
    · exact h.2 e he
    · assumption

theorem awf_filter {β : Type} [DecidableEq β] (d : Nat → β) (m : Map β) (p : Nat × β → Bool) (h : awf d m = true) :
    awf d (m.filter p) = true := by
  simp only [awf, Bool.and_eq_true, List.all_eq_true, decide_eq_true_eq] at h ⊢
  exact ⟨risingFrom_filter _ m h.1, fun e he => h.2 e (List.mem_filter.1 he).1⟩

theorem aget_ainsert {β : Type} (d : Nat → β) (m : Map β) (k : Nat) (v : β) (j : Nat) :
    aget d (ainsert m k v) j = if j = k then v else aget d m j := by
  induction m with
  | nil => rfl
  | cons e t ih =>
    simp only [ainsert]
    split
    · rfl
    · split
      · rename_i he; by_cases hj : j = k <;> simp [aget, hj, ← he]
      · rename_i he
        by_cases hj : j = e.1
        · have : ¬ j = k := fun h => he (h ▸ hj)
          simp [aget, hj]; intro h; exact absurd h.symm he
        · simp [aget, hj, ih]

theorem aget_filter_ne {β : Type} (d : Nat → β) (m : Map β) (k j : Nat) :
    aget d (m.filter (fun e => e.1 != k)) j = if j = k then d k else aget d m j := by
  induction m with
  | nil => simp only [List.filter_nil, aget]; split <;> simp_all
  | cons e t ih =>
    by_cases he : e.1 = k
    · rw [List.filter_cons_of_neg (by simp [he]), ih]
      by_cases hj : j = k
      · simp [hj]
      · simp [aget, hj, he]
    · rw [List.filter_cons_of_pos (by simp [he])]
      by_cases hj : j = e.1
      · have : ¬ j = k := fun h => he (hj ▸ h)
        simp [aget, hj, he]
      · simp [aget, hj, ih]

/-- A read after a write: the value written at its key; every other key reads as before. -/
@[simp] theorem aget_aset {β : Type} [DecidableEq β] (d : Nat → β) (m : Map β) (k : Nat) (v : β) (j : Nat) :
    aget d (aset d m k v) j = if j = k then v else aget d m j := by
  unfold aset
  split
  · rename_i h; rw [aget_filter_ne]; by_cases hj : j = k <;> simp [hj, h]
  · exact aget_ainsert d m k v j

/-! ### Fields -/

/-- Bit i of a word with a field replaced. -/
theorem getLsbD_putField {n : Nat} (w : BitVec n) (lo len v i : Nat) :
    (putField w lo len v).getLsbD i =
      (decide (i < n) && if lo ≤ i ∧ i < lo + len then v.testBit (i - lo) else w.getLsbD i) := by
  by_cases hn : i < n
  · simp only [putField, BitVec.getLsbD_or, BitVec.getLsbD_and, BitVec.getLsbD_not, BitVec.getLsbD_ofNat, hn, decide_true,
      Bool.true_and, Nat.testBit_mul_two_pow, Nat.testBit_mod_two_pow]
    by_cases h1 : lo ≤ i
    · by_cases h2 : i < lo + len
      · have h3 : i - lo < len := by omega
        simp [h1, h2, h3]
      · have h3 : ¬ i - lo < len := by omega
        simp [h1, h2, h3]
    · simp [h1]
  · rw [BitVec.getLsbD_of_ge _ _ (by omega)]; simp [hn]

/-- A field reads what was put there. -/
theorem getField_putField {n : Nat} (w : BitVec n) (lo len v : Nat) (h : lo + len ≤ n) :
    getField (putField w lo len v) lo len = v % 2 ^ len := by
  have : (putField w lo len v).extractLsb' lo len = BitVec.ofNat len v := by
    apply BitVec.eq_of_getLsbD_eq
    intro i hi
    rw [BitVec.getLsbD_extractLsb', getLsbD_putField, BitVec.getLsbD_ofNat]
    have h1 : lo + i < n := by omega
    have h2 : lo + i < lo + len := by omega
    simp [hi, h1]
  rw [getField, this, BitVec.toNat_ofNat]

/-- A field apart from the one written reads as before. -/
theorem getField_putField_ne {n : Nat} (w : BitVec n) (lo len v lo' len' : Nat) (h : lo' + len' ≤ lo ∨ lo + len ≤ lo') :
    getField (putField w lo len v) lo' len' = getField w lo' len' := by
  unfold getField
  congr 1
  apply BitVec.eq_of_getLsbD_eq
  intro i hi
  rw [BitVec.getLsbD_extractLsb', BitVec.getLsbD_extractLsb', getLsbD_putField]
  have h2 : ¬ (lo ≤ lo' + i ∧ lo' + i < lo + len) := by omega
  by_cases hn : lo' + i < n
  · simp [hn, h2]
  · simp [hn, BitVec.getLsbD_of_ge w (lo' + i) (by omega)]

end Sys2Proof.Machine
end

