-- ==== Sys2Proof/Laws/State.lean ====
section
/-!
SUPPORT. Laws/State.lean: what each named update of State leaves as it was, and what a read finds after a write.
-/
namespace Sys2Proof.Machine

variable (s : State)

/-! ### Fields an update leaves alone -/

@[simp] theorem State.setReg_pending (a : Nat) (w : Word) : (s.setReg a w).pending = s.pending := rfl
@[simp] theorem State.setReg_time (a : Nat) (w : Word) : (s.setReg a w).time = s.time := rfl
@[simp] theorem State.setReg_mem (a : Nat) (w : Word) : (s.setReg a w).mem = s.mem := rfl
@[simp] theorem State.setReg_resp (a : Nat) (w : Word) : (s.setReg a w).resp = s.resp := rfl
@[simp] theorem State.setReg_units (a : Nat) (w : Word) : (s.setReg a w).units = s.units := rfl
@[simp] theorem State.setReg_tio (a : Nat) (w : Word) : (s.setReg a w).tio = s.tio := rfl
@[simp] theorem State.setReg_flt (a : Nat) (w : Word) : (s.setReg a w).flt = s.flt := rfl
@[simp] theorem State.setReg_jen (a : Nat) (w : Word) : (s.setReg a w).jen = s.jen := rfl
@[simp] theorem State.setReg_store (a : Nat) (w : Word) : (s.setReg a w).store = s.store := rfl
@[simp] theorem State.setReg_image (a : Nat) (w : Word) : (s.setReg a w).image = s.image := rfl
@[simp] theorem State.setReg_boot (a : Nat) (w : Word) : (s.setReg a w).boot = s.boot := rfl
@[simp] theorem State.setReg_path (a : Nat) (w : Word) : (s.setReg a w).path = s.path := rfl
@[simp] theorem State.setReg_stns (a : Nat) (w : Word) : (s.setReg a w).stns = s.stns := rfl
@[simp] theorem State.setReg_cores (a : Nat) (w : Word) : (s.setReg a w).cores = s.cores := rfl
@[simp] theorem State.setReg_coaches (a : Nat) (w : Word) : (s.setReg a w).coaches = s.coaches := rfl
@[simp] theorem State.setReg_meters (a : Nat) (w : Word) : (s.setReg a w).meters = s.meters := rfl
@[simp] theorem State.setReg_egr (a : Nat) (w : Word) : (s.setReg a w).egr = s.egr := rfl
@[simp] theorem State.setReg_pool (a : Nat) (w : Word) : (s.setReg a w).pool = s.pool := rfl
@[simp] theorem State.setReg_rew (a : Nat) (w : Word) : (s.setReg a w).rew = s.rew := rfl
@[simp] theorem State.setReg_pwr (a : Nat) (w : Word) : (s.setReg a w).pwr = s.pwr := rfl
@[simp] theorem State.setReg_pin (a : Nat) (w : Word) : (s.setReg a w).pin = s.pin := rfl
@[simp] theorem State.setReg_cbus (a : Nat) (w : Word) : (s.setReg a w).cbus = s.cbus := rfl
@[simp] theorem State.setReg_hiLatch (a : Nat) (w : Word) : (s.setReg a w).hiLatch = s.hiLatch := rfl
@[simp] theorem State.setReg_latched (a : Nat) (w : Word) : (s.setReg a w).latched = s.latched := rfl
@[simp] theorem State.setReg_cpu (a : Nat) (w : Word) : (s.setReg a w).cpu = s.cpu := rfl
@[simp] theorem State.setReg_dma (a : Nat) (w : Word) : (s.setReg a w).dma = s.dma := rfl
@[simp] theorem State.setReg_cls (a : Nat) (w : Word) : (s.setReg a w).cls = s.cls := rfl
@[simp] theorem State.setReg_smc (a : Nat) (w : Word) : (s.setReg a w).smc = s.smc := rfl
@[simp] theorem State.setReg_freeCtr (a : Nat) (w : Word) : (s.setReg a w).freeCtr = s.freeCtr := rfl
@[simp] theorem State.setFld_pending (a lo len v : Nat) : (s.setFld a lo len v).pending = s.pending := rfl
@[simp] theorem State.setFld_time (a lo len v : Nat) : (s.setFld a lo len v).time = s.time := rfl
@[simp] theorem State.setFld_mem (a lo len v : Nat) : (s.setFld a lo len v).mem = s.mem := rfl
@[simp] theorem State.setFld_resp (a lo len v : Nat) : (s.setFld a lo len v).resp = s.resp := rfl
@[simp] theorem State.setFld_units (a lo len v : Nat) : (s.setFld a lo len v).units = s.units := rfl
@[simp] theorem State.setFld_tio (a lo len v : Nat) : (s.setFld a lo len v).tio = s.tio := rfl
@[simp] theorem State.setFld_flt (a lo len v : Nat) : (s.setFld a lo len v).flt = s.flt := rfl
@[simp] theorem State.setFld_jen (a lo len v : Nat) : (s.setFld a lo len v).jen = s.jen := rfl
@[simp] theorem State.setFld_store (a lo len v : Nat) : (s.setFld a lo len v).store = s.store := rfl
@[simp] theorem State.setFld_image (a lo len v : Nat) : (s.setFld a lo len v).image = s.image := rfl
@[simp] theorem State.setFld_boot (a lo len v : Nat) : (s.setFld a lo len v).boot = s.boot := rfl
@[simp] theorem State.setFld_path (a lo len v : Nat) : (s.setFld a lo len v).path = s.path := rfl
@[simp] theorem State.setFld_stns (a lo len v : Nat) : (s.setFld a lo len v).stns = s.stns := rfl
@[simp] theorem State.setFld_cores (a lo len v : Nat) : (s.setFld a lo len v).cores = s.cores := rfl
@[simp] theorem State.setFld_coaches (a lo len v : Nat) : (s.setFld a lo len v).coaches = s.coaches := rfl
@[simp] theorem State.setFld_meters (a lo len v : Nat) : (s.setFld a lo len v).meters = s.meters := rfl
@[simp] theorem State.setFld_egr (a lo len v : Nat) : (s.setFld a lo len v).egr = s.egr := rfl
@[simp] theorem State.setFld_pool (a lo len v : Nat) : (s.setFld a lo len v).pool = s.pool := rfl
@[simp] theorem State.setFld_rew (a lo len v : Nat) : (s.setFld a lo len v).rew = s.rew := rfl
@[simp] theorem State.setFld_pwr (a lo len v : Nat) : (s.setFld a lo len v).pwr = s.pwr := rfl
@[simp] theorem State.setFld_pin (a lo len v : Nat) : (s.setFld a lo len v).pin = s.pin := rfl
@[simp] theorem State.setFld_cbus (a lo len v : Nat) : (s.setFld a lo len v).cbus = s.cbus := rfl
@[simp] theorem State.setFld_hiLatch (a lo len v : Nat) : (s.setFld a lo len v).hiLatch = s.hiLatch := rfl
@[simp] theorem State.setFld_latched (a lo len v : Nat) : (s.setFld a lo len v).latched = s.latched := rfl
@[simp] theorem State.setFld_cpu (a lo len v : Nat) : (s.setFld a lo len v).cpu = s.cpu := rfl
@[simp] theorem State.setFld_dma (a lo len v : Nat) : (s.setFld a lo len v).dma = s.dma := rfl
@[simp] theorem State.setFld_cls (a lo len v : Nat) : (s.setFld a lo len v).cls = s.cls := rfl
@[simp] theorem State.setFld_smc (a lo len v : Nat) : (s.setFld a lo len v).smc = s.smc := rfl
@[simp] theorem State.setFld_freeCtr (a lo len v : Nat) : (s.setFld a lo len v).freeCtr = s.freeCtr := rfl
@[simp] theorem State.setBit_pending (a i : Nat) (b : Bool) : (s.setBit a i b).pending = s.pending := rfl
@[simp] theorem State.setBit_time (a i : Nat) (b : Bool) : (s.setBit a i b).time = s.time := rfl
@[simp] theorem State.setBit_mem (a i : Nat) (b : Bool) : (s.setBit a i b).mem = s.mem := rfl
@[simp] theorem State.setBit_resp (a i : Nat) (b : Bool) : (s.setBit a i b).resp = s.resp := rfl
@[simp] theorem State.setBit_units (a i : Nat) (b : Bool) : (s.setBit a i b).units = s.units := rfl
@[simp] theorem State.setBit_tio (a i : Nat) (b : Bool) : (s.setBit a i b).tio = s.tio := rfl
@[simp] theorem State.setBit_flt (a i : Nat) (b : Bool) : (s.setBit a i b).flt = s.flt := rfl
@[simp] theorem State.setBit_jen (a i : Nat) (b : Bool) : (s.setBit a i b).jen = s.jen := rfl
@[simp] theorem State.setBit_store (a i : Nat) (b : Bool) : (s.setBit a i b).store = s.store := rfl
@[simp] theorem State.setBit_image (a i : Nat) (b : Bool) : (s.setBit a i b).image = s.image := rfl
@[simp] theorem State.setBit_boot (a i : Nat) (b : Bool) : (s.setBit a i b).boot = s.boot := rfl
@[simp] theorem State.setBit_path (a i : Nat) (b : Bool) : (s.setBit a i b).path = s.path := rfl
@[simp] theorem State.setBit_stns (a i : Nat) (b : Bool) : (s.setBit a i b).stns = s.stns := rfl
@[simp] theorem State.setBit_cores (a i : Nat) (b : Bool) : (s.setBit a i b).cores = s.cores := rfl
@[simp] theorem State.setBit_coaches (a i : Nat) (b : Bool) : (s.setBit a i b).coaches = s.coaches := rfl
@[simp] theorem State.setBit_meters (a i : Nat) (b : Bool) : (s.setBit a i b).meters = s.meters := rfl
@[simp] theorem State.setBit_egr (a i : Nat) (b : Bool) : (s.setBit a i b).egr = s.egr := rfl
@[simp] theorem State.setBit_pool (a i : Nat) (b : Bool) : (s.setBit a i b).pool = s.pool := rfl
@[simp] theorem State.setBit_rew (a i : Nat) (b : Bool) : (s.setBit a i b).rew = s.rew := rfl
@[simp] theorem State.setBit_pwr (a i : Nat) (b : Bool) : (s.setBit a i b).pwr = s.pwr := rfl
@[simp] theorem State.setBit_pin (a i : Nat) (b : Bool) : (s.setBit a i b).pin = s.pin := rfl
@[simp] theorem State.setBit_cbus (a i : Nat) (b : Bool) : (s.setBit a i b).cbus = s.cbus := rfl
@[simp] theorem State.setBit_hiLatch (a i : Nat) (b : Bool) : (s.setBit a i b).hiLatch = s.hiLatch := rfl
@[simp] theorem State.setBit_latched (a i : Nat) (b : Bool) : (s.setBit a i b).latched = s.latched := rfl
@[simp] theorem State.setBit_cpu (a i : Nat) (b : Bool) : (s.setBit a i b).cpu = s.cpu := rfl
@[simp] theorem State.setBit_dma (a i : Nat) (b : Bool) : (s.setBit a i b).dma = s.dma := rfl
@[simp] theorem State.setBit_cls (a i : Nat) (b : Bool) : (s.setBit a i b).cls = s.cls := rfl
@[simp] theorem State.setBit_smc (a i : Nat) (b : Bool) : (s.setBit a i b).smc = s.smc := rfl
@[simp] theorem State.setBit_freeCtr (a i : Nat) (b : Bool) : (s.setBit a i b).freeCtr = s.freeCtr := rfl
@[simp] theorem State.count_pending (a lo len k : Nat) : (s.count a lo len k).pending = s.pending := rfl
@[simp] theorem State.count_time (a lo len k : Nat) : (s.count a lo len k).time = s.time := rfl
@[simp] theorem State.count_mem (a lo len k : Nat) : (s.count a lo len k).mem = s.mem := rfl
@[simp] theorem State.count_resp (a lo len k : Nat) : (s.count a lo len k).resp = s.resp := rfl
@[simp] theorem State.count_units (a lo len k : Nat) : (s.count a lo len k).units = s.units := rfl
@[simp] theorem State.count_tio (a lo len k : Nat) : (s.count a lo len k).tio = s.tio := rfl
@[simp] theorem State.count_flt (a lo len k : Nat) : (s.count a lo len k).flt = s.flt := rfl
@[simp] theorem State.count_jen (a lo len k : Nat) : (s.count a lo len k).jen = s.jen := rfl
@[simp] theorem State.count_store (a lo len k : Nat) : (s.count a lo len k).store = s.store := rfl
@[simp] theorem State.count_image (a lo len k : Nat) : (s.count a lo len k).image = s.image := rfl
@[simp] theorem State.count_boot (a lo len k : Nat) : (s.count a lo len k).boot = s.boot := rfl
@[simp] theorem State.count_path (a lo len k : Nat) : (s.count a lo len k).path = s.path := rfl
@[simp] theorem State.count_stns (a lo len k : Nat) : (s.count a lo len k).stns = s.stns := rfl
@[simp] theorem State.count_cores (a lo len k : Nat) : (s.count a lo len k).cores = s.cores := rfl
@[simp] theorem State.count_coaches (a lo len k : Nat) : (s.count a lo len k).coaches = s.coaches := rfl
@[simp] theorem State.count_meters (a lo len k : Nat) : (s.count a lo len k).meters = s.meters := rfl
@[simp] theorem State.count_egr (a lo len k : Nat) : (s.count a lo len k).egr = s.egr := rfl
@[simp] theorem State.count_pool (a lo len k : Nat) : (s.count a lo len k).pool = s.pool := rfl
@[simp] theorem State.count_rew (a lo len k : Nat) : (s.count a lo len k).rew = s.rew := rfl
@[simp] theorem State.count_pwr (a lo len k : Nat) : (s.count a lo len k).pwr = s.pwr := rfl
@[simp] theorem State.count_pin (a lo len k : Nat) : (s.count a lo len k).pin = s.pin := rfl
@[simp] theorem State.count_cbus (a lo len k : Nat) : (s.count a lo len k).cbus = s.cbus := rfl
@[simp] theorem State.count_hiLatch (a lo len k : Nat) : (s.count a lo len k).hiLatch = s.hiLatch := rfl
@[simp] theorem State.count_latched (a lo len k : Nat) : (s.count a lo len k).latched = s.latched := rfl
@[simp] theorem State.count_cpu (a lo len k : Nat) : (s.count a lo len k).cpu = s.cpu := rfl
@[simp] theorem State.count_dma (a lo len k : Nat) : (s.count a lo len k).dma = s.dma := rfl
@[simp] theorem State.count_cls (a lo len k : Nat) : (s.count a lo len k).cls = s.cls := rfl
@[simp] theorem State.count_smc (a lo len k : Nat) : (s.count a lo len k).smc = s.smc := rfl
@[simp] theorem State.count_freeCtr (a lo len k : Nat) : (s.count a lo len k).freeCtr = s.freeCtr := rfl
@[simp] theorem State.setByte_pending (a : Nat) (b : Byte) : (s.setByte a b).pending = s.pending := rfl
@[simp] theorem State.setByte_time (a : Nat) (b : Byte) : (s.setByte a b).time = s.time := rfl
@[simp] theorem State.setByte_ctl (a : Nat) (b : Byte) : (s.setByte a b).ctl = s.ctl := rfl
@[simp] theorem State.setByte_resp (a : Nat) (b : Byte) : (s.setByte a b).resp = s.resp := rfl
@[simp] theorem State.setByte_units (a : Nat) (b : Byte) : (s.setByte a b).units = s.units := rfl
@[simp] theorem State.setByte_tio (a : Nat) (b : Byte) : (s.setByte a b).tio = s.tio := rfl
@[simp] theorem State.setByte_flt (a : Nat) (b : Byte) : (s.setByte a b).flt = s.flt := rfl
@[simp] theorem State.setByte_jen (a : Nat) (b : Byte) : (s.setByte a b).jen = s.jen := rfl
@[simp] theorem State.setByte_store (a : Nat) (b : Byte) : (s.setByte a b).store = s.store := rfl
@[simp] theorem State.setByte_image (a : Nat) (b : Byte) : (s.setByte a b).image = s.image := rfl
@[simp] theorem State.setByte_boot (a : Nat) (b : Byte) : (s.setByte a b).boot = s.boot := rfl
@[simp] theorem State.setByte_path (a : Nat) (b : Byte) : (s.setByte a b).path = s.path := rfl
@[simp] theorem State.setByte_stns (a : Nat) (b : Byte) : (s.setByte a b).stns = s.stns := rfl
@[simp] theorem State.setByte_cores (a : Nat) (b : Byte) : (s.setByte a b).cores = s.cores := rfl
@[simp] theorem State.setByte_coaches (a : Nat) (b : Byte) : (s.setByte a b).coaches = s.coaches := rfl
@[simp] theorem State.setByte_meters (a : Nat) (b : Byte) : (s.setByte a b).meters = s.meters := rfl
@[simp] theorem State.setByte_egr (a : Nat) (b : Byte) : (s.setByte a b).egr = s.egr := rfl
@[simp] theorem State.setByte_pool (a : Nat) (b : Byte) : (s.setByte a b).pool = s.pool := rfl
@[simp] theorem State.setByte_rew (a : Nat) (b : Byte) : (s.setByte a b).rew = s.rew := rfl
@[simp] theorem State.setByte_pwr (a : Nat) (b : Byte) : (s.setByte a b).pwr = s.pwr := rfl
@[simp] theorem State.setByte_pin (a : Nat) (b : Byte) : (s.setByte a b).pin = s.pin := rfl
@[simp] theorem State.setByte_cbus (a : Nat) (b : Byte) : (s.setByte a b).cbus = s.cbus := rfl
@[simp] theorem State.setByte_hiLatch (a : Nat) (b : Byte) : (s.setByte a b).hiLatch = s.hiLatch := rfl
@[simp] theorem State.setByte_latched (a : Nat) (b : Byte) : (s.setByte a b).latched = s.latched := rfl
@[simp] theorem State.setByte_cpu (a : Nat) (b : Byte) : (s.setByte a b).cpu = s.cpu := rfl
@[simp] theorem State.setByte_dma (a : Nat) (b : Byte) : (s.setByte a b).dma = s.dma := rfl
@[simp] theorem State.setByte_cls (a : Nat) (b : Byte) : (s.setByte a b).cls = s.cls := rfl
@[simp] theorem State.setByte_smc (a : Nat) (b : Byte) : (s.setByte a b).smc = s.smc := rfl
@[simp] theorem State.setByte_freeCtr (a : Nat) (b : Byte) : (s.setByte a b).freeCtr = s.freeCtr := rfl
@[simp] theorem State.advance_pending (t : Nat) : (s.advance t).pending = s.pending := rfl
@[simp] theorem State.advance_ctl (t : Nat) : (s.advance t).ctl = s.ctl := rfl
@[simp] theorem State.advance_mem (t : Nat) : (s.advance t).mem = s.mem := rfl
@[simp] theorem State.advance_resp (t : Nat) : (s.advance t).resp = s.resp := rfl
@[simp] theorem State.advance_units (t : Nat) : (s.advance t).units = s.units := rfl
@[simp] theorem State.advance_tio (t : Nat) : (s.advance t).tio = s.tio := rfl
@[simp] theorem State.advance_flt (t : Nat) : (s.advance t).flt = s.flt := rfl
@[simp] theorem State.advance_jen (t : Nat) : (s.advance t).jen = s.jen := rfl
@[simp] theorem State.advance_store (t : Nat) : (s.advance t).store = s.store := rfl
@[simp] theorem State.advance_image (t : Nat) : (s.advance t).image = s.image := rfl
@[simp] theorem State.advance_boot (t : Nat) : (s.advance t).boot = s.boot := rfl
@[simp] theorem State.advance_path (t : Nat) : (s.advance t).path = s.path := rfl
@[simp] theorem State.advance_stns (t : Nat) : (s.advance t).stns = s.stns := rfl
@[simp] theorem State.advance_cores (t : Nat) : (s.advance t).cores = s.cores := rfl
@[simp] theorem State.advance_coaches (t : Nat) : (s.advance t).coaches = s.coaches := rfl
@[simp] theorem State.advance_meters (t : Nat) : (s.advance t).meters = s.meters := rfl
@[simp] theorem State.advance_egr (t : Nat) : (s.advance t).egr = s.egr := rfl
@[simp] theorem State.advance_pool (t : Nat) : (s.advance t).pool = s.pool := rfl
@[simp] theorem State.advance_rew (t : Nat) : (s.advance t).rew = s.rew := rfl
@[simp] theorem State.advance_pwr (t : Nat) : (s.advance t).pwr = s.pwr := rfl
@[simp] theorem State.advance_pin (t : Nat) : (s.advance t).pin = s.pin := rfl
@[simp] theorem State.advance_cbus (t : Nat) : (s.advance t).cbus = s.cbus := rfl
@[simp] theorem State.advance_hiLatch (t : Nat) : (s.advance t).hiLatch = s.hiLatch := rfl
@[simp] theorem State.advance_latched (t : Nat) : (s.advance t).latched = s.latched := rfl
@[simp] theorem State.advance_cpu (t : Nat) : (s.advance t).cpu = s.cpu := rfl
@[simp] theorem State.advance_dma (t : Nat) : (s.advance t).dma = s.dma := rfl
@[simp] theorem State.advance_cls (t : Nat) : (s.advance t).cls = s.cls := rfl
@[simp] theorem State.advance_smc (t : Nat) : (s.advance t).smc = s.smc := rfl
@[simp] theorem State.advance_freeCtr (t : Nat) : (s.advance t).freeCtr = s.freeCtr := rfl
@[simp] theorem State.raiseU_pending (n : Nat) (l : List Nat) (u : Nat) : (s.raiseU n l u).pending = s.pending := rfl
@[simp] theorem State.raiseU_time (n : Nat) (l : List Nat) (u : Nat) : (s.raiseU n l u).time = s.time := rfl
@[simp] theorem State.raiseU_ctl (n : Nat) (l : List Nat) (u : Nat) : (s.raiseU n l u).ctl = s.ctl := rfl
@[simp] theorem State.raiseU_mem (n : Nat) (l : List Nat) (u : Nat) : (s.raiseU n l u).mem = s.mem := rfl
@[simp] theorem State.raiseU_resp (n : Nat) (l : List Nat) (u : Nat) : (s.raiseU n l u).resp = s.resp := rfl
@[simp] theorem State.raiseU_units (n : Nat) (l : List Nat) (u : Nat) : (s.raiseU n l u).units = s.units := rfl
@[simp] theorem State.raiseU_tio (n : Nat) (l : List Nat) (u : Nat) : (s.raiseU n l u).tio = s.tio := rfl
@[simp] theorem State.raiseU_jen (n : Nat) (l : List Nat) (u : Nat) : (s.raiseU n l u).jen = s.jen := rfl
@[simp] theorem State.raiseU_store (n : Nat) (l : List Nat) (u : Nat) : (s.raiseU n l u).store = s.store := rfl
@[simp] theorem State.raiseU_image (n : Nat) (l : List Nat) (u : Nat) : (s.raiseU n l u).image = s.image := rfl
@[simp] theorem State.raiseU_boot (n : Nat) (l : List Nat) (u : Nat) : (s.raiseU n l u).boot = s.boot := rfl
@[simp] theorem State.raiseU_path (n : Nat) (l : List Nat) (u : Nat) : (s.raiseU n l u).path = s.path := rfl
@[simp] theorem State.raiseU_stns (n : Nat) (l : List Nat) (u : Nat) : (s.raiseU n l u).stns = s.stns := rfl
@[simp] theorem State.raiseU_cores (n : Nat) (l : List Nat) (u : Nat) : (s.raiseU n l u).cores = s.cores := rfl
@[simp] theorem State.raiseU_coaches (n : Nat) (l : List Nat) (u : Nat) : (s.raiseU n l u).coaches = s.coaches := rfl
@[simp] theorem State.raiseU_meters (n : Nat) (l : List Nat) (u : Nat) : (s.raiseU n l u).meters = s.meters := rfl
@[simp] theorem State.raiseU_egr (n : Nat) (l : List Nat) (u : Nat) : (s.raiseU n l u).egr = s.egr := rfl
@[simp] theorem State.raiseU_pool (n : Nat) (l : List Nat) (u : Nat) : (s.raiseU n l u).pool = s.pool := rfl
@[simp] theorem State.raiseU_rew (n : Nat) (l : List Nat) (u : Nat) : (s.raiseU n l u).rew = s.rew := rfl
@[simp] theorem State.raiseU_pwr (n : Nat) (l : List Nat) (u : Nat) : (s.raiseU n l u).pwr = s.pwr := rfl
@[simp] theorem State.raiseU_pin (n : Nat) (l : List Nat) (u : Nat) : (s.raiseU n l u).pin = s.pin := rfl
@[simp] theorem State.raiseU_cbus (n : Nat) (l : List Nat) (u : Nat) : (s.raiseU n l u).cbus = s.cbus := rfl
@[simp] theorem State.raiseU_hiLatch (n : Nat) (l : List Nat) (u : Nat) : (s.raiseU n l u).hiLatch = s.hiLatch := rfl
@[simp] theorem State.raiseU_latched (n : Nat) (l : List Nat) (u : Nat) : (s.raiseU n l u).latched = s.latched := rfl
@[simp] theorem State.raiseU_cpu (n : Nat) (l : List Nat) (u : Nat) : (s.raiseU n l u).cpu = s.cpu := rfl
@[simp] theorem State.raiseU_dma (n : Nat) (l : List Nat) (u : Nat) : (s.raiseU n l u).dma = s.dma := rfl
@[simp] theorem State.raiseU_cls (n : Nat) (l : List Nat) (u : Nat) : (s.raiseU n l u).cls = s.cls := rfl
@[simp] theorem State.raiseU_smc (n : Nat) (l : List Nat) (u : Nat) : (s.raiseU n l u).smc = s.smc := rfl
@[simp] theorem State.raiseU_freeCtr (n : Nat) (l : List Nat) (u : Nat) : (s.raiseU n l u).freeCtr = s.freeCtr := rfl
@[simp] theorem State.raise_pending (n : Nat) (l : List Nat) : (s.raise n l).pending = s.pending := rfl
@[simp] theorem State.raise_time (n : Nat) (l : List Nat) : (s.raise n l).time = s.time := rfl
@[simp] theorem State.raise_ctl (n : Nat) (l : List Nat) : (s.raise n l).ctl = s.ctl := rfl
@[simp] theorem State.raise_mem (n : Nat) (l : List Nat) : (s.raise n l).mem = s.mem := rfl
@[simp] theorem State.raise_resp (n : Nat) (l : List Nat) : (s.raise n l).resp = s.resp := rfl
@[simp] theorem State.raise_units (n : Nat) (l : List Nat) : (s.raise n l).units = s.units := rfl
@[simp] theorem State.raise_tio (n : Nat) (l : List Nat) : (s.raise n l).tio = s.tio := rfl
@[simp] theorem State.raise_jen (n : Nat) (l : List Nat) : (s.raise n l).jen = s.jen := rfl
@[simp] theorem State.raise_store (n : Nat) (l : List Nat) : (s.raise n l).store = s.store := rfl
@[simp] theorem State.raise_image (n : Nat) (l : List Nat) : (s.raise n l).image = s.image := rfl
@[simp] theorem State.raise_boot (n : Nat) (l : List Nat) : (s.raise n l).boot = s.boot := rfl
@[simp] theorem State.raise_path (n : Nat) (l : List Nat) : (s.raise n l).path = s.path := rfl
@[simp] theorem State.raise_stns (n : Nat) (l : List Nat) : (s.raise n l).stns = s.stns := rfl
@[simp] theorem State.raise_cores (n : Nat) (l : List Nat) : (s.raise n l).cores = s.cores := rfl
@[simp] theorem State.raise_coaches (n : Nat) (l : List Nat) : (s.raise n l).coaches = s.coaches := rfl
@[simp] theorem State.raise_meters (n : Nat) (l : List Nat) : (s.raise n l).meters = s.meters := rfl
@[simp] theorem State.raise_egr (n : Nat) (l : List Nat) : (s.raise n l).egr = s.egr := rfl
@[simp] theorem State.raise_pool (n : Nat) (l : List Nat) : (s.raise n l).pool = s.pool := rfl
@[simp] theorem State.raise_rew (n : Nat) (l : List Nat) : (s.raise n l).rew = s.rew := rfl
@[simp] theorem State.raise_pwr (n : Nat) (l : List Nat) : (s.raise n l).pwr = s.pwr := rfl
@[simp] theorem State.raise_pin (n : Nat) (l : List Nat) : (s.raise n l).pin = s.pin := rfl
@[simp] theorem State.raise_cbus (n : Nat) (l : List Nat) : (s.raise n l).cbus = s.cbus := rfl
@[simp] theorem State.raise_hiLatch (n : Nat) (l : List Nat) : (s.raise n l).hiLatch = s.hiLatch := rfl
@[simp] theorem State.raise_latched (n : Nat) (l : List Nat) : (s.raise n l).latched = s.latched := rfl
@[simp] theorem State.raise_cpu (n : Nat) (l : List Nat) : (s.raise n l).cpu = s.cpu := rfl
@[simp] theorem State.raise_dma (n : Nat) (l : List Nat) : (s.raise n l).dma = s.dma := rfl
@[simp] theorem State.raise_cls (n : Nat) (l : List Nat) : (s.raise n l).cls = s.cls := rfl
@[simp] theorem State.raise_smc (n : Nat) (l : List Nat) : (s.raise n l).smc = s.smc := rfl
@[simp] theorem State.raise_freeCtr (n : Nat) (l : List Nat) : (s.raise n l).freeCtr = s.freeCtr := rfl
@[simp] theorem State.setCause_pending (n : Nat) (b : Bool) : (s.setCause n b).pending = s.pending := rfl
@[simp] theorem State.setCause_time (n : Nat) (b : Bool) : (s.setCause n b).time = s.time := rfl
@[simp] theorem State.setCause_ctl (n : Nat) (b : Bool) : (s.setCause n b).ctl = s.ctl := rfl
@[simp] theorem State.setCause_mem (n : Nat) (b : Bool) : (s.setCause n b).mem = s.mem := rfl
@[simp] theorem State.setCause_resp (n : Nat) (b : Bool) : (s.setCause n b).resp = s.resp := rfl
@[simp] theorem State.setCause_units (n : Nat) (b : Bool) : (s.setCause n b).units = s.units := rfl
@[simp] theorem State.setCause_tio (n : Nat) (b : Bool) : (s.setCause n b).tio = s.tio := rfl
@[simp] theorem State.setCause_jen (n : Nat) (b : Bool) : (s.setCause n b).jen = s.jen := rfl
@[simp] theorem State.setCause_store (n : Nat) (b : Bool) : (s.setCause n b).store = s.store := rfl
@[simp] theorem State.setCause_image (n : Nat) (b : Bool) : (s.setCause n b).image = s.image := rfl
@[simp] theorem State.setCause_boot (n : Nat) (b : Bool) : (s.setCause n b).boot = s.boot := rfl
@[simp] theorem State.setCause_path (n : Nat) (b : Bool) : (s.setCause n b).path = s.path := rfl
@[simp] theorem State.setCause_stns (n : Nat) (b : Bool) : (s.setCause n b).stns = s.stns := rfl
@[simp] theorem State.setCause_cores (n : Nat) (b : Bool) : (s.setCause n b).cores = s.cores := rfl
@[simp] theorem State.setCause_coaches (n : Nat) (b : Bool) : (s.setCause n b).coaches = s.coaches := rfl
@[simp] theorem State.setCause_meters (n : Nat) (b : Bool) : (s.setCause n b).meters = s.meters := rfl
@[simp] theorem State.setCause_egr (n : Nat) (b : Bool) : (s.setCause n b).egr = s.egr := rfl
@[simp] theorem State.setCause_pool (n : Nat) (b : Bool) : (s.setCause n b).pool = s.pool := rfl
@[simp] theorem State.setCause_rew (n : Nat) (b : Bool) : (s.setCause n b).rew = s.rew := rfl
@[simp] theorem State.setCause_pwr (n : Nat) (b : Bool) : (s.setCause n b).pwr = s.pwr := rfl
@[simp] theorem State.setCause_pin (n : Nat) (b : Bool) : (s.setCause n b).pin = s.pin := rfl
@[simp] theorem State.setCause_cbus (n : Nat) (b : Bool) : (s.setCause n b).cbus = s.cbus := rfl
@[simp] theorem State.setCause_hiLatch (n : Nat) (b : Bool) : (s.setCause n b).hiLatch = s.hiLatch := rfl
@[simp] theorem State.setCause_latched (n : Nat) (b : Bool) : (s.setCause n b).latched = s.latched := rfl
@[simp] theorem State.setCause_cpu (n : Nat) (b : Bool) : (s.setCause n b).cpu = s.cpu := rfl
@[simp] theorem State.setCause_dma (n : Nat) (b : Bool) : (s.setCause n b).dma = s.dma := rfl
@[simp] theorem State.setCause_cls (n : Nat) (b : Bool) : (s.setCause n b).cls = s.cls := rfl
@[simp] theorem State.setCause_smc (n : Nat) (b : Bool) : (s.setCause n b).smc = s.smc := rfl
@[simp] theorem State.setCause_freeCtr (n : Nat) (b : Bool) : (s.setCause n b).freeCtr = s.freeCtr := rfl
@[simp] theorem State.setUnit_pending (u : Nat) (x : UnitSt) : (s.setUnit u x).pending = s.pending := rfl
@[simp] theorem State.setUnit_time (u : Nat) (x : UnitSt) : (s.setUnit u x).time = s.time := rfl
@[simp] theorem State.setUnit_ctl (u : Nat) (x : UnitSt) : (s.setUnit u x).ctl = s.ctl := rfl
@[simp] theorem State.setUnit_mem (u : Nat) (x : UnitSt) : (s.setUnit u x).mem = s.mem := rfl
@[simp] theorem State.setUnit_resp (u : Nat) (x : UnitSt) : (s.setUnit u x).resp = s.resp := rfl
@[simp] theorem State.setUnit_tio (u : Nat) (x : UnitSt) : (s.setUnit u x).tio = s.tio := rfl
@[simp] theorem State.setUnit_flt (u : Nat) (x : UnitSt) : (s.setUnit u x).flt = s.flt := rfl
@[simp] theorem State.setUnit_jen (u : Nat) (x : UnitSt) : (s.setUnit u x).jen = s.jen := rfl
@[simp] theorem State.setUnit_store (u : Nat) (x : UnitSt) : (s.setUnit u x).store = s.store := rfl
@[simp] theorem State.setUnit_image (u : Nat) (x : UnitSt) : (s.setUnit u x).image = s.image := rfl
@[simp] theorem State.setUnit_boot (u : Nat) (x : UnitSt) : (s.setUnit u x).boot = s.boot := rfl
@[simp] theorem State.setUnit_path (u : Nat) (x : UnitSt) : (s.setUnit u x).path = s.path := rfl
@[simp] theorem State.setUnit_stns (u : Nat) (x : UnitSt) : (s.setUnit u x).stns = s.stns := rfl
@[simp] theorem State.setUnit_cores (u : Nat) (x : UnitSt) : (s.setUnit u x).cores = s.cores := rfl
@[simp] theorem State.setUnit_coaches (u : Nat) (x : UnitSt) : (s.setUnit u x).coaches = s.coaches := rfl
@[simp] theorem State.setUnit_meters (u : Nat) (x : UnitSt) : (s.setUnit u x).meters = s.meters := rfl
@[simp] theorem State.setUnit_egr (u : Nat) (x : UnitSt) : (s.setUnit u x).egr = s.egr := rfl
@[simp] theorem State.setUnit_pool (u : Nat) (x : UnitSt) : (s.setUnit u x).pool = s.pool := rfl
@[simp] theorem State.setUnit_rew (u : Nat) (x : UnitSt) : (s.setUnit u x).rew = s.rew := rfl
@[simp] theorem State.setUnit_pwr (u : Nat) (x : UnitSt) : (s.setUnit u x).pwr = s.pwr := rfl
@[simp] theorem State.setUnit_pin (u : Nat) (x : UnitSt) : (s.setUnit u x).pin = s.pin := rfl
@[simp] theorem State.setUnit_cbus (u : Nat) (x : UnitSt) : (s.setUnit u x).cbus = s.cbus := rfl
@[simp] theorem State.setUnit_hiLatch (u : Nat) (x : UnitSt) : (s.setUnit u x).hiLatch = s.hiLatch := rfl
@[simp] theorem State.setUnit_latched (u : Nat) (x : UnitSt) : (s.setUnit u x).latched = s.latched := rfl
@[simp] theorem State.setUnit_cpu (u : Nat) (x : UnitSt) : (s.setUnit u x).cpu = s.cpu := rfl
@[simp] theorem State.setUnit_dma (u : Nat) (x : UnitSt) : (s.setUnit u x).dma = s.dma := rfl
@[simp] theorem State.setUnit_cls (u : Nat) (x : UnitSt) : (s.setUnit u x).cls = s.cls := rfl
@[simp] theorem State.setUnit_smc (u : Nat) (x : UnitSt) : (s.setUnit u x).smc = s.smc := rfl
@[simp] theorem State.setUnit_freeCtr (u : Nat) (x : UnitSt) : (s.setUnit u x).freeCtr = s.freeCtr := rfl
@[simp] theorem State.setInst_pending (n : Nat) (i : Inst) : (s.setInst n i).pending = s.pending := rfl
@[simp] theorem State.setInst_ctl (n : Nat) (i : Inst) : (s.setInst n i).ctl = s.ctl := rfl
@[simp] theorem State.setInst_mem (n : Nat) (i : Inst) : (s.setInst n i).mem = s.mem := rfl
@[simp] theorem State.setInst_resp (n : Nat) (i : Inst) : (s.setInst n i).resp = s.resp := rfl
@[simp] theorem State.setInst_units (n : Nat) (i : Inst) : (s.setInst n i).units = s.units := rfl
@[simp] theorem State.setInst_tio (n : Nat) (i : Inst) : (s.setInst n i).tio = s.tio := rfl
@[simp] theorem State.setInst_flt (n : Nat) (i : Inst) : (s.setInst n i).flt = s.flt := rfl
@[simp] theorem State.setInst_jen (n : Nat) (i : Inst) : (s.setInst n i).jen = s.jen := rfl
@[simp] theorem State.setInst_store (n : Nat) (i : Inst) : (s.setInst n i).store = s.store := rfl
@[simp] theorem State.setInst_image (n : Nat) (i : Inst) : (s.setInst n i).image = s.image := rfl
@[simp] theorem State.setInst_boot (n : Nat) (i : Inst) : (s.setInst n i).boot = s.boot := rfl
@[simp] theorem State.setInst_path (n : Nat) (i : Inst) : (s.setInst n i).path = s.path := rfl
@[simp] theorem State.setInst_stns (n : Nat) (i : Inst) : (s.setInst n i).stns = s.stns := rfl
@[simp] theorem State.setInst_cores (n : Nat) (i : Inst) : (s.setInst n i).cores = s.cores := rfl
@[simp] theorem State.setInst_coaches (n : Nat) (i : Inst) : (s.setInst n i).coaches = s.coaches := rfl
@[simp] theorem State.setInst_meters (n : Nat) (i : Inst) : (s.setInst n i).meters = s.meters := rfl
@[simp] theorem State.setInst_egr (n : Nat) (i : Inst) : (s.setInst n i).egr = s.egr := rfl
@[simp] theorem State.setInst_pool (n : Nat) (i : Inst) : (s.setInst n i).pool = s.pool := rfl
@[simp] theorem State.setInst_rew (n : Nat) (i : Inst) : (s.setInst n i).rew = s.rew := rfl
@[simp] theorem State.setInst_pwr (n : Nat) (i : Inst) : (s.setInst n i).pwr = s.pwr := rfl
@[simp] theorem State.setInst_pin (n : Nat) (i : Inst) : (s.setInst n i).pin = s.pin := rfl
@[simp] theorem State.setInst_cbus (n : Nat) (i : Inst) : (s.setInst n i).cbus = s.cbus := rfl
@[simp] theorem State.setInst_hiLatch (n : Nat) (i : Inst) : (s.setInst n i).hiLatch = s.hiLatch := rfl
@[simp] theorem State.setInst_latched (n : Nat) (i : Inst) : (s.setInst n i).latched = s.latched := rfl
@[simp] theorem State.setInst_cpu (n : Nat) (i : Inst) : (s.setInst n i).cpu = s.cpu := rfl
@[simp] theorem State.setInst_dma (n : Nat) (i : Inst) : (s.setInst n i).dma = s.dma := rfl
@[simp] theorem State.setInst_cls (n : Nat) (i : Inst) : (s.setInst n i).cls = s.cls := rfl
@[simp] theorem State.setInst_smc (n : Nat) (i : Inst) : (s.setInst n i).smc = s.smc := rfl
@[simp] theorem State.setInst_freeCtr (n : Nat) (i : Inst) : (s.setInst n i).freeCtr = s.freeCtr := rfl
@[simp] theorem State.setThread_pending (i : Nat) (x : Thread) : (s.setThread i x).pending = s.pending := rfl
@[simp] theorem State.setThread_time (i : Nat) (x : Thread) : (s.setThread i x).time = s.time := rfl
@[simp] theorem State.setThread_ctl (i : Nat) (x : Thread) : (s.setThread i x).ctl = s.ctl := rfl
@[simp] theorem State.setThread_mem (i : Nat) (x : Thread) : (s.setThread i x).mem = s.mem := rfl
@[simp] theorem State.setThread_resp (i : Nat) (x : Thread) : (s.setThread i x).resp = s.resp := rfl
@[simp] theorem State.setThread_units (i : Nat) (x : Thread) : (s.setThread i x).units = s.units := rfl
@[simp] theorem State.setThread_tio (i : Nat) (x : Thread) : (s.setThread i x).tio = s.tio := rfl
@[simp] theorem State.setThread_flt (i : Nat) (x : Thread) : (s.setThread i x).flt = s.flt := rfl
@[simp] theorem State.setThread_jen (i : Nat) (x : Thread) : (s.setThread i x).jen = s.jen := rfl
@[simp] theorem State.setThread_store (i : Nat) (x : Thread) : (s.setThread i x).store = s.store := rfl
@[simp] theorem State.setThread_image (i : Nat) (x : Thread) : (s.setThread i x).image = s.image := rfl
@[simp] theorem State.setThread_boot (i : Nat) (x : Thread) : (s.setThread i x).boot = s.boot := rfl
@[simp] theorem State.setThread_path (i : Nat) (x : Thread) : (s.setThread i x).path = s.path := rfl
@[simp] theorem State.setThread_stns (i : Nat) (x : Thread) : (s.setThread i x).stns = s.stns := rfl
@[simp] theorem State.setThread_cores (i : Nat) (x : Thread) : (s.setThread i x).cores = s.cores := rfl
@[simp] theorem State.setThread_coaches (i : Nat) (x : Thread) : (s.setThread i x).coaches = s.coaches := rfl
@[simp] theorem State.setThread_meters (i : Nat) (x : Thread) : (s.setThread i x).meters = s.meters := rfl
@[simp] theorem State.setThread_egr (i : Nat) (x : Thread) : (s.setThread i x).egr = s.egr := rfl
@[simp] theorem State.setThread_pool (i : Nat) (x : Thread) : (s.setThread i x).pool = s.pool := rfl
@[simp] theorem State.setThread_rew (i : Nat) (x : Thread) : (s.setThread i x).rew = s.rew := rfl
@[simp] theorem State.setThread_pwr (i : Nat) (x : Thread) : (s.setThread i x).pwr = s.pwr := rfl
@[simp] theorem State.setThread_pin (i : Nat) (x : Thread) : (s.setThread i x).pin = s.pin := rfl
@[simp] theorem State.setThread_cbus (i : Nat) (x : Thread) : (s.setThread i x).cbus = s.cbus := rfl
@[simp] theorem State.setThread_hiLatch (i : Nat) (x : Thread) : (s.setThread i x).hiLatch = s.hiLatch := rfl
@[simp] theorem State.setThread_latched (i : Nat) (x : Thread) : (s.setThread i x).latched = s.latched := rfl
@[simp] theorem State.setThread_dma (i : Nat) (x : Thread) : (s.setThread i x).dma = s.dma := rfl
@[simp] theorem State.setThread_cls (i : Nat) (x : Thread) : (s.setThread i x).cls = s.cls := rfl
@[simp] theorem State.setThread_smc (i : Nat) (x : Thread) : (s.setThread i x).smc = s.smc := rfl
@[simp] theorem State.setThread_freeCtr (i : Nat) (x : Thread) : (s.setThread i x).freeCtr = s.freeCtr := rfl
@[simp] theorem State.setCtlc_pending (c : Nat) (x : CtlCore) : (s.setCtlc c x).pending = s.pending := rfl
@[simp] theorem State.setCtlc_time (c : Nat) (x : CtlCore) : (s.setCtlc c x).time = s.time := rfl
@[simp] theorem State.setCtlc_ctl (c : Nat) (x : CtlCore) : (s.setCtlc c x).ctl = s.ctl := rfl
@[simp] theorem State.setCtlc_mem (c : Nat) (x : CtlCore) : (s.setCtlc c x).mem = s.mem := rfl
@[simp] theorem State.setCtlc_resp (c : Nat) (x : CtlCore) : (s.setCtlc c x).resp = s.resp := rfl
@[simp] theorem State.setCtlc_units (c : Nat) (x : CtlCore) : (s.setCtlc c x).units = s.units := rfl
@[simp] theorem State.setCtlc_tio (c : Nat) (x : CtlCore) : (s.setCtlc c x).tio = s.tio := rfl
@[simp] theorem State.setCtlc_flt (c : Nat) (x : CtlCore) : (s.setCtlc c x).flt = s.flt := rfl
@[simp] theorem State.setCtlc_jen (c : Nat) (x : CtlCore) : (s.setCtlc c x).jen = s.jen := rfl
@[simp] theorem State.setCtlc_store (c : Nat) (x : CtlCore) : (s.setCtlc c x).store = s.store := rfl
@[simp] theorem State.setCtlc_image (c : Nat) (x : CtlCore) : (s.setCtlc c x).image = s.image := rfl
@[simp] theorem State.setCtlc_boot (c : Nat) (x : CtlCore) : (s.setCtlc c x).boot = s.boot := rfl
@[simp] theorem State.setCtlc_path (c : Nat) (x : CtlCore) : (s.setCtlc c x).path = s.path := rfl
@[simp] theorem State.setCtlc_stns (c : Nat) (x : CtlCore) : (s.setCtlc c x).stns = s.stns := rfl
@[simp] theorem State.setCtlc_cores (c : Nat) (x : CtlCore) : (s.setCtlc c x).cores = s.cores := rfl
@[simp] theorem State.setCtlc_coaches (c : Nat) (x : CtlCore) : (s.setCtlc c x).coaches = s.coaches := rfl
@[simp] theorem State.setCtlc_meters (c : Nat) (x : CtlCore) : (s.setCtlc c x).meters = s.meters := rfl
@[simp] theorem State.setCtlc_egr (c : Nat) (x : CtlCore) : (s.setCtlc c x).egr = s.egr := rfl
@[simp] theorem State.setCtlc_pool (c : Nat) (x : CtlCore) : (s.setCtlc c x).pool = s.pool := rfl
@[simp] theorem State.setCtlc_rew (c : Nat) (x : CtlCore) : (s.setCtlc c x).rew = s.rew := rfl
@[simp] theorem State.setCtlc_pwr (c : Nat) (x : CtlCore) : (s.setCtlc c x).pwr = s.pwr := rfl
@[simp] theorem State.setCtlc_pin (c : Nat) (x : CtlCore) : (s.setCtlc c x).pin = s.pin := rfl
@[simp] theorem State.setCtlc_cbus (c : Nat) (x : CtlCore) : (s.setCtlc c x).cbus = s.cbus := rfl
@[simp] theorem State.setCtlc_hiLatch (c : Nat) (x : CtlCore) : (s.setCtlc c x).hiLatch = s.hiLatch := rfl
@[simp] theorem State.setCtlc_latched (c : Nat) (x : CtlCore) : (s.setCtlc c x).latched = s.latched := rfl
@[simp] theorem State.setCtlc_dma (c : Nat) (x : CtlCore) : (s.setCtlc c x).dma = s.dma := rfl
@[simp] theorem State.setCtlc_cls (c : Nat) (x : CtlCore) : (s.setCtlc c x).cls = s.cls := rfl
@[simp] theorem State.setCtlc_smc (c : Nat) (x : CtlCore) : (s.setCtlc c x).smc = s.smc := rfl
@[simp] theorem State.setCtlc_freeCtr (c : Nat) (x : CtlCore) : (s.setCtlc c x).freeCtr = s.freeCtr := rfl
@[simp] theorem State.setCore_pending (c : Nat) (x : CoreSt) : (s.setCore c x).pending = s.pending := rfl
@[simp] theorem State.setCore_time (c : Nat) (x : CoreSt) : (s.setCore c x).time = s.time := rfl
@[simp] theorem State.setCore_ctl (c : Nat) (x : CoreSt) : (s.setCore c x).ctl = s.ctl := rfl
@[simp] theorem State.setCore_mem (c : Nat) (x : CoreSt) : (s.setCore c x).mem = s.mem := rfl
@[simp] theorem State.setCore_resp (c : Nat) (x : CoreSt) : (s.setCore c x).resp = s.resp := rfl
@[simp] theorem State.setCore_units (c : Nat) (x : CoreSt) : (s.setCore c x).units = s.units := rfl
@[simp] theorem State.setCore_tio (c : Nat) (x : CoreSt) : (s.setCore c x).tio = s.tio := rfl
@[simp] theorem State.setCore_flt (c : Nat) (x : CoreSt) : (s.setCore c x).flt = s.flt := rfl
@[simp] theorem State.setCore_jen (c : Nat) (x : CoreSt) : (s.setCore c x).jen = s.jen := rfl
@[simp] theorem State.setCore_store (c : Nat) (x : CoreSt) : (s.setCore c x).store = s.store := rfl
@[simp] theorem State.setCore_image (c : Nat) (x : CoreSt) : (s.setCore c x).image = s.image := rfl
@[simp] theorem State.setCore_boot (c : Nat) (x : CoreSt) : (s.setCore c x).boot = s.boot := rfl
@[simp] theorem State.setCore_path (c : Nat) (x : CoreSt) : (s.setCore c x).path = s.path := rfl
@[simp] theorem State.setCore_stns (c : Nat) (x : CoreSt) : (s.setCore c x).stns = s.stns := rfl
@[simp] theorem State.setCore_coaches (c : Nat) (x : CoreSt) : (s.setCore c x).coaches = s.coaches := rfl
@[simp] theorem State.setCore_meters (c : Nat) (x : CoreSt) : (s.setCore c x).meters = s.meters := rfl
@[simp] theorem State.setCore_egr (c : Nat) (x : CoreSt) : (s.setCore c x).egr = s.egr := rfl
@[simp] theorem State.setCore_pool (c : Nat) (x : CoreSt) : (s.setCore c x).pool = s.pool := rfl
@[simp] theorem State.setCore_rew (c : Nat) (x : CoreSt) : (s.setCore c x).rew = s.rew := rfl
@[simp] theorem State.setCore_pwr (c : Nat) (x : CoreSt) : (s.setCore c x).pwr = s.pwr := rfl
@[simp] theorem State.setCore_pin (c : Nat) (x : CoreSt) : (s.setCore c x).pin = s.pin := rfl
@[simp] theorem State.setCore_cbus (c : Nat) (x : CoreSt) : (s.setCore c x).cbus = s.cbus := rfl
@[simp] theorem State.setCore_hiLatch (c : Nat) (x : CoreSt) : (s.setCore c x).hiLatch = s.hiLatch := rfl
@[simp] theorem State.setCore_latched (c : Nat) (x : CoreSt) : (s.setCore c x).latched = s.latched := rfl
@[simp] theorem State.setCore_cpu (c : Nat) (x : CoreSt) : (s.setCore c x).cpu = s.cpu := rfl
@[simp] theorem State.setCore_dma (c : Nat) (x : CoreSt) : (s.setCore c x).dma = s.dma := rfl
@[simp] theorem State.setCore_cls (c : Nat) (x : CoreSt) : (s.setCore c x).cls = s.cls := rfl
@[simp] theorem State.setCore_smc (c : Nat) (x : CoreSt) : (s.setCore c x).smc = s.smc := rfl
@[simp] theorem State.setCore_freeCtr (c : Nat) (x : CoreSt) : (s.setCore c x).freeCtr = s.freeCtr := rfl

/-! ### Readings an update leaves alone -/

@[simp] theorem State.setReg_byte (a : Nat) (w : Word) (b' : Nat) : (s.setReg a w).byte b' = s.byte b' := rfl
@[simp] theorem State.setReg_thread (a : Nat) (w : Word) (j' : Nat) : (s.setReg a w).thread j' = s.thread j' := rfl
@[simp] theorem State.setReg_ctlc (a : Nat) (w : Word) (j' : Nat) : (s.setReg a w).ctlc j' = s.ctlc j' := rfl
@[simp] theorem State.setReg_unit (a : Nat) (w : Word) (j' : Nat) : (s.setReg a w).unit j' = s.unit j' := rfl
@[simp] theorem State.setReg_now (a : Nat) (w : Word) : (s.setReg a w).now = s.now := rfl
@[simp] theorem State.setReg_inst (a : Nat) (w : Word) (j' : Nat) : (s.setReg a w).inst j' = s.inst j' := rfl
@[simp] theorem State.setReg_core (a : Nat) (w : Word) (j' : Nat) : (s.setReg a w).core j' = s.core j' := rfl
@[simp] theorem State.setFld_byte (a lo len v : Nat) (b' : Nat) : (s.setFld a lo len v).byte b' = s.byte b' := rfl
@[simp] theorem State.setFld_thread (a lo len v : Nat) (j' : Nat) : (s.setFld a lo len v).thread j' = s.thread j' := rfl
@[simp] theorem State.setFld_ctlc (a lo len v : Nat) (j' : Nat) : (s.setFld a lo len v).ctlc j' = s.ctlc j' := rfl
@[simp] theorem State.setFld_unit (a lo len v : Nat) (j' : Nat) : (s.setFld a lo len v).unit j' = s.unit j' := rfl
@[simp] theorem State.setFld_now (a lo len v : Nat) : (s.setFld a lo len v).now = s.now := rfl
@[simp] theorem State.setFld_inst (a lo len v : Nat) (j' : Nat) : (s.setFld a lo len v).inst j' = s.inst j' := rfl
@[simp] theorem State.setFld_core (a lo len v : Nat) (j' : Nat) : (s.setFld a lo len v).core j' = s.core j' := rfl
@[simp] theorem State.setBit_byte (a i : Nat) (b : Bool) (b' : Nat) : (s.setBit a i b).byte b' = s.byte b' := rfl
@[simp] theorem State.setBit_thread (a i : Nat) (b : Bool) (j' : Nat) : (s.setBit a i b).thread j' = s.thread j' := rfl
@[simp] theorem State.setBit_ctlc (a i : Nat) (b : Bool) (j' : Nat) : (s.setBit a i b).ctlc j' = s.ctlc j' := rfl
@[simp] theorem State.setBit_unit (a i : Nat) (b : Bool) (j' : Nat) : (s.setBit a i b).unit j' = s.unit j' := rfl
@[simp] theorem State.setBit_now (a i : Nat) (b : Bool) : (s.setBit a i b).now = s.now := rfl
@[simp] theorem State.setBit_inst (a i : Nat) (b : Bool) (j' : Nat) : (s.setBit a i b).inst j' = s.inst j' := rfl
@[simp] theorem State.setBit_core (a i : Nat) (b : Bool) (j' : Nat) : (s.setBit a i b).core j' = s.core j' := rfl
@[simp] theorem State.count_byte (a lo len k : Nat) (b' : Nat) : (s.count a lo len k).byte b' = s.byte b' := rfl
@[simp] theorem State.count_thread (a lo len k : Nat) (j' : Nat) : (s.count a lo len k).thread j' = s.thread j' := rfl
@[simp] theorem State.count_ctlc (a lo len k : Nat) (j' : Nat) : (s.count a lo len k).ctlc j' = s.ctlc j' := rfl
@[simp] theorem State.count_unit (a lo len k : Nat) (j' : Nat) : (s.count a lo len k).unit j' = s.unit j' := rfl
@[simp] theorem State.count_now (a lo len k : Nat) : (s.count a lo len k).now = s.now := rfl
@[simp] theorem State.count_inst (a lo len k : Nat) (j' : Nat) : (s.count a lo len k).inst j' = s.inst j' := rfl
@[simp] theorem State.count_core (a lo len k : Nat) (j' : Nat) : (s.count a lo len k).core j' = s.core j' := rfl
@[simp] theorem State.setByte_reg (a : Nat) (b : Byte) (b' : Nat) : (s.setByte a b).reg b' = s.reg b' := rfl
@[simp] theorem State.setByte_fld (a : Nat) (b : Byte) (b' l' n' : Nat) : (s.setByte a b).fld b' l' n' = s.fld b' l' n' := rfl
@[simp] theorem State.setByte_bit (a : Nat) (b : Byte) (b' j' : Nat) : (s.setByte a b).bit b' j' = s.bit b' j' := rfl
@[simp] theorem State.setByte_thread (a : Nat) (b : Byte) (j' : Nat) : (s.setByte a b).thread j' = s.thread j' := rfl
@[simp] theorem State.setByte_ctlc (a : Nat) (b : Byte) (j' : Nat) : (s.setByte a b).ctlc j' = s.ctlc j' := rfl
@[simp] theorem State.setByte_unit (a : Nat) (b : Byte) (j' : Nat) : (s.setByte a b).unit j' = s.unit j' := rfl
@[simp] theorem State.setByte_now (a : Nat) (b : Byte) : (s.setByte a b).now = s.now := rfl
@[simp] theorem State.setByte_inst (a : Nat) (b : Byte) (j' : Nat) : (s.setByte a b).inst j' = s.inst j' := rfl
@[simp] theorem State.setByte_core (a : Nat) (b : Byte) (j' : Nat) : (s.setByte a b).core j' = s.core j' := rfl
@[simp] theorem State.advance_reg (t : Nat) (b' : Nat) : (s.advance t).reg b' = s.reg b' := rfl
@[simp] theorem State.advance_fld (t : Nat) (b' l' n' : Nat) : (s.advance t).fld b' l' n' = s.fld b' l' n' := rfl
@[simp] theorem State.advance_bit (t : Nat) (b' j' : Nat) : (s.advance t).bit b' j' = s.bit b' j' := rfl
@[simp] theorem State.advance_byte (t : Nat) (b' : Nat) : (s.advance t).byte b' = s.byte b' := rfl
@[simp] theorem State.advance_thread (t : Nat) (j' : Nat) : (s.advance t).thread j' = s.thread j' := rfl
@[simp] theorem State.advance_ctlc (t : Nat) (j' : Nat) : (s.advance t).ctlc j' = s.ctlc j' := rfl
@[simp] theorem State.advance_unit (t : Nat) (j' : Nat) : (s.advance t).unit j' = s.unit j' := rfl
@[simp] theorem State.advance_core (t : Nat) (j' : Nat) : (s.advance t).core j' = s.core j' := rfl
@[simp] theorem State.raiseU_reg (n : Nat) (l : List Nat) (u : Nat) (b' : Nat) : (s.raiseU n l u).reg b' = s.reg b' := rfl
@[simp] theorem State.raiseU_fld (n : Nat) (l : List Nat) (u : Nat) (b' l' n' : Nat) : (s.raiseU n l u).fld b' l' n' = s.fld b' l' n' := rfl
@[simp] theorem State.raiseU_bit (n : Nat) (l : List Nat) (u : Nat) (b' j' : Nat) : (s.raiseU n l u).bit b' j' = s.bit b' j' := rfl
@[simp] theorem State.raiseU_byte (n : Nat) (l : List Nat) (u : Nat) (b' : Nat) : (s.raiseU n l u).byte b' = s.byte b' := rfl
@[simp] theorem State.raiseU_thread (n : Nat) (l : List Nat) (u : Nat) (j' : Nat) : (s.raiseU n l u).thread j' = s.thread j' := rfl
@[simp] theorem State.raiseU_ctlc (n : Nat) (l : List Nat) (u : Nat) (j' : Nat) : (s.raiseU n l u).ctlc j' = s.ctlc j' := rfl
@[simp] theorem State.raiseU_unit (n : Nat) (l : List Nat) (u : Nat) (j' : Nat) : (s.raiseU n l u).unit j' = s.unit j' := rfl
@[simp] theorem State.raiseU_now (n : Nat) (l : List Nat) (u : Nat) : (s.raiseU n l u).now = s.now := rfl
@[simp] theorem State.raiseU_inst (n : Nat) (l : List Nat) (u : Nat) (j' : Nat) : (s.raiseU n l u).inst j' = s.inst j' := rfl
@[simp] theorem State.raiseU_core (n : Nat) (l : List Nat) (u : Nat) (j' : Nat) : (s.raiseU n l u).core j' = s.core j' := rfl
@[simp] theorem State.raise_reg (n : Nat) (l : List Nat) (b' : Nat) : (s.raise n l).reg b' = s.reg b' := rfl
@[simp] theorem State.raise_fld (n : Nat) (l : List Nat) (b' l' n' : Nat) : (s.raise n l).fld b' l' n' = s.fld b' l' n' := rfl
@[simp] theorem State.raise_bit (n : Nat) (l : List Nat) (b' j' : Nat) : (s.raise n l).bit b' j' = s.bit b' j' := rfl
@[simp] theorem State.raise_byte (n : Nat) (l : List Nat) (b' : Nat) : (s.raise n l).byte b' = s.byte b' := rfl
@[simp] theorem State.raise_thread (n : Nat) (l : List Nat) (j' : Nat) : (s.raise n l).thread j' = s.thread j' := rfl
@[simp] theorem State.raise_ctlc (n : Nat) (l : List Nat) (j' : Nat) : (s.raise n l).ctlc j' = s.ctlc j' := rfl
@[simp] theorem State.raise_unit (n : Nat) (l : List Nat) (j' : Nat) : (s.raise n l).unit j' = s.unit j' := rfl
@[simp] theorem State.raise_now (n : Nat) (l : List Nat) : (s.raise n l).now = s.now := rfl
@[simp] theorem State.raise_inst (n : Nat) (l : List Nat) (j' : Nat) : (s.raise n l).inst j' = s.inst j' := rfl
@[simp] theorem State.raise_core (n : Nat) (l : List Nat) (j' : Nat) : (s.raise n l).core j' = s.core j' := rfl
@[simp] theorem State.setCause_reg (n : Nat) (b : Bool) (b' : Nat) : (s.setCause n b).reg b' = s.reg b' := rfl
@[simp] theorem State.setCause_fld (n : Nat) (b : Bool) (b' l' n' : Nat) : (s.setCause n b).fld b' l' n' = s.fld b' l' n' := rfl
@[simp] theorem State.setCause_bit (n : Nat) (b : Bool) (b' j' : Nat) : (s.setCause n b).bit b' j' = s.bit b' j' := rfl
@[simp] theorem State.setCause_byte (n : Nat) (b : Bool) (b' : Nat) : (s.setCause n b).byte b' = s.byte b' := rfl
@[simp] theorem State.setCause_thread (n : Nat) (b : Bool) (j' : Nat) : (s.setCause n b).thread j' = s.thread j' := rfl
@[simp] theorem State.setCause_ctlc (n : Nat) (b : Bool) (j' : Nat) : (s.setCause n b).ctlc j' = s.ctlc j' := rfl
@[simp] theorem State.setCause_unit (n : Nat) (b : Bool) (j' : Nat) : (s.setCause n b).unit j' = s.unit j' := rfl
@[simp] theorem State.setCause_now (n : Nat) (b : Bool) : (s.setCause n b).now = s.now := rfl
@[simp] theorem State.setCause_inst (n : Nat) (b : Bool) (j' : Nat) : (s.setCause n b).inst j' = s.inst j' := rfl
@[simp] theorem State.setCause_core (n : Nat) (b : Bool) (j' : Nat) : (s.setCause n b).core j' = s.core j' := rfl
@[simp] theorem State.setUnit_reg (u : Nat) (x : UnitSt) (b' : Nat) : (s.setUnit u x).reg b' = s.reg b' := rfl
@[simp] theorem State.setUnit_fld (u : Nat) (x : UnitSt) (b' l' n' : Nat) : (s.setUnit u x).fld b' l' n' = s.fld b' l' n' := rfl
@[simp] theorem State.setUnit_bit (u : Nat) (x : UnitSt) (b' j' : Nat) : (s.setUnit u x).bit b' j' = s.bit b' j' := rfl
@[simp] theorem State.setUnit_byte (u : Nat) (x : UnitSt) (b' : Nat) : (s.setUnit u x).byte b' = s.byte b' := rfl
@[simp] theorem State.setUnit_thread (u : Nat) (x : UnitSt) (j' : Nat) : (s.setUnit u x).thread j' = s.thread j' := rfl
@[simp] theorem State.setUnit_ctlc (u : Nat) (x : UnitSt) (j' : Nat) : (s.setUnit u x).ctlc j' = s.ctlc j' := rfl
@[simp] theorem State.setUnit_now (u : Nat) (x : UnitSt) : (s.setUnit u x).now = s.now := rfl
@[simp] theorem State.setUnit_inst (u : Nat) (x : UnitSt) (j' : Nat) : (s.setUnit u x).inst j' = s.inst j' := rfl
@[simp] theorem State.setUnit_core (u : Nat) (x : UnitSt) (j' : Nat) : (s.setUnit u x).core j' = s.core j' := rfl
@[simp] theorem State.setInst_reg (n : Nat) (i : Inst) (b' : Nat) : (s.setInst n i).reg b' = s.reg b' := rfl
@[simp] theorem State.setInst_fld (n : Nat) (i : Inst) (b' l' n' : Nat) : (s.setInst n i).fld b' l' n' = s.fld b' l' n' := rfl
@[simp] theorem State.setInst_bit (n : Nat) (i : Inst) (b' j' : Nat) : (s.setInst n i).bit b' j' = s.bit b' j' := rfl
@[simp] theorem State.setInst_byte (n : Nat) (i : Inst) (b' : Nat) : (s.setInst n i).byte b' = s.byte b' := rfl
@[simp] theorem State.setInst_thread (n : Nat) (i : Inst) (j' : Nat) : (s.setInst n i).thread j' = s.thread j' := rfl
@[simp] theorem State.setInst_ctlc (n : Nat) (i : Inst) (j' : Nat) : (s.setInst n i).ctlc j' = s.ctlc j' := rfl
@[simp] theorem State.setInst_unit (n : Nat) (i : Inst) (j' : Nat) : (s.setInst n i).unit j' = s.unit j' := rfl
@[simp] theorem State.setInst_core (n : Nat) (i : Inst) (j' : Nat) : (s.setInst n i).core j' = s.core j' := rfl
@[simp] theorem State.setThread_reg (i : Nat) (x : Thread) (b' : Nat) : (s.setThread i x).reg b' = s.reg b' := rfl
@[simp] theorem State.setThread_fld (i : Nat) (x : Thread) (b' l' n' : Nat) : (s.setThread i x).fld b' l' n' = s.fld b' l' n' := rfl
@[simp] theorem State.setThread_bit (i : Nat) (x : Thread) (b' j' : Nat) : (s.setThread i x).bit b' j' = s.bit b' j' := rfl
@[simp] theorem State.setThread_byte (i : Nat) (x : Thread) (b' : Nat) : (s.setThread i x).byte b' = s.byte b' := rfl
@[simp] theorem State.setThread_unit (i : Nat) (x : Thread) (j' : Nat) : (s.setThread i x).unit j' = s.unit j' := rfl
@[simp] theorem State.setThread_now (i : Nat) (x : Thread) : (s.setThread i x).now = s.now := rfl
@[simp] theorem State.setThread_inst (i : Nat) (x : Thread) (j' : Nat) : (s.setThread i x).inst j' = s.inst j' := rfl
@[simp] theorem State.setThread_core (i : Nat) (x : Thread) (j' : Nat) : (s.setThread i x).core j' = s.core j' := rfl
@[simp] theorem State.setCtlc_reg (c : Nat) (x : CtlCore) (b' : Nat) : (s.setCtlc c x).reg b' = s.reg b' := rfl
@[simp] theorem State.setCtlc_fld (c : Nat) (x : CtlCore) (b' l' n' : Nat) : (s.setCtlc c x).fld b' l' n' = s.fld b' l' n' := rfl
@[simp] theorem State.setCtlc_bit (c : Nat) (x : CtlCore) (b' j' : Nat) : (s.setCtlc c x).bit b' j' = s.bit b' j' := rfl
@[simp] theorem State.setCtlc_byte (c : Nat) (x : CtlCore) (b' : Nat) : (s.setCtlc c x).byte b' = s.byte b' := rfl
@[simp] theorem State.setCtlc_unit (c : Nat) (x : CtlCore) (j' : Nat) : (s.setCtlc c x).unit j' = s.unit j' := rfl
@[simp] theorem State.setCtlc_now (c : Nat) (x : CtlCore) : (s.setCtlc c x).now = s.now := rfl
@[simp] theorem State.setCtlc_inst (c : Nat) (x : CtlCore) (j' : Nat) : (s.setCtlc c x).inst j' = s.inst j' := rfl
@[simp] theorem State.setCtlc_core (c : Nat) (x : CtlCore) (j' : Nat) : (s.setCtlc c x).core j' = s.core j' := rfl
@[simp] theorem State.setCore_reg (c : Nat) (x : CoreSt) (b' : Nat) : (s.setCore c x).reg b' = s.reg b' := rfl
@[simp] theorem State.setCore_fld (c : Nat) (x : CoreSt) (b' l' n' : Nat) : (s.setCore c x).fld b' l' n' = s.fld b' l' n' := rfl
@[simp] theorem State.setCore_bit (c : Nat) (x : CoreSt) (b' j' : Nat) : (s.setCore c x).bit b' j' = s.bit b' j' := rfl
@[simp] theorem State.setCore_byte (c : Nat) (x : CoreSt) (b' : Nat) : (s.setCore c x).byte b' = s.byte b' := rfl
@[simp] theorem State.setCore_thread (c : Nat) (x : CoreSt) (j' : Nat) : (s.setCore c x).thread j' = s.thread j' := rfl
@[simp] theorem State.setCore_ctlc (c : Nat) (x : CoreSt) (j' : Nat) : (s.setCore c x).ctlc j' = s.ctlc j' := rfl
@[simp] theorem State.setCore_unit (c : Nat) (x : CoreSt) (j' : Nat) : (s.setCore c x).unit j' = s.unit j' := rfl
@[simp] theorem State.setCore_now (c : Nat) (x : CoreSt) : (s.setCore c x).now = s.now := rfl
@[simp] theorem State.setCore_inst (c : Nat) (x : CoreSt) (j' : Nat) : (s.setCore c x).inst j' = s.inst j' := rfl

/-! ### A bit that hardware sets (Table 0.3) -/

@[simp] theorem State.latch_pending (a i : Nat) : (s.latch a i).pending = s.pending := rfl
@[simp] theorem State.latch_time (a i : Nat) : (s.latch a i).time = s.time := rfl
@[simp] theorem State.latch_mem (a i : Nat) : (s.latch a i).mem = s.mem := rfl
@[simp] theorem State.latch_resp (a i : Nat) : (s.latch a i).resp = s.resp := rfl
@[simp] theorem State.latch_units (a i : Nat) : (s.latch a i).units = s.units := rfl
@[simp] theorem State.latch_tio (a i : Nat) : (s.latch a i).tio = s.tio := rfl
@[simp] theorem State.latch_flt (a i : Nat) : (s.latch a i).flt = s.flt := rfl
@[simp] theorem State.latch_jen (a i : Nat) : (s.latch a i).jen = s.jen := rfl
@[simp] theorem State.latch_store (a i : Nat) : (s.latch a i).store = s.store := rfl
@[simp] theorem State.latch_image (a i : Nat) : (s.latch a i).image = s.image := rfl
@[simp] theorem State.latch_boot (a i : Nat) : (s.latch a i).boot = s.boot := rfl
@[simp] theorem State.latch_path (a i : Nat) : (s.latch a i).path = s.path := rfl
@[simp] theorem State.latch_stns (a i : Nat) : (s.latch a i).stns = s.stns := rfl
@[simp] theorem State.latch_cores (a i : Nat) : (s.latch a i).cores = s.cores := rfl
@[simp] theorem State.latch_coaches (a i : Nat) : (s.latch a i).coaches = s.coaches := rfl
@[simp] theorem State.latch_meters (a i : Nat) : (s.latch a i).meters = s.meters := rfl
@[simp] theorem State.latch_egr (a i : Nat) : (s.latch a i).egr = s.egr := rfl
@[simp] theorem State.latch_pool (a i : Nat) : (s.latch a i).pool = s.pool := rfl
@[simp] theorem State.latch_rew (a i : Nat) : (s.latch a i).rew = s.rew := rfl
@[simp] theorem State.latch_pwr (a i : Nat) : (s.latch a i).pwr = s.pwr := rfl
@[simp] theorem State.latch_pin (a i : Nat) : (s.latch a i).pin = s.pin := rfl
@[simp] theorem State.latch_cbus (a i : Nat) : (s.latch a i).cbus = s.cbus := rfl
@[simp] theorem State.latch_hiLatch (a i : Nat) : (s.latch a i).hiLatch = s.hiLatch := rfl
@[simp] theorem State.latch_cpu (a i : Nat) : (s.latch a i).cpu = s.cpu := rfl
@[simp] theorem State.latch_dma (a i : Nat) : (s.latch a i).dma = s.dma := rfl
@[simp] theorem State.latch_cls (a i : Nat) : (s.latch a i).cls = s.cls := rfl
@[simp] theorem State.latch_smc (a i : Nat) : (s.latch a i).smc = s.smc := rfl
@[simp] theorem State.latch_freeCtr (a i : Nat) : (s.latch a i).freeCtr = s.freeCtr := rfl
@[simp] theorem State.latch_byte (a i : Nat) (b' : Nat) : (s.latch a i).byte b' = s.byte b' := rfl
@[simp] theorem State.latch_thread (a i : Nat) (j' : Nat) : (s.latch a i).thread j' = s.thread j' := rfl
@[simp] theorem State.latch_ctlc (a i : Nat) (j' : Nat) : (s.latch a i).ctlc j' = s.ctlc j' := rfl
@[simp] theorem State.latch_unit (a i : Nat) (j' : Nat) : (s.latch a i).unit j' = s.unit j' := rfl
@[simp] theorem State.latch_now (a i : Nat) : (s.latch a i).now = s.now := rfl
@[simp] theorem State.latch_inst (a i : Nat) (j' : Nat) : (s.latch a i).inst j' = s.inst j' := rfl
@[simp] theorem State.latch_core (a i : Nat) (j' : Nat) : (s.latch a i).core j' = s.core j' := rfl

/-! ### A read after a write -/

@[simp] theorem State.reg_setReg (a : Nat) (w : Word) (b : Nat) : (s.setReg a w).reg b = if b = a then w else s.reg b :=
  aget_aset _ _ _ _ _

@[simp] theorem State.byte_setByte (a : Nat) (w : Byte) (b : Nat) : (s.setByte a w).byte b = if b = a then w else s.byte b :=
  aget_aset _ _ _ _ _

@[simp] theorem State.thread_setThread (i : Nat) (x : Thread) (j : Nat) : (s.setThread i x).thread j = if j = i then x else s.thread j :=
  aget_aset _ _ _ _ _

@[simp] theorem State.ctlc_setCtlc (c : Nat) (x : CtlCore) (j : Nat) : (s.setCtlc c x).ctlc j = if j = c then x else s.ctlc j :=
  aget_aset _ _ _ _ _

@[simp] theorem State.unit_setUnit (u : Nat) (x : UnitSt) (j : Nat) : (s.setUnit u x).unit j = if j = u then x else s.unit j :=
  aget_aset _ _ _ _ _

@[simp] theorem State.inst_setInst (n : Nat) (i : Inst) (j : Nat) : (s.setInst n i).inst j = if j = n then i else s.inst j :=
  aget_aset _ _ _ _ _

@[simp] theorem State.core_setCore (c : Nat) (x : CoreSt) (j : Nat) : (s.setCore c x).core j = if j = c then x else s.core j :=
  aget_aset _ _ _ _ _

@[simp] theorem State.setThread_ctls (i : Nat) (x : Thread) : (s.setThread i x).cpu.ctls = s.cpu.ctls := rfl
@[simp] theorem State.setCtlc_threads (c : Nat) (x : CtlCore) : (s.setCtlc c x).cpu.threads = s.cpu.threads := rfl
@[simp] theorem State.setThread_ctlc (i : Nat) (x : Thread) (j : Nat) : (s.setThread i x).ctlc j = s.ctlc j := rfl
@[simp] theorem State.setCtlc_thread (c : Nat) (x : CtlCore) (j : Nat) : (s.setCtlc c x).thread j = s.thread j := rfl

/-- The field written reads the low bits of the value. -/
theorem State.fld_setFld (a lo len v : Nat) (h : lo + len ≤ 32) : (s.setFld a lo len v).fld a lo len = v % 2 ^ len := by
  simp only [State.setFld, State.fld, State.reg_setReg, if_true]; exact getField_putField _ _ _ _ h

/-- A field of another register, or apart from the field written, reads as before. -/
theorem State.fld_setFld_ne (a lo len v b lo' len' : Nat) (h : b ≠ a ∨ lo' + len' ≤ lo ∨ lo + len ≤ lo') :
    (s.setFld a lo len v).fld b lo' len' = s.fld b lo' len' := by
  simp only [State.setFld, State.fld, State.reg_setReg]
  by_cases hb : b = a
  · simp only [hb, if_true]; exact getField_putField_ne _ _ _ _ _ _ (by tauto)
  · simp [hb]

/-- The bit written reads as written. -/
theorem State.bit_setBit (a i : Nat) (b : Bool) (h : i < 32) : (s.setBit a i b).bit a i = b := by
  have := State.fld_setFld s a i 1 (if b then 1 else 0) (by omega)
  unfold State.bit State.setBit
  unfold State.fld at this
  rw [this]; cases b <;> rfl

/-- Another bit, or a bit of another register, reads as before. -/
theorem State.bit_setBit_ne (a i : Nat) (b : Bool) (a' j : Nat) (h : a' ≠ a ∨ j ≠ i) : (s.setBit a i b).bit a' j = s.bit a' j := by
  have := State.fld_setFld_ne s a i 1 (if b then 1 else 0) a' j 1 (by omega)
  unfold State.bit State.setBit
  unfold State.fld at this
  rw [this]

end Sys2Proof.Machine
end

