-- ==== Sys2Proof/Laws/Issue.lean ====
section
/-!
SUPPORT. Laws/Issue.lean: what the issue of an instruction does before its own effect, once for every instruction.
-/
namespace Sys2Proof.Machine

/-- What the budget monitor, a delivered load and a fetch leave alone. -/
structure SameBut (s t : State) : Prop where
  mem : t.mem = s.mem
  time : t.time = s.time
  cores : t.cores = s.cores
  pending : t.pending = s.pending

theorem SameBut.refl (s : State) : SameBut s s := ⟨rfl, rfl, rfl, rfl⟩
theorem SameBut.trans {a b c : State} (h : SameBut a b) (g : SameBut b c) : SameBut a c :=
  ⟨g.mem.trans h.mem, g.time.trans h.time, g.cores.trans h.cores, g.pending.trans h.pending⟩

/-- Threads and control cores stand as before. -/
structure SameHarts (s t : State) : Prop where
  threads : t.cpu.threads = s.cpu.threads
  ctls : t.cpu.ctls = s.cpu.ctls
  upsets : t.cpu.upsets = s.cpu.upsets

theorem SameHarts.refl (s : State) : SameHarts s s := ⟨rfl, rfl, rfl⟩
theorem SameHarts.trans {a b c : State} (h : SameHarts a b) (g : SameHarts b c) : SameHarts a c :=
  ⟨g.threads.trans h.threads, g.ctls.trans h.ctls, g.upsets.trans h.upsets⟩

theorem SameHarts.thread {s t : State} (h : SameHarts s t) (i : Nat) : t.thread i = s.thread i := by
  simp only [State.thread, h.threads]

theorem sendItem_same (s : State) (c : Nat) (l : List DWord) : SameBut s (s.sendItem c l) ∧ SameHarts s (s.sendItem c l) := by
  unfold State.sendItem
  split <;> exact ⟨⟨rfl, rfl, rfl, rfl⟩, ⟨rfl, rfl, rfl⟩⟩

theorem countIssue_same (s : State) (n q : Nat) : SameBut s (s.countIssue n q) ∧ SameHarts s (s.countIssue n q) := by
  unfold State.countIssue
  split
  · exact ⟨.refl _, .refl _⟩
  · dsimp only
    split <;> split <;> exact ⟨⟨rfl, rfl, rfl, rfl⟩, ⟨rfl, rfl, rfl⟩⟩

theorem hardAction_same (s : State) (i q : Nat)
    (h : ∀ c, s.coach q = some c → c.issued ≠ s.budget (stnOf i) ∨ c.overB = true ∨ s.fld (stnR (stnOf i) 8) 0 2 ≠ 2) :
    (s.hardAction i q).1 = true ∧ SameBut s (s.hardAction i q).2 ∧ SameHarts s (s.hardAction i q).2 := by
  unfold State.hardAction
  split
  · exact ⟨rfl, .refl _, .refl _⟩
  · rename_i c hc
    dsimp only
    split
    · exact ⟨rfl, .refl _, .refl _⟩
    · rename_i hne
      have hm : s.fld (stnR (stnOf i) 8) 0 2 ≠ 2 := by
        rcases h c hc with h | h | h
        · exact absurd (Or.inl h) hne
        · exact absurd (Or.inr h) hne
        · exact h
      have hf : (s.setCoach q { c with overB := true }).fld (stnR (stnOf i) 8) 0 2 = s.fld (stnR (stnOf i) 8) 0 2 := rfl
      rw [hf]
      have e1 : SameBut s (s.setCoach q { c with overB := true }) := ⟨rfl, rfl, rfl, rfl⟩
      have e2 : SameHarts s (s.setCoach q { c with overB := true }) := ⟨rfl, rfl, rfl⟩
      split
      · have := sendItem_same (s.setCoach q { c with overB := true }) (coreOf i) (trapItem 9 (thrOf i) false 0 q)
        exact ⟨rfl, e1.trans this.1, e2.trans this.2⟩
      · rename_i h2; exact absurd h2 hm
      · exact ⟨rfl, ⟨rfl, rfl, rfl, rfl⟩, ⟨rfl, rfl, rfl⟩⟩

theorem noteIssue_same (s : State) (i : Nat) : SameBut s (s.noteIssue i) ∧ SameHarts s (s.noteIssue i) ∧ (s.noteIssue i).coaches = s.coaches
    ∧ (s.noteIssue i).ctl = s.ctl := by
  unfold State.noteIssue
  split <;> exact ⟨⟨rfl, rfl, rfl, rfl⟩, ⟨rfl, rfl, rfl⟩, rfl, rfl⟩

theorem monitor_same (s : State) (i : Nat) (h : s.inBudget i) :
    (s.monitor i).1 = true ∧ SameBut s (s.monitor i).2 ∧ SameHarts s (s.monitor i).2 := by
  obtain ⟨e1, e2, e3, e4⟩ := noteIssue_same s i
  unfold State.monitor
  cases hq : s.chargedTo i with
  | none => exact ⟨rfl, e1, e2⟩
  | some q =>
    have hh := hardAction_same (s.noteIssue i) i q (by
      intro c hc
      have := h q c hq (by simpa only [State.coach, e3] using hc)
      simpa only [State.budget, State.fld, State.reg, e4] using this)
    cases hr : (s.noteIssue i).hardAction i q with
    | mk b s1 =>
      rw [hr] at hh
      obtain ⟨hb, h1, h2⟩ := hh
      simp only at hb; subst hb
      have := countIssue_same s1 (stnOf i) q
      simp only [hr]
      exact ⟨trivial, (e1.trans h1).trans this.1, (e2.trans h2).trans this.2⟩

/-- A packet-core instruction that issues: its effect is settled on a state with the due loads delivered and the budget counted. -/
theorem issuePkt_next {s : State} {n : Fin 16} {k : Fin 10} {t : Fin 8} {word : Nat} {falls : State → Bool} {body : State → Eff}
    (hi : Issues s (.pkt n k t)) (hw : Fetches s (.pkt n k t) word)
    (hf : ∀ u, SameHarts (s.setThread (threadId n k t) (s.thread (threadId n k t)).deliver.1) u → falls u = true →
      (s.thread (threadId n k t)).pc.toNat ≠ 0xFFFC) :
    ∃ u, s.issuePkt (threadId n k t) word true falls body = u.settle (threadId n k t) (body u)
      ∧ SameBut s u ∧ SameHarts (s.setThread (threadId n k t) (s.thread (threadId n k t)).deliver.1) u := by
  obtain ⟨h1, h2, h3, h4, h5⟩ := hi
  set i := threadId n k t with hid
  unfold State.issuePkt
  simp only [h1, h2, beq_self_eq_true, Bool.and_self, Bool.not_true, Bool.false_eq_true, if_false]
  cases hd : (s.thread i).deliver with
  | mk x bad =>
    rw [hd] at h3 hf
    simp only at h3; subst h3
    simp only at hf ⊢
    have hb : x.binding = (s.thread i).binding ∧ x.pc = (s.thread i).pc := by
      have hput : ∀ (l : List LoadWin) (y : Thread), (l.foldl (fun x w => if w.bad.isSome then x else x.put w.dest w.value) y).binding = y.binding
          ∧ (l.foldl (fun x w => if w.bad.isSome then x else x.put w.dest w.value) y).pc = y.pc := by
        intro l
        induction l with
        | nil => intro y; exact ⟨rfl, rfl⟩
        | cons w l ih =>
          intro y
          rw [List.foldl_cons]
          have := ih (if w.bad.isSome then y else y.put w.dest w.value)
          rw [this.1, this.2]
          split
          · exact ⟨rfl, rfl⟩
          · unfold Thread.put; split <;> exact ⟨rfl, rfl⟩
      have e : x = (s.thread i).deliver.1 := by rw [hd]
      rw [e]; exact hput _ _
    have hm := monitor_same (s.setThread i x) i (by
      intro q c hq hc
      refine h4 q c ?_ hc
      simp only [State.chargedTo, State.thread_setThread, if_true, hb.1] at hq
      exact hq)
    cases hr : (s.setThread i x).monitor i with
    | mk b s2 =>
      rw [hr] at hm
      obtain ⟨hb1, hm1, hm2⟩ := hm
      simp only at hb1 hm1 hm2; subst hb1
      have e0 : SameBut s (s.setThread i x) := ⟨rfl, rfl, rfl, rfl⟩
      refine ⟨s2, ?_, e0.trans hm1, hm2⟩
      have hu : s2.cpu.upsets = s.cpu.upsets := hm2.upsets
      have hn : s2.num (codeAddr i (s.thread i).pc.toNat) 4 = word := by
        rw [← (show s.codeWord i = word from hw)]
        simp only [State.codeWord, State.num, State.bytes, State.byte, hm1.mem, e0.mem]
      simp only [hu, hb.2, h5, Bool.false_eq_true, if_false, hn, ne_eq, not_true_eq_false]
      rw [if_neg]
      rintro ⟨hpc, hfl⟩
      exact hf s2 hm2 hfl hpc

theorem fillTlb_same (s : State) (l : List TlbEntry) (n : Nat) (e : TlbEntry) :
    SameBut s (fillTlb s l n e).2 ∧ SameHarts s (fillTlb s l n e).2 := by
  unfold fillTlb
  split <;> exact ⟨⟨rfl, rfl, rfl, rfl⟩, ⟨rfl, rfl, rfl⟩⟩

/-- What a translation leaves of a control core: everything but its TLB. -/
def CtlCore.sameBut (x y : CtlCore) : Prop := y.regs = x.regs ∧ y.lk = x.lk ∧ y.pc = x.pc ∧ y.sys = x.sys ∧ y.waiting = x.waiting

theorem CtlCore.sameBut_refl (x : CtlCore) : x.sameBut x := ⟨rfl, rfl, rfl, rfl, rfl⟩

theorem walkError_same (s : State) (a lvl asid req : Nat) (ecc : Bool) :
    SameBut s (s.walkError a lvl asid req ecc) ∧ SameHarts s (s.walkError a lvl asid req ecc) :=
  ⟨⟨rfl, rfl, rfl, rfl⟩, ⟨rfl, rfl, rfl⟩⟩

theorem translate_same (s : State) (c va kind : Nat) :
    SameBut s (s.translate c va kind).2 ∧ (s.translate c va kind).2.cpu.threads = s.cpu.threads
      ∧ ∀ j, (s.ctlc j).sameBut ((s.translate c va kind).2.ctlc j) := by
  have base : ∀ t : State, SameBut s t → SameHarts s t → SameBut s t ∧ t.cpu.threads = s.cpu.threads ∧ ∀ j, (s.ctlc j).sameBut (t.ctlc j) := by
    intro t h1 h2
    refine ⟨h1, h2.threads, fun j => ?_⟩
    simp only [State.ctlc, h2.ctls]
    exact CtlCore.sameBut_refl _
  have tlb : ∀ (e : TlbEntry), SameBut s ((fillTlb s (s.ctlc c).tlb 64 e).2.modCtlc c (fun x => { x with tlb := (fillTlb s (s.ctlc c).tlb 64 e).1 }))
      ∧ ((fillTlb s (s.ctlc c).tlb 64 e).2.modCtlc c (fun x => { x with tlb := (fillTlb s (s.ctlc c).tlb 64 e).1 })).cpu.threads = s.cpu.threads
      ∧ ∀ j, (s.ctlc j).sameBut (((fillTlb s (s.ctlc c).tlb 64 e).2.modCtlc c (fun x => { x with tlb := (fillTlb s (s.ctlc c).tlb 64 e).1 })).ctlc j) := by
    intro e
    obtain ⟨h1, h2⟩ := fillTlb_same s (s.ctlc c).tlb 64 e
    generalize (fillTlb s (s.ctlc c).tlb 64 e).2 = s1 at h1 h2
    generalize (fillTlb s (s.ctlc c).tlb 64 e).1 = l
    have e1 : ∀ j, s1.ctlc j = s.ctlc j := fun j => by simp only [State.ctlc, h2.ctls]
    refine ⟨h1.trans ⟨rfl, rfl, rfl, rfl⟩, h2.threads, fun j => ?_⟩
    simp only [State.modCtlc, State.ctlc_setCtlc]
    by_cases hj : j = c
    · subst hj; simp only [if_true, e1]; exact ⟨rfl, rfl, rfl, rfl, rfl⟩
    · simp only [hj, if_false, e1]; exact CtlCore.sameBut_refl _
  have we := fun a lvl asid req ecc => base _ (walkError_same s a lvl asid req ecc).1 (walkError_same s a lvl asid req ecc).2
  have same := base s (.refl _) (.refl _)
  unfold State.translate
  dsimp only
  repeat' split
  all_goals first | exact same | exact we _ _ _ _ _ | exact tlb _

/-- Reading a line of code moves the free counter at most. -/
theorem codeLine_same (s : State) (c ln : Nat) : SameBut s (s.codeLine c ln).2 ∧ SameHarts s (s.codeLine c ln).2 := by
  unfold State.codeLine
  dsimp only
  split
  all_goals split
  all_goals first | exact ⟨.refl _, .refl _⟩ | exact ⟨⟨rfl, rfl, rfl, rfl⟩, ⟨rfl, rfl, rfl⟩⟩

theorem codeFetch_same (s : State) (c a : Nat) :
    SameBut s (s.codeFetch c a).2 ∧ (s.codeFetch c a).2.cpu.threads = s.cpu.threads ∧ ∀ j, (s.ctlc j).sameBut ((s.codeFetch c a).2.ctlc j) := by
  have hl := codeLine_same s c (a / 64)
  unfold State.codeFetch
  split
  · cases hr : s.codeLine c (a / 64) with
    | mk l s1 =>
      rw [hr] at hl
      have e0 : s1.cpu.ctls = s.cpu.ctls := hl.2.ctls
      have e1 : ∀ j, s1.ctlc j = s.ctlc j := fun j => by simp only [State.ctlc, e0]
      refine ⟨hl.1.trans ⟨rfl, rfl, rfl, rfl⟩, hl.2.threads, fun j => ?_⟩
      simp only [State.modCtlc, State.ctlc_setCtlc]
      split
      · rename_i hj; subst hj; rw [e1]; exact ⟨rfl, rfl, rfl, rfl, rfl⟩
      · rw [e1]; exact CtlCore.sameBut_refl _
  · exact ⟨.refl _, rfl, fun j => CtlCore.sameBut_refl _⟩

/-- A fetch without a trap leaves everything but the TLB, the instruction cache and the free counter. -/
theorem fetchCtl_same (s : State) (c w : Nat) (h : (s.fetchCtl c).1 = .ok w) :
    SameBut s (s.fetchCtl c).2 ∧ (s.fetchCtl c).2.cpu.threads = s.cpu.threads ∧ ∀ j, (s.ctlc j).sameBut ((s.fetchCtl c).2.ctlc j) := by
  have ht := translate_same s c (s.ctlc c).pcOf.toNat 0
  unfold State.fetchCtl at h ⊢
  cases hr : s.translate c (s.ctlc c).pcOf.toNat 0 with
  | mk r t =>
    rw [hr] at h ht
    cases r with
    | error e => simp at h
    | ok a =>
      simp only at h ⊢
      split
      · exact ht
      · rename_i hreg
        rw [if_neg hreg] at h
        split
        · rename_i hu; rw [if_pos hu] at h; simp at h
        · have hc := codeFetch_same t c a
          refine ⟨ht.1.trans hc.1, hc.2.1.trans ht.2.1, fun j => ?_⟩
          obtain ⟨a1, a2, a3, a4, a5⟩ := ht.2.2 j
          obtain ⟨b1, b2, b3, b4, b5⟩ := hc.2.2 j
          exact ⟨b1.trans a1, b2.trans a2, b3.trans a3, b4.trans a4, b5.trans a5⟩

/-- A control-core instruction that issues: its effect is settled on a state whose TLB and instruction cache the fetch may have filled. -/
theorem issueCtl_next {s : State} {c : Fin 4} {word : Nat} {body : State → Eff} (hi : Issues s (.ctl c)) (h3 : Fetches s (.ctl c) word) :
    ∃ u, s.issueCtl c word true body = u.settleCtl c (body u) ∧ SameBut s u ∧ u.cpu.threads = s.cpu.threads
      ∧ ∀ j, (s.ctlc j).sameBut (u.ctlc j) := by
  obtain ⟨h1, h2⟩ := hi
  have h3 : (s.fetchCtl c).1 = .ok word := h3
  have hf := fetchCtl_same s c word h3
  unfold State.issueCtl
  simp only [h1, h2, Bool.not_true, Bool.or_self, Bool.false_eq_true, if_false]
  cases hr : s.fetchCtl c with
  | mk r t =>
    rw [hr] at h3 hf
    simp only at h3; subst h3
    exact ⟨t, by simp, hf⟩

theorem Thread.get_put (x : Thread) (r q : Nat) (v : DWord) : (x.put r v).get q = if q = r ∧ q ≠ 0 then v else x.get q := by
  unfold Thread.get Thread.put
  by_cases hq : q = 0
  · simp [hq]
  · by_cases hr : r = 0
    · have : ¬ q = r := by omega
      simp [hq, hr]
    · simp [hq, hr]

theorem CtlCore.get_put (x : CtlCore) (r q : Nat) (v : DWord) : (x.put r v).get q = if q = r ∧ q ≠ 0 then v else x.get q := by
  unfold CtlCore.get CtlCore.put
  by_cases hq : q = 0
  · simp [hq]
  · by_cases hr : r = 0
    · have : ¬ q = r := by omega
      simp [hq, hr]
    · simp [hq, hr]

theorem Thread.put_rest (x : Thread) (r : Nat) (v : DWord) : (x.put r v).pc = x.pc ∧ (x.put r v).lk = x.lk ∧ (x.put r v).run = x.run
    ∧ (x.put r v).xs = x.xs ∧ (x.put r v).binding = x.binding := by
  unfold Thread.put; split <;> exact ⟨rfl, rfl, rfl, rfl, rfl⟩

theorem CtlCore.put_rest (x : CtlCore) (r : Nat) (v : DWord) : (x.put r v).pc = x.pc ∧ (x.put r v).lk = x.lk ∧ (x.put r v).sys = x.sys := by
  unfold CtlCore.put; split <;> exact ⟨rfl, rfl, rfl⟩

/-- Delivered loads change registers alone. -/
theorem Thread.deliver_rest (x : Thread) : x.deliver.1.pc = x.pc ∧ x.deliver.1.lk = x.lk ∧ x.deliver.1.binding = x.binding
    ∧ x.deliver.1.run = x.run ∧ x.deliver.1.xs = x.xs := by
  have hput : ∀ (l : List LoadWin) (y : Thread),
      let z := l.foldl (fun x w => if w.bad.isSome then x else x.put w.dest w.value) y
      z.pc = y.pc ∧ z.lk = y.lk ∧ z.binding = y.binding ∧ z.run = y.run ∧ z.xs = y.xs := by
    intro l
    induction l with
    | nil => intro y; exact ⟨rfl, rfl, rfl, rfl, rfl⟩
    | cons w l ih =>
      intro y
      have h1 := ih (if w.bad.isSome then y else y.put w.dest w.value)
      have h2 : ∀ b : Bool, let y' := (if b then y else y.put w.dest w.value)
          y'.pc = y.pc ∧ y'.lk = y.lk ∧ y'.binding = y.binding ∧ y'.run = y.run ∧ y'.xs = y.xs := by
        intro b; cases b
        · have := y.put_rest w.dest w.value; simp only [Bool.false_eq_true, if_false]; tauto
        · simp
      have h2 := h2 w.bad.isSome
      simp only [List.foldl_cons]
      simp only at h1 h2
      refine ⟨h1.1.trans h2.1, h1.2.1.trans h2.2.1, h1.2.2.1.trans h2.2.2.1, h1.2.2.2.1.trans h2.2.2.2.1, h1.2.2.2.2.trans h2.2.2.2.2⟩
  exact hput _ _

/-- How wide the pc of a hart is. -/
def pcMod : Hart → Nat
  | .pkt _ _ _ => 2 ^ 16
  | .ctl _ => 2 ^ 64

/-- A packet-core thread that has changed its registers, pc and lk alone is `Done`. -/
theorem done_pkt {s u t : State} {n : Fin 16} {k : Fin 10} {j : Fin 8} (rd : Nat) (v : DWord) (pc lk : BitVec 16)
    (hr : ∀ r, u.rget (.pkt n k j) r = s.operand (.pkt n k j) r) (hf : Frame s u (.pkt n k j))
    (hx : t.thread (threadId n k j) = { (u.thread (threadId n k j)).put rd v with pc := pc, lk := lk })
    (ho : ∀ i, i ≠ threadId n k j → t.thread i = u.thread i) (hc : t.cpu.ctls = u.cpu.ctls) (hm : t.mem = u.mem) (ht : t.time = u.time) :
    Done (.pkt n k j) rd v pc.toNat lk.toNat s t := by
  refine ⟨fun r => ?_, ?_, ?_, ⟨hm.trans hf.mem, ht.trans hf.time, ?_, ?_⟩⟩
  · have h1 := hr r
    simp only [State.rget] at h1 ⊢
    rw [hx]
    change Thread.get ((u.thread (threadId n k j)).put rd v) r = _
    rw [Thread.get_put, h1]
  · simp only [State.pcOf]; rw [hx]
  · simp only [State.lkOf]; rw [hx]
  · intro i hi
    have hne : i ≠ threadId n k j := fun e => hi (by rw [e]; rfl)
    rw [ho i hne]; exact hf.others i hi
  · intro c k'
    rw [← hf.sys c k']
    simp only [State.sysReg, State.ctlc, hc, State.now, ht]

/-- A control core that has changed its registers, pc and lk alone is `Done`. -/
theorem done_ctl {s u t : State} {c : Fin 4} (rd : Nat) (v : DWord) (pc lk : BitVec 64)
    (hr : ∀ r, u.rget (.ctl c) r = s.operand (.ctl c) r) (hf : Frame s u (.ctl c))
    (hx : t.ctlc c = { (u.ctlc c).put rd v with pc := some pc, lk := lk })
    (ho : ∀ d, d ≠ (c : Nat) → t.ctlc d = u.ctlc d) (hc : t.cpu.threads = u.cpu.threads) (hm : t.mem = u.mem) (ht : t.time = u.time) :
    Done (.ctl c) rd v pc.toNat lk.toNat s t := by
  refine ⟨fun r => ?_, ?_, ?_, ⟨hm.trans hf.mem, ht.trans hf.time, ?_, ?_⟩⟩
  · have h1 := hr r
    simp only [State.rget] at h1 ⊢
    rw [hx]
    change CtlCore.get ((u.ctlc c).put rd v) r = _
    rw [CtlCore.get_put, h1]
  · simp only [State.pcOf]; rw [hx]; rfl
  · simp only [State.lkOf]; rw [hx]
  · intro i hi
    rw [← hf.others i hi]; simp only [State.thread, hc]
  · intro d k'
    rw [← hf.sys d k']
    simp only [State.sysReg, State.now, ht]
    by_cases hd : d = (c : Nat)
    · rw [hd, hx]; simp only [((u.ctlc c).put_rest rd v).2.2]
    · rw [ho d hd]

theorem CtlCore.put_pcOf (x : CtlCore) (r : Nat) (v : DWord) : (x.put r v).pcOf = x.pcOf := by
  unfold CtlCore.put; split <;> rfl

theorem nextPc_same {s u : State} {h : Hart} (hp : u.pcOf h = s.pcOf h) : u.nextPc h = s.nextPc h := by
  cases h with
  | pkt n k t =>
    have : (u.thread (threadId n k t)).pc = (s.thread (threadId n k t)).pc := BitVec.eq_of_toNat_eq hp
    simp only [State.nextPc, this]
  | ctl c =>
    have : (u.ctlc c).pcOf = (s.ctlc c).pcOf := BitVec.eq_of_toNat_eq hp
    simp only [State.nextPc, this]

/-- The state an effect leaves on a hart. -/
def State.settleHart (u : State) : Hart → Eff → State
  | .pkt n k t, e => u.settle (threadId n k t) e
  | .ctl c, e => u.settleCtl c e

/-- An effect that writes one register, and perhaps lk, and goes on. -/
theorem settle_next {s u : State} {h : Hart} (rd : Nat) (v : DWord) (hr : ∀ r, u.rget h r = s.operand h r) (hf : Frame s u h)
    (hp : u.pcOf h = s.pcOf h) (hl : u.lkOf h = s.lkOf h) :
    Done h rd v (s.nextPc h) (s.lkOf h) s (u.settleHart h (.next (u.rset h rd v))) := by
  rw [← nextPc_same hp, ← hl]
  cases h with
  | pkt n k t =>
    have hq := (u.thread (threadId n k t)).put_rest rd v
    refine done_pkt rd v ((u.thread (threadId n k t)).pc + 4) (u.thread (threadId n k t)).lk hr hf ?_ ?_ (by simp [State.settleHart, State.settle, State.settleCtl, State.stepPc, State.rset, State.modThread, State.modCtlc]) (by simp [State.settleHart, State.settle, State.settleCtl, State.stepPc, State.rset, State.modThread, State.modCtlc]) (by simp [State.settleHart, State.settle, State.settleCtl, State.stepPc, State.rset, State.modThread, State.modCtlc])
    · simp only [State.settleHart, State.settle, State.stepPc, State.rset, State.modThread, State.thread_setThread, if_true, hq.1]
      rw [← hq.2.1]
    · intro i hi
      simp only [State.settleHart, State.settle, State.stepPc, State.rset, State.modThread, State.thread_setThread, hi, if_false]
  | ctl c =>
    have hq := (u.ctlc c).put_rest rd v
    refine done_ctl rd v ((u.ctlc c).pcOf + 4) (u.ctlc c).lk hr hf ?_ ?_ (by simp [State.settleHart, State.settle, State.settleCtl, State.stepPc, State.rset, State.modThread, State.modCtlc]) (by simp [State.settleHart, State.settle, State.settleCtl, State.stepPc, State.rset, State.modThread, State.modCtlc]) (by simp [State.settleHart, State.settle, State.settleCtl, State.stepPc, State.rset, State.modThread, State.modCtlc])
    · simp only [State.settleHart, State.settleCtl, State.rset, State.modCtlc, State.ctlc_setCtlc, if_true, CtlCore.put_pcOf]
      rw [← hq.2.1]
    · intro i hi
      simp only [State.settleHart, State.settleCtl, State.rset, State.modCtlc, State.ctlc_setCtlc, hi, if_false]

/-- An effect that writes no register and goes on. -/
theorem settle_next_same {s u : State} {h : Hart} (hr : ∀ r, u.rget h r = s.operand h r) (hf : Frame s u h)
    (hp : u.pcOf h = s.pcOf h) (hl : u.lkOf h = s.lkOf h) :
    Done h 0 0 (s.nextPc h) (s.lkOf h) s (u.settleHart h (.next u)) := by
  rw [← nextPc_same hp, ← hl]
  cases h with
  | pkt n k t =>
    refine done_pkt 0 0 ((u.thread (threadId n k t)).pc + 4) (u.thread (threadId n k t)).lk hr hf ?_ ?_ (by simp [State.settleHart, State.settle, State.settleCtl, State.stepPc, State.modThread, State.modCtlc]) (by simp [State.settleHart, State.settle, State.settleCtl, State.stepPc, State.modThread, State.modCtlc]) (by simp [State.settleHart, State.settle, State.settleCtl, State.stepPc, State.modThread, State.modCtlc])
    · simp only [State.settleHart, State.settle, State.stepPc, State.modThread, State.thread_setThread, if_true]; rfl
    · intro i hi
      simp only [State.settleHart, State.settle, State.stepPc, State.modThread, State.thread_setThread, hi, if_false]
  | ctl c =>
    refine done_ctl 0 0 ((u.ctlc c).pcOf + 4) (u.ctlc c).lk hr hf ?_ ?_ (by simp [State.settleHart, State.settle, State.settleCtl, State.stepPc, State.modThread, State.modCtlc]) (by simp [State.settleHart, State.settle, State.settleCtl, State.stepPc, State.modThread, State.modCtlc]) (by simp [State.settleHart, State.settle, State.settleCtl, State.stepPc, State.modThread, State.modCtlc])
    · simp only [State.settleHart, State.settleCtl, State.modCtlc, State.ctlc_setCtlc, if_true]; rfl
    · intro i hi
      simp only [State.settleHart, State.settleCtl, State.modCtlc, State.ctlc_setCtlc, hi, if_false]

/-- A jump that a hart may make goes to its target. -/
theorem jumpTo_ok {h : Hart} {target : Int} (ht : TargetOk h target) (u : State) :
    jumpTo h target u = .goto u (targetPc target) ∧ targetPc target < pcMod h := by
  have e3 : intBits 64 target = targetPc target := rfl
  cases h with
  | pkt n k t =>
    obtain ⟨h1, h2, h3⟩ := ht
    have e1 : ¬ (target < 0 ∨ (0xFFFF : Int) < target) := by omega
    have e4 : (targetPc target : Int) = target := by
      unfold targetPc; rw [Int.emod_eq_of_lt h1 (by omega)]; omega
    have e2 : ¬ targetPc target % 4 ≠ 0 := by omega
    exact ⟨by simp only [jumpTo, e1, if_false, e3, e2], by simp only [pcMod]; omega⟩
  | ctl c =>
    have ht : target % 4 = 0 := ht
    have e2 : ¬ targetPc target % 4 ≠ 0 := by
      have : (targetPc target : Int) = target % 2 ^ 64 := by unfold targetPc; omega
      omega
    exact ⟨by simp only [jumpTo, e3, e2, if_false], by simp only [pcMod, targetPc]; omega⟩

/-- An effect that jumps from a state `w` in which this hart alone has changed: register rd and lk. -/
theorem settle_goto {s u w : State} {h : Hart} (rd : Nat) (v : DWord) (lk : Nat) (pc : Nat)
    (hr : ∀ r, u.rget h r = s.operand h r) (hf : Frame s u h) (hpc : pc < pcMod h)
    (hw : match h with
      | .pkt n k t => ∃ l : BitVec 16, lk = l.toNat ∧ w.thread (threadId n k t) = { (u.thread (threadId n k t)).put rd v with lk := l }
          ∧ (∀ i, i ≠ threadId n k t → w.thread i = u.thread i) ∧ w.cpu.ctls = u.cpu.ctls ∧ w.mem = u.mem ∧ w.time = u.time
      | .ctl c => ∃ l : BitVec 64, lk = l.toNat ∧ w.ctlc c = { (u.ctlc c).put rd v with lk := l }
          ∧ (∀ d, d ≠ (c : Nat) → w.ctlc d = u.ctlc d) ∧ w.cpu.threads = u.cpu.threads ∧ w.mem = u.mem ∧ w.time = u.time) :
    Done h rd v pc lk s (u.settleHart h (.goto w pc)) := by
  cases h with
  | pkt n k t =>
    obtain ⟨l, rfl, h1, h2, h3, h4, h5⟩ := hw
    have e6 : pc = (BitVec.ofNat 16 pc).toNat := by rw [BitVec.toNat_ofNat]; exact (Nat.mod_eq_of_lt hpc).symm
    rw [e6]
    refine done_pkt rd v _ l hr hf ?_ ?_ ?_ ?_ ?_
    · simp only [State.settleHart, State.settle, State.modThread, State.thread_setThread, if_true, h1]; rw [← e6]
    · intro i hi
      simp only [State.settleHart, State.settle, State.modThread, State.thread_setThread, hi, if_false, h2 i hi]
    all_goals simp [State.settleHart, State.settle, State.modThread, h3, h4, h5]
  | ctl c =>
    obtain ⟨l, rfl, h1, h2, h3, h4, h5⟩ := hw
    have e6 : pc = (BitVec.ofNat 64 pc).toNat := by rw [BitVec.toNat_ofNat]; exact (Nat.mod_eq_of_lt hpc).symm
    rw [e6]
    refine done_ctl rd v _ l hr hf ?_ ?_ ?_ ?_ ?_
    · simp only [State.settleHart, State.settleCtl, State.modCtlc, State.ctlc_setCtlc, if_true, h1]; rw [← e6]
    · intro i hi
      simp only [State.settleHart, State.settleCtl, State.modCtlc, State.ctlc_setCtlc, hi, if_false, h2 i hi]
    all_goals simp [State.settleHart, State.settleCtl, State.modCtlc, h3, h4, h5]

/-- What a hart reads in the state on which its instruction's effect is settled. -/
theorem issue_next {s : State} {h : Hart} {word : Nat} {falls : State → Bool} {body : State → Eff} (hi : Issues s h)
    (hw : Fetches s h word) (hf : ∀ u, (∀ r, u.rget h r = s.operand h r) → falls u = true → Falls s h) :
    ∃ u, s.issue h word true falls body = u.settleHart h (body u)
      ∧ (∀ r, u.rget h r = s.operand h r) ∧ u.pcOf h = s.pcOf h ∧ u.lkOf h = s.lkOf h ∧ Frame s u h ∧ u.cores = s.cores
      ∧ u.pending = s.pending := by
  cases h with
  | pkt n k t =>
    have key : ∀ u, SameHarts (s.setThread (threadId n k t) (s.thread (threadId n k t)).deliver.1) u →
        ∀ r, u.rget (.pkt n k t) r = s.operand (.pkt n k t) r := by
      intro u h r
      simp only [State.rget, State.operand, h.thread, State.thread_setThread, if_true]
    obtain ⟨u, h1, h2, h3⟩ := issuePkt_next (word := word) (falls := falls) (body := body) hi hw
      (fun u hu hfl => hf u (key u hu) hfl)
    have hd := (s.thread (threadId n k t)).deliver_rest
    refine ⟨u, h1, key u h3, ?_, ?_, ⟨h2.mem, h2.time, ?_, ?_⟩, h2.cores, h2.pending⟩
    · simp only [State.pcOf, h3.thread, State.thread_setThread, if_true, hd.1]
    · simp only [State.lkOf, h3.thread, State.thread_setThread, if_true, hd.2.1]
    · intro j hj
      have : j ≠ threadId n k t := fun e => hj (by rw [e]; rfl)
      simp only [h3.thread, State.thread_setThread, this, if_false]
    · intro c k'
      have : u.cpu.ctls = s.cpu.ctls := h3.ctls
      simp only [State.sysReg, State.ctlc, this, State.now, h2.time]
  | ctl c =>
    obtain ⟨u, h1, h2, h3, h4⟩ := issueCtl_next (word := word) (body := body) hi hw
    refine ⟨u, h1, ?_, ?_, ?_, ⟨h2.mem, h2.time, ?_, ?_⟩, h2.cores, h2.pending⟩
    · intro r; simp only [State.rget, State.operand, CtlCore.get, (h4 c).1]
    · simp only [State.pcOf, CtlCore.pcOf, (h4 c).2.2.1]
    · simp only [State.lkOf, (h4 c).2.1]
    · intro j _; simp only [State.thread, h3]
    · intro d k'
      simp only [State.sysReg, (h4 d).2.2.2.1, State.now, h2.time]

/-- An instruction that computes a register and goes on. -/
theorem issue_wrote {s : State} {h : Hart} {word : Nat} {falls : State → Bool} (rd : BitVec 5) (f : State → DWord) (v : DWord)
    (hi : Issues s h) (hw : Fetches s h word) (hfl : Falls s h) (hf : ∀ u, (∀ r, u.rget h r = s.operand h r) → u.lkOf h = s.lkOf h → f u = v) :
    Wrote h rd v s (s.issue h word true falls (fun s => .next (s.rset h rd.toNat (f s)))) := by
  obtain ⟨u, h1, h2, h3, h4, h5, -, -⟩ := issue_next (word := word) (falls := falls)
    (body := fun s => .next (s.rset h rd.toNat (f s))) hi hw (fun _ _ _ => hfl)
  rw [h1, hf u h2 h4]
  exact settle_next _ _ h2 h5 h3 h4

end Sys2Proof.Machine
end

