-- ==== Sys2Proof/Laws/Memory.lean ====
section
/-!
SUPPORT. Laws/Memory.lean: every operation on memory and on control-space words keeps the canonical form, and a byte of memory reads
back after a store while every other byte stays.
-/
namespace Sys2Proof.Machine

variable {s : State}

/-! ### The canonical form of memory -/

theorem Memory.wf_nil : Memory.wf [] = true := rfl

theorem Memory.wf_filter (p : Nat × Byte → Bool) (h : Memory.wf s.mem = true) : Memory.wf (s.mem.filter p) = true := awf_filter _ _ p h

theorem State.setByte_wf (a : Nat) (b : Byte) (h : Memory.wf s.mem = true) : Memory.wf (s.setByte a b).mem = true := awf_aset _ _ a b h

theorem State.setBytes_wf (l : List Byte) : ∀ {s : State} (a : Nat), Memory.wf s.mem = true → Memory.wf (s.setBytes a l).mem = true := by
  induction l with
  | nil => exact fun _ h => h
  | cons b t ih => exact fun a h => ih (a + 1) (State.setByte_wf a b h)

theorem State.setNum_wf (a n v : Nat) (h : Memory.wf s.mem = true) : Memory.wf (s.setNum a n v).mem = true := State.setBytes_wf _ a h

/-- A loop over steps that keep the form keeps it. -/
theorem Memory.wf_foldl {α : Type} (f : State → α → State) (hf : ∀ s x, Memory.wf s.mem = true → Memory.wf (f s x).mem = true) (l : List α) :
    ∀ s : State, Memory.wf s.mem = true → Memory.wf (l.foldl f s).mem = true := by
  induction l with
  | nil => exact fun _ h => h
  | cons x t ih => exact fun s h => ih (f s x) (hf s x h)

theorem State.recall_wf (ln : Nat) (h : Memory.wf s.mem = true) : Memory.wf (s.recall ln).mem = true := by
  unfold State.recall
  split
  · exact h
  · exact Memory.wf_foldl (fun (s : State) c => s.setCtlc c _) (fun _ _ h => h) _ _ (State.setBytes_wf _ _ h)

theorem State.heal_wf (a n : Nat) (h : Memory.wf s.mem = true) : Memory.wf (s.heal a n).mem = true := h

theorem State.storeBytes_wf (a : Nat) (l : List Byte) (h : Memory.wf s.mem = true) : Memory.wf (s.storeBytes a l).mem = true :=
  State.heal_wf _ _ (State.setBytes_wf l a h)

theorem State.writeBytes_wf (a : Nat) (l : List Byte) (h : Memory.wf s.mem = true) : Memory.wf (s.writeBytes a l).mem = true := by
  refine State.storeBytes_wf a l (Memory.wf_foldl _ (fun s i h => ?_) _ _ h)
  split
  · exact State.recall_wf _ h
  · exact h

theorem State.writeNum_wf (a n v : Nat) (h : Memory.wf s.mem = true) : Memory.wf (s.writeNum a n v).mem = true := State.writeBytes_wf _ _ h

/-! ### Reading after a store -/

/-- A store changes no byte outside the bytes stored. -/
theorem State.byte_setBytes_ne (l : List Byte) : ∀ {s : State} (a j : Nat), (j < a ∨ a + l.length ≤ j) → (s.setBytes a l).byte j = s.byte j := by
  induction l with
  | nil => exact fun _ _ _ => rfl
  | cons b t ih =>
    intro s a j h
    simp only [List.length_cons] at h
    rw [State.setBytes, ih (a + 1) j (by omega), State.byte_setByte, if_neg (by omega)]

/-- A byte of a store reads back. -/
theorem State.byte_setBytes (l : List Byte) : ∀ {s : State} (a i : Nat) (h : i < l.length), (s.setBytes a l).byte (a + i) = l[i] := by
  induction l with
  | nil => exact fun _ _ h => absurd h (Nat.not_lt_zero _)
  | cons b t ih =>
    intro s a i h
    rw [State.setBytes]
    cases i with
    | zero => rw [State.byte_setBytes_ne t (a + 1) (a + 0) (by omega), State.byte_setByte]; simp
    | succ i =>
      have e : a + (i + 1) = a + 1 + i := by omega
      rw [e, ih (a + 1) i (by simpa using h)]; simp

/-! ### The canonical form of control space -/

theorem State.setReg_wf (a : Nat) (w : Word) (h : Control.wf s.ctl = true) : Control.wf (s.setReg a w).ctl = true := awf_aset _ _ a w h

theorem State.setFld_wf (a lo len v : Nat) (h : Control.wf s.ctl = true) : Control.wf (s.setFld a lo len v).ctl = true :=
  State.setReg_wf _ _ h

theorem State.setBit_wf (a i : Nat) (b : Bool) (h : Control.wf s.ctl = true) : Control.wf (s.setBit a i b).ctl = true :=
  State.setFld_wf _ _ _ _ h

theorem State.count_wf (a lo len k : Nat) (h : Control.wf s.ctl = true) : Control.wf (s.count a lo len k).ctl = true :=
  State.setFld_wf _ _ _ _ h

end Sys2Proof.Machine
end

