-- ==== Sys2Proof/Tests/Slice0.lean ====
section
/-!
SUPPORT. Tests/Slice0.lean: for every statement of Certificates/Slice0/Obligations.lean, concrete states and operands that meet its
hypotheses, clause by clause, with what the command does there; and an ill-formed command for each check of WellFormed.lean. Expected
values are worked out from the rules named in the statements.
-/
namespace Sys2Proof.Tests
open Sys2Proof.Machine

set_option maxRecDepth 100000
set_option Elab.async false

/-- `s` with the word `w` at the pc of hart `h`, where it fetches it; a control core translates no fetch here. -/
def place (h : Hart) (w : Nat) (s : State) : State := match h with
  | .pkt n k t => s.setNum (codeAddr (threadId n k t) (s.thread (threadId n k t)).pc.toNat) 4 w
  | .ctl c => s.setNum (s.pcOf (.ctl c)) 4 w

/-- `s` with the word of an instruction command at the pc of its hart. -/
def placed (c : Instr) (s : State) : State := match wordOf c with
  | some (h, w) => place h w s
  | none => s

/-- The state a command leaves, its own word standing where its hart fetches. -/
def after (c : Instr) (s : State) : State := match exec c (placed c s) with
  | .next t => t
  | _ => s

/-- The instruction command leaves the state as it was. -/
abbrev same (c : Instr) (s : State) : Prop := after c s = placed c s

/-- The bytes of memory that do not stand in instruction scratch of core 0 of station 0 from pc 0 on. -/
def dataMem (s : State) : List Host.Cell := s.mem.filter (fun e => decide (e.1 < codeAddr 0 0 ∨ codeAddr 0 4 ≤ e.1))

/-- The budget lets thread i issue, as a computation. -/
def budgetOk (s : State) (i : Nat) : Bool := match s.chargedTo i with
  | none => true
  | some q => match s.coach q with
    | none => true
    | some c => c.issued != s.budget (stnOf i) || c.overB || s.fld (stnR (stnOf i) 8) 0 2 != 2

/-- The conditions of `Issues` for a packet-core thread, as a computation. -/
def issuesNow (s : State) (n : Fin 16) (k : Fin 10) (t : Fin 8) : Bool :=
  let i := threadId n k t
  s.coreRuns (coreOf i) && decide ((s.thread i).run = .ready) && decide ((s.thread i).deliver.2 = none) && budgetOk s i
    && !aget (fun _ => false) s.cpu.upsets (codeAddr i (s.thread i).pc.toNat / 8)

theorem inBudget_of_ok {s : State} {i : Nat} (h : budgetOk s i = true) : s.inBudget i := by
  intro q c hq hc
  simp only [budgetOk, hq, hc, Bool.or_eq_true, bne_iff_ne] at h
  rcases h with (h | h) | h
  · exact .inl h
  · exact .inr (.inl h)
  · exact .inr (.inr h)

theorem issues_of_now {s : State} {n : Fin 16} {k : Fin 10} {t : Fin 8} (h : issuesNow s n k t = true) : Issues s (.pkt n k t) := by
  simp only [issuesNow, Bool.and_eq_true, decide_eq_true_eq, Bool.not_eq_true'] at h
  exact ⟨h.1.1.1.1, h.1.1.1.2, h.1.1.2, inBudget_of_ok h.1.2, h.2⟩

/-- The module with its packet path running: core 0 of station 0 in service, its thread 0 ready at pc 0; control core 0 in control SRAM. -/
def up : State :=
  (((State.reset.setFld bootB 0 4 7).setRole 0 (.service 0)).setThread 0 { run := .ready }).modCtlc 0 (fun x => { x with pc := some 0x20100000 })

/-- Thread 0 of core 0 of station 0, and control core 0. -/
abbrev p0 : Hart := .pkt 0 0 0
abbrev c0 : Hart := .ctl 0

/-- `s` with w1 and w2 of both harts holding `a` and `b`. -/
def with2 (s : State) (a b : DWord) : State :=
  (s.setThread 0 { s.thread 0 with regs := [(1, a), (2, b)] }).modCtlc 0 (fun x => { x with regs := [(1, a), (2, b)] })

/-- What w3 of both harts holds after `c`, which names the hart. -/
def w3 (c : Hart → Instr) (s : State) : DWord × DWord := ((after (c p0) s).rget p0 3, (after (c c0) s).rget c0 3)

/-- Both harts take `v`. -/
def both (v : DWord) : DWord × DWord := (v, v)

/-! ### Instructions -/

/-- Hypotheses of AluResults, ImmediateAndFieldResults, ControlFlowResults and SoftIllegalAndJumpTraps: both harts issue. -/
theorem test_harts_issue : Issues up p0 ∧ Falls up p0 ∧ Issues up c0 ∧ Falls up c0 := by
  refine ⟨issues_of_now (by decide +kernel), by simp only [Falls]; decide +kernel, ?_, trivial⟩
  simp only [Issues]
  decide +kernel

theorem ok_of_some {ε α : Type} {x : Except ε α} {a : α} (h : x.toOption = some a) : x = .ok a := by
  cases x with
  | error _ => simp [Except.toOption] at h
  | ok _ => simpa [Except.toOption] using h

/-- Fetches: each hart fetches the word that stands at its pc; ADD w3, w1, w2 is 0x04611000 (Table 5.1). -/
theorem test_harts_fetch :
    let c := fun (h : Hart) => Instr.add h 3 1 2
    Fetches (placed (c p0) up) p0 0x04611000 ∧ Fetches (placed (c c0) up) c0 0x04611000 ∧ wordOf (c p0) = some (p0, 0x04611000) := by
  exact ⟨by simp only [Fetches]; decide +kernel, ok_of_some (by decide +kernel), by decide +kernel⟩

theorem test_AluResults :
    let s := with2 up 0x8000000000000001 0xFFFFFFFFFFFFFFFF
    w3 (.add · 3 1 2) s = both 0x8000000000000000 ∧ w3 (.sub · 3 1 2) s = both 0x8000000000000002
    ∧ w3 (.and · 3 1 2) s = both 0x8000000000000001 ∧ w3 (.or · 3 1 2) s = both 0xFFFFFFFFFFFFFFFF
    ∧ w3 (.xor · 3 1 2) s = both 0x7FFFFFFFFFFFFFFE ∧ w3 (.andn · 3 1 2) s = both 0
    ∧ w3 (.sll · 3 1 2) s = both 0x8000000000000000 ∧ w3 (.srl · 3 1 2) s = both 1 ∧ w3 (.sra · 3 1 2) s = both 0xFFFFFFFFFFFFFFFF
    ∧ w3 (.slt · 3 1 2) s = both 1 ∧ w3 (.sltu · 3 1 2) s = both 1 ∧ w3 (.sltu · 3 2 1) s = both 0
    ∧ w3 (.min · 3 1 2) s = both 0x8000000000000001 ∧ w3 (.max · 3 1 2) s = both 0xFFFFFFFFFFFFFFFF
    ∧ w3 (.minu · 3 1 2) s = both 0x8000000000000001 ∧ w3 (.maxu · 3 1 2) s = both 0xFFFFFFFFFFFFFFFF
    ∧ w3 (.mul · 3 1 2) s = both 0x7FFFFFFFFFFFFFFF ∧ w3 (.mulh · 3 1 2) s = both 0 ∧ w3 (.mulhu · 3 1 2) s = both 0x8000000000000000 := by
  decide +kernel

theorem test_AluResults_one_operand :
    let s := with2 up 0x0123456789ABCDEF 0
    w3 (.revh · 3 1) s = both 0xEFCD ∧ w3 (.revw · 3 1) s = both 0xEFCDAB89 ∧ w3 (.revd · 3 1) s = both 0xEFCDAB8967452301
    ∧ w3 (.clz · 3 1) s = both 7 ∧ w3 (.ctz · 3 1) s = both 0 ∧ w3 (.popc · 3 1) s = both 32
    ∧ w3 (.clz · 3 2) s = both 64 ∧ w3 (.ctz · 3 2) s = both 64 ∧ w3 (.popc · 3 2) s = both 0 := by
  decide +kernel

theorem test_ImmediateAndFieldResults :
    let s := with2 up 0x0123456789ABCDEF 0
    w3 (.addi · 3 1 0xFFFF) s = both 0x0123456789ABCDEE ∧ w3 (.andi · 3 1 0xFFFF) s = both 0xCDEF ∧ w3 (.ori · 3 2 0x8000) s = both 0x8000
    ∧ w3 (.xori · 3 1 0xFFFF) s = both 0x0123456789AB3210 ∧ w3 (.slti · 3 2 0x8000) s = both 0 ∧ w3 (.sltiu · 3 1 0x8000) s = both 1
    ∧ w3 (.slli · 3 1 63) s = both 0x8000000000000000 ∧ w3 (.srli · 3 1 56) s = both 1 ∧ w3 (.srai · 3 1 4) s = both 0x00123456789ABCDE
    ∧ w3 (.lui · 3 0x8000) s = both 0xFFFFFFFF80000000 ∧ w3 (.ins16 · 3 3 0xFFFF) s = both 0xFFFF000000000000
    ∧ w3 (.bfx · 3 1 60 3 true) s = both 0 ∧ w3 (.bfx · 3 1 0 3 true) s = both 0xFFFFFFFFFFFFFFFF ∧ w3 (.bfx · 3 1 0 63 false) s = both 0x0123456789ABCDEF
    ∧ w3 (.bfi · 3 1 60 3) s = both 0xF000000000000000 := by
  decide +kernel

/-- Where a hart stands: pc and lk. -/
def at_ (c : Hart → Instr) (s : State) : List Nat :=
  [(after (c p0) s).pcOf p0, (after (c p0) s).lkOf p0, (after (c c0) s).pcOf c0, (after (c c0) s).lkOf c0]

theorem test_ControlFlowResults :
    let s := (with2 up 0x100 0xFFFFFFFFFFFFFFFF).setThread 0 { (with2 up 0x100 0xFFFFFFFFFFFFFFFF).thread 0 with pc := 0x40, lk := 0x80 }
    let t := with2 s 1 1
    TargetOk p0 (0x40 + 0x4 * 4) ∧ TargetOk c0 (0x20100000 - 4 * 4) ∧ s.pcOf c0 = 0x20100000
    ∧ at_ (.beq · 1 1 4) s = [0x50, 0x80, 0x20100010, 0] ∧ at_ (.bne · 1 1 4) s = [0x44, 0x80, 0x20100004, 0]
    ∧ at_ (.blt · 2 1 0xFFFC) s = [0x30, 0x80, 0x200FFFF0, 0] ∧ at_ (.bge · 2 1 4) s = [0x44, 0x80, 0x20100004, 0]
    ∧ at_ (.bltu · 2 1 4) s = [0x44, 0x80, 0x20100004, 0] ∧ at_ (.bgeu · 2 1 4) s = [0x50, 0x80, 0x20100010, 0]
    ∧ at_ (.dbnz · 1 4) s = [0x50, 0x80, 0x20100010, 0] ∧ at_ (.dbnz · 1 4) t = [0x44, 0x80, 0x20100004, 0]
    ∧ (after (.dbnz p0 1 4) t).rget p0 1 = 0 ∧ (after (.dbnz c0 1 4) s).rget c0 1 = 0xFF
    ∧ at_ (.jal · 4) s = [0x50, 0x44, 0x20100010, 0x20100004] ∧ at_ (.jr · 1) s = [0x100, 0x80, 0x100, 0] ∧ at_ (.jalr · 1) s = [0x100, 0x44, 0x100, 0x20100004]
    ∧ at_ (.ret ·) s = [0x80, 0x80, 0, 0] ∧ (after (.mflk p0 3) s).rget p0 3 = 0x80 ∧ at_ (.mtlk · 1) s = [0x44, 0x100, 0x20100004, 0x100]
    ∧ at_ (.fence ·) s = [0x44, 0x80, 0x20100004, 0] := by
  simp only [TargetOk]
  decide +kernel

/-- What a trap of both harts leaves: the item in ch14 and the run state; EPC, ECAUSE, EVAL. -/
def trapped (c : Hart → Instr) (s : State) : List DWord × Run × List DWord :=
  let u := after (c p0) s
  let v := after (c c0) s
  ((u.ch14 0).words.map (·.1), (u.thread 0).run, [v.sysReg 0 1, v.sysReg 0 2, v.sysReg 0 3])

theorem test_SoftIllegalAndJumpTraps :
    let s := with2 up 0xFFFE 0x10000
    let e := (with2 up 0 0).setThread 0 { run := .ready, pc := 0xFFFC }
    trapped (.trap · 0xFFFF) s = (trapItem 8 0 false 0 0xFFFF, .parked, [0x20100000, 8, 0xFFFF])
    ∧ trapped (.dbnz · 0 4) s = (trapItem 0 0 false 0 0x98000004, .parked, [0x20100000, 0, 0x98000004])
    ∧ (64 < (1 : BitVec 6).toNat + (63 : BitVec 6).toNat + 1)
    ∧ trapped (.bfx · 3 1 1 63 false) s = (trapItem 0 0 false 0 0x2C610FC1, .parked, [0x20100000, 0, 0x2C610FC1])
    ∧ trapped (.bfi · 3 1 1 63) s = (trapItem 0 0 false 0 0x30610FC1, .parked, [0x20100000, 0, 0x30610FC1])
    ∧ trapped (.jr · 1) s = (trapItem 1 0 false 0 0xFFFE, .parked, [0x20100000, 1, 0xFFFE])
    ∧ (trapped (.jr · 2) s).1 = trapItem 2 0 false 0 0x10000
    ∧ (trapped (.add · 3 1 2) e).1 = trapItem 2 0 false 0xFFFC 0x10000 := by
  decide +kernel

/-- The supervisor thread of core 0. -/
abbrev p7 : Hart := .pkt 0 0 7

/-- `up` with the supervisor ready, and thread 1 in state `x`. -/
def sup (x : Thread) : State := (up.setThread 7 { run := .ready, regs := [(1, 0xFFFC)] }).setThread 1 x

theorem test_PrivilegeAndParkedThreads_parked :
    let s := sup { run := .parked, regs := [(1, 5)] }
    (s.thread (threadId 0 0 1)).run = .parked ∧ same (.add (.pkt 0 0 1) 3 1 1) s ∧ same (.trap (.pkt 0 0 1) 0) s := by
  decide +kernel

/-- Control core 0 in user mode. -/
def user : State := up.setSys 0 0 0

theorem test_PrivilegeAndParkedThreads : Issues user c0 ∧ Issues user p0 ∧ user.kernel 0 = false
    ∧ (after (.eret c0) user).sysReg 0 2 = 18 ∧ (after (.eret c0) user).sysReg 0 3 = 0xF8000000
    ∧ (after (.mfsr c0 3 0xC) user).sysReg 0 3 = 0xF8600C01 ∧ (after (.mtsr c0 9 2) user).sysReg 0 3 = 0xF8020902
    ∧ (after (.icinv c0 2) user).sysReg 0 3 = 0xF8020008 ∧ (after (.chrd c0 3 0) user).sysReg 0 2 = 0 ∧ (after (.xget c0 3 0 0) user).sysReg 0 2 = 0
    ∧ ((after (.eret p0) user).ch14 0).words.map (·.1) = trapItem 0 0 false 0 0xF8000000
    ∧ ((after (.tres p0 3 1 7) user).ch14 0).words.map (·.1) = trapItem 0 0 false 0 0xF4610700
    ∧ ((after (.chflush p0 7) user).ch14 0).words.map (·.1) = trapItem 0 0 false 0 0xCC0E0000 := by
  refine ⟨?_, issues_of_now (by decide +kernel), ?_⟩
  · simp only [Issues]
    decide +kernel
  · decide +kernel

theorem test_SupervisorResults :
    let s := sup { run := .parked, regs := [(1, 5)] }
    let r := sup { run := .ready, regs := [(1, 5)] }
    Issues s p7 ∧ Falls s p7 ∧ Issues r p7 ∧ Falls r p7 ∧ (s.thread 1).run = .parked ∧ (s.operand p7 1).toNat < 0x10000 ∧ (s.operand p7 1).toNat % 4 = 0
    ∧ ((after (.tres p7 3 1 1) s).thread 1).run = .ready ∧ ((after (.tres p7 3 1 1) s).thread 1).pc = 0xFFFC ∧ ((after (.tres p7 3 1 1) s).thread 1).gen = 1
    ∧ (r.thread 1).run ≠ .parked ∧ (after (.tres p7 3 1 1) r).rget p7 3 = 1
    ∧ (after (.trdw p7 3 1 1) s).rget p7 3 = 5 ∧ ((after (.twrw p7 2 1 1) s).thread 1).get 2 = 0xFFFC ∧ ((after (.twrw p7 0 1 1) s).thread 1).get 0 = 0
    ∧ ((after (.twrw p7 2 1 1) r).thread 1).get 2 = 0 ∧ ((after (.tstat p7 3 1) s).rget p7 3).getLsbD 0 = true
    ∧ (r.thread 1).binding = none ∧ r.isDispatch 1 = false ∧ ((after (.tent p7 3 1) r).thread 1).run = .free := by
  refine ⟨issues_of_now (by decide +kernel), ?_, issues_of_now (by decide +kernel), ?_, ?_⟩
  · show _ ≠ _
    decide +kernel
  · show _ ≠ _
    decide +kernel
  · decide +kernel

theorem test_PrivilegedResults :
    let s := with2 up 0x1040 0xFFFFFFFFFFFFFFFF
    let e := (s.setSys 0 0 0xD).setSys 0 1 0x20000010
    let l := s.modCtlc 0 (fun x => { x with dirty := [⟨0x41, [], false⟩], tlb := [⟨0, 2, 1, 0⟩] })
    Issues s c0 ∧ Issues e c0 ∧ s.kernel 0 = true ∧ s.trans 0 = false ∧ getField (e.sysReg 0 0) 2 1 = 1
    ∧ (after (.eret c0) e).pcOf c0 = 0x20000010 ∧ (after (.eret c0) e).kernel 0 = true ∧ (after (.eret c0) e).intEnable 0 = true
    ∧ (after (.mfsr c0 3 4) s).rget c0 3 = 0x20800000 ∧ (after (.mtsr c0 0xC 2) s).sysReg 0 0xC = 0xFFFFFFFFFFFFFFFF
    ∧ (after (.mtsr c0 1 2) s).sysReg 0 1 = 0xFFFFFFFFFFFFFFFF ∧ (after (.mtsr c0 0xA 2) s).sysReg 0 0xA = 0
    ∧ ((after (.tlbi c0 1) l).ctlc 0).tlb = [] ∧ ((after (.tlbia c0) l).ctlc 0).tlb = []
    ∧ ((after (.dcwb c0 1) l).ctlc 0).dirty = [] ∧ ((after (.dcinv c0 1) l).ctlc 0).dirty = [] ∧ (after (.icinv c0 1) l).mem = (placed (.icinv c0 1) l).mem
    ∧ ((s.setSys 0 0xC 2).raise 5).irqLine 0 = none := by
  refine ⟨?_, ?_, ?_⟩
  · simp only [Issues]
    decide +kernel
  · simp only [Issues]
    decide +kernel
  · decide +kernel

theorem test_PacketLoadResults :
    let s := ((with2 up 0x200000 0x1FFF8).setNum (localPa 0 0x1FFF8) 8 0x8091A2B3C4D5E6F7).setNum (localPa 0 0x200000) 8 0x80
    Issues s p0 ∧ Falls s p0 ∧ s.operand p0 1 = 0x200000 ∧ s.upset (localPa 0 0x1FFFF) = false ∧ s.upset (localPa 0 0x3FFFFF) = false
    ∧ ((after (.lb p0 3 2 7) s).thread 0).loads = [⟨3, 0xFFFFFFFFFFFFFF80, 3, none⟩]
    ∧ ((after (.lbu p0 3 2 7) s).thread 0).loads = [⟨3, 0x80, 3, none⟩]
    ∧ ((after (.lh p0 3 2 6) s).thread 0).loads = [⟨3, 0xFFFFFFFFFFFF8091, 3, none⟩]
    ∧ ((after (.lhu p0 3 2 6) s).thread 0).loads = [⟨3, 0x8091, 3, none⟩]
    ∧ ((after (.lw p0 3 2 4) s).thread 0).loads = [⟨3, 0xFFFFFFFF8091A2B3, 3, none⟩]
    ∧ ((after (.lwu p0 3 2 4) s).thread 0).loads = [⟨3, 0x8091A2B3, 3, none⟩]
    ∧ ((after (.ld p0 3 2 0) s).thread 0).loads = [⟨3, 0x8091A2B3C4D5E6F7, 3, none⟩]
    ∧ ((after (.ld p0 3 1 0) s).thread 0).loads = [⟨3, 0x80, 4, none⟩] ∧ (after (.ld p0 3 1 0) s).rget p0 3 = 0 := by
  refine ⟨issues_of_now (by decide +kernel), ?_, ?_⟩
  · show _ ≠ _
    decide +kernel
  · decide +kernel

theorem test_PacketStoreResults :
    let s := with2 up 0x3FFFF8 0x0102030405060708
    Issues s p0 ∧ Falls s p0 ∧ s.operand p0 1 = 0x3FFFF8 ∧ dataMem (after (.sb p0 2 1 7) s) = [⟨0x101FFFFF, 8⟩] ∧ dataMem (after (.sh p0 2 1 6) s) = [⟨0x101FFFFE, 8⟩, ⟨0x101FFFFF, 7⟩]
    ∧ dataMem (after (.sw p0 2 0 0) s) = [⟨0x10820000, 8⟩, ⟨0x10820001, 7⟩, ⟨0x10820002, 6⟩, ⟨0x10820003, 5⟩]
    ∧ (after (.sd p0 2 1 0) s).num 0x101FFFF8 8 = 0x0102030405060708 := by
  refine ⟨issues_of_now (by decide +kernel), ?_, ?_⟩
  · show _ ≠ _
    decide +kernel
  · decide +kernel

theorem test_ControlLoadStoreResults :
    let s := (with2 up 0x10000000 0x8091A2B3C4D5E6F7).setNum 0x10000000 8 0x8091A2B3C4D5E6F7
    let o := with2 up 0x7FFFFFFFFC 0
    let m := with2 up 0x20000001 0
    let k := with2 up 0x40000000 0
    let z := with2 up 0x20800000 0
    Issues s c0 ∧ s.trans 0 = false ∧ s.region 0x10000000 = .stnMem ∧ s.upset 0x10000000 = false ∧ o.region 0x7FFFFFFFFC = .none
    ∧ m.region 0x20000001 = .sram ∧ k.region 0x40000000 = .ctl ∧ z.region 0x20800000 = .rom
    ∧ (after (.lb c0 3 1 7) s).rget c0 3 = 0xFFFFFFFFFFFFFF80 ∧ (after (.lbu c0 3 1 7) s).rget c0 3 = 0x80
    ∧ (after (.lh c0 3 1 6) s).rget c0 3 = 0xFFFFFFFFFFFF8091 ∧ (after (.lhu c0 3 1 6) s).rget c0 3 = 0x8091
    ∧ (after (.lw c0 3 1 4) s).rget c0 3 = 0xFFFFFFFF8091A2B3 ∧ (after (.lwu c0 3 1 4) s).rget c0 3 = 0x8091A2B3
    ∧ (after (.ld c0 3 1 0) s).rget c0 3 = 0x8091A2B3C4D5E6F7
    ∧ (after (.sd c0 2 1 8) s).num 0x10000008 8 = 0x8091A2B3C4D5E6F7 ∧ (after (.sw c0 2 1 8) s).num 0x10000008 8 = 0xC4D5E6F7
    ∧ (after (.sh c0 2 1 8) s).num 0x10000008 8 = 0xE6F7 ∧ (after (.sb c0 2 1 8) s).num 0x10000008 8 = 0xF7
    ∧ (after (.lw c0 3 1 0) o).sysReg 0 2 = 2 ∧ (after (.lw c0 3 1 0) m).sysReg 0 2 = 1 ∧ (after (.ld c0 3 1 0) k).sysReg 0 2 = 20
    ∧ (after (.sw c0 2 1 0) z).sysReg 0 2 = 20 ∧ (after (.sw c0 2 1 0) z).sysReg 0 3 = 0x20800000 ∧ (after (.sw c0 2 1 0) o).sysReg 0 2 = 2 := by
  refine ⟨?_, ?_⟩
  · simp only [Issues]
    decide +kernel
  · decide +kernel

/-- Link channel 6: thread 0 produces, thread 1 consumes. -/
def linked : State := (up.setFld (stn2R 0 8) 0 8 0x48).setThread 1 { run := .ready, regs := [(1, 7)] }
abbrev p1 : Hart := .pkt 0 0 1

theorem test_ChannelResults :
    let s := linked.setLink 0 { words := [(9, true)] }
    let full := linked.setLink 0 { words := [(9, true), (8, true), (7, true)] }
    Issues s p0 ∧ Issues s p1 ∧ Falls s p1 ∧ s.portOf 1 6 = .linkIn 0 ∧ s.portOf 0 6 = .linkOut 0 ∧ s.portOf 1 7 = .bad
    ∧ (after (.chrd p1 3 6) s).rget p1 3 = 9 ∧ ((after (.chrd p1 3 6) s).link 0).words = []
    ∧ (linked.link 0).words = [] ∧ ((after (.chrd p1 3 6) linked).thread 1).run = .waiting (.chrd 3 6)
    ∧ (full.link 0).depth = 3 ∧ (full.link 0).cut = false ∧ ((after (.chwr p0 1 6 true) full).link 0).words.length = 4
    ∧ ((after (.chpoll p1 3 6) s).rget p1 3).getLsbD 0 = true ∧ ((after (.chpoll p1 3 6) linked).rget p1 3).getLsbD 0 = false
    ∧ ((after (.chrd p1 3 7) s).ch14 0).words.map (·.1) = trapItem 5 1 false 0 7
    ∧ ((after (.chwr p1 3 7 true) s).ch14 0).words.map (·.1) = trapItem 5 1 false 0 7
    ∧ ((after (.chpoll p1 3 7) s).ch14 0).words.map (·.1) = trapItem 5 1 false 0 7 := by
  refine ⟨issues_of_now (by decide +kernel), issues_of_now (by decide +kernel), ?_, ?_⟩
  · show _ ≠ _
    decide +kernel
  · decide +kernel

theorem test_ResumeResults :
    let r := (linked.setLink 0 { words := [(9, true)] }).setThread 1 { run := .waiting (.chrd 3 6) }
    let w := (linked.setLink 0 { words := [(9, true), (8, true), (7, true)] }).setThread 0 { run := .waiting (.chwr 6 5 true) }
    let j := (linked.setThread 0 { run := .waiting (.join 3 1) }).setThread 1 { run := .quit, regs := [(1, 7)] }
    let d := linked.setDeferred 0 [trapItem 8 0 false 0 0]
    let b := (linked.setThread 1 { run := .waiting (.chrd 3 6) }).setThread 0 { run := .parked }
    (r.portOf 1 6 = .linkIn 0 ∧ ((after (.chrdResume 0 0 1) r).thread 1).get 3 = 9 ∧ ((after (.chrdResume 0 0 1) r).thread 1).pc = 4)
    ∧ ((w.link 0).depth = 3 ∧ w.portOf 0 6 = .linkOut 0 ∧ ((after (.chwrResume 0 0 0) w).link 0).words.length = 4)
    ∧ (((after (.joinResume 0 0 0) j).thread 0).get 3 = 7 ∧ ((after (.joinResume 0 0 0) j).thread 1).run = .free)
    ∧ ((d.ch14 0).depth = 0 ∧ (after (.trapItemDeferredSend 0 0) d).deferred 0 = [] ∧ ((after (.trapItemDeferredSend 0 0) d).ch14 0).depth = 1)
    ∧ ((after (.chflush p7 6) ((linked.setLink 0 { words := [(9, true)] }).setThread 7 { run := .ready })).link 0).words = []
    ∧ (b.coreRuns 0 = true ∧ b.blocked 1 = true ∧ aget (fun _ => false) b.cpu.stood 0 = false
      ∧ aget (fun _ => false) (after (.standstill 0 0) b).cpu.stood 0 = true ∧ (after (.standstill 0 0) b).flt.raises.map (·.src) = [Src.stnFault 0]) := by
  decide +kernel

theorem test_ForkJoinQuitResults :
    let f := (with2 up 0xFFFC 0xFFFFFFFFFFFFFFFF)
    let none' := (List.range 7).foldl (fun (s : State) (i : Nat) => s.setThread i { s.thread i with run := .ready }) f
    let j := (with2 up 9 0).setThread 1 { run := .quit, parent := some 0, regs := [(1, 0xFFFFFFFFFFFFFFFF)] }
    (Issues f p0 ∧ Issues none' p0 ∧ Issues j p0)
    ∧ f.isDispatch 1 = false ∧ (f.thread 1).run = .free ∧ ((after (.fork p0 3 1 2) f).thread 1).pc = 0xFFFC ∧ ((after (.fork p0 3 1 2) f).thread 1).run = .ready
    ∧ ((after (.fork p0 3 1 2) f).thread 1).get 1 = 0xFFFFFFFFFFFFFFFF ∧ (after (.fork p0 3 1 2) f).rget p0 3 = 1
    ∧ (∀ q : Fin 7, (none'.thread q).run ≠ .free) ∧ (after (.fork p0 3 1 2) none').rget p0 3 = 0xFFFFFFFFFFFFFFFF
    ∧ (after (.join p0 3 1) j).rget p0 3 = 0xFFFFFFFFFFFFFFFF ∧ ((after (.join p0 3 1) j).thread 1).run = .free
    ∧ j.isDispatch 0 = false ∧ ((after (.quit p0) j).thread 0).run = .quit := by
  refine ⟨⟨issues_of_now (by decide +kernel), issues_of_now (by decide +kernel), issues_of_now (by decide +kernel)⟩, ?_⟩
  decide +kernel

/-- Thread 0 waits with an operation of a unit for its bit 7. -/
def wants (unit fn : Nat) (a b : DWord) (s : State := up) : State := s.setThread 0 { run := .waiting (.xop 7 unit fn a b) }

/-- The words, latency and late error under bit 7 once the operation is accepted. -/
def taken (unit fn : Nat) (a b : DWord) : Option (List DWord × Option Nat × Option Nat) :=
  let u := after (.xopResume 0 0 0) (wants unit fn a b)
  ((u.thread 0).xsOf 7).op.map (fun o => (o.words, o.due, o.late))

theorem test_XopCommands_issue :
    let s := with2 up 0x20 0x3B9AC9FF
    (Issues s p0 ∧ Falls s p0) ∧ ((s.thread 0).xsOf 7).op = none ∧ aget (fun _ => 0) s.cpu.hsh 0 ≤ s.coreNow
    ∧ (((after (.tauAddns p0 7 1 2) s).thread 0).xsOf 7).op.map (fun o => [o.unit, o.fn, o.a.toNat, o.b.toNat]) = some [0, 2, 0x20, 0x3B9AC9FF]
    ∧ (((after (.hshCrc32c p0 0 1 2) s).thread 0).xsOf 0).op.map (fun o => [o.unit, o.fn]) = some [1, 0]
    ∧ (((after (.hshCrc32 p0 0 1 2) s).thread 0).xsOf 0).op.map (fun o => [o.unit, o.fn]) = some [1, 1]
    ∧ (((after (.hshCrc0 p0 0 1 2) s).thread 0).xsOf 0).op.map (fun o => [o.unit, o.fn]) = some [1, 2]
    ∧ (((after (.hshHash p0 0 1 2) s).thread 0).xsOf 0).op.map (fun o => [o.unit, o.fn]) = some [1, 3]
    ∧ (((after (.tauNow p0 0 1 2) s).thread 0).xsOf 0).op.map (fun o => [o.unit, o.fn]) = some [0, 0]
    ∧ (((after (.tauConv p0 0 1 2) s).thread 0).xsOf 0).op.map (fun o => [o.unit, o.fn]) = some [0, 1]
    ∧ (((after (.tauDiff p0 0 1 2) s).thread 0).xsOf 0).op.map (fun o => [o.unit, o.fn]) = some [0, 3]
    ∧ (((after (.tauResid p0 0 1 2) s).thread 0).xsOf 0).op.map (fun o => [o.unit, o.fn]) = some [0, 4]
    ∧ (((after (.cryAcq p0 0 1 2) s).thread 0).xsOf 0).op.map (fun o => [o.unit, o.fn]) = some [2, 0]
    ∧ (((after (.cryRel p0 0 1 2) s).thread 0).xsOf 0).op.map (fun o => [o.unit, o.fn]) = some [2, 1]
    ∧ (((after (.cryTag p0 0 1 2) s).thread 0).xsOf 0).op.map (fun o => [o.unit, o.fn]) = some [2, 2]
    ∧ (((after (.cryVerify p0 0 1 2) s).thread 0).xsOf 0).op.map (fun o => [o.unit, o.fn]) = some [2, 3]
    ∧ (((after (.crySync p0 0 1 2) s).thread 0).xsOf 0).op.map (fun o => [o.unit, o.fn]) = some [2, 4] := by
  refine ⟨⟨issues_of_now (by decide +kernel), ?_⟩, ?_⟩
  · show _ ≠ _
    decide +kernel
  · decide +kernel

theorem test_XopCommands_results :
    (wants 0 2 0 1).xopBlocked 0 7 0 = false
    ∧ taken 0 2 0x000000013B9AC9FF 1 = some ([0x0000000200000000, 0, 0, 0], some 3, none)
    ∧ taken 0 2 0 0xFFFFFFFFFFFFFFFF = some ([0xFFFFFFFF3B9AC9FF, 0, 0, 0], some 3, none)
    ∧ taken 0 3 0x0000000700000000 0x000000073B9AC9FF = some ([0xFFFFFFFFC4653601, 0, 0, 0], some 3, none)
    ∧ taken 1 3 0x3837363534333231 0x3837363534333231 = some ([0x43657BA8, 0x6BCC57B7, 0, 0], some 4, none) := by
  decide +kernel

theorem test_XopCommands_lock_and_words :
    let q : State := wants 2 0 0xFFFFFFFFFFFFFFFF 0
    let o : XOp := { unit := 0, fn := 2, a := 0, b := 0, issued := 0, due := some 3, words := [7, 0, 0, 0] }
    let r := up.setThread 0 { run := .ready, xs := [(7, { op := some o, words := [] })] }
    let e := up.setThread 0 { run := .ready, xs := [(7, { op := some { o with late := some 0x83 }, words := [] })] }
    let g := up.setThread 0 { run := .ready, xs := [(7, { op := none, words := [7, 8, 9, 10] })] }
    let w := up.setThread 0 { run := .waiting (.xget 3 7 3), xs := [(7, { op := none, words := [7, 8, 9, 10] })] }
    let l := up.setCry 0 { holder := some 1, releasing := true, queue := [(0, 7, 5)] }
    q.absent (unitId 6 0) = false ∧ (q.cry 0).holder = none ∧ ((after (.xopResume 0 0 0) q).cry 0).holder = some 0
    ∧ ((after (.xopResult 0 0 0 7) r).thread 0).xsOf 7 = { op := none, words := [7, 0, 0, 0] } ∧ (after (.xopResult 0 0 0 7) r).now = 3 * coreU
    ∧ ((after (.xopLateError 0 0 0 7) e).thread 0).run = .parked
    ∧ (after (.xget p0 3 7 3) g).rget p0 3 = 10 ∧ ((after (.xgetResume 0 0 0) w).thread 0).get 3 = 10
    ∧ l.cryFlying 1 = false ∧ ((after (.cryLockGrant 0) l).cry 0).holder = some 0 := by
  decide +kernel

/-- Thread 0 of core 0 serves coach 5, and station 0 allows 15 searches. -/
def serving (s : State := up) : State :=
  ((s.setFld (stnR 0 0) 24 4 15).setCoach 5 { loc := .station 0, server := some (0, 0) }).setThread 0
    { run := .ready, binding := some 5, regs := [(1, 0), (2, 1), (3, 31), (4, 0)] }

/-- Clause group 31 holds a valid configuration of one block of 12 bytes. -/
def grouped (s : State) : State := s.setFld (grpCfg 31) 0 32 0x11

theorem test_SearchResults_requests :
    let s := grouped serving
    (Issues s p0 ∧ Falls s p0) ∧ s.srqPlaces 0 3 < 4 ∧ (s.coach 5).map (·.searches) = some 0 ∧ 1 ≤ s.searchCap 0 ∧ s.grpValid 31 = true
    ∧ (after (.srqClause p0 3 1 3) s).cpu.reqs.map (fun q => [q.eng, q.thread, q.port, q.coach]) = [[0, 0, 3, 5]]
    ∧ (after (.srqFdb p0 3 1 4) s).cpu.reqs.map (fun q => [q.eng, q.thread, q.port, q.coach]) = [[1, 0, 3, 5]]
    ∧ (after (.srqLpm p0 3 1 4) s).cpu.reqs.map (fun q => [q.eng, q.thread, q.port, q.coach]) = [[2, 0, 3, 5]]
    ∧ (after (.srqStream p0 3 1 4) s).cpu.reqs.map (fun q => [q.eng, q.thread, q.port, q.coach]) = [[3, 0, 3, 5]]
    ∧ (after (.srqTread p0 3 1 2) s).cpu.reqs.map (fun q => [q.eng, q.thread, q.port, q.coach]) = [[4, 0, 3, 5]]
    ∧ ((after (.srqTread p0 3 1 2) s).coach 5).map (·.searches) = some 1
    ∧ ((after (.srqResume 0 0 0) (up.setThread 0 { run := .waiting (.srq 1 3 0 0) })).result 3).words = [(0x3000000000000000, true)] := by
  refine ⟨⟨issues_of_now (by decide +kernel), ?_⟩, ?_⟩
  · show _ ≠ _
    decide +kernel
  · decide +kernel

/-- The request of thread 79 that a search result answers. -/
def req (eng : Nat) (ready : Option Nat) : Srq := { eng := eng, thread := 79, port := 3, coach := 5, a := 0x3FFFE0, b := 4, key := [], ready := ready, words := [1] }

theorem test_SearchResults :
    let s : State := { up with cpu := { up.cpu with reqs := [req 4 (some 0)] } }
    let k : Nat := 0x020000000001
    let d := (fdbSlots k).headD 0
    let l := fun (v : Nat) => (({ up with cls := { up.cls with learn := [⟨5, k, 32, some v⟩] } } : State).fdbPut d (fdbBytes k 32 7 0 false false)).setFld fwdB 8 16 0x09FF
    let a := up.setFld fwdB 0 8 255
    let b := (up.setBit (fltB + 0x80) 17 true).setFld spareR 0 3 2
    let t : State := { up.setBit (stnB + 4) 1 true with image := { up.image with tt := { up.image.tt with wheels := [⟨1, 4, 0, [0x80]⟩] } }, cpu := { up.cpu with reqs := [req 4 none] } }
    s.absent (unitId 5 4) = false ∧ (after (.searchResult 4) s).cpu.reqs = [] ∧ ((after (.searchResult 4) s).result 319).words = [(1, true)]
    ∧ (after .learnItemRun (l 1)).cls.learn = [] ∧ (after .learnItemRun (l 1)).mem = (l 1).mem
    ∧ (l 0).fdbFind k = some d ∧ (l 0).fdbStatic d = false ∧ (l 0).fdbPort d = 32 ∧ (after .learnItemRun (l 0)).byte (d + 9) = 9
    ∧ (after (.clauseBlockTestDone false) { up with cls := { up.cls with blockTesting := some 51 } }).cls.blockTesting = none
    ∧ a.cls.agePass = false ∧ (after .ageTick a).cls.agePass = true ∧ (after .ageTick a).fld fwdB 16 8 = 1 ∧ (after (.ageTickWrite 0xFFFFFFFF) a).fld fwdB 0 16 = 0xFFFF
    ∧ b.spareBlocks = [48, 49, 50, 51] ∧ (after .blockRotation b).cls.blockMove = some (0, 48) ∧ (after .blockRotation b).cls.blockNext = 1
    ∧ t.tableBad (0x30C00000 + 0x3FFFE0) 32 = false ∧ (after (.searchSlotServe 4 .clean []) t).cpu.reqs.map (·.ready) = [some 14]
    ∧ (after (.searchSlotServe 4 .clean []) t).cpu.reqs.map (·.words) = [[0, 0, 0, 0, 0]] := by
  decide +kernel

/-! ### Time -/

/-- Sources raised and not yet latched. -/
def raised (s : State) : List Nat := s.flt.raises.map (·.src)

/-- The machine with CI0 at `t`. -/
def at' (t : Nat) (s : State := up) : State := { s with time := { s.time with now := t } }

/-- Instance n in the state `x` of Table 3.2. -/
def inState (n x : Nat) (s : State := up) : State := s.setFld (ciR n 0x3C) 0 2 x

theorem test_InstanceResults_increments :
    let s := up.setInst 8 { up.inst 8 with heldLo := some 0xFFFFFFFF }
    let l := up.setInst 8 { up.inst 8 with heldLo := some 0 }
    ((after (.timeIncrLoWrite 8 5) up).inst 8).heldLo = some 5
    ∧ ((after (.timeIncrCommit 8 0xFFFFFFFF) s).inst 8).incr = 352019642748764 ∧ raised (after (.timeIncrCommit 8 0xFFFFFFFF) s) = [Src.ciAlarm 8]
    ∧ ((after (.timeIncrCommit 8 0) l).inst 8).incr = 351667799027876 ∧ ((after (.timeIncrCommit 8 0) l).inst 8).heldLo = none
    ∧ ((after (.timeIncrCommit 8 0x00014000) l).inst 8).incr = 351843720888320 ∧ raised (after (.timeIncrCommit 8 0x00014000) l) = []
    ∧ ((after (.timeIncrCommit 8 0x00014000) l).inst 8).segs.map (·.k) = [1, 0] ∧ after (.timeIncrCommit 0 1) up = up := by
  decide +kernel

theorem test_InstanceResults_slews_and_steps :
    let s := up.setReg (ciR 8 0x18) 0x80000000
    let w := s.setInst 8 { s.inst 8 with slew := some ⟨5, 7, 3⟩ }
    let e := (up.setReg (ciR 8 0x24) 1000).setReg (ciR 8 0x2C) 999999999
    let r := (up.setReg (ciR 8 0x24) 1000).setReg (ciR 8 0x2C) (BitVec.ofInt 32 (-999999999))
    let a := up.setInst 8 { up.inst 8 with step := some ⟨1000 * nsU, true, 7, 5⟩ }
    (((after (.slewStart 8 0) s).inst 8).slew.map (fun w => (w.left, w.size)) = some (-2361183241434822606848, 175921860444))
    ∧ (((after (.slewStart 8 10) s).inst 8).slew.map (·.size) = some 3518437208) ∧ (after (.slewStart 8 0) s).bit (ciR 8 0x1C) 10 = true
    ∧ (w.inst 8).segs.length = 1 ∧ ((after (.slewEnd 8) w).inst 8).slew = none
    ∧ (e.now + 1000 * nsU ≤ 1000 * nsU) ∧ ((after (.stepArm 8 0x70002) e).inst 8).step = some ⟨1000 * nsU, true, 0x700000000, 999999999⟩
    ∧ (after (.stepArm 8 0x70002) e).bit (ciR 8 0x30) 0 = true
    ∧ r.instState 8 ≠ 3 ∧ ((after (.stepArm 8 0) r).inst 8).step = some ⟨1000 * nsU, false, 0, BitVec.ofInt 32 (-999999999)⟩
    ∧ (after (.stepArm 8 2) (up.setReg (ciR 8 0x24) 999)).bit (ciR 8 0x30) 2 = true
    ∧ (after (.stepArm 8 2) (up.setReg (ciR 8 0x24) 1000000000)).bit (ciR 8 0x30) 2 = true
    ∧ ((after (.stepApply 8) a).inst 8).step = none ∧ ((after (.stepApply 8) a).inst 8).segs.head?.map (fun g => (g.k, g.v)) = some (800, 7000000005 * nsU)
    ∧ raised (after (.stepApply 8) a) = [Src.timeStep] := by
  decide +kernel

theorem test_TimeReadingResults :
    let s := at' (secU + tickU)
    let h := (s.setBit timeB 2 true).setInst 8 { s.inst 8 with latch := 5 }
    let x : TxStamp := ⟨33, 0, 0xFFFF, 8, 5⟩
    let q : State := { up with time := { up.time with txts := List.replicate 256 x } }
    let g := (up.setReg (timeB + 0x8C) 7)
    let b : State := { g with time := { g.time with convBusy := true } }
    (after (.timeSecHiRead 8) s).resp = .ok 0 ∧ ((after (.timeSecHiRead 8) s).inst 8).latch = (secU + tickU) / 2 ^ 32 ∧ ((after (.timeSecHiRead 8) h).inst 8).latch = 5
    ∧ (after .timeSnapTake s).bit timeB 2 = true ∧ ((after .timeSnapTake s).inst 3).latch = (secU + tickU) / 2 ^ 32 ∧ (after .timeSnapRelease h).bit timeB 2 = false
    ∧ (after (.timeConvGo 0x88) g).time.convBusy = true ∧ (after (.timeConvGo 0x88) g).bit (timeB + 0x80) 8 = true
    ∧ (after (.timeConvGo 0x99) g).time.convBusy = false ∧ (after (.timeConvGo 0x99) g).fld (timeB + 0x80) 10 2 = 3 ∧ after (.timeConvGo 0x88) b = b
    ∧ b.toCi0 0 (join16 0 7 0) = some (7 * nsU, .ok) ∧ b.fromCi0 0 (7 * nsU) = some (7 * 2 ^ 16)
    ∧ (after .timeConvDone b).reg (timeB + 0x8C) = 7 ∧ (after .timeConvDone b).bit (timeB + 0x80) 8 = false
    ∧ (after .txtsPop q).time.txts.length = 255 ∧ (after .txtsPop q).fld (timeB + 0xA0) 0 9 = 255 ∧ (after .txtsPop q).resp = .ok 0x8221FFFF
    ∧ up.time.txts = [] ∧ (after .txtsPop up).resp = .ok 0 := by
  decide +kernel

/-- Instance 8 tracking its reference by software (SRC 3). -/
def soft (x : Nat) : State := (inState 8 x).setFld (ciR 8 0x34) 0 2 3

theorem test_ReferenceResults :
    let near := (soft 0).setInst 8 { up.inst 8 with run := 7 }
    let hw := (soft 2).setInst 8 { up.inst 8 with hwHold := true }
    up.fld (ciR 8 0x34) 0 2 = 0 ∧ after (.timeOfsWrite 8 1) up = up
    ∧ (soft 1).instState 8 = 1 ∧ ((after (.timeOfsWrite 8 256) (soft 1)).inst 8).run = 1
    ∧ ((after (.timeOfsWrite 8 0x80000000) (soft 1)).inst 8).run = 0 ∧ (after (.timeOfsWrite 8 256) (soft 1)).instState 8 = 1
    ∧ (after (.timeOfsWrite 8 0xFFFFFF00) near).instState 8 = 1
    ∧ (after (.timeRefSrcClear 8 0) (soft 1)).instState 8 = 0
    ∧ (after (.refTimeout 8) (soft 1)).instState 8 = 2 ∧ raised (after (.refTimeout 8) (soft 1)) = [Src.holdoverEnter] ∧ (after (.refTimeout 8) (soft 1)).now = 100 * msU
    ∧ ((after (.holdIncrUpdate 8) (soft 1)).inst 8).holdIncr = 351843720888320
    ∧ hw.instState 8 = 2 ∧ ((after (.holdoverTcomp 8) hw).inst 8).incr = 351843720888320
    ∧ (after (.holdoverElapsedTick 8) (soft 2)).fld (ciR 8 0x3C) 20 12 = 1 ∧ (after (.holdoverElapsedTick 8) (soft 2)).now = 10 * secU
    ∧ (after .warmSet (up.setBit (clkB + 4) 1 true)).bit timeB 1 = true ∧ after .warmSet up = up
    ∧ (after .oscMeasure ((soft 1).setFld (timeB + 8) 0 4 8)).reg (timeB + 0xC) = 0
    ∧ (after (.timeParityError 8) up).instState 8 = 3 ∧ raised (after (.timeParityError 8) up) = [Src.timeParity]
    ∧ (∀ m : Fin 9, (after (.timeParityError 0) up).instState m = 3) := by
  decide +kernel

/-- Output n on contact 27, with entry 63 of its schedule: VALID, one pulse of 100 ns at 1 µs in CI0. -/
def scheduled (n w0 : Nat) : State :=
  (((up.setFld (pinB + n * 4) 8 5 27).setReg (schedR n 63 0) (BitVec.ofNat 32 w0)).setReg (schedR n 63 2) 1000).setReg (schedR n 63 4) 100

theorem test_OutputScheduleResults :
    let off := scheduled 23 0x10001
    let scan := (off.setFld (trigR 23 8) 0 6 63).setTrig 23 { run := .scanning }
    let empty := (up.setFld (trigR 23 8) 0 6 63).setTrig 23 { run := .scanning, passed := 63 }
    let bad := ((scheduled 23 0x10001).setReg (schedR 23 63 2) 1000000000 |>.setFld (trigR 23 8) 0 6 63).setTrig 23 { run := .scanning }
    let read := after (.trigEntryRead 23) scan
    let run := read.advance (read.now + periU)
    let live := (off.setBit (trigR 23 0) 0 true).setTrig 23 { run := .running, entry := (List.range 8).map (fun j => off.reg (schedR 23 63 j)) }
    let ed := (off.setTrig 23 { run := .running, edges := [⟨true, 1000 * nsU⟩] })
    let ps := (up.setFld (ppsoR 3 0) 0 1 1)
    let op := ps.setPpso 3 { open_ := some (0, 1000 * 2 ^ 16) }
    (off.bit (trigR 23 0) 0 = false ∧ (after (.trigEnable 23 0x3F00) off).bit (trigR 23 0) 0 = true ∧ ((after (.trigEnable 23 0x3F00) off).trig 23).run = .scanning
      ∧ (after (.trigEnable 23 0x3F00) off).fld (trigR 23 8) 0 6 = 63 ∧ aget (fun _ => Level.z) (after (.trigEnable 23 0x3F00) off).tio.contacts 27 = .low)
    ∧ ((after (.trigDisable 23 0) live).bit (trigR 23 0) 0 = false ∧ ((after (.trigDisable 23 0) live).trig 23).run = .off)
    ∧ ((after (.trigEntryRead 23) empty).fld (trigR 23 8) 0 6 = 0 ∧ ((after (.trigEntryRead 23) empty).trig 23).run = .idle)
    ∧ ((after (.trigEntryRead 23) bad).bit (trigR 23 8) 9 = true ∧ raised (after (.trigEntryRead 23) bad) = [Src.output 23])
    ∧ ((run.trig 23).run = .running ∧ run.bit (trigR 23 8) 6 = true ∧ read.now ≤ 100 * nsU)
    ∧ (after (.trigEntryWrite 23 63 2 5) read).reg (schedR 23 63 2) = 5
    ∧ ((after (.trigEntryWrite 23 63 2 5) run).bit (trigR 23 8) 8 = true ∧ (after (.trigEntryWrite 23 63 2 5) run).reg (schedR 23 63 2) = 1000
      ∧ (after (.trigEntryWrite 23 62 2 5) run).reg (schedR 23 62 2) = 5)
    ∧ ((live.trig 23).count = 1 ∧ live.place 0 ((live.trig 23).lead16 0) (live.trigCal 23) = some (1000 * nsU)
      ∧ ((after (.trigEdgeCommit 23) live).trig 23).edges = [⟨true, 1000 * nsU⟩] ∧ (after (.trigEdgeCommit 23) live).now = 544 * tickU)
    ∧ ((after (.trigEdgeDrive 23) ed).now = 1000 * nsU ∧ ((after (.trigEdgeDrive 23) ed).trig 23).edges = []
      ∧ aget (fun _ => Level.z) (after (.trigEdgeDrive 23) ed).tio.contacts 27 = .high)
    ∧ (ps.ppsoNext 3).isSome = true ∧ ((after (.ppsoPulse 3) ps).ppso 3).edges.length = 1
    ∧ op.place 0 (1000 * 2 ^ 16) 0 = some (1000 * nsU) ∧ ((after (.ppsoPulse 3) op).ppso 3).edges = [⟨false, 1000 * nsU⟩]
    ∧ (up.setBit (tioB + 4) 0 true).safePending = false ∧ (after .tioResume (up.setBit (tioB + 4) 0 true)).bit (tioB + 4) 0 = false
    ∧ (up.setFld (pendR 6) 0 32 0xFFFFFFFF).safePending = true := by
  decide +kernel

theorem test_InputAndDriverResults_outputs :
    let s := (((up.setFld (pinB + 31 * 4) 8 5 0).setFld pinB 8 5 31).setFld (pinB + 27 * 4) 8 5 31)
    let o := s.setBit (trigR 23 0) 5 true
    let m := (up.setFld (tioB + 8) 0 17 0x10000)
    (s.fnOf 23 = some 23 ∧ s.fnOf 0 = some 31 ∧ s.fnOf 27 = none)
    ∧ ((after (.driverShortGnd 23) s).bit (outDiag 23) 0 = true ∧ (after (.driverShortGnd 23) s).bit (outDiag 23) 4 = true ∧ raised (after (.driverShortGnd 23) s) = [Src.output 23])
    ∧ (after (.driverThermal 0) s).bit (pinB + 0x104) 19 = true ∧ after (.driverShortNet 27) s = s ∧ (after (.driverShortNet 23) s).bit (outDiag 23) 1 = true
    ∧ (o.outLow 23 = false ∧ o.openGap 23 = true ∧ (after (.driverOpenTest 23 true) o).bit (outDiag 23) 3 = true ∧ (after (.driverOpenTest 23 false) o).bit (outDiag 23) 3 = false)
    ∧ (after (.diagClear 23 0xF) (s.setFld (outDiag 23) 0 5 0x1F)).fld (outDiag 23) 0 5 = 0
    ∧ (after (.polarityInvert 0) (s.setFld (evtR 0 0) 7 2 3)).bit (inStat 0) 0 = true ∧ (after (.polarityInvert 17) s).bit (inStat 17) 1 = false
    ∧ (after (.inputOvervoltage 17) s).bit (inStat 17) 2 = true ∧ raised (after (.inputOvervoltage 15) s) = [inSource 15]
    ∧ (after (.driftMeasure 34 0xFFFF) m).fld (lcalR 34 8) 0 16 = 0xFFFF ∧ (after (.driftMeasure 34 0xFFFF) m).bit (lcalR 34 8) 16 = true := by
  decide +kernel

theorem test_InputAndDriverResults_inputs :
    let s := up.setFld (evtR 15 0) 0 3 7
    let d := s.setEvIn 15 { last := some (5 * nsU) }
    let q : State := { up with tio := { up.tio with evtq := List.replicate 1024 ⟨15, true, 8, 3, 5, 0⟩ } }
    let p := up.setFld (ppsiR 1 0) 0 1 1
    let v := p.setEvIn 17 { last := some 0 }
    let l := p.setEvIn 17 { last := some 0, lastValid := some 0 }
    ((after (.evtEdge 15 7 true) s).tio.evtq = [⟨15, true, 0, 0, 0, 0⟩] ∧ (after (.evtEdge 15 7 true) s).now = 7)
    ∧ ((after (.evtEdge 15 (10 * nsU - 1) true) d).tio.evtq = [] ∧ (after (.evtEdge 15 (10 * nsU - 1) true) d).fld (evtR 15 0xC) 0 16 = 1
      ∧ (after (.evtEdge 15 (10 * nsU) true) d).tio.evtq.length = 1)
    ∧ after (.evtEdge 15 7 true) up = up.advance 7
    ∧ ((after .evtqPop q).tio.evtq.length = 1023 ∧ (after .evtqPop q).resp = .ok 0x80000E2F ∧ (after .evtqPop up).resp = .ok 0)
    ∧ ((after (.ppsInEdge 1 (secU + 1000 * nsU) false) v).bit (ppsiR 1 4) 0 = true ∧ (after (.ppsInEdge 1 (secU + 1001 * nsU) false) v).bit (ppsiR 1 4) 0 = false)
    ∧ (after (.ppsInEdge 1 7 false) p).fld (ppsiR 1 4) 16 16 = 1
    ∧ ((after (.ppsInLost 1) l).now = 3 * secU / 2 ∧ raised (after (.ppsInLost 1) l) = [Src.ppsLost 1])
    ∧ (after (.ppsiSecHiRead 1) { up with tio := { up.tio with ppsiStamp := [(1, 2 ^ 32 * 1000000000 * 2 ^ 16)] } }).resp = .ok 1 := by
  decide +kernel

/-! ### Packet path -/

/-- The packet path runs, and port p is up with an admitted rate. -/
def open' (p : Nat) : State := ((up.setBit (stnB + 4) 1 true).setBit (egrPR p 4) 0 true).setFld (admitR p 0) 0 32 0x001FFFFF

/-- Port 33 receives coach 5, which has `got` bytes so far; of the frame's bytes up to 64 stand in the receiver. -/
def rx (got : Nat) (s : State := open' 33) : State :=
  (s.setRxList 33 [{ coach := some 5, body := List.replicate (min got 64) 0 }]).setCoach 5 { got := got, raw := putField (0 : BitVec 2048) (8 * 192 + 14) 6 33 }

/-- The end of a frame of `n` zero bytes with its own FCS (the CRC-32 of IEEE 802.3). -/
def sound (n : Nat) : Verdict := { fcs := BitVec.ofNat 32 (crc32 (List.replicate n 0#8)) }

/-- A search wheel of engine `eng` whose one slot is station 0's (R181). -/
def ownWheel (eng : Nat) (s : State) : State := { s with image := { s.image with tt := { s.image.tt with wheels := [⟨1, eng, 0, [0x80]⟩] } } }

theorem test_IngressResults_frames :
    let s := open' 33
    let z := s.setFld (admitR 33 0) 0 32 0
    let h := List.replicate 192 0#8
    (s.portOpen 33 = true ∧ s.rxList 33 = [] ∧ s.jenAt 33 h = none ∧ s.path.degraded = false ∧ s.p0Reserve < s.poolFree 0 ∧ (s.takeHead 0).isSome = true)
    ∧ (secU : Int) ≤ ((aget (fun _ => {}) s.meters 33).refill (s.fld (admitR 33 0) 0 20 * 4096) (s.fld (admitR 33 0) 20 12 * secU) secU).credit
    ∧ z.fld (admitR 33 0) 0 20 = 0 ∧ (after (.frameReceive 33 secU 60 ⟨0, h⟩) z).coaches = [] ∧ (after (.frameReceive 33 secU 60 ⟨0, h⟩) z).reg (admitR 33 8) = 1
    ∧ (after (.frameReceive 33 secU 60 ⟨0, h⟩) z).reg (dropR 33 8 3) = 1 ∧ up.portOpen 33 = false ∧ after (.bodyCellArrival 33 h) s = s := by
  decide +kernel

theorem test_IngressResults_bodies :
    let s := rx 8956
    let b := List.replicate 256 7#8
    let e := rx 60
    (s.rxOf 33 = some 5 ∧ (s.coach 5).map (fun c => (c.verdict, c.kind, c.got + b.length)) = some (none, 0, 9212) ∧ (s.takeCell 33 false).1 = some 0)
    ∧ (after (.bodyCellArrival 33 b) s).byte (s.bufAddr 0 0 + 255) = 7 ∧ ((after (.bodyCellArrival 33 b) s).coach 5).map (fun c => (c.got, c.cells)) = some (9212, [0])
    ∧ (after (.verdictFinal 33 9 (sound 60)) e).rxOf 33 = none
    ∧ ((after (.verdictFinal 33 9 (sound 60)) e).coach 5).map (fun c => (c.verdict, c.len)) = some (some 0, 60)
    ∧ (e.coach 5).map (fun c => (c.inPort, c.reason)) = some (33, 0) ∧ (sound 60).fcs ≠ 0
    ∧ (after (.verdictFinal 33 9 {}) e).coach 5 = none ∧ (after (.verdictFinal 33 9 {}) e).reg (dropR 33 8 1) = 1
    ∧ (after (.verdictFinal 33 9 { sound 60 with linkLost := true }) e).reg (dropR 33 8 15) = 1 := by
  decide +kernel

theorem test_IngressResults_parser :
    let s := grouped ((rx 60).setFld (stnR 0 0) 24 4 15 |>.setFld (parseR 33) 0 6 0x3F)
    let l := s.modCoach 5 (fun c => { c with lensDone := false, lensSize := 60, got := 8 })
    let t := s.setFld (fwdPort 33) 2 3 4
    let f := l.modCoach 5 (fun c => { c with verdict := some 0 })
    let h := s.modCoach 5 (fun c => { c with verdict := some 0, entrySearched := true })
    (l.coach 5).map (·.loc) = some .parser ∧ after (.lensScanDone 5) l = l ∧ ((after (.lensScanDone 5) f).coach 5).map (·.lensDone) = some true
    ∧ s.fld (parseR 33) 0 5 = 31 ∧ s.grpValid 31 = true ∧ s.clauseAbsent 31 = false
    ∧ ((after (.entrySearch 5) (ownWheel 0 s)).coach 5).map (fun c => (c.entrySearched, c.searches)) = some (true, 1)
    ∧ (after (.entrySearch 5) s).askedOf 0 5 = true ∧ after (.coachEnterS0 5) s = s
    ∧ skindOf (t.fld (fwdPort 33) 2 3) = 4 ∧ t.strFind ((t.coach 5).getD {} |>.streamKey 4) (t.tenseAt 0) = none
    ∧ ((after (.ingressStreamSearch 5) (ownWheel 3 t)).coach 5).map (fun c => (c.streamSearched, c.streamSt, c.searches)) = some (true, 2, 1)
    ∧ s.pathRun = true ∧ (s.stn 0).order = [] ∧ ((after (.coachEnterS0 5) h).coach 5).map (·.loc) = some (.station 0) ∧ ((after (.coachEnterS0 5) h).stn 0).order = [5]
    ∧ (after .frerLatentCheck (s.setFld (fwdB + 0x28) 0 16 0xFFFF)).now = 65535 * msU
    ∧ (after (.fwdPortSkindWrite 33 4) up).fld (fwdPort 33) 2 3 = 0 ∧ (after (.fwdPortSkindWrite 33 4) s).fld (fwdPort 33) 2 3 = 1 := by
  decide +kernel

/-- Coach 5 in station n, alone. -/
def inStn (n : Nat) (f : Coach → Coach := id) : State :=
  ((((open' 33).setFld (stnR n 4) 0 13 8000).setFld (stn2R 0 0) 0 3 7).setCoach 5 (f { loc := .station n, raw := putField (0 : BitVec 2048) (8 * 192 + 14) 6 33 })).setStn n { order := [5] }

theorem test_StationResults :
    let d := inStn 14 (fun c => { c with complete := true })
    let r := inStn 15 (fun c => { c with complete := true, raw := putField c.raw (8 * 196 + 26) 6 9 })
    let w := (inStn 0).setThread 0 { run := .waiting (.chrd 3 0) }
    let q := (inStn 0).setFld (stnR 0 8) 8 12 7
    ((d.stn 14).order = [5] ∧ (d.coach 5).map (fun c => (c.complete, c.reason)) = some (true, 0) ∧ ((after (.couplerRelease 14) d).coach 5).map (·.loc) = some (.station 15)
      ∧ (after (.couplerRelease 14) d).now = 8000 * coreU)
    ∧ ((after (.couplerRelease 14) (inStn 14)).coach 5 = none ∧ (raised (after (.couplerRelease 14) (inStn 14))).contains (Src.stnBudget 14) = true ∧ (after (.couplerRelease 14) (inStn 14)).reg (stnR 14 0x14) = 1)
    ∧ (r.coach 5).map (fun c => (c.reason, c.inPort)) = some (9, 33) ∧ ((after (.couplerRelease 15) r).coach 5 = none ∧ (after (.couplerRelease 15) r).reg (dropR 33 8 9) = 1)
    ∧ ((w.nextCoach 0).map (·.1) = some 5 ∧ w.chooseCore 0 = some (0, 0) ∧ ((after (.dispatch 0) w).thread 0).binding = some 5 ∧ ((after (.dispatch 0) w).thread 0).get 3 = 5)
    ∧ (q.dBound 0 < q.latOf 0 ∧ raised (after (.dispatchStall 0) q) = [Src.dispatchStall] ∧ (after (.dispatchStall 0) q).now = 8 * coreU)
    ∧ (after (.stnMonClear 15 0x12) up).fld (stnR 15 8) 0 2 = 2 ∧ (after (.stnMonClear 15 3) up).fld (stnR 15 8) 0 2 = up.fld (stnR 15 8) 0 2
    ∧ (after (.stnEpochLoRead true) (up.setReg (stnB + 0x1C) 9)).hiLatch = [(stnB + 0x1C, some 9)] := by
  decide +kernel

theorem test_StartSequenceResults :
    let b := fun (k : Nat) => State.reset.setFld bootB 0 4 k
    let l := { b 3 with boot := { (b 3).boot with loading := some 1, triedOther := true } }
    let r := { b 5 with boot := { (b 5).boot with ready := true }, time := { (b 5).time with now := epochU + 1 } }
    let p : State := { (open' 33) with path := { up.path with degradePending := true } }
    (b 1).boot.resetHeld = false ∧ (b 1).fld bootB 0 4 = 1
    ∧ ((((b 2).norFails 0 true).norFails 1 true).readHeader 0 |>.readHeader 1).choice = none ∧ (after (.imageSelect true true) (b 2)).fld bootB 0 4 = 8
    ∧ ((l.norFails 1 false).readHeader 1).fld (slotR 1) 4 2 = 0 ∧ (after (.imageLoadDone false) l).fld bootB 0 4 = 8
    ∧ r.pathRun = false ∧ (after .packetPathStart r).path.start = 2 * epochU ∧ (after .packetPathStart r).pathRun = true
    ∧ p.pathRun = true ∧ (after .epochBoundary p).reg2 (stnB + 0x10) (stnB + 0x14) = 1 ∧ (after .epochBoundary p).path.degraded = true := by
  decide +kernel

/-- Station 15: cores 150 to 158 in service, core 159 the rotation core. -/
def crewed : State := ((List.range 9).foldl (fun (s : State) (k : Nat) => s.setRole (150 + k) (.service k)) (open' 33)).setRole 159 .rotation

theorem test_MigrationAndAgingResults :
    let m : Migration := { incoming := 159, outgoing := 150, slot := 0 }
    let s := (crewed.setMig 15 (some m)).setRole 159 .preparing
    let d := (crewed.setMig 15 (some { m with ready := true, leaveAt := some epochU })).setRole 150 (.leaving 0)
    let r := crewed.setBit (fltB + 0x80) 16 true
    let t := crewed.setRole 159 .testing
    (s.migOf 15 = some m ∧ (after (.migrationPrepDone 15 true) s).migOf 15 = some { m with ready := true })
    ∧ (s.roleOf 150).serves = true ∧ (after (.migrationPrepDone 15 false) s).migOf 15 = none ∧ (after (.migrationPrepDone 15 false) s).roleOf 159 = .failed
    ∧ d.roleOf 150 ≠ .retired ∧ (after (.migrationDone 15) d).roleOf 150 = .testing ∧ (after (.migrationDone 15) d).now = epochU
    ∧ (r.pathRun = true ∧ r.migOf 15 = none ∧ r.migPending = false ∧ r.rotationCore 15 = some 159 ∧ r.longest 15 = some (150, 0) ∧ (r.core 159).testPassed = true
      ∧ (after (.coreRotation 15) r).migOf 15 = some m)
    ∧ ((stnCores 15).find? (fun c => decide (t.roleOf c = CoreRole.testing)) = some 159 ∧ t.fld (fltB + 0x84) 8 8 = 0
      ∧ (after (.rotationTestDone 15 true 0) t).roleOf 159 = .rotation ∧ (after (.rotationTestDone 15 false 0) t).roleOf 159 = .retired)
    ∧ (after (.laneAgingMeasure (List.replicate 34 300)) up).fld (laneB + 33 * 0x10 + 4) 8 8 = 255
    ∧ (after (.yardScrubStep .clean []) up).pool.scrubAt = 1 := by
  decide +kernel

theorem test_LinkResults :
    let s := up.setFld bootB 0 4 6
    let d := (open' 0).setBit (egrPR 0 4) 0 true
    (s.fenced (unitId 0xA 0) = false ∧ be (s.image.ports.getD 0 []) 1 1 = 0 ∧ (after (.linkUp 0 7 ⟨[], []⟩) s).bit (egrPR 0 4) 0 = true
      ∧ (after (.linkUp 0 7 ⟨[], []⟩) s).now = 7)
    ∧ (after (.linkUp 0 7 ⟨[], []⟩) (s.setBit (egrPR 0 0) 15 true)).fld (egrPR 0 4) 1 2 = 1
    ∧ (after (.linkUp 0 7 ⟨[], []⟩) (s.setFld (egrPR 0 0) 15 12 0x801)).fld (egrPR 0 4) 1 2 = 2
    ∧ (after (.linkUp 32 7 ⟨[], []⟩) State.reset).bit (egrPR 32 4) 0 = true
    ∧ d.bit (egrPR 0 4) 0 = true ∧ (after (.linkDown 0 7 [0] true true) d).bit (egrPR 0 4) 0 = false := by
  decide +kernel

/-- A frame of the module of 60 bytes waits in queue 7 of port 31. -/
def queued : State := (at' fabU (open' 31)).setQueue 31 7 [{ port := 31, cls := 7, frame := List.replicate 60 9#8, size := 60 }]

theorem test_EgressPortResults_copies :
    let cp : Copy := { port := 31, cls := 7, frame := List.replicate 60 9#8, size := 60 }
    let s := queued
    let t := (open' 31).setEgrPort 31 { sending := some cp }
    (s.bit (egrPR 31 4) 0 = true ∧ (s.egrPort 31).sending = none ∧ s.preemptable 31 7 = false ∧ s.queue 31 7 = [cp] ∧ s.headFate cp = .start s.now
      ∧ (after (.egressSelection 31) s).queue 31 7 = [] ∧ ((after (.egressSelection 31) s).egrPort 31).sending.map (·.size) = some 60)
    ∧ ((after (.copyTransmitEnd 31 false false) t).egrPort 31).sending = none
    ∧ (after (.queueFlush 31 7) s).queue 31 7 = []
    ∧ (after (.egrQuotaWrite 33 7 0x7FFFF) up).fld (egrQR 33 7 0) 0 19 = 0x7FFFF
    ∧ (after .refusalNotice up).egr.refusalAt = 100 * msU := by
  decide +kernel

theorem test_EgressPortResults_gates :
    let g : GateList := ⟨1, 1, 1000, 20000 * 2 ^ 16⟩
    let s := ((up.setReg (egrPR 31 0x10) 1000).setReg (gclR 31 1 0 0) 1000).setReg (gclR 31 1 0 1) 0x1FF
    let v : Word := 0x00010003
    let n := s.setEgrPort 31 { gclNext := some g }
    let f := (s.setBit (egrPR 31 0) 14 true).setEgrPort 31 { gcl := some g }
    let c := fun (k sent : Nat) => (up.setFld (egrPR 31 4) 1 2 k).setEgrPort 31 { verifySent := sent }
    (s.gclBad 31 1 1 1000 = false ∧ s.fromCi0 (s.portCi 31) s.now = some 0 ∧ (after (.gclArm 31 v) s).bit (egrPR 31 0xC) 0 = true
      ∧ ((after (.gclArm 31 v) s).egrPort 31).gclNext.map (fun g => (g.bank, g.count, g.cycle)) = some (1, 1, 1000))
    ∧ (up.gclBad 31 1 1 0 = true ∧ (after (.gclArm 31 v) up).bit (egrPR 31 0xC) 3 = true)
    ∧ (((after (.gclBankSwitch 31) n).egrPort 31).gcl = some g ∧ (after (.gclBankSwitch 31) n).fld (egrPR 31 0xC) 2 1 = 1)
    ∧ (f.gateList 31 = some g ∧ 10#32 ≤ f.reg (gclR 31 1 0 0) ∧ (after (.gateBoundary 31) f).fld (egrPR 31 0x1C) 0 10 = 0 ∧ (after (.gateBoundary 31) f).bit (egrPR 31 4) 3 = true)
    ∧ ((after (.preemptVerifySend 31) (c 1 2)).egrPort 31).verifySent = 3
    ∧ (after (.preemptVerifyResponse 31) (c 1 2)).fld (egrPR 31 4) 1 2 = 2
    ∧ (after (.preemptVerifyFail 31) (c 1 3)).fld (egrPR 31 4) 1 2 = 3 ∧ (after (.preemptVerifyFail 31) (c 1 3)).now = 10 * msU := by
  decide +kernel

/-- The rewind store in state k. -/
def rewound (k : Nat) : State := (up.setFld (rewB + 4) 0 3 k).setFld (rewB + 0xC) 0 17 0x1FFFF

theorem test_RewindResults_states :
    let i := up.setFld (rewB + 0xC) 0 17 0
    let f := rewound 1
    let p := (rewound 1).setFld (rewB + 8) 0 16 0xFFFF
    let z := fun (k : Nat) => ({ (rewound k) with rew := { (rewound k).rew with freezing := true, freezeAt := 7 * nsU } } : State)
    let g := { (rewound 3) with time := { up.time with now := periU }, rew := { up.rew with trigAt := some 0 } }
    ((rewound 0).rewSegs ≠ 0 ∧ (after .rewCtlEnable (rewound 0)).fld (rewB + 4) 0 3 = 1 ∧ i.rewSegs = 0 ∧ after .rewCtlEnable i = i)
    ∧ ((after .rewCtlDisable f).fld (rewB + 4) 0 3 = 0 ∧ after .rewCtlDisable (rewound 4) = rewound 4)
    ∧ ((after .rewCtlFreeze p).fld (rewB + 4) 0 3 = 2 ∧ (after .rewCtlFreeze f).rew.freezing = true)
    ∧ (after .rewindPostEnd (rewound 2)).rew.freezing = true
    ∧ ((after .rewindFrozenEntry (z 1)).fld (rewB + 4) 0 3 = 3 ∧ (after .rewindFrozenEntry (z 2)).fld (rewB + 4) 0 3 = 3 ∧ raised (after .rewindFrozenEntry (z 2)) = [Src.rewindFrozen]
      ∧ (after .rewindFrozenEntry (z 1)).reg2 (rewB + 0x20) (rewB + 0x24) = 7)
    ∧ (g.rew.trigAt.all (fun t => t / periU != g.now / periU) = true ∧ (after .rewCtlResume g).fld (rewB + 4) 0 3 = 1 ∧ after .rewCtlResume f = f)
    ∧ ((after .rewCtlDrain (rewound 3)).fld (rewB + 4) 0 3 = 4 ∧ after .rewCtlDrain f = f)
    ∧ (after (.rewLoRead 3) (up.setReg (rewB + 0x6C) 9)).hiLatch = [(rewB + 0x6C, some 9)] := by
  decide +kernel

theorem test_RewindResults_records_and_drains :
    let d : Drain := { segs := [5], index := [5] }
    let s : State := { (rewound 4) with rew := { up.rew with drain := some d } }
    let e : State := { s with rew := { s.rew with endSent := true } }
    let a : State := { s with rew := { s.rew with endSent := true, drain := some { d with aborted := true } } }
    let w : State := { ((rewound 4).setBit (egrPR 0 4) 0 true) with rew := { up.rew with drain := some { d with pausedAt := some 0 } } }
    let c : Coach := { verdict := some 0 }
    let r : State := { ((rewound 1).setCoach 5 c) with rew := { up.rew with pending := [⟨5, 0, 0⟩] } }
    (after .rewCtlAbort s).rew.drain.map (·.aborted) = some true
    ∧ (s.drainHeld = true ∧ (after .drainFrameSend s).bit (rewB + 0x70) 17 = true)
    ∧ (after .drainComplete e).fld (rewB + 4) 0 3 = 3 ∧ (after .drainComplete e).bit (rewB + 4) 3 = true ∧ (after .drainComplete a).bit (rewB + 4) 3 = false
    ∧ (w.fld (egrQR 0 0 0x10) 0 19 ≤ w.drainLow ∧ (after .drainPaceContinue w).rew.drain = some d)
    ∧ raised (after .drainStall (w.setFld (rewB + 0x5C) 0 16 0xFFFF)) = [Src.rewindDrainStall]
    ∧ (r.rew.fill + (r.recordOf ⟨5, 0, 0⟩ c).length ≤ 1048576 ∧ (after .rewindRecordWrite r).rew.records = 1 ∧ (after .rewindRecordWrite r).rew.fill = (r.recordOf ⟨5, 0, 0⟩ c).length) := by
  decide +kernel

/-- Control core 0, whose owner id is 0x800, as the requester. -/
theorem test_PoolResults :
    let r : Requester := .hart c0
    let g := after (.poolGet r 2) up
    let v : Word := 0x80200000
    let h := g.setFld (poolB + 0x120 + 2 * 8) 0 12 0xD3F
    let f := after (.poolGive r 2 v) h
    (up.poolOwner r = some 0x800 ∧ 0 < up.poolFree 2 ∧ (up.takeHead 2).map (·.1) = some 0 ∧ g.resp = .ok 0x80200000 ∧ (g.heldAt 2 0).map (·.owner) = some 0x800)
    ∧ (g.readHandle v.toNat = some (2, 0) ∧ (after (.poolPut r v) g).heldAt 2 0 = none ∧ (after (.poolPut r v) g).poolFree 2 = up.poolFree 2)
    ∧ ((f.heldAt 2 0).map (·.owner) = some 0xD3F ∧ (raised (after (.poolPut r v) f)).contains Src.poolForeignFree = true ∧ ((after (.poolPut r v) f).heldAt 2 0).isSome = true)
    ∧ (up.heldAt 2 0 = none ∧ raised (after (.poolPut r v) up) = [Src.poolDoubleFree])
    ∧ (up.readHandle 0 = none ∧ (after (.poolPut r 0) up).fld (poolB + 0x110) 24 8 = 1)
    ∧ (after (.poolMinClear 2 0x80000000) g).fld (poolR 2 0x18) 0 20 = g.poolFree 2
    ∧ (after (.auditSelWrite 255) up).fld (poolB + 0x180) 0 8 = 255 ∧ (after (.auditPassEnd (65536 * msU)) up).fld (poolB + 0x1A4) 0 16 = 65535
    ∧ (after .yardBankCopyDone { up with pool := { up.pool with bankMove := some (0, 191) } }).pool.bankReady = true := by
  decide +kernel

/-! ### Shared state: locks, tasks, interrupts -/

theorem test_LockResults :
    let r : Requester := .session 15
    let a : BitVec 39 := 0x203FFFFC
    let h := after (.lockAcquire r a) up
    let k := after (.lockAcquire (.hart c0) a) up
    let b := h.setReg (lockB + 0x10) 0x203FFFFC
    let e : LockEnt := ⟨0x203FFFFC, 0, false, 1, 0, false⟩
    let l : State := { up with cpu := { up.cpu with locks := [e] } }
    let g : State := { (at' (2 * msU) (up.setFld lockB 16 16 1)) with cpu := { up.cpu with locks := [{ e with stuck := true }] } }
    (up.ownerId r = some 0xC0F ∧ up.lockPlace 0x203FFFFC = true ∧ up.upset 0x203FFFFC = false ∧ up.cnum 0x203FFFFC 4 = 0
      ∧ h.resp = .ok 0 ∧ h.num 0x203FFFFC 4 = 0xC0000C0F ∧ (h.lockEnt 0x203FFFFC).map (fun e => (e.owner, e.stuck)) = some (0xC0F, true))
    ∧ (k.num 0x203FFFFC 4 = 0xC0000800 ∧ (after (.lockAcquire (.dma 63) a) up).num 0x203FFFFC 4 = 0x803F0D3F)
    ∧ (2 ^ 31 ≤ h.cnum 0x203FFFFC 4 ∧ (after (.lockAcquire (.hart c0) a) h).resp = .ok 0xC0000C0F)
    ∧ ((after (.lockAliasStore r a 0) h).lockEnt 0x203FFFFC = none ∧ (after (.lockAliasStore r a 0) h).num 0x203FFFFC 4 = 0)
    ∧ ((after (.lockAliasStore (.hart c0) a 0) h).fld (lockB + 0xC) 0 16 = 1 ∧ ((after (.lockAliasStore (.hart c0) a 0) h).lockEnt 0x203FFFFC).isSome = true)
    ∧ (up.lockPlace 0x40000000 = false ∧ (after (.lockAcquire r 0x40000000) up).resp = .error ∧ (after (.lockAliasStore r 0x20000001 0) up).resp = .error)
    ∧ ((after .leaseTick l).cpu.locks = [] ∧ raised (after .leaseTick l) = [Src.leaseExpired] ∧ (after .leaseTick l).now = 1024 * nsU)
    ∧ (after .leaseTick ({ up with cpu := { up.cpu with locks := [{ e with left := 2 }] } })).cpu.locks = [e]
    ∧ (raised (after .stuckLockCheck g) = [Src.stuckLockAge] ∧ (after .stuckLockCheck g).cpu.locks.map (·.aged) = [true])
    ∧ ((after .lockBreakGo b).lockEnt 0x203FFFFC = none ∧ (after .lockBreakGo b).fld (lockB + 0x18) 1 3 = 0)
    ∧ (after .lockBreakGo (up.setReg (lockB + 0x10) 0x203FFFFC)).fld (lockB + 0x18) 1 3 = 3 := by
  decide +kernel

/-- Task slot 1023 in STATE k with the priority of slot 0's configuration. -/
def slot (k : Nat) (s : State := up) : State := s.setFld (slotStR 1023) 0 2 k

/-- Every task slot is allocated. -/
def full : State := { up with ctl := (List.range 1024).map (fun t => (slotStR t, (1 : Word))) }

theorem aget_slots (l : List Nat) (t : Nat) (h : t ∈ l) : aget regReset (l.map (fun t => (slotStR t, (1 : Word)))) (slotStR t) = 1 := by
  induction l with
  | nil => cases h
  | cons a l ih =>
    by_cases e : slotStR a = slotStR t
    · simp [aget, e]
    · have : t ∈ l := by
        rcases List.mem_cons.mp h with rfl | h
        · exact absurd rfl e
        · exact h
      simpa [aget, Ne.symm e] using ih this

theorem raised_alloc {s : State} (h : (List.range 1024).find? (fun t => s.slotState t == 0) = none) :
    raised (after .taskAlloc s) = raised s ++ [Src.taskFull] := by
  show raised s.taskAlloc = _
  unfold State.taskAlloc
  split
  · rename_i t e
    rw [h] at e
    cases e
  · simp [raised, State.raise, State.raiseU, State.taskRefuse, State.answerRead, State.count, State.setFld, State.setReg]

theorem full_slotState (t : Nat) (h : t ∈ List.range 1024) : full.slotState t = 1 := by
  have e : full.reg (slotStR t) = 1 := aget_slots _ t h
  simp [State.slotState, State.fld, e]
  rfl

theorem test_TaskResults_full :
    (List.range 1024).find? (fun t => full.slotState t == 0) = none ∧ raised (after .taskAlloc full) = [Src.taskFull] := by
  have h : (List.range 1024).find? (fun t => full.slotState t == 0) = none :=
    List.find?_eq_none.mpr (fun t ht => by simp [full_slotState t ht])
  exact ⟨h, raised_alloc h⟩

theorem test_TaskResults :
    let w := after (.taskPost 1023) (slot 1)
    let run := after (.taskTake 3) w
    ((List.range 1024).find? (fun t => up.slotState t == 0) = some 0 ∧ (after .taskAlloc up).resp = .ok 0x80000000 ∧ (after .taskAlloc up).slotState 0 = 1)
    ∧ (after (.taskPost 1023) up).fld (taskB + 0x24) 0 16 = 1
    ∧ (w.slotState 1023 = 2 ∧ w.readyList (w.slotPrio 1023) = [1023])
    ∧ (after (.taskPost 1023) (slot 3)).bit (slotStR 1023) 2 = true
    ∧ (w.slotOf 3 = none ∧ w.bestSlot = some 1023 ∧ run.slotState 1023 = 3 ∧ run.resp = .ok 0x800003FF ∧ getField (run.sysReg 3 0xB) 0 10 = 1023)
    ∧ (up.bestSlot = none ∧ (after (.taskTake 3) up).resp = .ok 0)
    ∧ (run.runsOn 3 1023 = true ∧ (after (.taskYield 3 1023) run).slotState 1023 = 2 ∧ (after (.taskPreempt 3 1023) run).readyList (run.slotPrio 1023) = [1023])
    ∧ (run.bit (slotStR 1023) 2 = false ∧ (after (.taskDone 3 1023) run).slotState 1023 = 1)
    ∧ (after (.taskDone 3 1023) (run.setBit (slotStR 1023) 2 true)).slotState 1023 = 2
    ∧ (run.runsOn 2 1023 = false ∧ (after (.taskYield 2 1023) run).fld (taskB + 0x24) 0 16 = 1 ∧ (after (.taskPreempt 2 1023) run).fld (taskB + 0x24) 0 16 = 1
      ∧ (after (.taskDone 2 1023) run).fld (taskB + 0x24) 0 16 = 1)
    ∧ ((after (.taskFree 1023) (slot 1)).slotState 1023 = 0 ∧ (after (.taskFree 1023) (slot 2)).fld (taskB + 0x24) 0 16 = 1)
    ∧ ((after (.taskSlotCfgWrite 1023 0xFFFFFFFF) (slot 1)).reg (slotCfgR 1023) = 0xFFFF003F ∧ after (.taskSlotCfgWrite 1023 5) (slot 2) = slot 2) := by
  decide +kernel

theorem test_ControlCoreEventResults :
    let w := after (.taskPost 1023) (slot 1)
    let i := (w.setSys 3 0xC 2).setSys 3 0 3
    let q := (w.setSys 3 0xC 2).modCtlc 3 (fun x => { x with waiting := true })
    let d := (up.setFld (ctlB + 0x4C) 0 17 0x1FFFF)
    let b := (up.setFld (mmuB + 8) 0 16 0xFF01)
    let n := fun (all : Bool) => ({ b with dma := { b.dma with iotlb := [⟨0xFF, 2, 0, 0⟩, ⟨1, 2, 0, 0⟩], iotlbGo := some ⟨all, 0xFF, 0⟩ } } : State)
    let e := up.modCtlc 3 (fun x => { x with evict := [⟨0x800000, List.replicate 64 7, false⟩] })
    (i.irqLine 3 = some 1 ∧ i.ctlRuns 3 = true ∧ i.intEnable 3 = true ∧ (i.ctlc 3).waiting = false
      ∧ (after (.ctlInterrupt 3) i).sysReg 3 2 = 0x8000000000000013 ∧ (after (.ctlInterrupt 3) i).sysReg 3 3 = 1 ∧ (after (.ctlInterrupt 3) i).pcOf (.ctl 3) = 0x20800000)
    ∧ (q.irqLine 3 = some 1 ∧ ((after (.wfiWake 3) q).ctlc 3).waiting = false ∧ (after (.wfiWake 3) q).pcOf (.ctl 3) = 0x20800004)
    ∧ (((after (.watchdogKick 3 0x1FFFF) (at' 7)).ctlc 3).kicked = 7 ∧ (after (.watchdogKick 3 0x1FFFF) up).fld (ctlB + 0x4C) 0 17 = 0x1FFFF)
    ∧ (((after (.watchdogHalf 3) d).ctlc 3).half = true ∧ (after (.watchdogHalf 3) d).now = 65535 * msU / 2)
    ∧ (((after (.watchdogExpire 3) d).ctlc 3).expired = true ∧ raised (after (.watchdogExpire 3) d) = [Src.ctlWatchdog])
    ∧ ((after (.iotlbInvalidate 0xFF02) up).bit (mmuB + 8) 0 = true ∧ (after (.iotlbInvalidate 0xFF02) up).bit (mmuB + 8) 1 = true ∧ (after (.iotlbInvalidate 0xFF02) up).dma.iotlbGo = some ⟨true, 0xFF, 0⟩
      ∧ b.bit (mmuB + 8) 0 = true ∧ (after (.iotlbInvalidate 0) b).dma = b.dma)
    ∧ ((after .iotlbInvalidateDone (n false)).dma.iotlb = [⟨1, 2, 0, 0⟩] ∧ (after .iotlbInvalidateDone (n true)).dma.iotlb = [] ∧ after .iotlbInvalidateDone up = up)
    ∧ (((after (.l2EvictAck 3) e).ctlc 3).evict = [] ∧ (after (.l2EvictAck 3) e).byte 0x2000003F = 7) := by
  decide +kernel

/-- A raw frame with payload `p`: SYNC; SENSOR, FLAGS, LEN, LINE and SEQ; the payload; room for its CRC. -/
def rawFrame (p : List Byte) : List Byte := rawSync ++ (bytesBE 2 1 ++ bytesBE 2 0 ++ bytesBE 2 p.length ++ bytesBE 2 0 ++ bytesBE 4 9 ++ p) ++ [0, 0, 0, 0]

/-- Raw unit 7 in STATE k behind the bytes `b`. -/
def raw (k : Nat) (b : List Byte) (count misses : Nat) : State :=
  ((up.setBit (rawR 7 0) 0 true).setFld (rawR 7 4) 0 2 k).setRaw 7 { buf := b, count := count, misses := misses, cand := 0 }

theorem test_RawFramingResults :
    let f := rawFrame [5]
    let g := 0#8 :: f
    let n := List.replicate 10 0#8
    (after (.rawEnable 7 1) up).fld (rawR 7 4) 0 2 = 1 ∧ ((raw 3 [] 0 0).rawUnit 7).part = none ∧ (after (.rawDisable 7 0) (raw 3 [] 0 0)).fld (rawR 7 4) 0 2 = 0
    ∧ ((((raw 1 [] 0 0).rawUnit 7).feed g).search 23 0 = some 1 ∧ (after (.rawHuntMatch 7 g) (raw 1 [] 0 0)).fld (rawR 7 4) 0 2 = 2
      ∧ ((after (.rawHuntMatch 7 g) (raw 1 [] 0 0)).rawUnit 7).next = 22)
    ∧ ((((raw 1 [] 0 0).rawUnit 7).feed n).search 11 0 = none ∧ (after (.rawHuntMatch 7 n) (raw 1 [] 0 0)).fld (rawR 7 4) 0 2 = 1)
    ∧ ((((raw 2 [] 2 0).rawUnit 7).feed f).sync 0 = true ∧ lenValid ((((raw 2 [] 2 0).rawUnit 7).feed f).len 0) = true
      ∧ (after (.rawConfirmCheck 7 f) (raw 2 [] 2 0)).fld (rawR 7 4) 0 2 = 3)
    ∧ ((after (.rawConfirmCheck 7 f) (raw 2 [] 1 0)).fld (rawR 7 4) 0 5 = 2 + 2 * 4)
    ∧ ((((raw 2 [] 1 0).rawUnit 7).feed n).sync 0 = false ∧ (after (.rawConfirmCheck 7 n) (raw 2 [] 1 0)).fld (rawR 7 4) 0 2 = 1)
    ∧ ((((raw 3 [] 0 1).rawUnit 7).feed f).has 21 = true ∧ (after (.rawFrameDeliver 7 9 f) (raw 3 [] 0 1)).fld (rawR 7 4) 0 2 = 3
      ∧ ((after (.rawFrameDeliver 7 9 f) (raw 3 [] 0 1)).rawUnit 7).next = 21 ∧ (after (.rawFrameDeliver 7 9 f) (raw 3 [] 0 1)).now = 9)
    ∧ ((after (.rawFrameDeliver 7 9 n) (raw 3 [] 0 1)).fld (rawR 7 4) 0 2 = 1 ∧ raised (after (.rawFrameDeliver 7 9 n) (raw 3 [] 0 1)) = [Src.rawAlign 7]) := by
  decide +kernel

/-! ### Tables -/

/-- Group 31 has one tier of 96 bits; CLAUSE_UPD points at entry 4095 and at SRAM. -/
def clauses' (s : State := up) : State := ((grouped s).setReg (clauseB + 0x14) 4095).setReg (clauseB + 0x18) 0x203FFF00

/-- Entry 4095 of group 31 with control word `w`. -/
def held' (w : BitVec 16) : State := clauses'.setClause 31 4095 ⟨5, 7, w, 3⟩

/-- `c` starts an update of a clause entry, and CLAUSE_UPDATE_DONE ends it. -/
def updated (c : Instr) (s : State) : State := after .clauseUpdateDone (after c s)

/-- `c` starts a forwarding update, and FWD_UPDATE_DONE ends it. -/
def forwarded (c : Instr) (s : State) : State := after .fwdUpdateDone (after c s)

theorem test_ClauseUpdateResults :
    let s := clauses'
    let u : Update := { op := 3, group := 31, entry := 4095, began := 0, status := 0, record := List.replicate 256 1 }
    let w : State := { (held' 2).setFld (clauseB + 0x20) 0 16 0xFFFF with cls := { (held' 2).cls with upd := some u } }
    let c : State := { (held' 3) with cls := { (held' 3).cls with upd := some { u with op := 4 } } }
    (s.bit (clauseB + 0x10) 8 = false ∧ s.updSrc % 256 = 0 ∧ s.updEntry = 4095 ∧ s.clauseStatus 1 31 4095 (s.cbytes s.updSrc 256) = 0
      ∧ s.wheel 1 0 = none ∧ (after (.clauseInsert 31) s).clause 31 4095 = s.clause 31 4095 ∧ (after (.clauseInsert 31) s).bit (clauseB + 0x10) 8 = true
      ∧ (updated (.clauseInsert 31) s).clause 31 4095 = ⟨0, 0, 9, 0⟩ ∧ (updated (.clauseInsert 31) s).cls.log = [⟨1, true, 0, 31 * 2 ^ 18 + 4095⟩])
    ∧ ((held' 9).clauseStatus 1 31 4095 (s.cbytes s.updSrc 256) = 3 ∧ (after (.clauseInsert 31) (held' 9)).fld (clauseB + 0x10) 12 3 = 3 ∧ (after (.clauseInsert 31) (held' 9)).mem = [])
    ∧ ((held' 9).clauseStatus 2 31 4095 [] = 0 ∧ (updated (.clauseDelete 31) (held' 9)).clause 31 4095 = ⟨5, 7, 8, 3⟩ ∧ (updated (.clauseDelete 31) (held' 9)).cls.log = [])
    ∧ ((updated (.clauseDelete 31) (held' 5)).clause 31 4095 = ⟨5, 7, 0x185, 3⟩ ∧ (updated (.clauseDelete 31) (held' 5)).cls.log = [⟨1, false, 0, 31 * 2 ^ 18 + 4095⟩])
    ∧ (s.clauseStatus 2 31 4095 [] = 3 ∧ (after (.clauseDelete 31) s).fld (clauseB + 0x10) 12 3 = 3)
    ∧ ((held' 3).clauseStatus 3 31 4095 (s.cbytes s.updSrc 256) = 0 ∧ (updated (.privWrite 31) (held' 3)).clause 31 4095 = ⟨0, 0, 3, 0⟩)
    ∧ ((held' 1).clauseStatus 3 31 4095 (s.cbytes s.updSrc 256) = 3 ∧ (after (.privWrite 31) (held' 1)).fld (clauseB + 0x10) 12 3 = 3)
    ∧ ((held' 3).clauseStatus 4 31 4095 [] = 0 ∧ (after (.privClear 31) (held' 3)).cls.upd.map (·.op) = some 4 ∧ s.clauseStatus 4 31 4095 [] = 3)
    ∧ (s.clauseStatus 5 31 4095 [] = 0 ∧ up.clauseStatus 5 31 4095 [] = 2 ∧ (updated (.clauseRead 31) (held' 9)).byte 0x203FFF00 = 5
      ∧ (updated (.clauseRead 31) (held' 9)).byte (0x203FFF00 + 196) = 9)
    ∧ ((after .clauseUpdateDone w).cls.upd = none ∧ ctlPriv ((after .clauseUpdateDone w).clause 31 4095).control = true ∧ (after .clauseUpdateDone w).bit (clauseB + 0x10) 8 = false)
    ∧ ctlValid ((after .clauseUpdateDone c).clause 31 4095).control = false
    ∧ raised (after .clauseUpdateStall w) = [Src.clauseUpdateStall] ∧ (after .clauseUpdateStall w).now = 65535 * usU := by
  decide +kernel

/-- CLAUSE_TENSE with CURRENT 0 and PENDING 1 and the tenses of `live` live. -/
def tensed (live : Nat) (s : State := up) : State := s.setFld clauseB 8 16 live

theorem test_TenseResults :
    let b := up.setBit clauseB 27 true
    let u : State := { up with cls := { up.cls with undoing := true, log := [⟨1, true, 0, 5⟩] } }
    let c : State := { b with cls := { up.cls with commitAt := some 4096 } }
    let v := ((tensed 3).setFld clauseB 0 4 1).setCoach 5 { loc := .station 0, raw := 0 }
    let d := ((tensed 3).setFld clauseB 0 4 1)
    let p := d.setBit (clauseB + 4) 17 true
    let x : State := { (d.setFld (clauseB + 8) 0 16 1) with time := { up.time with now := msU } }
    (up.commitBusy = false ∧ popCount 16 up.live = 1 ∧ (after .clauseTenseCommit up).bit clauseB 27 = true ∧ (after .clauseTenseCommit up).cls.commitAt = some 4096)
    ∧ (popCount 16 (tensed 15).live = 4 ∧ raised (after .clauseTenseCommit (tensed 15)) = [Src.tenseExhausted])
    ∧ (after .clauseTenseAbort up).cls.undoing = true ∧ b.commitBusy = true ∧ after .clauseTenseCommit b = b ∧ after .clauseTenseAbort b = b
    ∧ (v.oldest = 0 ∧ ((after .clauseTenseVoid v).coach 5).map (·.reason) = some 18 ∧ (after .clauseTenseVoid v).cls.voided = [0] ∧ after .clauseTenseVoid up = up)
    ∧ ((after .tenseCommitEffect c).current = 1 ∧ (after .tenseCommitEffect c).pendingTense = 2 ∧ (after .tenseCommitEffect c).live = 3 ∧ (after .tenseCommitEffect c).now = 4096 * coreU)
    ∧ ((after .tenseAbortDone u).cls.undoing = false ∧ (after .tenseAbortDone u).cls.log = [])
    ∧ (d.drainedOut = true ∧ (after .settlePassStart d).bit (clauseB + 4) 17 = true ∧ (after .settlePassDone p).live = 2 ∧ (after .settlePassDone p).oldest = 1)
    ∧ (raised (after .tenseDrainCheck x) = [Src.tenseDrain] ∧ (after .tenseDrainCheck x).now = msU + usU) := by
  decide +kernel

/-- The record of a forwarding update: `l` at its start, 0 behind it. -/
def fwd (l : List Byte) (s : State := up) : State := (s.setReg (fwdB + 0x34) 0x203FFD80).setBytes 0x203FFD80 l

/-- STATUS of the operation in front of `s`. -/
def st0 (op : Nat) (s : State) : Nat := s.fwdStatus op (s.cbytes s.fwdSrc 640)


/-- A static entry of port 32 written to the FDB; what STATUS an update leaves. -/
def fdbKey' : List Byte := bytesLE 8 0x020000000001
def fdbOne : State := fwd (fdbKey' ++ [128 + 32, 9, 0, 0, 1])
def fdbAt : Nat := (fdbSlots 0x020000000001).headD 0
def status (c : Instr) (s : State) : Nat := (after c s).fld fwdCtl 12 3

theorem test_ForwardingUpdateResults_fdb :
    let x := after .fdbWrite fdbOne
    let y := (forwarded .fdbWrite fdbOne).setBytes 0x203FFD88 [0, 0, 0, 0, 0]
    (fdbOne.bit fwdCtl 8 = false ∧ fdbOne.fwdSrc % 64 = 0 ∧ st0 1 fdbOne = 0 ∧ x.bit fwdCtl 8 = true ∧ x.byte (fdbAt + 8) = 0 ∧ y.byte (fdbAt + 8) = 160)
    ∧ (st0 1 (fwd [0, 0, 0, 0, 0, 0, 0, 0x10]) = 2 ∧ status .fdbWrite (fwd [0, 0, 0, 0, 0, 0, 0, 0x10]) = 2)
    ∧ (st0 2 (fwd fdbKey') = 3 ∧ status .fdbDelete (fwd fdbKey') = 3 ∧ st0 2 y = 0 ∧ (forwarded .fdbDelete y).fdbValid fdbAt = false)
    ∧ (st0 3 (fwd []) = 0 ∧ st0 3 (fwd [0, 4]) = 2 ∧ status .fdbFlush (fwd [0, 4]) = 2)
    ∧ (x.cls.fwdUpd.map (·.jen) = some false ∧ (after .fwdUpdateDone x).bit fwdCtl 8 = false) := by
  decide +kernel

/-- The prefix 10.0.0.1/32 of table 15 with the highest next hop. -/
def prefix1 : List Byte := [15, 32, 0, 0, 0xFF, 0xFF, 0xF, 0, 0, 0, 0, 0, 0, 0, 0, 0, 0, 0, 0, 0, 0, 0, 0, 0, 0, 0, 0, 0, 10, 0, 0, 1]

theorem test_ForwardingUpdateResults_prefixes :
    let l := forwarded .lpmAdd (fwd prefix1)
    let m := l.setBytes 0x203FFD84 [0, 0, 0]
    (st0 4 (fwd prefix1) = 0 ∧ l.cls.prefixes.map (fun p => (p.table, p.family, p.len, p.nh, p.control)) = [(15, 0, 32, 0xFFFFF, 9)])
    ∧ (st0 4 (fwd [0x20]) = 2 ∧ status .lpmAdd (fwd [0x20]) = 2)
    ∧ (st0 5 m = 0 ∧ m.prefixIx (m.cbytes m.fwdSrc 640) 1 = some 0 ∧ (forwarded .lpmDelete m).cls.prefixes = [])
    ∧ (st0 5 (fwd [15, 32]) = 3 ∧ status .lpmDelete (fwd [15, 32]) = 3) := by
  decide +kernel

/-- A stream key of kind 4. -/
def stream1 : List Byte := [4, 0, 5, 6] ++ List.replicate 44 7

theorem test_ForwardingUpdateResults_streams :
    let i := forwarded .strInsert (fwd stream1)
    let j := i
    let a := (strSlots stream1).headD 0
    (st0 6 (fwd stream1) = 0 ∧ i.strControl a = 9 ∧ i.byte (strAddr a + 47) = 7)
    ∧ (st0 6 j = 3 ∧ status .strInsert j = 3)
    ∧ (st0 7 j = 0 ∧ (forwarded .strDelete j).strControl a = 8 ∧ st0 7 (fwd stream1) = 3 ∧ status .strDelete (fwd stream1) = 3) := by
  decide +kernel

theorem test_ForwardingUpdateResults_parameters :
    let g := fwd ([4, 0, 255, 0] ++ List.replicate 60 0 ++ [7])
    (st0 8 g = 0 ∧ (forwarded .paramWrite g).byte (objBase 4 + 255 * 1024) = 7)
    ∧ (st0 8 (fwd [4, 0, 0, 1]) = 2 ∧ status .paramWrite (fwd [4, 0, 0, 1]) = 2)
    ∧ (st0 9 (fwd [0, 0, 0xFF, 0xF]) = 0 ∧ ((forwarded .frerReset (fwd [0, 0, 0xFF, 0xF])).rcvy 4095).takeAny = true)
    ∧ (st0 9 (fwd [0, 0, 0, 0x10]) = 2 ∧ status .frerReset (fwd [0, 0, 0, 0x10]) = 2)
    ∧ (st0 10 (fwd [4]) = 2 ∧ status .fwdRead (fwd [4]) = 2 ∧ st0 10 ((forwarded .fdbWrite fdbOne).setBytes 0x203FFD80 ([5, 0, 0, 0, 0, 0, 0, 0] ++ fdbKey')) = 0) := by
  decide +kernel

/-! ### Siding memory and DMA -/

/-- The module with a DRAM command wheel of 32 positions in channels 0 and 15 at 8,533 MT/s: two REFRESH slots, a CTL slot, a DMA slot. -/
def wheeled (w : List Nat := List.replicate 8 0xD0 ++ List.replicate 4 0xD2 ++ List.replicate 4 0xC0 ++ List.replicate 16 0xFF) (f : Nat := 0) : State :=
  { up with image := { up.image with tt := { up.image.tt with wheels := [⟨3, 0, f, w⟩, ⟨3, 15, f, w⟩] } } }

/-- DCTL cycle `i` at 8,533 MT/s. -/
def dctl (i : Nat) : Nat := i * 60 * 2 ^ 42

/-- R260 and R261 on two addresses: with channel 5 retired a moved unit and its place, and the 16-channel mapping of another. -/
theorem test_dram_mapping :
    dramMap 4096 none 305419896 = (5, 19089016)
    ∧ dramMap 4096 (some 5) 305419896 = (11, 3901974136)
    ∧ (19089016 / 64 / 31 * 32 + 19089016 / 64 % 31 = 307886)
    ∧ homeUnit 4096 5 (movedUnit 4096 5 (305419896 / 4096)) = 305419896 / 4096 := by
  decide +kernel

theorem test_SidingMemoryResults_service :
    let q : State := { wheeled with smc := { wheeled.smc with queues := [(0, [⟨0, false, 0x1000000000⟩])], groups := [(0, [0])] } }
    let m : State := { q with smc := { q.smc with groups := [] } }
    let d : State := { q with smc := { q.smc with queues := [(0, [⟨1, true, 0x1000000000⟩])] } }
    (q.slotFrom 0 4096 0 = some 2 ∧ q.chServes 0 (dctl 8) = true ∧ (after (.dramSlotServe 0 .clean) q).smcQueue 0 = []
      ∧ (after (.dramSlotServe 0 .clean) q).now = dctl 8 ∧ (after (.dramSlotServe 0 .clean) q).smc.slot = [(0, 3)])
    ∧ ((after (.dramSlotServe 0 .clean) m).smcQueue 0 ≠ [] ∧ (after (.dramSlotServe 0 .clean) m).smc.groups = [(0, [0])])
    ∧ (after (.dramSlotServe 0 .clean) d).smcQueue 0 = []
    ∧ raised (after (.dramSlotServe 0 .uncorr) q) = [Src.dramUncorr, Src.dramPpr] := by
  decide +kernel

theorem test_SidingMemoryResults_refresh :
    let s := wheeled
    let hot := s.setReg smcTherm 0x80000000
    let wide := ((wheeled (List.replicate 8 0xD0 ++ List.replicate 248 0xFF) 2).setFld (smcB + 4) 10 2 2).setReg smcTherm 0x80000000
    let idle := s.setFld (smcB + 0xC) 0 16 1
    let z := after (.selfRefreshEntry 15) idle
    let zq : State := { z with smc := { z.smc with queues := [(15, [⟨0, false, 0x1000000000⟩])] } }
    (s.nextRun 15 1 = some (dctl 32) ∧ s.absent (unitId 8 15) = false ∧ s.retiredCh = none
      ∧ (after (.refreshIssue 15 true) s).smc.lastRefresh = [(15, dctl 32)] ∧ raised (after (.refreshIssue 15 true) s) = []
      ∧ (after (.refreshIssue 15 false) s).smc.lastRefresh = [] ∧ raised (after (.refreshIssue 15 false) s) = [Src.dramRefresh])
    ∧ ((after (.mr4Read 0x80000000) s).now = 4 * msU ∧ raised (after (.mr4Read 0x80000000) s) = [Src.dramThermal]
      ∧ raised (after (.mr4Read 0x80000000) hot) = [] ∧ raised (after (.mr4Read 0x40000000) s) = [])
    ∧ (wide.nextRun 15 1 = some (dctl 1024) ∧ (after (.extraRefresh 15) wide).smc.lastRefresh = [(15, dctl 512)] ∧ after (.extraRefresh 15) s = s
      ∧ after (.extraRefresh 15) hot = hot)
    ∧ (idle.rtEnabled = false ∧ idle.rewState = 0 ∧ z.now = dctl 1088 ∧ z.fld (smcCh 15) 0 3 = 1 ∧ z.fld (smcB + 0xC) 31 1 = 1
      ∧ after (.selfRefreshEntry 15) s = s ∧ after (.selfRefreshExit 15) z = z)
    ∧ ((after (.selfRefreshExit 15) zq).fld (smcCh 15) 0 3 = 0 ∧ (after (.selfRefreshExit 15) zq).smc.lastRefresh = [(15, dctl 1088)]) := by
  decide +kernel

theorem test_SidingMemoryResults_rate :
    let s := wheeled
    let g : State := { s.setBit (smcB + 4) 13 true with smc := { s.smc with change := some epochU, target := 1 } }
    let l := after (.dphyPllLock (epochU + usU / 2)) g
    (s.smcFreq = 0 ∧ s.smc.change = none ∧ (after (.smcFreqGo 1) s).smc.change = some epochU ∧ (after (.smcFreqGo 1) s).smc.target = 1)
    ∧ ((after (.smcFreqGo 0) s).fld (smcB + 8) 4 3 = 3 ∧ (after (.smcFreqGo 3) s).fld (smcB + 8) 4 3 = 3 ∧ (after (.smcFreqGo 2) g).fld (smcB + 8) 4 3 = 3
      ∧ (after (.smcFreqGo 2) g).smc.target = 1)
    ∧ (l.smc.locked = true ∧ (after (.dphyPllLock (epochU + usU / 2 - 1)) g).smc.locked = false)
    ∧ ((after .freqChangeComplete l).smcFreq = 1 ∧ (after .freqChangeComplete l).now = epochU + 8 * usU ∧ (after .freqChangeComplete l).smc.change = none)
    ∧ ((after .freqChangeFail g).smcFreq = 0 ∧ (after .freqChangeFail g).fld (smcB + 8) 4 3 = 6 ∧ raised (after .freqChangeFail g) = [Src.dphyPll]) := by
  decide +kernel

theorem test_SidingMemoryResults_retire :
    let s := up.setFld (rewB + 0xC) 0 17 3968
    let r := after (.smcRetireGo 15) s
    (s.retiredCh = none ∧ s.smc.retiring = none ∧ (∀ n < 16, s.fld (smcCh n) 0 3 ≠ 5) ∧ r.smc.retiring = some 15 ∧ r.bit (smcB + 4) 14 = true
      ∧ r.fld smcRetireR 5 3 = 0 ∧ r.fld (rewB + 0xC) 0 17 = 0)
    ∧ ((after (.smcRetireGo 0) r).fld smcRetireR 5 3 = 3 ∧ (after (.smcRetireGo 0) r).smc = r.smc)
    ∧ ((after .retireCopyDone r).smc.copied = true ∧ (after .retireCopyDone s).smc.copied = false)
    ∧ ((after (.smcRetireGo 0) up).fld (smcCh 0) 0 3 = 5 ∧ raised (after (.smcRetireGo 0) up) = [Src.dramRetire]) := by
  decide +kernel

/-- Descriptor fields of Table 13.1 as bytes: word 0, word 1, source, destination. -/
def descr (w0 w1 src dst : Nat) : List Byte := bytesLE 4 w0 ++ bytesLE 4 w1 ++ bytesLE 8 src ++ bytesLE 8 dst

/-- Channel `k` of kind `kind` enabled over a ring of 4 descriptors at 0x20000000 with the descriptors `l`. -/
def ring4 (k kind : Nat) (l : List (List Byte)) (cfg : Nat := 0) (s : State := up) : State :=
  let s := (((s.setReg (dmaR k 0xC) 0x20000000).setReg (dmaR k 0x10) 4).setReg (dmaR k 0) (BitVec.ofNat 32 (1 + 2 * kind + cfg)))
  l.zipIdx.foldl (fun s e => s.setBytes (0x20000000 + 32 * e.2) e.1) s


/-- The first descriptor of a ring: 1 byte with OWN and `flags`, from 0x20000100 to 0x20000200. -/
def mv (flags : Nat := 0) : List Byte := descr (1 + 2 ^ 31 + flags) 0 0x20000100 0x20000200

/-- Channel 63 with its next descriptor known as owned. -/
def armed (s : State := ring4 63 0 [mv]) : State := s.modDch 63 (fun x => { x with owned := true })

/-- Channel 63 in service at engine 3 with descriptor `d`. -/
def busy (d : List Byte) (s : State := ring4 63 0 [d]) : State :=
  ((s.modDch 63 (fun x => { x with owned := true, desc := some (0, 0, d) })).setBusy 3 (some 63)).setDmaState 63 1

theorem test_DmaChannelResults_control :
    let off := (ring4 63 0 [mv]).setBit (dmaR 63 0) 0 false
    let bad := off.setReg (dmaR 63 0x10) 5
    let on := ring4 63 0 [mv]
    let a := armed
    let st := after (.dmaDescriptorStart 3) a
    let h := (armed).setDmaState 63 2
    let x := (armed (ring4 63 1 [mv])).setDmaState 63 2
    (off.ringOk 63 = true ∧ (after (.dmaEnable 63 0x1C) off).dmaEn 63 = true ∧ (after (.dmaEnable 63 0x1C) off).dmaKind 63 = 2
      ∧ (after (.dmaEnable 63 0x1C) off).fld (dmaR 63 0) 3 3 = 3)
    ∧ (bad.ringOk 63 = false ∧ (after (.dmaEnable 63 0) bad).dmaEn 63 = false ∧ (after (.dmaEnable 63 0) bad).fld (dmaR 63 8) 4 4 = 6)
    ∧ (after (.dmaKick 63) off = off ∧ ((after (.dmaKick 63) on).dch 63).owned = true ∧ ((after (.dmaKick 62) (ring4 62 0 [])).dch 62).owned = false)
    ∧ (a.dmaBusy 3 = none ∧ a.dmaPick 3 = some 63 ∧ st.dmaBusy 3 = some 63 ∧ st.dmaState 63 = 1
      ∧ (st.dch 63).desc = some (0, 0, mv ++ List.replicate 8 0) ∧ after (.dmaDescriptorStart 3) st = st)
    ∧ (after (.dmaTxContinue 63) on = on ∧ (after (.dmaResume 63) h).dmaState 63 = 0 ∧ (after (.dmaResume 63) x).dmaState 63 = 0
      ∧ after (.dmaResume 63) on = on ∧ after (.dmaSkip 63) on = on)
    ∧ ((after (.dmaSkip 63) h).dmaHead 63 = 1 ∧ (after (.dmaSkip 63) h).byte 0x20000003 = 0)
    ∧ (((after (.dmaAbort 63) (busy mv)).dch 63).aborting = true ∧ after (.dmaAbort 63) on = on)
    ∧ (after (.ringSeenWrite 63 0xFFFFFFFF) on).fld (dmaR 63 0x1C) 0 12 = 0xFFF := by
  decide +kernel

theorem test_DmaChannelResults_continue :
    let s := ((ring4 63 1 [mv]).setDmaState 63 3).setFld (admitR 33 0) 0 20 1
    let p : State := { s.setFld (admitR 33 0) 20 12 1 with meters := [(33, ⟨secU, 0⟩)] }
    p.tokens33.1.credit = secU ∧ (after (.dmaTxContinue 63) p).dmaState 63 = 0 ∧ (after (.dmaTxContinue 63) p).now = 0
      ∧ (after (.dmaTxContinue 63) (p.setReg (dmaR 63 0x20) 0x1002000)).dmaState 63 = 3 := by
  decide +kernel

theorem test_DmaChannelResults_bad :
    let d := descr (2 ^ 31) 0 0x20000100 0x20000200
    let t := after (.dmaDescriptorComplete 3 0) (busy d)
    (busy d).descBad 63 d = true ∧ t.dmaState 63 = 2 ∧ t.fld (dmaR 63 8) 4 4 = 6 ∧ t.dmaBusy 3 = none ∧ t.bit (dmaB + 12) 15 = true
      ∧ raised t = [Src.dmaErr 3] := by
  decide +kernel

theorem test_RealTimeChannels :
    let d := descr (4097 + 2 ^ 31) 0 0x20000100 0x1000000000
    let b := busy (d ++ List.replicate 8 0) (ring4 63 0 [d] 0x20)
    let t := after (.dmaDescriptorComplete 3 0) b
    let r := ring4 63 2 [d] 0x20
    let k := after (.dmaKick 63) r
    let z := ((wheeled.setFld (smcB + 0xC) 0 16 1)).setReg (dmaR 63 0) 0x21
    (b.bit (dmaR 63 0) 5 = true ∧ b.region 0x1000000000 = .dram ∧ t.dmaState 63 = 2 ∧ t.fld (dmaR 63 8) 4 4 = 6)
    ∧ (dOwn (r.descAt 63 0) = true ∧ r.region (dDst (r.descAt 63 0)) = .dram ∧ k.dmaState 63 = 2 ∧ k.fld (dmaR 63 8) 4 4 = 6)
    ∧ (z.dmaEn 63 = true ∧ after (.selfRefreshEntry 15) z = z) := by
  decide +kernel

theorem test_DmaMoveResults_byte :
    let d := mv ++ List.replicate 8 0
    let b := (busy d).setByte 0x20000100 0xA5
    let t := after (.dmaDescriptorComplete 3 0) b
    (∀ ln, b.dirtyLine ln = none)
    ∧ b.dmaBusy 3 = some 63 ∧ (b.dch 63).desc = some (b.dmaHead 63, 0, d) ∧ (b.dch 63).aborting = false ∧ (b.dch 63).disabling = false
    ∧ b.dmaKind 63 = 0 ∧ b.dmaState 63 = 1 ∧ b.descBad 63 d = false ∧ dVirt d = false ∧ dLen d = 1 ∧ b.dmaCount 63 = 4
    ∧ b.upset (dSrc d) = false ∧ t.byte 0x20000200 = 0xA5 ∧ t.dmaState 63 = 0 ∧ t.dmaHead 63 = 1 ∧ t.num 0x20000018 4 = 1 ∧ t.byte 0x20000003 = 0 := by
  refine ⟨fun ln => rfl, ?_⟩
  decide +kernel

theorem test_DmaMoveResults_frame :
    let s := (ring4 63 2 [descr (256 + 2 ^ 31) 0 0 0x20000200]).modDch 63 (fun x => { x with owned := true })
    let s := s.setFld (dmaB + 0x14) 12 6 63
    let c : Copy := { frame := [0xAA, 0xBB], port := 33, cls := 7, charge := 2, size := 2 }
    let s := s.setEgrPort 33 { s.egrPort 33 with sending := some c }
    (∀ ln, s.dirtyLine ln = none)
    ∧ (s.egrPort 33).sending = some c ∧ s.ringReady 7 = some 63 ∧ s.dmaCount 63 = 4 ∧ s.dmaHead 63 = 0
    ∧ 64 + c.frame.length ≤ dLen (s.descAt 63 0) ∧ dDst (s.descAt 63 0) = 0x20000200 := by
  refine ⟨fun ln => rfl, ?_⟩
  decide +kernel

/-! ### Jenitor -/

/-- An accepted command of session 3 with the item (op, b) in front and a PING behind it. -/
def jc (op : Nat) (b : List Byte) (role : Nat := 2) : JenCmd :=
  { session := 3, id := 0x53, role := role, seq := 7, tag := [], stop := false, items := [(op, b), (1, [])], answers := [] }

def ping1 : List (Nat × List Byte) := [(1, [])]

/-- Session 3 is open with role 2 and a key of 32 bytes 0x0B, on port 32. -/
def sess3 : Session := { isOpen := true, id := 0x53, key := List.replicate 32 0x0B, role := 2, port := 32, mac := [2, 0, 0, 0, 0, 1], high := 6, opens := 5 }

/-- Jenitor on port 32, whose link is up, with session 3 open. -/
def jen (s : State := up) : State :=
  { (s.setBit jenB 31 true).setBit (egrPR 32 4) 0 true with jen := { s.jen with sessions := [(3, sess3)] } }

/-- The command `c` waits alone. -/
def asked (c : JenCmd) (s : State := jen) : State := { s with jen := { s.jen with cmds := [c] } }

/-- The conditions of `Asks`, as a computation. -/
def asksNow (s : State) (c : JenCmd) (op : Nat) (b : List Byte) (role size : Nat) : Bool :=
  decide (s.jen.cmds = [c]) && decide (c.items = (op, b) :: ping1) && !c.closing && c.origin.isNone && itemKnown c op b && !c.waiting
    && s.fld bootB 0 4 != 8 && decide (role ≤ c.role) && decide (c.used + 4 + size ≤ 1400)

theorem asks_of_now {s : State} {c : JenCmd} {op role size : Nat} {b : List Byte} (h : asksNow s c op b role size = true) :
    Asks s c op b ping1 role size := by
  simp only [asksNow, Bool.and_eq_true, decide_eq_true_eq, Bool.not_eq_true', bne_iff_ne, Option.isNone_iff_eq_none] at h
  obtain ⟨⟨⟨⟨⟨⟨⟨⟨h1, h2⟩, h3⟩, h4⟩, h5⟩, h6⟩, h7⟩, h8⟩, h9⟩ := h
  exact { alone := h1, items := h2, closing := h3, origin := h4, known := h5, next := (by rintro x ⟨⟩; rfl), ready := h6, phase := h7,
          allowed := h8, fits := h9 }

/-- The answers given so far in the state `c` leaves. -/
def ans (c : Instr) (s : State) : List (Nat × Nat × List Byte) := ((after c s).jen.cmds.head?.map (·.answers)).getD []

/-- The command is among those that wait for their effect. -/
def waits (c : Instr) (s : State) : Bool := (after c s).jen.cmds.any (·.waiting)

/-- The status of the answer to `c` for an item (op, b) of role `role`. -/
def st (c : Instr) (op : Nat) (b : List Byte) (s : State := jen) (role : Nat := 2) : Option Nat :=
  ((ans c (asked (jc op b role) s)).head?.map (·.2.1))

/-- The body of that answer. -/
def body (c : Instr) (op : Nat) (b : List Byte) (s : State := jen) : List Byte := ((ans c (asked (jc op b) s)).head?.map (·.2.2)).getD [1]

/-- `Asks` holds for an item (op, b) whose answer takes `size` bytes. -/
def ok (op : Nat) (b : List Byte) (size : Nat) (s : State := jen) : Bool := asksNow (asked (jc op b) s) (jc op b) op b 2 size

/-- A Jenitor message in an untagged frame for MGT. -/
def mgt (msg : List Byte) : List Byte := [2, 0, 0, 0, 0, 9, 2, 0, 0, 0, 0, 1, 0x88, 0xB5] ++ msg

/-- COMMAND 7 of session 0x53 with a PING, its TAG by HMAC-SHA-256 under the key of session 3, worked outside the model. -/
def pingMsg : List Byte := [0x11, 0, 0, 4, 0, 0, 0, 0x53, 0, 0, 0, 7, 0, 0, 0, 0,
  0x92, 0x90, 0x94, 0xb0, 0xba, 0x49, 0xfc, 0x50, 0x9e, 0x27, 0x9a, 0x2c, 0x65, 0x95, 0x18, 0xce, 1, 0, 0, 0]

/-- ACK 9 of session 0x53, its TAG worked likewise. -/
def ackMsg : List Byte := [0x41, 0, 0, 0, 0, 0, 0, 0x53, 0, 0, 0, 9, 0, 0, 0, 0,
  0xe1, 0x2d, 0x0a, 0x07, 0xf9, 0x1d, 0x77, 0xcd, 0x15, 0x4a, 0x58, 0x1b, 0x86, 0x39, 0xb2, 0xa4]

theorem test_JenitorFrameResults_discards :
    let s := jen
    let bad := mgt (0x12 :: pingMsg.drop 1)
    let far := mgt (pingMsg.take 7 ++ 0x54 :: pingMsg.drop 8)
    let forged := mgt (pingMsg.take 16 ++ 0 :: pingMsg.drop 17)
    let full : State := (s.setFld (jenB + 8) 0 16 1)
    let full : State := { full with jen := { full.jen with meter := [(32, (0, 1))] } }
    (s.jenAt 32 [2, 0, 0, 0, 0, 9] = none ∧ after (.jenFrameReceive 32 5 [2, 0, 0, 0, 0, 9]) s = s.advance 5)
    ∧ (s.jenAt 32 (mgt pingMsg) = some 14 ∧ s.bit (egrPR 32 4) 0 = true ∧ (full.jenMeter 32).1 = false
      ∧ (after (.jenFrameReceive 32 5 (mgt pingMsg)) full).fld (jenB + 0x28) 0 32 = 1)
    ∧ ((s.jenMeter 32).1 = true ∧ msgBad (bad.drop 14) = true ∧ (after (.jenFrameReceive 32 5 bad) s).fld (jenB + 0x20) 0 32 = 1)
    ∧ (msgBad (far.drop 14) = false ∧ isOpenMsg (far.drop 14) = false ∧ raised (after (.jenFrameReceive 32 5 far) s) = [Src.jenSession]
      ∧ (after (.jenFrameReceive 32 5 far) s).fld (jenB + 0x18) 0 32 = 1)
    ∧ (msgSealed (s.session 3).key (forged.drop 14) = false ∧ raised (after (.jenFrameReceive 32 5 forged) s) = [Src.jenAuth]) := by
  decide +kernel

theorem test_JenitorFrameResults_accepted :
    let s := jen
    let t := after (.jenFrameReceive 32 5 (mgt pingMsg)) s
    let old : State := { s with jen := { s.jen with sessions := [(3, { sess3 with high := 71 })] } }
    let n : Notice := { kind := 1, body := [], copies := [{ session := 3, seq := 9, sends := 1, bytes := [0] }] }
    let w : State := { s with jen := { s.jen with notices := [n] } }
    (msgSealed (s.session 3).key pingMsg = true ∧ (s.session 3).high < msgSeq pingMsg ∧ msgItems pingMsg = some [(1, [])]
      ∧ t.jen.cmds.map (fun c => (c.seq, c.items)) = [(7, [(1, [])])] ∧ (t.session 3).high = 7 ∧ (t.session 3).lastFrame = 5)
    ∧ (msgSeq pingMsg + 64 ≤ (old.session 3).high ∧ (after (.jenFrameReceive 32 5 (mgt pingMsg)) old).fld (jenB + 0x1C) 0 32 = 1
      ∧ (after (.jenFrameReceive 32 5 (mgt pingMsg)) old).jen.cmds = [])
    ∧ (msgKind pingMsg ≠ 4 ∧ after (.jenAck 32 5 (mgt pingMsg)) s = s.advance 5)
    ∧ (msgSealed (s.session 3).key ackMsg = true ∧ msgBad ackMsg = false ∧ (w.session 3).ackHigh < msgSeq ackMsg
      ∧ (after (.jenAck 32 5 (mgt ackMsg)) w).jen.notices = [] ∧ ((after (.jenAck 32 5 (mgt ackMsg)) w).session 3).ackHigh = 9) := by
  decide +kernel

/-- SESSION_OPEN under host key 7 with role 1 and a host nonce of 0x5A, its TAG under a key of 32 bytes 0x0B, worked likewise. -/
def openBody : List Byte := [7, 1] ++ List.replicate 16 0x5A
def openMsg (tag : List Byte) : List Byte := [0x11, 0, 0, 22, 0, 0, 0, 0, 0, 0, 0, 1, 0, 0, 0, 0] ++ tag ++ [0x16, 0, 0, 18] ++ openBody
def openTag : List Byte := [0x95, 0x74, 0x09, 0x8d, 0x98, 0xb4, 0x77, 0xcc, 0x5e, 0x0a, 0x40, 0xb1, 0x37, 0x90, 0x6e, 0xe8]
def opener (msg : List Byte) : State :=
  let c : JenCmd := { session := 16, seq := 1, tag := [], stop := false, items := [(0x16, openBody)], answers := [],
                      origin := some ⟨32, none, [2, 0, 0, 0, 0, 1], msg⟩ }
  let s : State := { jen with jen := { jen.jen with keys := [(7, 2 :: List.replicate 32 0x0B)] } }
  asked c s

theorem test_SessionResults_open :
    let s := opener (openMsg openTag)
    let x := (after .sessionOpen s).session 0
    let f := opener (openMsg (0 :: openTag.drop 1))
    s.openKey 7 = some (2, List.replicate 32 0x0B) ∧ msgSealed (List.replicate 32 0x0B) (openMsg openTag) = true
    ∧ (List.range 16).find? (fun i => !(s.session i).isOpen) = some 0 ∧ (after .sessionOpen s).jen.cmds = []
    ∧ x.isOpen = true ∧ x.role = 1 ∧ x.port = 32 ∧ x.id = 16
    ∧ msgSealed (List.replicate 32 0x0B) (openMsg (0 :: openTag.drop 1)) = false ∧ (after .sessionOpen f).jen.sessions = [(3, sess3)] := by
  decide +kernel

theorem test_SessionResults :
    let c : JenCmd := { jc 0x17 [] with items := [(0x17, [])] }
    let s := asked c
    let i := jen.setFld (jenB + 8) 16 16 0xFFFF
    let x : NoticeCopy := { session := 3, seq := 9, sends := 1, due := 77 }
    let n : Notice := { kind := 1, body := [], copies := [x] }
    let w := fun (x : NoticeCopy) => ({ jen with jen := { jen.jen with notices := [{ n with copies := [x] }] } } : State)
    (s.cmdLive c = true ∧ c.used ≤ 1396 ∧ (after .sessionClose s).jen.cmds = [] ∧ ((after .sessionClose s).session 3).isOpen = false
      ∧ (raised (after .sessionClose s)).contains Src.jenSession = true)
    ∧ (after (.sessionIdleClose 3) jen = jen ∧ ((after (.sessionIdleClose 3) i).session 3).isOpen = false ∧ (after (.sessionIdleClose 3) i).now = 65535 * secU)
    ∧ (ok 0x15 [1, 0xFF] 2 = true ∧ st .noticeConfig 0x15 [1, 0xFF] = some 0 ∧ ((after .noticeConfig (asked (jc 0x15 [1, 0xFF]))).session 3).mask = 511
      ∧ st .noticeConfig 0x15 [2, 0] = some 2)
    ∧ (after .noticeResend jen = jen ∧ (after .noticeResend (w x)).jen.notices.map (·.copies.map (fun y => (y.sends, y.due, y.parked))) = [[(2, 77 + 10 * msU, false)]])
    ∧ ((after .noticeResend (w { x with sends := 9 })).jen.notices.map (·.copies.map (·.parked)) = [[true]] ∧ (after .noticeResend (w { x with sends := 9 })).now = 77) := by
  decide +kernel

theorem test_ItemRefusals :
    let r := jen.setFld bootB 0 4 8
    let full : JenCmd := { jc 1 [] with answers := [(2, 0, List.replicate 1375 0)] }
    let w : State := asked { jc 1 [] with waiting := true }
    after .read (asked (jc 1 [])) = asked (jc 1 []) ∧ after .ping w = w
    ∧ (jc 3 (List.replicate 12 0) 1).role < 2 ∧ st .write 3 (List.replicate 12 0) jen 1 = some 7
    ∧ st .tenseCommit 6 [0, 0, 0] jen 0 = some 7 ∧ st .tenseCommitAbort 6 [1, 0, 0] jen 0 = some 7 ∧ st .tenseCommitVoid 6 [2, 0, 0] jen 0 = some 7
    ∧ st .unitReset 8 [0, 0, 0, 0, 0] jen 1 = some 7 ∧ st .unitFence 8 [0, 0, 0, 0, 1] jen 1 = some 7 ∧ st .unitUnfence 8 [0, 0, 0, 0, 2] jen 1 = some 7
    ∧ st .faultClear 0x0B [0, 0] jen 0 = some 7 ∧ st .imageActivateRestart 0x0E [0, 0, 0, 0, 0, 1, 1, 0, 0] jen 1 = some 7
    ∧ st .read 2 (List.replicate 8 0) r = some 7 ∧ st .ping 1 [] r = some 0
    ∧ full.used = 1379 ∧ (after .ping (asked full)).jen.cmds = [] := by
  decide +kernel

/-- A READ body: an address in control space. -/
def addr8 (a : Nat) : List Byte := bytesBE 8 a

theorem test_ReadItemResults_access :
    let s := jen
    let sys := clkB + 4
    (ok 1 [] 18 = true ∧ body .ping 1 [] { s with time := { s.time with now := 3 * secU + 5 * nsU } } = [0, 0, 0, 0, 0, 3, 0, 0, 0, 5, 0, 0, 0, 0, 0, 0, 0, 0])
    ∧ (ok 2 (addr8 1) 4 = true ∧ s.jenReach 1 = false ∧ st .read 2 (addr8 1) = some 2)
    ∧ (s.jenReach sys = true ∧ (sys - block 0) / 0x100000 = 1 ∧ body .read 2 (addr8 sys) = bytesBE 4 (jen.reg sys).toNat)
    ∧ (st .write 3 (addr8 1 ++ [0, 0, 0, 1]) = some 2)
    ∧ (ok 4 (addr8 sys ++ [0, 2]) 8 = true ∧ st .readBlock 4 (addr8 sys ++ [0, 2]) = some 0 ∧ st .readBlock 4 (addr8 sys ++ [0, 0]) = some 2
      ∧ st .readBlock 4 (addr8 sys ++ [1, 89]) = some 2)
    ∧ (jen.unitExists 0xD40 = false ∧ st .stateQuery 7 [0xD, 0x40] = some 6 ∧ jen.unitExists 0xD3F = true ∧ st .stateQuery 7 [0xD, 0x3F] = some 0
      ∧ (body .stateQuery 7 [0xD, 0x3F]).take 4 = [0, 0, 0, 0]) := by
  decide +kernel

theorem test_ReadItemResults_records :
    let a := 0x203FFFFC
    let l : State := { jen with cpu := { jen.cpu with locks := [⟨a, 5, false, 9, 0, false⟩] } }
    let r : State := { jen with flt := { jen.flt with ramRing := [5 :: List.replicate 63 0, 3 :: List.replicate 63 0] } }
    (st .lockBreak 9 (addr8 1) = some 2 ∧ jen.lockPlace a = true ∧ st .lockBreak 9 (addr8 a) = some 3 ∧ st .lockBreak 9 (addr8 (2 ^ 39)) = some 2
      ∧ st .lockBreak 9 (addr8 a) l = some 0 ∧ (after .lockBreak (asked (jc 9 (addr8 a)) l)).lockEnt a = none)
    ∧ (st .auditRead 0x0A [1, 0] = some 2 ∧ st .auditRead 0x0A [0, 255] = some 0 ∧ (body .auditRead 0x0A [0, 255]).length = 26)
    ∧ (st .journalRead 0x0C [0, 0, 0, 0, 0] = some 2 ∧ st .journalRead 0x0C [0, 0, 0, 0, 22] = some 2 ∧ ok 0x0C [0, 0, 0, 4, 21] 1348 r = true
      ∧ body .journalRead 0x0C [0, 0, 0, 4, 21] r = [0, 0, 0, 5, 5] ++ List.replicate 63 0
      ∧ (body .journalRead 0x0C [0, 0, 0, 0, 2] r).take 5 = [0, 0, 0, 3, 3])
    ∧ (st .placementRead 0x13 [2, 0, 0] = some 2 ∧ (body .placementRead 0x13 [9, 0, 33]).take 4 = [0, 1, 0xFF, 0xFF]
      ∧ (body .placementRead 0x13 [1, 0, 0]).take 4 = [0, 159 + 1, 0xFF, 0xFF]) := by
  decide +kernel

/-- A TABLE_WRITE body of target 0: OP, GROUP, ENTRY 4095 and a record of bytes 0. -/
def tw (op g : Nat) : List Byte := [0, BitVec.ofNat 8 op, BitVec.ofNat 8 g, 0, 0, 0xF, 0xFF] ++ List.replicate 256 0

theorem test_TableItemResults_tables :
    let s := jen (grouped up)
    let u : Update := { op := 3, group := 31, entry := 4095, began := 0, status := 0, record := [] }
    let b : State := { s with cls := { s.cls with upd := some u } }
    let f : State := { s with cls := { s.cls with fwdUpd := some u } }
    let w := after .tableWrite (asked (jc 5 (tw 1 31)) s)
    let fdb : List Byte := [1, 1, 0, 0, 0, 0, 0] ++ fdbKey' ++ [160, 9, 0, 0, 1] ++ List.replicate 51 0
    (ok 5 (tw 1 31) (tableSize (tw 1 31)) s = true ∧ st .tableWrite 5 (tw 1 31) b = some 5)
    ∧ (s.clauseStatus 2 31 4095 (List.replicate 256 0) = 3 ∧ st .tableWrite 5 (tw 2 31) s = some 3)
    ∧ (s.clauseStatus 1 31 4095 (List.replicate 256 0) = 0 ∧ waits .tableWrite (asked (jc 5 (tw 1 31)) s) = true
      ∧ w.cls.upd.map (fun x => (x.op, x.group, x.entry, x.jen)) = some (1, 31, 4095, true))
    ∧ (ok 5 fdb (tableSize fdb) s = true ∧ st .tableWrite 5 fdb f = some 5 ∧ waits .tableWrite (asked (jc 5 fdb) s) = true
      ∧ st .tableWrite 5 ([1, 2, 0, 0, 0, 0, 0] ++ fdbKey' ++ List.replicate 56 0) s = some 3) := by
  decide +kernel

theorem test_TableItemResults_tenses :
    let s := jen
    let d : State := jen ((tensed 3).setFld clauseB 0 4 1)
    let busy := s.setBit clauseB 27 true
    ((s.unit (unitId 0xF 0)).gen = 0 ∧ ok 6 [0, 0, 1] 4 = true ∧ body .tenseCommit 6 [0, 0, 1] = [0, 0, 0] ∧ st .tenseCommit 6 [0, 0, 1] = some 4
      ∧ st .tenseCommitAbort 6 [1, 0, 1] = some 4 ∧ st .tenseCommitVoid 6 [2, 0, 1] = some 4
      ∧ raised (after .tenseCommit (asked (jc 6 [0, 0, 1]))) = [Src.stateStale])
    ∧ (s.commitBusy = false ∧ popCount 16 s.live < 4 ∧ waits .tenseCommit (asked (jc 6 [0, 0, 0])) = true
      ∧ (after .tenseCommit (asked (jc 6 [0, 0, 0]))).commitBusy = true)
    ∧ (st .tenseCommit 6 [0, 0, 0] busy = some 3 ∧ st .tenseCommitAbort 6 [1, 0, 0] = some 0
      ∧ (after .tenseCommitAbort (asked (jc 6 [1, 0, 0]))).cls.undoing = true)
    ∧ (st .tenseCommitVoid 6 [2, 0, 0] = some 3 ∧ 1 < popCount 16 d.live ∧ st .tenseCommitVoid 6 [2, 0, 0] d = some 0
      ∧ (after .tenseCommitVoid (asked (jc 6 [2, 0, 0]) d)).cls.voided = [0]) := by
  decide +kernel

theorem test_UnitItemResults :
    let x := 0xD3F
    let uu := fun (st : Nat) => jen.setUnit x { state := st, gen := 0xFFFF }
    let a := uu 0
    let b := fun (m : Nat) => ([0xD, 0x3F, 0xFF, 0xFF, BitVec.ofNat 8 m] : List Byte)
    let r := after .unitReset (asked (jc 8 (b 0)) a)
    let w : State := asked { jc 8 (b 0) with waiting := true } { uu 2 with jen := { jen.jen with resets := [(x, some 5)] } }
    (ok 8 (b 0) 3 a = true ∧ waits .unitReset (asked (jc 8 (b 0)) a) = true ∧ (r.unit x).state = 2 ∧ aget (fun _ => none) r.jen.resets x = some r.now
      ∧ r.dmaState 63 = 2)
    ∧ st .unitReset 8 (b 0) (uu 6) = some 3
    ∧ (st .unitFence 8 (b 1) a = some 0 ∧ body .unitFence 8 (b 1) a = [1, 0, 0] ∧ ((after .unitFence (asked (jc 8 (b 1)) a)).unit x).epoch = 1
      ∧ raised (after .unitFence (asked (jc 8 (b 1)) a)) = [Src.unitFenced])
    ∧ ((uu 1).fencePending x false = false ∧ body .unitUnfence 8 (b 2) (uu 1) = [0, 0, 0] ∧ st .unitUnfence 8 (b 2) a = some 3)
    ∧ (resettable x = true ∧ a.unitExists x = true ∧ body .unitFence 8 [0xD, 0x3F, 0, 0, 1] a = [0, 0xFF, 0xFF])
    ∧ after (.unitResetDone 0xD3F) a = a ∧ after (.unitResetTimeout 0xD3F) a = a
    ∧ (((after (.unitResetDone 0xD3F) w).unit x).state = 0 ∧ ans (.unitResetDone 0xD3F) w = [(8, 0, [0, 0, 0])])
    ∧ ((after (.unitResetTimeout 0xD3F) w).now = 5 + 2 * secU ∧ ans (.unitResetTimeout 0xD3F) w = [(8, 0, [2, 0xFF, 0xFF])]) := by
  decide +kernel

theorem test_UnitItemResults_faults :
    let p := fun (x : Nat) => jen.setBit (pendR (x / 32)) (x % 32) true
    let v := { p Src.placementDegraded with flt := { jen.flt with causes := [(Src.placementDegraded, true)] } }
    (ok 0x0B [1, 0] 32 = true ∧ st .faultClear 0x0B [1, 0] = some 2)
    ∧ ((p Src.jenAuth).pending? Src.jenAuth = true ∧ (p Src.jenAuth).causePersists Src.jenAuth = false
      ∧ st .faultClear 0x0B (bytesBE 2 Src.jenAuth) (p Src.jenAuth) = some 0
      ∧ (after .faultClear (asked (jc 0x0B (bytesBE 2 Src.jenAuth)) (p Src.jenAuth))).pending? Src.jenAuth = false)
    ∧ (v.causePersists Src.placementDegraded = true ∧ st .faultClear 0x0B (bytesBE 2 Src.placementDegraded) v = some 8)
    ∧ ((∀ k < 48, jen.blockPhys k ≠ 51) ∧ jen.cls.blockMove = none ∧ st .spareRetire 0x14 [4, 51, 0, 0] = some 0
      ∧ ((after .spareRetire (asked (jc 0x14 [4, 51, 0, 0]))).unit 0x433).state = 6
      ∧ st .spareRetire 0x14 [4, 51, 0, 0] (jen.setUnit 0x433 { state := 6 }) = some 3) := by
  decide +kernel

theorem test_ChangeItemResults_time :
    let b := fun (n atS atN : Nat) => ([BitVec.ofNat 8 n] ++ bytesBE 6 atS ++ bytesBE 4 atN ++ [1] ++ bytesBE 6 0xFFFFFFFFFFFF ++ bytesBE 4 999999999 : List Byte)
    let i := fun (n k v : Nat) => ([BitVec.ofNat 8 n, BitVec.ofNat 8 k] ++ bytesBE 8 v ++ [0, 0] : List Byte)
    let t := after .timeSet (asked (jc 0xF (b 8 0 1000)))
    (ok 0xF (b 8 0 1000) 0 = true ∧ waits .timeSet (asked (jc 0xF (b 8 0 1000))) = true ∧ t.bit (ciR 8 0x30) 0 = true
      ∧ (t.inst 8).step.map (·.instant) = some (1000 * nsU) ∧ waits .timeSet (asked (jc 0xF (b 1 10 0))) = true)
    ∧ (st .timeSet 0xF (b 0 0 1000) = some 2 ∧ st .timeSet 0xF (b 9 0 1000) = some 2 ∧ st .timeSet 0xF (b 8 0 999) = some 2 ∧ st .timeSet 0xF (b 8 10 1) = some 2)
    ∧ (body .timeAdjustIncr 0x10 (i 8 0 0) = bytesBE 8 351667799027876 ∧ body .timeAdjustIncr 0x10 (i 1 0 (2 ^ 64 - 1)) = bytesBE 8 352019642748764
      ∧ raised (after .timeAdjustIncr (asked (jc 0x10 (i 8 0 0)))) = [Src.ciAlarm 8] ∧ st .timeAdjustIncr 0x10 (i 0 0 0) = some 2)
    ∧ (st .timeAdjustSlew 0x10 (i 8 1 (2 ^ 64 - 2 ^ 31)) = some 0 ∧ st .timeAdjustSlew 0x10 (i 9 1 0) = some 2
      ∧ ((after .timeAdjustSlew (asked (jc 0x10 (i 8 1 (2 ^ 64 - 2 ^ 31))))).inst 8).slew.map (·.left) = some (-(2 ^ 71))) := by
  decide +kernel

theorem test_ChangeItemResults_rewind :
    let z := fun (n : Nat) => jen.setFld (rewB + 4) 0 3 n
    let fr := (z 1).setFld (rewB + 8) 0 16 1
    let dr : State := { z 4 with rew := { jen.rew with drain := some { segs := [], index := [] } } }
    let d0 : List Byte := 0 :: List.replicate 16 0
    let d1 : List Byte := 1 :: List.replicate 16 0
    (st .rewindFreeze 0x11 [0] = some 3 ∧ fr.rew.freezing = false ∧ body .rewindFreeze 0x11 [0] fr = [2])
    ∧ (st .rewindFreezeResume 0x11 [1] fr = some 3 ∧ body .rewindFreezeResume 0x11 [1] (z 3) = [1])
    ∧ (st .rewindDrainStart 0x12 d0 = some 3 ∧ st .rewindDrainStart 0x12 d0 (z 3) = some 0
      ∧ (after .rewindDrainStart (asked (jc 0x12 d0) (z 3))).fld (rewB + 4) 0 3 = 4)
    ∧ (st .rewindDrainAbort 0x12 d1 dr = some 0 ∧ (after .rewindDrainAbort (asked (jc 0x12 d1) dr)).rew.drain.map (·.aborted) = some true
      ∧ st .rewindDrainAbort 0x12 d1 = some 3) := by
  decide +kernel

theorem test_ChangeItemResults_images :
    let b := fun (slot o : Nat) => (BitVec.ofNat 8 slot :: bytesBE 4 o ++ List.replicate 256 0x42 : List Byte)
    let w : State := { jen with jen := { jen.jen with imageWrite := some (1, 65536, [1, 2]) } }
    let act := fun (mode restart : Nat) => ([0, 0, 0, 0, 1, BitVec.ofNat 8 mode, BitVec.ofNat 8 restart, 0, 0] : List Byte)
    let v : State := asked { jc 0xE (act 0 0) with waiting := true } { jen with jen := { jen.jen with activate := some (0, 1, 0) } }
    (ok 0xD (b 1 (2 ^ 26 - 256)) 0 = true ∧ (after .imageWrite (asked (jc 0xD (b 1 (2 ^ 26 - 256))))).jen.imageWrite = some (1, 2 ^ 26 - 256, List.replicate 256 0x42))
    ∧ (st .imageWrite 0xD (b 2 0) = some 2 ∧ st .imageWrite 0xD (b 1 255) = some 2 ∧ after .imageWriteDone jen = jen)
    ∧ ((after .imageWriteDone w).norByte 1 65536 = 1 ∧ (after .imageWriteDone w).norByte 1 65537 = 2 ∧ (after .imageWriteDone w).norByte 1 65538 = 0xFF)
    ∧ (ok 0xE (act 0 0) 0 = true ∧ (after .imageActivateNext (asked (jc 0xE (act 0 0)))).jen.activate = some (0, 1, 0))
    ∧ (jen.goodImage 0 1 = none ∧ ans .imageVerifyDone v = [(0xE, 3, [])] ∧ after .imageVerifyDone jen = jen)
    ∧ (st .imageActivateNow 0xE (act 1 0) = some 3 ∧ st .imageActivateRestart 0xE (act 1 1) = some 3) := by
  decide +kernel

/-! ### Start, power, faults, pins and buses -/

/-- The module without power. -/
def dark : State := { up with pwr := { up.pwr with powered := false, rails := false } }

/-- The rails stand and the reference is stable; the root PLL is not locked. -/
def railed : State :=
  { (((State.reset.setBit (clkB + 4) 0 false).setBit (clkB + 4) 1 true).setFld bootB 0 4 0) with pwr := { up.pwr with powered := true, rails := true } }

theorem test_StartAndResetResults :
    let seq : State := { up with pwr := { up.pwr with powered := true, rails := false, asleep := false, railsHeld := false } }
    let p := after (.rootPllLock 9) railed
    let noRef := railed.setBit (clkB + 4) 1 false
    let h := fun (x : Nat) => ({ up with flt := { up.flt with halt := some (x, 10 * usU) } } : State)
    let m := after (.moduleReset 0x52534554) jen
    ((after .powerUp dark).pwr.powered = true ∧ (after .powerUp dark).fld bootB 0 4 = 0 ∧ (after .powerUp dark).fld (sysB + 4) 0 3 = 0
      ∧ after .powerUp railed = railed)
    ∧ ((after .railsSequenced seq).pwr.rails = true ∧ after .railsSequenced dark = dark ∧ (after .refStable railed).bit (clkB + 4) 1 = true)
    ∧ (railed.bit (clkB + 4) 0 = false ∧ railed.fld bootB 0 4 = 0 ∧ p.bit (clkB + 4) 0 = true ∧ p.fld bootB 0 4 = 1 ∧ p.bit timeB 0 = true
      ∧ p.boot.pwrLead = railed.boot.pwrLead + 9 ∧ after (.rootPllLock 9) noRef = noRef)
    ∧ (m.fld (sysB + 4) 0 3 = 2 ∧ m.jen = {} ∧ m.time.now = 0 ∧ after (.moduleReset 0x52534555) jen = jen)
    ∧ ((after .resetNAssert jen).fld (sysB + 4) 0 3 = 1 ∧ (after .resetNAssert jen).boot.resetHeld = true
      ∧ (after .resetNRelease (after .resetNAssert jen)).boot.resetHeld = false)
    ∧ (after .haltReset up = up ∧ (after .haltReset (h 5)).fld (sysB + 4) 0 3 = 3 ∧ (after .haltReset (h 10)).pwr.rails = false
      ∧ (after .haltReset (h 10)).fld bootB 0 4 = 0 ∧ (after .haltReset (h 6)).bit (clkB + 4) 0 = false) := by
  decide +kernel

/-- What a condition raised, and whether its cause holds. -/
def loud (c : Instr) (x : Nat) (s : State := up) : List Nat × Bool := (raised (after c s), aget (fun _ => false) (after c s).flt.causes x)

theorem test_ClockAndSupplyResults_clocks :
    let s := up.setBit (clkB + 4) 0 true
    let off := up.setBit (clkB + 4) 0 false
    (raised (after (.cdcPulseMerge 0xA5) up) = [Src.cdcOverrun] ∧ (after (.cdcPulseMerge 0xA5) up).fld (clkB + 8) 0 24 = 0xA50001)
    ∧ (loud (.refLost true) Src.refLost = ([Src.refLost], true) ∧ loud (.refLost false) Src.refLost = ([], false)
      ∧ loud (.clkMonitor true) Src.clkMonitor = ([Src.clkMonitor], true) ∧ loud (.pwrOsc true) Src.pwrOsc = ([Src.pwrOsc], true))
    ∧ (loud (.lanePllLoss 1 true) (Src.lanePll 1) = ([Src.lanePll 1], true) ∧ loud (.convFault 5 true) (Src.conv 5) = ([Src.conv 5], true)
      ∧ loud (.convFault 5 false) (Src.conv 5) = ([], false))
    ∧ ((after .rootUnlock s).bit (clkB + 4) 0 = false ∧ (raised (after .rootUnlock s)).contains Src.timeSafeState = true
      ∧ (after .rootUnlock s).instState 8 = 3 ∧ after .rootUnlock off = off) := by
  decide +kernel

/-- VIN has been lost at 5, and its loss has been confirmed where `lost` says so. -/
def lossy (lost : Bool) : State := { up with pwr := { up.pwr with powered := true, lossAt := some 5, lost := lost } }

theorem test_ClockAndSupplyResults_supply :
    let s : State := { up with pwr := { up.pwr with powered := true, lossAt := none } }
    let l := lossy false
    let d := l.setBit pwrB 4 true
    let e := 5 + 50 * usU
    (loud (.vinOver 6051) Src.vinOver = ([Src.vinOver], true) ∧ loud (.vinOver 6050) Src.vinOver = ([], false)
      ∧ (after (.vinOver 6051) up).fld (pwrB + 4) 0 16 = 6051 ∧ loud (.vinOver 5999) Src.vinOver = ([], false))
    ∧ (loud (.vinUnder 1749) Src.vinUnder = ([Src.vinUnder], true) ∧ loud (.vinUnder 1800) Src.vinUnder = ([], false))
    ∧ (loud (.vinReversed (-601)) Src.vinReversed l = ([Src.vinReversed], true) ∧ loud (.vinReversed 0) Src.vinReversed l = ([], false)
      ∧ raised (after .vinClamp up) = [Src.vinClamp])
    ∧ ((after (.inputDisconnect 5 0) s).pwr.lossAt = some 5 ∧ (after (.inputDisconnect 5 0) s).bit pwrB 4 = true ∧ (after (.inputLoss 5 0) s).pwr.lossAt = some 5)
    ∧ ((after (.dipEnd (e - 1) 2000) l).pwr.lossAt = none ∧ (after (.dipEnd e 2000) l).pwr = l.pwr ∧ (after (.inputReconnect (e - 1) 2000) d).bit pwrB 4 = false)
    ∧ (after .lossConfirm s = s ∧ (after .lossConfirm l).pwr.lost = true ∧ (after .lossConfirm l).fld pwrB 0 2 = 2 ∧ (after .lossConfirm l).now = e
      ∧ (after .lossConfirm l).pathRun = false)
    ∧ (after (.railsOff 9) s = s ∧ (after (.railsOff 9) (lossy true)).pwr.powered = false ∧ (after (.railsOff 9) (lossy true)).mem = []) := by
  decide +kernel

theorem test_TemperatureAndLowPowerResults :
    let hot := (up.setFld (tempR 7) 8 8 100).setFld (tempR 7) 16 8 120
    let v := fun (x : BitVec 8) => (⟨#[0, 0, 0, 0, 0, 0, 0, x], rfl⟩ : Vector (BitVec 8) 8)
    let m := fun (x : BitVec 8) => after (.thermalMeasure (v x)) hot
    let cause := fun (s : State) (x : Nat) => aget (fun _ => false) s.flt.causes x
    let w : State := { up with pwr := { up.pwr with wake := true, powered := true, rails := true } }
    let n : State := { w with pwr := { w.pwr with wake := false, wakeDropAt := some 5 } }
    let b := n.setByte 0x20000000 7
    let sb := b.setBit (pwrB + 8) 0 false
    let sl := b.setBit (pwrB + 8) 0 true
    ((m 100).fld (tempR 7) 0 8 = 100 ∧ (m 100).now = msU ∧ cause (m 100) (Src.tempZ 7) = true ∧ cause (m 96) (Src.tempZ 7) = false
      ∧ cause (m 119) Src.thermalTrip = false ∧ cause (m 120) Src.thermalTrip = true)
    ∧ (after (.wakeDrop 9) { w with pwr := { w.pwr with wake := false } } = { w with pwr := { w.pwr with wake := false } }
      ∧ (after (.wakeDrop 9) w).pwr.wake = false ∧ raised (after (.wakeDrop 9) w) = [Src.wakeDrop])
    ∧ (after .lowPowerEnter w = w ∧ (after .lowPowerEnter sl).pwr.asleep = true ∧ (after .lowPowerEnter sl).mem = []
      ∧ (after .lowPowerEnter sb).fld pwrB 0 2 = 1 ∧ (after .lowPowerEnter sb).byte 0x20000000 = 7)
    ∧ ((after (.pwrCtlEnter 1) sb).fld pwrB 0 2 = 1 ∧ (after (.pwrCtlEnter 1) w).fld pwrB 0 2 = 0
      ∧ (after (.pwrCtlHold 2) b).bit (pwrB + 0xC) 1 = true ∧ (after (.pwrCtlHold 2) b).pwr.wakeDropAt = none)
    ∧ ((after (.wakeAssert 9) n).pwr.wake = true ∧ (after (.wakeAssert 9) n).pwr.wakeDropAt = none
      ∧ (after (.wakeAssert 9) (after .lowPowerEnter sb)).fld bootB 0 4 = 3 ∧ (after (.wakeAssert 9) (after .lowPowerEnter sl)).pwr.asleep = false)
    ∧ ((after (.holdupTest 1299) up).fld (pwrB + 0x10) 0 16 = 1299 ∧ loud (.holdupTest 1299) Src.holdupWeak = ([Src.holdupWeak], true)
      ∧ loud (.holdupTest 1300) Src.holdupWeak = ([], false) ∧ (after .holdupReady w).bit pwrB 2 = true ∧ after .holdupReady dark = dark) := by
  decide +kernel

/-- Source x has been raised and is enabled with class `cls`, with a journal record where `j` says so. -/
def raisedOf (x cls : Nat) (en : Bool) (j : Bool := false) : State :=
  let s := ((up.setBit (srcR x) 0 en).setFld (srcR x) 1 2 cls).setBit (srcR x) 6 j
  { s with flt := { s.flt with raises := [{ src := x, ctx := [], unit := 0 }] } }

theorem test_FaultUnitResults_latch :
    let s := raisedOf 255 3 true true
    let t := after (.faultLatch 1 []) s
    let off := raisedOf 255 3 false
    let filled := s.setReg firstR 0x80000011
    let none0 := s.setFld bootB 0 4 0
    let d := raisedOf (Src.dmaErr 3) 1 true
    let d : State := { d with flt := { d.flt with raises := [{ src := Src.dmaErr 3, ctx := [63], unit := unitId 0xD 63 }] } }
    (after (.faultLatch 1 []) none0 = none0 ∧ (after (.faultLatch 1 []) off).flt.raises = [] ∧ (after (.faultLatch 1 []) off).ctl = off.ctl)
    ∧ (t.pending? 255 = true ∧ t.fld (srcR 255) 16 8 = 1 ∧ t.fld firstR 0 8 = 255 ∧ t.fld firstR 8 2 = 3 ∧ t.bit firstR 31 = true ∧ t.now = tickU
      ∧ t.bit (tioB + 4) 0 = true ∧ t.flt.halt = some (255, tickU + 10 * usU) ∧ t.flt.jqueue.length = 1)
    ∧ ((after (.faultLatch 1 []) filled).fld firstR 0 8 = 0x11 ∧ (after (.faultLatch 1 []) filled).bit firstR 30 = true)
    ∧ (d.fld (srcR (Src.dmaErr 3)) 1 2 = 1 ∧ ((after (.faultLatch 1 []) d).unit (unitId 0xD 63)).state = 1
      ∧ ((after (.faultLatch 1 []) d).unit (unitId 0xD 63)).fencedBy = some (Src.dmaErr 3)) := by
  decide +kernel

theorem test_FaultUnitResults_clear :
    let p := up.setReg (pendR 7) 0xFFFFFFFF
    let c := after (.faultPendClear 7 0x80000000) p
    let e : State := { up with flt := { up.flt with windowEnd := 5 } }
    (after (.collectorParityError 4 0 7) e = e.advance 4
      ∧ (∀ j < 32, (after (.collectorParityError 5 0 7) e).pending? (7 * 32 + j) = true) ∧ (after (.collectorParityError 5 1 7) e).reg firstR = 0xE0000000
      ∧ (after (.collectorParityError 5 2 255) e).reg (srcR 255) = Src.dfltWord 255)
    ∧ (c.pending? 255 = false ∧ c.pending? 254 = true)
    ∧ ((after (.fltRearm 0x100) (up.setReg firstR 0xE0000011)).reg firstR = 0x11 ∧ (after (.fltRearm 0xA500) up).fld fltB 8 8 = 0xA5) := by
  decide +kernel

theorem test_FaultUnitResults_journal :
    let b : List Byte := List.replicate 64 9
    let j : State := { up with flt := { up.flt with jqueue := [b], writerOn := true, mramNext := 32767, cell := none } }
    let r := j.setBit (fltB + 4) 1 true
    (after .journalWriteDone up = up ∧ j.ramOnly = false ∧ (after .journalWriteDone j).flt.mram = [(32767, b)] ∧ (after .journalWriteDone j).flt.mramNext = 0)
    ∧ (r.ramOnly = true ∧ (after .journalWriteDone r).flt.ramRing = [b] ∧ (after .journalWriteDone r).flt.jqueue = [])
    ∧ ((after (.journalMemFail true) j).flt.cell = some b ∧ raised (after (.journalMemFail true) j) = [Src.journalMem]
      ∧ (after (.journalMemFail false) j).ctl = j.ctl)
    ∧ ((after .availRecord up).flt.jqueue.length = 1 ∧ (after .availRecord up).now = 3600 * secU
      ∧ (after .availRecord up).flt.jqueue.map (fun b => slice b 4 2) = [[1, 1]]) := by
  decide +kernel

theorem test_FirstFaultRearm :
    let p := jen.setReg firstR 0xE0000011
    let q := p.setReg (pendR 7) 0x80000000
    let v : State := { p.setBit (pendR (Src.placementDegraded / 32)) (Src.placementDegraded % 32) true with
      flt := { p.flt with causes := [(Src.placementDegraded, true)] } }
    let r := raisedOf 0 0 true
    let fc := fun (b : List Byte) (s : State) => (after .faultClear (asked (jc 0xB b) s)).fld firstR 29 3
    (ok 0xB [0xFF, 0xFF] 32 q = true ∧ q.pending? 255 = true ∧ q.causePersists 255 = false ∧ fc [0xFF, 0xFF] q = 0)
    ∧ (v.causePersists Src.placementDegraded = true ∧ v.pending? Src.placementDegraded = true ∧ fc [0xFF, 0xFF] v = 7)
    ∧ fc [0, 255] q = 7 ∧ (after (.fltRearm 0) q).fld firstR 29 3 = 0 ∧ (after (.fltRearm 0) q).pending? 255 = true
    ∧ (r.fld firstR 29 3 = 0 ∧ (after (.faultLatch 0 []) r).fld firstR 29 3 = 0 ∧ (after (.faultLatch 1 []) r).bit firstR 31 = true
      ∧ (after (.faultLatch 1 []) r).fld firstR 0 8 = 0) := by
  decide +kernel

theorem test_PinAndBusResults :
    let busy := up.setBit pinCommitR 1 true
    let b := up.setBit cbusCmd 24 true
    let cb := after (.cbusTransaction 0x1F0F55) up
    let rd := after (.mdioRead 1 0) up
    let wr := (((up.setBit (mdioR 1 4) 16 true).setFld (mdioR 1 4) 1 2 1))
    let g := after (.cbusTransaction 0x101F0055) up
    (busy.bit pinCommitR 1 = true ∧ after (.pinCommit 0) busy = busy ∧ (27 : Nat) ∉ up.pin.changing ∧ after (.pinDriveStart 27) up = up)
    ∧ (cb.bit cbusCmd 24 = true ∧ cb.fld cbusCmd 0 7 = 0x55 ∧ cb.fld cbusCmd 8 5 = 15 ∧ cb.fld cbusCmd 16 5 = 31)
    ∧ ((after (.cbusDone (.ok (List.replicate 16 0xA5))) g).fld (cbusB + 8 + 12) 24 8 = 0xA5 ∧ (after (.cbusDone (.ok [])) b).bit cbusCmd 24 = false
      ∧ raised (after (.cbusDone .nack) b) = [Src.carrierNack] ∧ raised (after (.cbusDone .stuck) b) = [Src.carrierStuck]
      ∧ after (.cbusDone .nack) up = up)
    ∧ ((after (.mdioAddress 1 1) up).bit (mdioR 1 4) 16 = true ∧ (after (.mdioWrite 1 1) up).fld (mdioR 1 4) 1 2 = 1
      ∧ (after (.mdioRead 1 1) up).fld (mdioR 1 4) 1 2 = 2 ∧ (after (.mdioReadInc 1 1) up).fld (mdioR 1 4) 1 2 = 3 ∧ after (.mdioDone 1 9) up = up)
    ∧ ((after (.mdioDone 1 9) rd).fld (mdioR 1 8) 0 16 = 9 ∧ (after (.mdioDone 1 9) wr).fld (mdioR 1 8) 0 16 = 0 ∧ (after (.mdioDone 1 9) wr).bit (mdioR 1 4) 16 = false)
    ∧ (after (.jtagInstruction .idcode) up = up ∧ raised (after (.jtagInstruction .other) up) = [Src.debugAccess]) := by
  decide +kernel

theorem test_RegisterWriteResults :
    let a := laneB + 31 * 0x10
    let w := after (.registerWrite (.hart c0) (BitVec.ofNat 40 a) 0xFFFFFFFF) up
    after (.registerWrite (.hart c0) 3 1) up = { up with resp := .error } ∧ after (.registerWrite (.hart c0) 0x20000000 1) up = { up with resp := .error }
    ∧ inControl a = true ∧ (a - block 0) / 0x100000 = 6 ∧ w.resp = .ok 0 ∧ w.reg a = plainWrite a (up.reg a) 0xFFFFFFFF
    ∧ w.reg (a + 4) = up.reg (a + 4)
    ∧ (after (.registerWrite (.dma 0) (BitVec.ofNat 40 (dmaR 63 0x1C)) 5) up).fld (dmaR 63 0x1C) 0 12 = 5
    ∧ (after (.registerWrite (.hart c0) (BitVec.ofNat 40 (sysB + 8)) 0x52534554) up).fld (sysB + 4) 0 3 = 2
    ∧ (after (.registerWrite (.hart c0) (BitVec.ofNat 40 fltB) 0xA501) up).fld fltB 8 8 = 0xA5 := by
  decide +kernel

/-- What a step leaves. -/
def stepped (s : State) : State := match step s with
  | .next t => t
  | _ => s

/-- Two commands wait: the clamp of VIN conducts, then a task is allocated. -/
def front2 : State := { up with pending := [.vinClamp, .taskAlloc] }

theorem test_StepAndIdle :
    front2.pending = [.vinClamp, .taskAlloc] ∧ raised (stepped front2) = [Src.vinClamp] ∧ (stepped front2).pending = [.taskAlloc]
    ∧ up.pending = [] ∧ up.bit timeB 0 = false ∧ (stepped up).now = 0 ∧ (stepped (up.setBit timeB 0 true)).now = tickU := by
  decide +kernel

theorem test_StepKeepsCanonicalForm :
    (Memory.wf front2.mem = true ∧ Control.wf front2.ctl = true ∧ step front2 = .next (stepped front2))
    ∧ Memory.wf (stepped front2).mem = true ∧ Control.wf (stepped front2).ctl = true := by
  refine ⟨⟨by decide +kernel, by decide +kernel, rfl⟩, by decide +kernel⟩

theorem test_StepsServeTheQueueInOrder :
    step front2 = .next (stepped front2) ∧ (stepped front2).pending = front2.pending.tail :=
  ⟨rfl, rfl⟩

theorem test_ControlPlaneIsolation : (∀ c ∈ front2.pending, controlPlane c = true) ∧ SamePath front2 front2 := by
  exact ⟨by decide +kernel, rfl, rfl, fun _ => rfl, rfl, rfl, rfl, fun _ => rfl, rfl, rfl⟩

theorem test_ControlCoreStart :
    State.reset.kernel 3 = true ∧ State.reset.trans 3 = false ∧ State.reset.intEnable 3 = false ∧ State.reset.pcOf (.ctl 3) = 0x20800000
    ∧ up.kernel 3 = true ∧ getField (up.sysReg 3 0) 2 1 = 0 := by
  decide +kernel

theorem test_ResetState : State.reset.reg sysB = 0x3240 ∧ State.reset.reg (poolR 0 8) = 327680 ∧ Memory.wf State.reset.mem = true := by
  decide +kernel

/-- SHA-256 of "abc" is the example of FIPS 180-4. -/
theorem test_sha256 : sha256 [0x61, 0x62, 0x63] = bytesBE 32 0xBA7816BF8F01CFEA414140DE5DAE2223B00361A396177A9CB410FF61F20015AD := by
  decide +kernel

/-! ### Clauses at their other boundaries -/

/-- The next state of a command run as it stands, no word placed. -/
def plainly (c : Instr) (s : State) : State := match exec c s with
  | .next t => t
  | _ => s

/-- SoftIllegalAndJumpTraps: scratch of zeros traps with the word 0; a legal word of another command leaves the state as it was. -/
theorem test_SoftIllegalAndJumpTraps_other_word :
    let m := place p0 0x04611000 up
    wordOf (.sub p0 3 1 2) = some (p0, 0x04611001) ∧ Fetches up p0 0 ∧ pktLegal false 0 = false ∧ Fetches m p0 0x04611000
    ∧ pktLegal false 0x04611000 = true ∧ ((plainly (.sub p0 3 1 2) up).ch14 0).words.map (·.1) = trapItem 0 0 false 0 0 ∧ plainly (.sub p0 3 1 2) m = m := by
  simp only [Fetches]
  decide +kernel

/-- SupervisorResults: a free helper at the leg entry is there already. PrivilegedResults: WFI ends at once where a line is pending. -/
theorem test_Supervisor_entry_and_wfi :
    let s := sup { run := .free }
    let w := (after (.taskPost 1023) (slot 1)).setSys 0 0xC 2
    s.atEntry 1 = true ∧ (after (.tent p7 3 1) s).rget p7 3 = 1 ∧ ((after (.tent p7 3 1) s).thread 1).gen = (s.thread 1).gen
    ∧ (w.irqLine 0).isSome = true ∧ w.kernel 0 = true ∧ (after (.wfi c0) w).pcOf c0 = 0x20100004 ∧ ((after (.wfi c0) w).ctlc 0).waiting = false := by
  decide +kernel

/-- StartAndResetResults: rails held by a converter fault; the root PLL locking again in RUN. -/
theorem test_StartAndResetResults_held :
    let seq : State := { up with pwr := { up.pwr with powered := true, rails := false, asleep := false, railsHeld := true } }
    let f : State := { seq with flt := { seq.flt with causes := [(Src.conv 4, true)] } }
    let re := railed.setFld bootB 0 4 7
    (f.causePersists (Src.conv 4) = true ∧ after .railsSequenced f = f)
    ∧ (re.bit (clkB + 4) 0 = false ∧ (after (.rootPllLock 9) re).bit (clkB + 4) 0 = true ∧ (after (.rootPllLock 9) re).fld bootB 0 4 = 7) := by
  decide +kernel

/-- ClockAndSupplyResults: what lies between two thresholds, or lasts, raises nothing. -/
theorem test_ClockAndSupplyResults_between :
    let c : State := { up with flt := { up.flt with causes := [(Src.vinOver, true), (Src.vinUnder, true)] } }
    loud (.vinOver 6000) Src.vinOver c = ([], true) ∧ loud (.vinOver 6051) Src.vinOver c = ([], true)
    ∧ loud (.vinUnder 1799) Src.vinUnder c = ([], true) ∧ loud (.vinUnder 1749) Src.vinUnder c = ([], true)
    ∧ loud (.vinReversed (-600)) Src.vinReversed (lossy false) = ([], false) ∧ loud (.vinReversed (-601)) Src.vinReversed up = ([], false)
    ∧ (after (.inputLoss 9 0) (lossy false)).pwr = (lossy false).pwr ∧ (after (.dipEnd 9 2000) up).now = 0
    ∧ after .lossConfirm (lossy true) = lossy true ∧ after (.railsOff 9) (lossy false) = lossy false := by
  decide +kernel

/-- FaultUnitResults: a clear in the cycle that sets the bit leaves it set (R10). -/
theorem test_FaultUnitResults_same_cycle :
    let t := after (.faultLatch 1 []) (raisedOf 255 0 true)
    (t.justSet (pendR 7)).getLsbD 31 = true ∧ (after (.faultPendClear 7 0x80000000) t).pending? 255 = true := by
  decide +kernel

/-! ### Well-formed commands: for each check of WellFormed.lean a command on each side of its boundary -/

theorem test_wellFormed_register :
    wellFormed (.registerWrite .image (BitVec.ofNat 40 (2 ^ 39 - 1)) 0) = true ∧ wellFormed (.registerWrite .image (BitVec.ofNat 40 (2 ^ 39)) 0) = false := by
  decide +kernel

theorem test_wellFormed_bist :
    wellFormed (.bistDone { failed := [0x2FF, 0x433, 0x7C7, 0x921], eeprom := .ok (List.replicate 16 0) }) = true
    ∧ wellFormed (.bistDone { failed := [0x300] }) = false ∧ wellFormed (.bistDone { eeprom := .ok (List.replicate 17 0) }) = false := by
  decide +kernel

theorem test_wellFormed_frame :
    wellFormed (.frameReceive 0 0 9212 ⟨0, List.replicate 192 0⟩) = true ∧ wellFormed (.frameReceive 0 0 60 ⟨0, List.replicate 60 0⟩) = true
    ∧ wellFormed (.frameReceive 0 0 100 ⟨0, List.replicate 99 0⟩) = false ∧ wellFormed (.frameReceive 0 0 193 ⟨0, List.replicate 193 0⟩) = false := by
  decide +kernel

theorem test_wellFormed_cell :
    wellFormed (.bodyCellArrival 0 (List.replicate 256 0)) = true ∧ wellFormed (.bodyCellArrival 0 []) = false
    ∧ wellFormed (.bodyCellArrival 0 (List.replicate 257 0)) = false := by
  decide +kernel

theorem test_wellFormed_margins :
    wellFormed (.searchSlotServe 0 .clean [(47, 0)]) = true ∧ wellFormed (.searchSlotServe 0 .clean [(48, 0)]) = false
    ∧ wellFormed (.yardScrubStep .clean [(191, 0)]) = true ∧ wellFormed (.yardScrubStep .clean [(192, 0)]) = false := by
  decide +kernel

theorem test_wellFormed_lanes :
    wellFormed (.laneAgingMeasure (List.replicate 34 0)) = true ∧ wellFormed (.laneAgingMeasure (List.replicate 35 0)) = false
    ∧ wellFormed (.linkUp 0 0 ⟨[31], List.replicate 8 0⟩) = true ∧ wellFormed (.linkUp 0 0 ⟨[31], List.replicate 9 0⟩) = false ∧ wellFormed (.linkUp 0 0 ⟨[32], []⟩) = false
    ∧ wellFormed (.linkDown 0 0 [31] false false) = true ∧ wellFormed (.linkDown 0 0 [32] false false) = false := by
  decide +kernel

theorem test_wellFormed_jenitor :
    (∀ f : List Byte, f.length = 9213 → wellFormed (.jenFrameReceive 0 0 f) = false ∧ wellFormed (.jenAck 0 0 f) = false)
    ∧ wellFormed (.jenFrameReceive 0 0 []) = true ∧ wellFormed (.jenAck 0 0 []) = true := by
  refine ⟨fun f h => ?_, by decide, by decide⟩
  have g : decide (f.length ≤ 9212) = false := by simp [h]
  exact ⟨g, g⟩

theorem test_wellFormed_bus :
    wellFormed (.cbusDone (.ok (List.replicate 16 0))) = true ∧ wellFormed (.cbusDone (.ok (List.replicate 17 0))) = false
    ∧ wellFormed (.cbusDone .stuck) = true := by
  decide +kernel

end Sys2Proof.Tests
end

section
/-!
What no command does (O54, O55). Control space is written through `State.setReg` and memory through `State.setByte` alone, except where a
reset, a loss of power or a warm restart drops entries of theirs; the queue of waiting commands is written by `step` alone. `Keeps o s` says
so of a state `s` that an operation on `o` has led to, and each operation of the model has one lemma: where its argument keeps, its result
keeps. The proofs follow the definitions: one step of the proof for each operation that the definition calls.
-/
namespace Sys2Proof.Machine

/-- `s` comes from `o` without harm to the canonical forms of memory and control space, and with the same commands waiting. -/
structure Keeps (o s : State) : Prop where
  mem : Memory.wf o.mem = true → Memory.wf s.mem = true
  ctl : Control.wf o.ctl = true → Control.wf s.ctl = true
  pending : s.pending = o.pending

/-! ### Rules for the forms that definitions are built of -/

namespace Keeps
variable {o s : State}

theorem refl : Keeps o o := ⟨id, id, rfl⟩

theorem ite {c : Prop} [Decidable c] {a b : State} (ha : Keeps o a) (hb : Keeps o b) : Keeps o (if c then a else b) := by
  split <;> assumption

theorem ite2 {α : Type} {c : Prop} [Decidable c] {a b : α × State} (ha : Keeps o a.2) (hb : Keeps o b.2) :
    Keeps o (if c then a else b).2 := by
  split <;> assumption

theorem ite3 {α β : Type} {c : Prop} [Decidable c] {a b : α × β × State} (ha : Keeps o a.2.2) (hb : Keeps o b.2.2) :
    Keeps o (if c then a else b).2.2 := by
  split <;> assumption

theorem pair {α : Type} {x : α} {t : State} (h : Keeps o t) : Keeps o (x, t).2 := h

theorem pair3 {α β : Type} {x : α} {y : β} {t : State} (h : Keeps o t) : Keeps o (x, y, t).2.2 := h

/-- Of a definition that takes the pair of an operation apart. -/
theorem of_snd {α : Type} {p : α × State} {x : α} {t : State} (e : p = (x, t)) (h : Keeps o p.2) : Keeps o t := by
  subst e; exact h

theorem of_snd_snd {α β : Type} {p : α × β × State} {x : α} {y : β} {t : State} (e : p = (x, y, t)) (h : Keeps o p.2.2) : Keeps o t := by
  subst e; exact h

theorem foldl {α : Type} {f : State → α → State} {l : List α} (hf : ∀ s x, Keeps o s → Keeps o (f s x)) :
    ∀ {s}, Keeps o s → Keeps o (l.foldl f s) := by
  induction l with
  | nil => exact fun h => h
  | cons x t ih => exact fun h => ih (hf _ x h)

theorem foldl2 {α β : Type} {f : β × State → α → β × State} {l : List α} (hf : ∀ p x, Keeps o p.2 → Keeps o (f p x).2) :
    ∀ {p}, Keeps o p.2 → Keeps o (l.foldl f p).2 := by
  induction l with
  | nil => exact fun h => h
  | cons x t ih => exact fun h => ih (hf _ x h)

theorem elim {α : Type} {x : Option α} {a : State} {f : α → State} (ha : Keeps o a) (hf : ∀ y, Keeps o (f y)) : Keeps o (x.elim a f) := by
  cases x
  · exact ha
  · exact hf _

/-- An update of fields other than memory, control space and the queue. -/
theorem upd {a b c d e f g i j k l m n p q r t u v w x y z a1 b1 c1 d1} (h : Keeps o s) :
    Keeps o (State.mk s.pending a s.ctl s.mem b c d e f g i j k l m n p q r t u v w x y z a1 b1 c1 d1) := ⟨h.mem, h.ctl, h.pending⟩

end Keeps

variable {o s : State}

/-! ### Machine/Ops.lean -/

theorem Keeps.setReg {a w} (h : Keeps o s) : Keeps o (s.setReg a w) := ⟨h.mem, fun hc => State.setReg_wf a w (h.ctl hc), h.pending⟩

theorem Keeps.setFld {a lo len v} (h : Keeps o s) : Keeps o (s.setFld a lo len v) := h.setReg

theorem Keeps.setBit {a i b} (h : Keeps o s) : Keeps o (s.setBit a i b) := h.setFld

theorem Keeps.count {a lo len k} (h : Keeps o s) : Keeps o (s.count a lo len k) := h.setFld

theorem Keeps.setByte {a b} (h : Keeps o s) : Keeps o (s.setByte a b) := ⟨fun hm => State.setByte_wf a b (h.mem hm), h.ctl, h.pending⟩

theorem Keeps.setBytes {l : List Byte} : ∀ {s a}, Keeps o s → Keeps o (s.setBytes a l) := by
  induction l with
  | nil => exact fun h => h
  | cons b t ih => exact fun h => ih h.setByte

theorem Keeps.setNum {a n v} (h : Keeps o s) : Keeps o (s.setNum a n v) := h.setBytes

theorem Keeps.fresh {w} (h : Keeps o s) : Keeps o (s.fresh w).2 := .pair h.upd

theorem Keeps.freshBelow {n} (h : Keeps o s) : Keeps o (s.freshBelow n).2 := .pair h.upd

theorem Keeps.advance {t} (h : Keeps o s) : Keeps o (s.advance t) := h.upd

theorem Keeps.latch {a i} (h : Keeps o s) : Keeps o (s.latch a i) := h.setBit.upd

theorem Keeps.w1c {a mask v} (h : Keeps o s) : Keeps o (s.w1c a mask v) := .ite h h.setReg

theorem Keeps.raiseU {src ctx unit} (h : Keeps o s) : Keeps o (s.raiseU src ctx unit) := h.upd

theorem Keeps.raise {src ctx} (h : Keeps o s) : Keeps o (s.raise src ctx) := h.raiseU

theorem Keeps.setCause {src on} (h : Keeps o s) : Keeps o (s.setCause src on) := h.upd

theorem Keeps.levelSource {src on ctx} (h : Keeps o s) : Keeps o (s.levelSource src on ctx) := by
  unfold State.levelSource
  extract_lets s1
  have h1 : Keeps o s1 := h.setCause
  exact .ite h1.raise h1

theorem Keeps.setUnit {u x} (h : Keeps o s) : Keeps o (s.setUnit u x) := h.upd

theorem Keeps.unitState {u c} (h : Keeps o s) : Keeps o (s.unitState u c) := .ite h h.setUnit

theorem Keeps.bumpGen {u} (h : Keeps o s) : Keeps o (s.bumpGen u) := h.setUnit

theorem Keeps.fence {u by_} (h : Keeps o s) : Keeps o (s.fence u by_) := .ite h h.setUnit.raiseU

theorem Keeps.afterFence {u} (h : Keeps o s) : Keeps o (s.afterFence u) := by
  unfold State.afterFence
  split
  · exact h.advance
  · exact h

theorem Keeps.liftFence {u} (h : Keeps o s) : Keeps o (s.liftFence u) := by
  unfold State.liftFence
  extract_lets s1
  have h1 : Keeps o s1 := h.afterFence
  exact h1.setUnit

theorem Keeps.setInst {n i} (h : Keeps o s) : Keeps o (s.setInst n i) := h.upd

theorem Keeps.convert {m n x16} (h : Keeps o s) : Keeps o (s.convert m n x16).2.2 := by
  unfold State.convert
  refine .ite3 (.pair3 h.upd) ?_
  split
  · exact .pair3 h.upd
  · split
    · exact .pair3 h.upd
    · exact h

theorem Keeps.stampIn {n t0} (h : Keeps o s) : Keeps o (s.stampIn n t0).2.2 := by
  unfold State.stampIn
  split
  · exact .pair3 h.upd
  · exact h

theorem Keeps.latchHi {lo hi} (h : Keeps o s) : Keeps o (s.latchHi lo hi) := h.upd

theorem Keeps.readHi {hi} (h : Keeps o s) : Keeps o (s.readHi hi) := by
  unfold State.readHi
  split
  · exact h.upd
  · exact h.upd

/-! ### Machine/PoolOps.lean -/

theorem Keeps.setPool1 {k p} (h : Keeps o s) : Keeps o (s.setPool1 k p) := h.upd

theorem Keeps.setHeld {k i h1} (h : Keeps o s) : Keeps o (s.setHeld k i h1) := h.upd

theorem Keeps.setLastOwner {k i o1} (h : Keeps o s) : Keeps o (s.setLastOwner k i o1) := h.upd

theorem Keeps.setAudit {e x} (h : Keeps o s) : Keeps o (s.setAudit e x) := h.upd

theorem Keeps.takeHead {k} (h : Keeps o s) : ∀ x ∈ s.takeHead k, Keeps o x.2 := by
  unfold State.takeHead
  extract_lets p i
  split
  · rintro _ ⟨⟩
    exact h.setPool1
  · split
    · rintro _ ⟨⟩
      exact h.setPool1
    · rintro _ ⟨⟩

theorem Keeps.auditAdd {e k up} (h : Keeps o s) : Keeps o (s.auditAdd e k up) := .ite h.setAudit.setFld h.setAudit

theorem Keeps.auditReceive {owner k} (h : Keeps o s) : Keeps o (s.auditReceive owner k).2 := by
  unfold State.auditReceive
  split
  · exact .pair h.auditAdd
  · extract_lets
    split
    · extract_lets s1 s2
      have h1 : Keeps o s1 := h.setAudit
      have h2 : Keeps o s2 := h1.setFld
      exact .pair h2.auditAdd
    · exact .pair h.count.raise

theorem Keeps.auditLose {h1 k} (h : Keeps o s) : Keeps o (s.auditLose h1 k) := by
  unfold State.auditLose
  refine .ite ?_ h.setFld
  split
  · exact h.auditAdd
  · exact h

theorem Keeps.sidingCheck (h : Keeps o s) : Keeps o s.sidingCheck := .ite (.ite h h.upd.levelSource) h.upd.setCause

theorem Keeps.allocFrom {k owner} (h : Keeps o s) : ∀ x ∈ s.allocFrom k owner, Keeps o x.2 := by
  unfold State.allocFrom
  split
  · rintro _ ⟨⟩
  · split
    · rintro _ ⟨⟩
    · rename_i e
      rintro _ ⟨⟩
      have h1 := h.takeHead _ e
      exact (Keeps.auditReceive (.ite h1.setFld.setFld h1.setFld)).setHeld.sidingCheck

theorem Keeps.refusePool {k} (h : Keeps o s) : Keeps o (s.refusePool k) := by
  unfold State.refusePool
  extract_lets s1
  have h1 : Keeps o s1 := h.raise
  exact .ite h1.raise h1

theorem Keeps.poolGet {k owner} (h : Keeps o s) : Keeps o (s.poolGet k owner).2 := by
  have hTry (j) : ∀ x ∈ (s.allocFrom j owner).map (fun r => ((j, r.1), r.2)), Keeps o x.2 := by
    intro x hx
    obtain ⟨y, hy, rfl⟩ := Option.map_eq_some_iff.mp hx
    exact h.allocFrom _ hy
  unfold State.poolGet
  extract_lets _ r
  have hr : ∀ x ∈ r, Keeps o x.2 := by
    unfold r
    split
    · split
      · exact hTry 0
      · rintro _ ⟨⟩
    · split
      · split
        · rename_i e
          rintro _ ⟨⟩
          exact hTry k _ e
        · exact hTry (k + 1)
      · exact hTry k
  clear_value r
  cases r with
  | none => exact h.refusePool
  | some x => exact hr x rfl

theorem Keeps.poolGetSize {yard size owner} (h : Keeps o s) : Keeps o (s.poolGetSize yard size owner).2 := by
  unfold State.poolGetSize
  split
  · exact h
  · exact h.poolGet

theorem Keeps.refuseFree {k i req owner foreign} (h : Keeps o s) : Keeps o (s.refuseFree k i req owner foreign) :=
  .raise (.ite h.setReg.setReg.count h.setReg.setReg.count)

theorem Keeps.release {k i h1} (h : Keeps o s) : Keeps o (s.release k i h1) := by
  unfold State.release
  extract_lets s1 s2 _ s3
  have h1 : Keeps o s1 := h.auditLose
  have h2 : Keeps o s2 := h1.setHeld.setLastOwner
  have h3 : Keeps o s3 := h2.setPool1
  exact .ite h2 h3.setFld.sidingCheck

theorem Keeps.mayFree {k i owner} (h : Keeps o s) : Keeps o (s.mayFree k i owner).2 := by
  unfold State.mayFree
  split
  · exact .pair h.refuseFree
  · exact .ite2 h (.pair h.refuseFree)

theorem Keeps.poolPut {h1 owner} (h : Keeps o s) : Keeps o (s.poolPut h1 owner) := by
  unfold State.poolPut
  split
  · exact h.count
  · split
    · rename_i s1 e
      have h1 : Keeps o s1 := .of_snd e h.mayFree
      exact h1.release
    · rename_i s1 e
      have h1 : Keeps o s1 := .of_snd e h.mayFree
      exact h1

theorem Keeps.poolGive {h1 owner dst} (h : Keeps o s) : Keeps o (s.poolGive h1 owner dst) := by
  unfold State.poolGive
  split
  · exact h.count
  · split
    · rename_i s1 e
      have h1 : Keeps o s1 := .of_snd e h.mayFree
      extract_lets s2 s3
      have h2 : Keeps o s2 := h1.auditLose.setHeld
      have h3 : Keeps o s3 := h2.setLastOwner
      exact h3.auditReceive.setHeld
    · rename_i s1 e
      have h1 : Keeps o s1 := .of_snd e h.mayFree
      exact h1

theorem Keeps.noteYard {w} (h : Keeps o s) : Keeps o (s.noteYard w) := h.count.setFld.setFld.raise

theorem Keeps.cleanCell {i} (h : Keeps o s) : Keeps o (s.cleanCell i) := h.upd

theorem Keeps.takeCell {p reserved} (h : Keeps o s) : Keeps o (s.takeCell p reserved).2 := by
  unfold State.takeCell
  extract_lets allowed
  split
  · rename_i i s1 e
    have h1 : Keeps o s1 := by
      split at e
      · exact h.allocFrom _ e
      · cases e
    exact .ite h1.cleanCell.upd h1.cleanCell
  · exact h.raise

theorem Keeps.freeCell {p i} (h : Keeps o s) : Keeps o (s.freeCell p i) := by
  unfold State.freeCell
  split
  · exact h.release
  · exact h.refuseFree

theorem Keeps.freeCells {p res l} (h : Keeps o s) : Keeps o (s.freeCells p res l) := by
  unfold State.freeCells
  extract_lets s1
  have h1 : Keeps o s1 := .foldl (fun _ _ h => h.freeCell) h
  exact h1.upd

/-! ### Machine/CoachOps.lean -/

theorem Keeps.setCoach {q c} (h : Keeps o s) : Keeps o (s.setCoach q c) := h.upd

theorem Keeps.dropCoachRec {q} (h : Keeps o s) : Keeps o (s.dropCoachRec q) := h.upd

theorem Keeps.modCoach {q f} (h : Keeps o s) : Keeps o (s.modCoach q f) := by
  unfold State.modCoach
  split
  · exact h.setCoach
  · exact h

theorem Keeps.dropCoach {q reason rank} (h : Keeps o s) : Keeps o (s.dropCoach q reason rank) := h.modCoach

theorem Keeps.countDrop {p set reason} (h : Keeps o s) : Keeps o (s.countDrop p set reason) := by
  unfold State.countDrop
  extract_lets s1 _ _ s2 _ _ _ s3
  have h1 : Keeps o s1 := h.count
  have h2 : Keeps o s2 := h1.upd
  have h3 : Keeps o s3 := h2.upd
  exact .ite (.ite h3.raise h3) h2

theorem Keeps.streamDrop {c reason} (h : Keeps o s) : Keeps o (s.streamDrop c reason) := .ite h.setNum.setNum h

theorem Keeps.availDrop {c reason reservedQueue} (h : Keeps o s) : Keeps o (s.availDrop c reason reservedQueue) := by
  unfold State.availDrop
  extract_lets _ _ _ s1
  have h1 : Keeps o s1 := h.upd
  exact .ite (.ite h h1.count.count) h

theorem Keeps.freeCoach {q c} (h : Keeps o s) : Keeps o (s.freeCoach q c) := h.freeCells.dropCoachRec

theorem Keeps.leaveDropped {q c} (h : Keeps o s) : Keeps o (s.leaveDropped q c) := by
  unfold State.leaveDropped
  extract_lets s1 s2
  have h1 : Keeps o s1 := h.countDrop
  have h2 : Keeps o s2 := h1.streamDrop.availDrop
  exact h2.freeCoach

theorem Keeps.unref {q} (h : Keeps o s) : Keeps o (s.unref q) := by
  unfold State.unref
  split
  · exact h
  · exact .ite h.freeCoach h.setCoach

theorem Keeps.setQueue {q c l} (h : Keeps o s) : Keeps o (s.setQueue q c l) := h.upd

theorem Keeps.setEgrPort {q p} (h : Keeps o s) : Keeps o (s.setEgrPort q p) := h.upd

theorem Keeps.addFill {q c n} (h : Keeps o s) : Keeps o (s.addFill q c n) := h.setFld.setFld

theorem Keeps.countQuiet {cp reason} (h : Keeps o s) : Keeps o (s.countQuiet cp reason) := by
  unfold State.countQuiet
  extract_lets s1
  have h1 : Keeps o s1 := h.countDrop
  split
  · exact h1.streamDrop.availDrop
  · exact h1

theorem Keeps.countQ {cp reason} (h : Keeps o s) : Keeps o (s.countQ cp reason) := by
  unfold State.countQ
  refine .countQuiet ?_
  split
  · exact h.raise
  · exact h

theorem Keeps.freeCopyCells {cp} (h : Keeps o s) : Keeps o (s.freeCopyCells cp) := by
  unfold State.freeCopyCells
  refine .foldl (fun s1 _ h1 => ?_) h
  split
  · exact h1.release
  · exact h1.refuseFree

theorem Keeps.discard {cp reason} (h : Keeps o s) : Keeps o (s.discard cp reason) := by
  unfold State.discard
  extract_lets s1
  have h1 : Keeps o s1 := h.countQ.addFill
  split
  · exact h1.unref
  · exact h1.freeCopyCells

theorem Keeps.pushCopy {q c cp} (h : Keeps o s) : Keeps o (s.pushCopy q c cp) := h.setQueue.addFill

theorem Keeps.enqueueFrame {q c frame cells owner} (h : Keeps o s) : Keeps o (s.enqueueFrame q c frame cells owner).2 :=
  .ite2 (.pair h.countQ) (.ite2 (.pair h.countQ) (.ite2 (.pair h.countQ) (.ite2 (.pair h.countQ) (.pair h.pushCopy))))

/-! ### Machine/Notice.lean -/

theorem Keeps.setSession {i x} (h : Keeps o s) : Keeps o (s.setSession i x) := h.upd

theorem Keeps.jenSend {port vlan dst msg} (h : Keeps o s) : Keeps o (s.jenSend port vlan dst msg) := .ite h.pushCopy h.enqueueFrame

theorem Keeps.noticeStat (h : Keeps o s) : Keeps o s.noticeStat := by
  unfold State.noticeStat
  extract_lets s1
  have h1 : Keeps o s1 := h.setFld
  exact h1.setFld

theorem Keeps.sendCopy {n c} (h : Keeps o s) : Keeps o (s.sendCopy n c).2 := .pair h.jenSend

theorem Keeps.sendCopies {p} {l : List Notice} : ∀ {done s}, Keeps o s → Keeps o (s.sendCopies p done l) := by
  induction l with
  | nil => exact fun h => h.upd
  | cons n rest ih =>
    intro done s h
    refine ih (Keeps.upd (.foldl2 (fun acc c hc => ?_) (.pair h)))
    split
    · exact hc.sendCopy
    · exact hc

theorem Keeps.pumpNotices (h : Keeps o s) : Keeps o s.pumpNotices := h.sendCopies.noticeStat

theorem Keeps.notice {kind body} (h : Keeps o s) : Keeps o (s.notice kind body) := by
  unfold State.notice
  extract_lets subs full parked s1 _ s2 n s3
  have h1 : Keeps o s1 := .ite h.count.raise h
  have h2 : Keeps o s2 := by
    unfold s2
    clear_value full parked
    split
    · exact h1.upd
    · exact h1
  have h3 : Keeps o s3 := .foldl (fun _ _ h => h.setSession) h2
  exact .ite h (.ite h2 h3.upd.pumpNotices)

theorem Keeps.eventNotice {code} (h : Keeps o s) : Keeps o (s.eventNotice code) := h.upd.notice

theorem Keeps.linkNotice {p up} (h : Keeps o s) : Keeps o (s.linkNotice p up) := h.notice

theorem Keeps.migrationNotice {unit src dst outcome} (h : Keeps o s) : Keeps o (s.migrationNotice unit src dst outcome) := h.notice

theorem Keeps.showSession {i} (h : Keeps o s) : Keeps o (s.showSession i) := h.setReg.setReg

theorem Keeps.dropNotices {p} (h : Keeps o s) : Keeps o (s.dropNotices p) := h.upd.noticeStat

theorem Keeps.closeSession {i} (h : Keeps o s) : Keeps o (s.closeSession i) := by
  unfold State.closeSession
  extract_lets s1
  have h1 : Keeps o s1 := h.setSession.showSession
  exact .ite h h1.dropNotices.raise

theorem Keeps.respondOpen {c key} (h : Keeps o s) : Keeps o (s.respondOpen c key) := by
  unfold State.respondOpen
  split
  · exact h.jenSend
  · exact h

theorem Keeps.respond {c} (h : Keeps o s) : Keeps o (s.respond c) :=
  .ite h.respondOpen (.ite (.ite h.setSession.jenSend.closeSession h.setSession.jenSend) h)

theorem Keeps.finishItem {i status body last} (h : Keeps o s) : Keeps o (s.finishItem i status body last) := by
  unfold State.finishItem
  split
  · exact h
  · split
    · exact h
    · exact .ite h.upd.respond h.upd

theorem Keeps.drainBad {n} : ∀ {s}, Keeps o s → Keeps o (s.drainBad n) := by
  induction n with
  | zero => exact fun h => h
  | succ n ih =>
    intro s h
    unfold State.drainBad
    split
    · exact .ite h (ih h.finishItem)
    · exact h

theorem Keeps.settleItems (h : Keeps o s) : Keeps o s.settleItems := h.drainBad

theorem Keeps.answer {p status body} (h : Keeps o s) : Keeps o (s.answer p status body) := by
  unfold State.answer
  split
  · exact h.finishItem.settleItems
  · exact h

/-! ### Machine/Journal.lean -/

theorem Keeps.nextRecno (h : Keeps o s) : Keeps o s.nextRecno.2 := .pair h.setReg

theorem Keeps.queueRecord {r} (h : Keeps o s) : Keeps o (s.queueRecord r) := .ite h.count h.upd

theorem Keeps.pinRecord {src ctx unit} (h : Keeps o s) : Keeps o (s.pinRecord src ctx unit).2 :=
  .ite2 (.pair h.raise) (.pair (.queueRecord (.ite h.nextRecno.setFld h.nextRecno)))

theorem Keeps.retirePart {unit src} (h : Keeps o s) : Keeps o (s.retirePart unit src) := by
  unfold State.retirePart
  extract_lets s1
  have h1 : Keeps o s1 := h.unitState
  exact .ite (.upd (.ite2 h1 h1.pinRecord)) (.ite2 h1 h1.pinRecord)

theorem Keeps.pinRow {ch bank row} (h : Keeps o s) : Keeps o (s.pinRow ch bank row) := .ite h.pinRecord.upd h.pinRecord

theorem Keeps.specialRecord {src ctx} (h : Keeps o s) : Keeps o (s.specialRecord src ctx) := h.nextRecno.queueRecord

theorem Keeps.setCell {c} (h : Keeps o s) : Keeps o (s.setCell c) := .upd (.foldl (fun _ _ h => h.setReg) h)

theorem Keeps.writeMram {r} (h : Keeps o s) : Keeps o (s.writeMram r) := .ite h.upd h.upd.setFld

theorem Keeps.writeRing {r} (h : Keeps o s) : Keeps o (s.writeRing r) := h.setBytes.upd

theorem Keeps.journalWrite (h : Keeps o s) : Keeps o s.journalWrite := by
  unfold State.journalWrite
  split
  · exact h
  · extract_lets _ t
    have ht : Keeps o t := h.upd
    exact .ite ht.writeRing (.ite ht.writeMram h)

theorem Keeps.journalNotice {mode} (h : Keeps o s) : Keeps o (s.journalNotice mode) := h.notice

theorem Keeps.journalFail {on} (h : Keeps o s) : Keeps o (s.journalFail on) := by
  unfold State.journalFail
  refine .ite h.setCause ?_
  refine .ite h ?_
  split
  · exact h
  · extract_lets _ s1 s2
    have h1 : Keeps o s1 := .ite h.upd.setCell h
    have h2 : Keeps o s2 := h1.levelSource.journalNotice
    exact h2.setBit.setFld

theorem Keeps.journalRecover (h : Keeps o s) : Keeps o s.journalRecover :=
  .ite h (.setFld (.setBit (.upd (.journalNotice (.foldl (fun _ _ h => h.writeMram) h)))))

theorem Keeps.copyCell (h : Keeps o s) : Keeps o s.copyCell := by
  unfold State.copyCell
  split
  · exact h
  · exact h.queueRecord.setCell

theorem Keeps.availRecord (h : Keeps o s) : Keeps o s.availRecord := h.specialRecord

theorem Keeps.drainJournal (h : Keeps o s) : Keeps o s.drainJournal := .foldl (fun _ _ h => h.journalWrite) h

theorem Keeps.lastGasp (h : Keeps o s) : Keeps o s.lastGasp := by
  unfold State.lastGasp
  extract_lets s1
  have h1 : Keeps o s1 := h.drainJournal.copyCell.availRecord.drainJournal
  exact .ite h h1.upd

/-! ### Machine/TimeOps.lean -/

theorem Keeps.reseg {n k f} (h : Keeps o s) : Keeps o (s.reseg n k f) := h.setInst

theorem Keeps.stepTo {n k v} (h : Keeps o s) : Keeps o (s.stepTo n k v) := h.setInst

theorem Keeps.setInstState {n st} (h : Keeps o s) : Keeps o (s.setInstState n st) := by
  unfold State.setInstState
  extract_lets _ _ s1 s2
  have h1 : Keeps o s1 := .ite h.upd h.setFld
  have h2 : Keeps o s2 := h1.bumpGen
  exact .ite h h2.notice

theorem Keeps.showIncr {n} (h : Keeps o s) : Keeps o (s.showIncr n) := h.setReg.setReg

/-! ### Machine/TioOps.lean -/

theorem Keeps.unresume (h : Keeps o s) : Keeps o s.unresume := by
  unfold State.unresume
  split
  · exact .ite (.setCause (.bumpGen (.setFld (.setFld (.setNum (.foldl (fun _ _ h => h.unref) h.upd)))))) h
  · exact h

theorem Keeps.rewTrigger {kind detail} (h : Keeps o s) : Keeps o (s.rewTrigger kind detail) := by
  unfold State.rewTrigger
  extract_lets s1 _ _ s2 _ s3 _ s4
  have h1 : Keeps o s1 := h.unresume
  have h2 : Keeps o s2 := h1.upd
  have h3 : Keeps o s3 := h2.upd
  have h4 : Keeps o s4 := h2.count
  exact .ite h2 (.ite (.ite h3.setFld.bumpGen h3.upd) (.ite h4.upd h4))

theorem Keeps.setContact {c l} (h : Keeps o s) : Keeps o (s.setContact c l) := h.upd

theorem Keeps.driveFn {f l} (h : Keeps o s) : Keeps o (s.driveFn f l) := .ite h.setContact h

theorem Keeps.driveOut {i l} (h : Keeps o s) : Keeps o (s.driveOut i l) := .ite h h.driveFn

theorem Keeps.setTrig {n t} (h : Keeps o s) : Keeps o (s.setTrig n t) := h.upd

theorem Keeps.setPpso {k p} (h : Keeps o s) : Keeps o (s.setPpso k p) := h.upd

theorem Keeps.trigAdvance {n t} (h : Keeps o s) : Keeps o (s.trigAdvance n t) := h.setFld.setBit.setTrig

theorem Keeps.skipPulses {n t j} (h : Keeps o s) : Keeps o (s.skipPulses n t j) := by
  unfold State.skipPulses
  extract_lets s1
  have h1 : Keeps o s1 := .ite h.count h
  exact .ite h1.trigAdvance h1.setTrig

theorem Keeps.outToSafe {i} (h : Keeps o s) : Keeps o (s.outToSafe i) := .ite h h.driveFn

theorem Keeps.forceOut {i} (h : Keeps o s) : Keeps o (s.forceOut i) := by
  unfold State.forceOut
  extract_lets _ s1 _ s2
  have h1 : Keeps o s1 := h.setTrig
  have h2 : Keeps o s2 := .ite (.ite h1.latch h1) h.setPpso
  exact h2.outToSafe

theorem Keeps.restOut {i pulse} (h : Keeps o s) : Keeps o (s.restOut i pulse) := .ite h h.driveOut

theorem Keeps.replaceTrig {ci k n} (h : Keeps o s) : Keeps o (s.replaceTrig ci k n) := by
  unfold State.replaceTrig
  extract_lets _ s1 s2
  have h1 : Keeps o s1 := h.restOut
  have h2 : Keeps o s2 := by
    unfold s2
    split
    · split
      · exact .ite h1 h1.setTrig
      · exact h1
    · exact h1
  exact .ite (.ite h.forceOut (.ite h2 h2.skipPulses)) h

theorem Keeps.replacePpso {ci k j} (h : Keeps o s) : Keeps o (s.replacePpso ci k j) := by
  unfold State.replacePpso
  extract_lets _ s1
  have h1 : Keeps o s1 := .ite h.restOut h
  refine .ite h.forceOut ?_
  split
  · split
    · exact .ite h1 h1.setPpso
    · exact h1
  · exact h1

theorem Keeps.replaceEdges {ci k} (h : Keeps o s) : Keeps o (s.replaceEdges ci k) :=
  .foldl (fun _ _ h => h.replacePpso) (.foldl (fun _ _ h => h.replaceTrig) h)

theorem Keeps.resegOut {n k f} (h : Keeps o s) : Keeps o (s.resegOut n k f) := h.reseg.replaceEdges

theorem Keeps.enterInst {n st} (h : Keeps o s) : Keeps o (s.enterInst n st) := by
  unfold State.enterInst
  extract_lets s1
  have h1 : Keeps o s1 := h.setInstState
  exact .ite h (.ite h1.replaceEdges h1.resegOut)

theorem Keeps.clkoStart {j} (h : Keeps o s) : Keeps o (s.clkoStart j) := h.upd.upd

theorem Keeps.clkoStop {j} (h : Keeps o s) : Keeps o (s.clkoStop j) := h.upd

theorem Keeps.forceSafe (h : Keeps o s) : Keeps o s.forceSafe := by
  unfold State.forceSafe
  extract_lets s1 s2 s3
  have h1 : Keeps o s1 := .foldl (fun _ _ h => h.forceOut) h
  have h2 : Keeps o s2 := .foldl (fun _ _ h => h.driveFn) h1
  have h3 : Keeps o s3 := .foldl (fun _ _ h => h.clkoStop) h2
  exact h3.setBit.setBit

theorem Keeps.resumeOutputs (h : Keeps o s) : Keeps o s.resumeOutputs := by
  unfold State.resumeOutputs
  extract_lets s1 s2 s3 s4 s5
  have h1 : Keeps o s1 := h.setBit.setBit.setBit
  have h2 : Keeps o s2 := .foldl (fun _ _ h => h.driveOut) h1
  have h3 : Keeps o s3 := .foldl (fun _ _ h => .ite h.skipPulses h) h2
  have h4 : Keeps o s4 := .foldl (fun _ _ h => h.setPpso) h3
  have h5 : Keeps o s5 := .foldl (fun _ _ h => h.driveFn) h4
  exact .foldl (fun _ _ h => .ite h.clkoStart h) h5

/-! ### Machine/TimeBase.lean -/

theorem Keeps.answerRead {v} (h : Keeps o s) : Keeps o (s.answerRead v) := h.upd

theorem Keeps.answerWrite (h : Keeps o s) : Keeps o s.answerWrite := h.upd

theorem Keeps.incrLoWrite {n v} (h : Keeps o s) : Keeps o (s.incrLoWrite n v) := .ite h h.setInst.setReg

theorem Keeps.commitIncr {n v} (h : Keeps o s) : Keeps o (s.commitIncr n v) := .showIncr (.resegOut (.ite h.raise h))

theorem Keeps.incrHiWrite {n v} (h : Keeps o s) : Keeps o (s.incrHiWrite n v) := .ite h h.commitIncr

theorem Keeps.startSlew {n amount rate} (h : Keeps o s) : Keeps o (s.startSlew n amount rate) := by
  unfold State.startSlew
  extract_lets s1
  have h1 : Keeps o s1 := h.resegOut
  exact h1.setBit

theorem Keeps.slewWrite {n v} (h : Keeps o s) : Keeps o (s.slewWrite n v) := by
  unfold State.slewWrite
  extract_lets s1
  have h1 : Keeps o s1 := h.setFld
  exact .ite h (.ite h1.startSlew h1)

theorem Keeps.endSlew {n} (h : Keeps o s) : Keeps o (s.endSlew n) := by
  unfold State.endSlew
  split
  · exact .ite h (.advance (.setBit (.ite h.resegOut h.resegOut.resegOut)))
  · exact h

theorem Keeps.refuseStep {n} (h : Keeps o s) : Keeps o (s.refuseStep n) := h.latch.raise

theorem Keeps.armStep {n a atNs} (h : Keeps o s) : Keeps o (s.armStep n a atNs) := .ite h.refuseStep h.setInst.setBit

theorem Keeps.stepCtlWrite {n v} (h : Keeps o s) : Keeps o (s.stepCtlWrite n v) :=
  .ite h (.ite h.setFld.setFld.w1c.armStep h.setFld.setFld.w1c)

theorem Keeps.applyStep {n} (h : Keeps o s) : Keeps o (s.applyStep n) := by
  unfold State.applyStep
  split
  · exact h
  · extract_lets _ s1 _ s2 _ _ s3
    have h1 : Keeps o s1 := h.advance
    have h2 : Keeps o s2 := h1.setInst.setBit
    have h3 : Keeps o s3 := h2.setInst
    split
    · exact .ite h3.refuseStep.answer h3.refuseStep
    · extract_lets s4 s5 s6
      have h4 : Keeps o s4 := h3.stepTo.replaceEdges
      have h5 : Keeps o s5 := .ite h4.setInstState h4
      have h6 : Keeps o s6 := h5.latch.raise
      exact .ite h6.eventNotice.answer h6.eventNotice

theorem Keeps.loadLatch {n} (h : Keeps o s) : Keeps o (s.loadLatch n) := h.setInst

theorem Keeps.secHiRead {n} (h : Keeps o s) : Keeps o (s.secHiRead n) := by
  unfold State.secHiRead
  extract_lets s1
  have h1 : Keeps o s1 := .ite h h.loadLatch
  exact h1.answerRead

theorem Keeps.snapWrite {v} (h : Keeps o s) : Keeps o (s.snapWrite v) :=
  .ite (.setBit (.foldl (fun _ _ h => h.loadLatch) h)) (.ite h.setBit h)

theorem Keeps.convWrite {v} (h : Keeps o s) : Keeps o (s.convWrite v) := by
  unfold State.convWrite
  extract_lets s1 s2
  have h1 : Keeps o s1 := h.setFld
  have h2 : Keeps o s2 := h1.setBit
  exact .ite h (.ite (.ite h2.setFld.setBit h2.upd) h1)

theorem Keeps.convDone (h : Keeps o s) : Keeps o s.convDone := .ite h.convert.setFld.setReg.setReg.setFld.setFld.setBit.upd h

theorem Keeps.loseReference {n} (h : Keeps o s) : Keeps o (s.loseReference n) := by
  unfold State.loseReference
  extract_lets s1 s2 _ _ s3
  have h1 : Keeps o s1 := h.setInstState.raise
  have h2 : Keeps o s2 := h1.setBit.setFld
  have h3 : Keeps o s3 := h2.resegOut
  exact .ite (.ite h3.setBit.showIncr h3) h

theorem Keeps.offsetUpdate {n ofs} (h : Keeps o s) : Keeps o (s.offsetUpdate n ofs) := by
  unfold State.offsetUpdate
  extract_lets _ _ s1 _ _ _ _ s2 _ _ s3 s4
  have h1 : Keeps o s1 := h.setReg.setBit
  have h2 : Keeps o s2 := h1.setInst
  have h3 : Keeps o s3 := .ite h2.raise h2
  have h4 : Keeps o s4 := h3.enterInst
  exact .ite h4.setInst h3

theorem Keeps.ofsWrite {n v} (h : Keeps o s) : Keeps o (s.ofsWrite n v) := .ite h h.offsetUpdate

theorem Keeps.refWrite {n v} (h : Keeps o s) : Keeps o (s.refWrite n v) := by
  unfold State.refWrite
  extract_lets s1 s2
  have h1 : Keeps o s1 := h.setReg
  have h2 : Keeps o s2 := h1.enterInst
  exact .ite h (.ite h2.setInst h1)

theorem Keeps.refTimeout {n} (h : Keeps o s) : Keeps o (s.refTimeout n) := by
  unfold State.refTimeout
  extract_lets s1
  have h1 : Keeps o s1 := h.advance
  exact .ite h1.loseReference h

theorem Keeps.holdIncrUpdate {n} (h : Keeps o s) : Keeps o (s.holdIncrUpdate n) := .ite h.setInst h

theorem Keeps.tcomp {n} (h : Keeps o s) : Keeps o (s.tcomp n) := .ite h.resegOut.showIncr h

theorem Keeps.holdLimit {n} (h : Keeps o s) : Keeps o (s.holdLimit n) := .ite h.setInst.raise h

theorem Keeps.elapsedTick {n} (h : Keeps o s) : Keeps o (s.elapsedTick n) := by
  unfold State.elapsedTick
  extract_lets s1
  have h1 : Keeps o s1 := h.advance
  exact .ite h1.count.holdLimit h

theorem Keeps.warmSet (h : Keeps o s) : Keeps o s.warmSet := .ite h.advance.setBit h

theorem Keeps.oscMeasure (h : Keeps o s) : Keeps o s.oscMeasure := .ite (.ite h.setReg.raise h.setReg) h

theorem Keeps.allInvalid (h : Keeps o s) : Keeps o s.allInvalid := .levelSource (.foldl (fun _ _ h => h.enterInst) h)

theorem Keeps.timeParity {n} (h : Keeps o s) : Keeps o (s.timeParity n) := by
  unfold State.timeParity
  extract_lets s1
  have h1 : Keeps o s1 := h.raise
  exact .ite h1.allInvalid h1.enterInst

theorem Keeps.pushTxts {e} (h : Keeps o s) : Keeps o (s.pushTxts e) := by
  unfold State.pushTxts
  extract_lets _ s1
  have h1 : Keeps o s1 := h.upd
  exact .ite h.latch.raise h1.setFld

theorem Keeps.popTxts (h : Keeps o s) : Keeps o s.popTxts := by
  unfold State.popTxts
  split
  · exact h.setReg.answerRead
  · extract_lets _ s1 _ s2
    have h1 : Keeps o s1 := h.upd
    have h2 : Keeps o s2 := .foldl (fun _ _ h => h.setReg) h1
    exact h2.setFld.answerRead

/-! ### Machine/Triggers.lean -/

theorem Keeps.trigCfgWrite {n v} (h : Keeps o s) : Keeps o (s.trigCfgWrite n v) := by
  unfold State.trigCfgWrite
  extract_lets _ s1 _ _ s2 _ _ s3 s4
  have h1 : Keeps o s1 := h.setReg
  have h2 : Keeps o s2 := h1.setFld.setBit
  have h3 : Keeps o s3 := h2.setTrig
  have h4 : Keeps o s4 := h1.setBit
  exact .ite (.ite h3 h3.driveOut) (.ite (.ite h4.setTrig h4.setTrig.driveOut) h1)

theorem Keeps.trigRead {n} (h : Keeps o s) : Keeps o (s.trigRead n) := by
  unfold State.trigRead
  extract_lets _ s1 _ _ _ _ _ s2 s3
  have h1 : Keeps o s1 := h.advance
  have h2 : Keeps o s2 := h1.setFld
  have h3 : Keeps o s3 := h1.latch.raiseU
  exact .ite (.ite h2.setTrig (.ite h3.trigAdvance (.ite h1.setTrig.outToSafe
      (.ite h1.latch.raise.trigAdvance h1.setBit.setTrig.restOut)))) h

theorem Keeps.schedWrite {n e w v} (h : Keeps o s) : Keeps o (s.schedWrite n e w v) := .ite h.latch h.setReg

theorem Keeps.trigCommit {n} (h : Keeps o s) : Keeps o (s.trigCommit n) := by
  unfold State.trigCommit
  extract_lets
  refine .ite h ?_
  split
  · split
    · exact h
    · extract_lets s1
      have h1 : Keeps o s1 := h.advance
      exact .ite h1.trigAdvance h1.setTrig
  · refine .ite h ?_
    split
    · exact h
    · extract_lets s1
      have h1 : Keeps o s1 := h.advance
      exact h1.setTrig

theorem Keeps.edgeDrive {i} (h : Keeps o s) : Keeps o (s.edgeDrive i) := by
  unfold State.edgeDrive
  refine .ite ?_ ?_
  · extract_lets
    split
    · exact h
    · extract_lets s1 _ s2 s3
      have h1 : Keeps o s1 := h.advance
      have h2 : Keeps o s2 := h1.setTrig
      have h3 : Keeps o s3 := .ite h2.count h2
      exact h3.driveOut
  · extract_lets
    split
    · exact h
    · exact h.advance.setPpso.driveOut

theorem Keeps.ppsoLead {k} (h : Keeps o s) : Keeps o (s.ppsoLead k) := by
  unfold State.ppsoLead
  extract_lets
  refine .ite h ?_
  split
  · exact h
  · extract_lets s1
    have h1 : Keeps o s1 := h.advance
    exact h1.setPpso

theorem Keeps.ppsoTrail {k ci x} (h : Keeps o s) : Keeps o (s.ppsoTrail k ci x) := by
  unfold State.ppsoTrail
  split
  · exact h
  · extract_lets s1
    have h1 : Keeps o s1 := h.advance
    exact h1.setPpso

theorem Keeps.ppsoPulse {k} (h : Keeps o s) : Keeps o (s.ppsoPulse k) := by
  unfold State.ppsoPulse
  refine .ite h ?_
  split
  · exact .ite h h.ppsoTrail
  · exact h.ppsoLead

theorem Keeps.driverFault {c b} (h : Keeps o s) : Keeps o (s.driverFault c b) := by
  unfold State.driverFault
  extract_lets s1
  have h1 : Keeps o s1 := h.setContact
  split
  · exact h
  · exact .ite h1.latch.setBit.raiseU h1.latch

theorem Keeps.openTestAt {c exceeds} (h : Keeps o s) : Keeps o (s.openTestAt c exceeds) := by
  unfold State.openTestAt
  extract_lets _ _ s1
  have h1 : Keeps o s1 := h.upd
  split
  · exact h
  · exact .ite (.ite h1.latch.raiseU h1) h

theorem Keeps.diagClear {i v} (h : Keeps o s) : Keeps o (s.diagClear i v) := .ite h.w1c.setBit.driveOut h.w1c

theorem Keeps.tioResume (h : Keeps o s) : Keeps o s.tioResume := .ite h.resumeOutputs h

/-! ### Machine/EventIn.lean -/

theorem Keeps.setEvIn {i x} (h : Keeps o s) : Keeps o (s.setEvIn i x) := h.upd

theorem Keeps.pushStamp {e} (h : Keeps o s) : Keeps o (s.pushStamp e) := by
  unfold State.pushStamp
  extract_lets s1 _ s2
  have h1 : Keeps o s1 := .ite h.count h
  have h2 : Keeps o s2 := h.upd
  exact .ite h1.latch.raise h2.setFld

theorem Keeps.evtEdge {i t falling} (h : Keeps o s) : Keeps o (s.evtEdge i t falling) := by
  unfold State.evtEdge
  extract_lets s1 _ _ _ _ _ s2
  have h1 : Keeps o s1 := h.advance
  have h2 : Keeps o s2 := h1.setEvIn
  exact .ite h1 (.ite h1.count (.ite h2.stampIn.pushStamp.rewTrigger h2.stampIn.pushStamp))

theorem Keeps.popStamp (h : Keeps o s) : Keeps o s.popStamp := by
  unfold State.popStamp
  split
  · exact h.setReg.answerRead
  · extract_lets _ s1 _ s2
    have h1 : Keeps o s1 := h.upd
    have h2 : Keeps o s2 := .foldl (fun _ _ h => h.setReg) h1
    exact h2.setFld.answerRead

theorem Keeps.feedPps {k t} (h : Keeps o s) : Keeps o (s.feedPps k t) := .foldl (fun _ _ h => .ite h.stampIn.offsetUpdate h) h

theorem Keeps.ppsDisagree {k t} (h : Keeps o s) : Keeps o (s.ppsDisagree k t) := by
  unfold State.ppsDisagree
  extract_lets
  split
  · exact .ite h.raise h
  · exact h

theorem Keeps.ppsEdge {k t falling} (h : Keeps o s) : Keeps o (s.ppsEdge k t falling) := by
  unfold State.ppsEdge
  extract_lets s1 _ _ _ _ _ _ _ s2 s3 _ s4 s5
  have h1 : Keeps o s1 := h.advance
  have h2 : Keeps o s2 := .ite h1.pushStamp h1
  have h3 : Keeps o s3 := h2.setEvIn
  have h4 : Keeps o s4 := h3.upd
  have h5 : Keeps o s5 := h4.setBit.setCause
  exact .ite h1 (.ite h5.feedPps.ppsDisagree h2.setEvIn.count)

theorem Keeps.ppsLost {k} (h : Keeps o s) : Keeps o (s.ppsLost k) := by
  unfold State.ppsLost
  extract_lets
  split
  · exact h
  · extract_lets s1 s2 s3
    have h1 : Keeps o s1 := h.advance
    have h2 : Keeps o s2 := h1.setEvIn
    have h3 : Keeps o s3 := h2.setBit.levelSource
    exact .foldl (fun _ _ h => .ite h.loseReference h) h3

theorem Keeps.ppsiRead {k} (h : Keeps o s) : Keeps o (s.ppsiRead k) := h.upd.answerRead

theorem Keeps.polarityInvert {i} (h : Keeps o s) : Keeps o (s.polarityInvert i) := .ite h.setBit.raise h

theorem Keeps.overvoltage {i} (h : Keeps o s) : Keeps o (s.overvoltage i) := h.latch.raise

theorem Keeps.driftMeasure {l d} (h : Keeps o s) : Keeps o (s.driftMeasure l d) := .ite h.setFld.latch.raise h.setFld

/-! ### Machine/Edits.lean -/

theorem Keeps.ptpEdit {c q tsOut sh l} (h : Keeps o s) : Keeps o (s.ptpEdit c q tsOut sh l).2 :=
  .ite2 h (.ite2 h (.ite2 (.pair h.count) (.pair h.stampIn.stampIn)))

theorem Keeps.copyFrame {cp c tsOut} (h : Keeps o s) : Keeps o (s.copyFrame cp c tsOut).2 := .pair h.ptpEdit

/-! ### Machine/EgrOps.lean -/

theorem Keeps.launchOf {c q} (h : Keeps o s) : Keeps o (s.launchOf c q).2 := .pair h.stampIn

theorem Keeps.shaperTake {q c b t} (h : Keeps o s) : Keeps o (s.shaperTake q c b t) := .ite (.ite h h.upd) (.setEgrPort (.ite h h.upd))

theorem Keeps.enqueueTest {c cp} (h : Keeps o s) : Keeps o (s.enqueueTest c cp).2 := .ite2 h (.ite2 h (.ite2 h (.ite2 h (.ite2 h h))))

theorem Keeps.tryTarget {k q cls mirror} (h : Keeps o s) : Keeps o (s.tryTarget k q cls mirror).2 := by
  unfold State.tryTarget
  split
  · exact h
  · rename_i c _
    have h1 : Keeps o (if c.fld 236 29 1 = 1 then (let (l, s) := s.launchOf c q; (some l, s)) else (none, s)).2 :=
      .ite2 (h.launchOf (c := c) (q := q)) h
    exact .ite2 h1.enqueueTest.countQ (.modCoach (.addFill (.setQueue (.ite h1.enqueueTest.count h1.enqueueTest))))

theorem Keeps.noteCopy {cp} (h : Keeps o s) : Keeps o (s.noteCopy cp) := by
  unfold State.noteCopy
  split
  · exact h.noteYard
  · exact h

theorem Keeps.headOf {q c n} : ∀ {s}, Keeps o s → Keeps o (s.headOf q c n).2 := by
  induction n with
  | zero => exact fun h => h
  | succ n ih =>
    intro s h
    unfold State.headOf
    split
    · exact h
    · split
      · exact h
      · exact h
      · exact ih (Keeps.ite h.noteCopy h).setQueue.discard

theorem Keeps.pickHead {q} {l : List Nat} : ∀ {s}, Keeps o s → Keeps o (s.pickHead q l).2 := by
  induction l with
  | nil => exact fun h => h
  | cons c rest ih =>
    intro s h
    unfold State.pickHead
    split
    · rename_i e
      exact .of_snd e h.headOf
    · rename_i e
      exact ih (.of_snd e h.headOf)

theorem Keeps.startCopy {h1 t} (h : Keeps o s) : Keeps o (s.startCopy h1 t) := h.setQueue.shaperTake.setEgrPort

theorem Keeps.preempt {q} (h : Keeps o s) : Keeps o (s.preempt q) := by
  unfold State.preempt
  extract_lets
  split
  · refine .ite ?_ h
    split
    · exact h.setEgrPort
    · exact h
  · exact h

theorem Keeps.expressOver {q} (h : Keeps o s) : Keeps o (s.expressOver q) := by
  unfold State.expressOver
  extract_lets s1 s2
  have h1 : Keeps o s1 := h.preempt
  have h2 : Keeps o s2 := h1.advance
  refine .ite h1 ?_
  split
  · rename_i s3 e
    have h3 : Keeps o s3 := .of_snd e h2.pickHead
    exact h3.startCopy
  · rename_i s3 e
    have h3 : Keeps o s3 := .of_snd e h2.pickHead
    exact h3

theorem Keeps.selectOver {q cur} (h : Keeps o s) : Keeps o (s.selectOver q cur) := by
  unfold State.selectOver
  refine .ite ?_ h
  split
  · rename_i s1 e
    have h1 : Keeps o s1 := .of_snd e h.pickHead
    exact h1.expressOver
  · rename_i s1 e
    have h1 : Keeps o s1 := .of_snd e h.pickHead
    exact .ite h1.preempt h1

theorem Keeps.selectFree {q} (h : Keeps o s) : Keeps o (s.selectFree q) := by
  unfold State.selectFree
  split
  · rename_i s1 e
    have h1 : Keeps o s1 := .of_snd e h.pickHead
    exact h1.startCopy
  · rename_i s1 e
    have h1 : Keeps o s1 := .of_snd e h.pickHead
    split
    · exact .ite h1 h1.setEgrPort
    · split
      · rename_i s2 e
        have h2 : Keeps o s2 := .of_snd e h1.pickHead
        exact h2.startCopy
      · rename_i s2 e
        have h2 : Keeps o s2 := .of_snd e h1.pickHead
        exact h2

theorem Keeps.select {q} (h : Keeps o s) : Keeps o (s.select q) := by
  unfold State.select
  extract_lets s1
  have h1 : Keeps o s1 := h.advance.selectFree
  refine .ite h ?_
  split
  · exact h.selectOver
  · split
    · exact h1.advance.selectFree
    · exact h1

/-! ### Machine/Egress.lean -/

theorem Keeps.captureOut {q t} (h : Keeps o s) : Keeps o (s.captureOut q t).2 := .ite2 (.pair h.upd) (.pair h.upd)

theorem Keeps.reportedOut {q t} (h : Keeps o s) : Keeps o (s.reportedOut q t).2 := .ite2 h (.pair h.captureOut)

theorem Keeps.stompSent {q} (h : Keeps o s) : Keeps o (s.stompSent q) := h.count.raise

theorem Keeps.checkCopy {cp c headParity bodyParity} (h : Keeps o s) : Keeps o (s.checkCopy cp c headParity bodyParity).2 :=
  .pair (.ite (.noteCopy (.ite (.raise (.ite h.raise h)) (.ite h.raise h))) (.ite (.raise (.ite h.raise h)) (.ite h.raise h)))

theorem Keeps.reportCopy {q ci out c} (h : Keeps o s) : Keeps o (s.reportCopy q ci out c) := .ite h.stampIn.pushTxts h

theorem Keeps.finishCoachCopy {cp k c headParity bodyParity} (h : Keeps o s) :
    Keeps o (s.finishCoachCopy cp k c headParity bodyParity) := by
  unfold State.finishCoachCopy
  split
  rename_i rs s1 e1
  have h1 : Keeps o s1 := .of_snd e1 h.checkCopy
  extract_lets q tp
  split
  rename_i out s2 e2
  have h2 : Keeps o s2 := .of_snd e2 h1.reportedOut
  split
  rename_i l s3 e3
  have h3 : Keeps o s3 := .of_snd e3 h2.copyFrame
  extract_lets _ _ s4 s5 s6 s7
  have h5 : Keeps o s5 := .foldl (fun _ _ h => h.countQ) h3.upd
  have h6 : Keeps o s6 := .ite h5 h5.stompSent
  have h7 : Keeps o s7 := .ite h6.count h6
  exact h7.reportCopy.addFill.unref

theorem Keeps.transmitEnd {q headParity bodyParity} (h : Keeps o s) : Keeps o (s.transmitEnd q headParity bodyParity) := by
  unfold State.transmitEnd
  split
  · exact h
  · extract_lets
    split
    · exact .freeCopyCells (.addFill (.ite (.stompSent (.foldl (fun _ _ h => h.countQ) h.advance.setEgrPort.checkCopy.upd))
        (.foldl (fun _ _ h => h.countQ) h.advance.setEgrPort.checkCopy.upd)))
    · split
      · exact h.advance.setEgrPort.finishCoachCopy
      · exact h.advance.setEgrPort.addFill

theorem Keeps.discardCopies {k reason p} (h : Keeps o s) : Keeps o (s.discardCopies k reason p) :=
  .foldl (fun _ _ h => .ite h (.foldl (fun _ _ h' => h'.discard) h.setQueue)) h

theorem Keeps.modSending {k f} (h : Keeps o s) : Keeps o (s.modSending k f) := .foldl (fun _ _ h => .ite h.setEgrPort h) h

theorem Keeps.resize {k q c o1} (h : Keeps o s) : Keeps o (s.resize k q c o1).2 := by
  unfold State.resize
  split
  · exact .ite2 (.pair h.addFill) h
  · exact h

theorem Keeps.recharge {k c} (h : Keeps o s) : Keeps o (s.recharge k c) := by
  unfold State.recharge
  extract_lets s1
  have h1 : Keeps o s1 := .foldl (fun _ _ h => .ite h.setQueue.addFill h) h
  exact .foldl (fun _ _ h => h.resize.resize.setEgrPort) h1

theorem Keeps.settleCopies {k} (h : Keeps o s) : Keeps o (s.settleCopies k) := by
  unfold State.settleCopies
  split
  · exact h
  · exact h.recharge.discardCopies

theorem Keeps.failCopies {k reason} (h : Keeps o s) : Keeps o (s.failCopies k reason) := by
  unfold State.failCopies
  extract_lets s1 s2
  have h1 : Keeps o s1 := by
    unfold s1
    split
    · exact h.recharge
    · exact h
  have h2 : Keeps o s2 := h1.modSending
  exact h2.discardCopies

theorem Keeps.qcfgWrite {q c v} (h : Keeps o s) : Keeps o (s.qcfgWrite q c v) := .ite h.setBit h.setBit.setFld

theorem Keeps.qshapeWrite {q c v} (h : Keeps o s) : Keeps o (s.qshapeWrite q c v) := h.upd.setReg

theorem Keeps.pshapeWrite {q v} (h : Keeps o s) : Keeps o (s.pshapeWrite q v) := h.setEgrPort.setReg

theorem Keeps.flushQueue {q c} (h : Keeps o s) : Keeps o (s.flushQueue q c) := .foldl (fun _ _ h => h.discard) h.setQueue

theorem Keeps.gateWrite {q bank e w v} (h : Keeps o s) : Keeps o (s.gateWrite q bank e w v) := .ite h.latch h.setReg

theorem Keeps.gclWrite {q v} (h : Keeps o s) : Keeps o (s.gclWrite q v) :=
  .ite h.setFld.setFld.w1c (.ite h.setFld.setFld.w1c.latch.setBit (.setBit
      (.setBit (.setEgrPort (.ite h.setFld.setFld.w1c.stampIn.raise h.setFld.setFld.w1c.stampIn)))))

theorem Keeps.enterGate {q g e} (h : Keeps o s) : Keeps o (s.enterGate q g e) := by
  unfold State.enterGate
  extract_lets s1 _ s2
  have h1 : Keeps o s1 := h.setFld
  have h2 : Keeps o s2 := .ite h1.setBit (.ite h1.setBit h1)
  split
  · exact .ite h2.preempt h2
  · exact h2

theorem Keeps.gclSwitch {q} (h : Keeps o s) : Keeps o (s.gclSwitch q) := by
  unfold State.gclSwitch
  extract_lets
  split
  · exact h
  · extract_lets s1 s2 s3
    have h1 : Keeps o s1 := by
      unfold s1
      split
      · exact h.advance
      · exact h
    have h2 : Keeps o s2 := h1.setEgrPort
    have h3 : Keeps o s3 := h2.setBit.setBit.setFld
    exact .ite h3.enterGate h3.setFld

theorem Keeps.gateBoundary {q} (h : Keeps o s) : Keeps o (s.gateBoundary q) := by
  unfold State.gateBoundary
  split
  · exact h
  · extract_lets ci
    split
    · exact h
    · extract_lets _ s1
      have h1 : Keeps o s1 := by
        unfold s1
        split
        · exact h.advance
        · exact h
      split
      · exact h1.enterGate
      · exact h1

theorem Keeps.verifySend {q} (h : Keeps o s) : Keeps o (s.verifySend q) := by
  unfold State.verifySend
  extract_lets _ s1
  have h1 : Keeps o s1 := .ite h h.advance
  exact .ite h1.setEgrPort h

theorem Keeps.verifyResponse {q} (h : Keeps o s) : Keeps o (s.verifyResponse q) := .ite h.setFld h

theorem Keeps.verifyFail {q} (h : Keeps o s) : Keeps o (s.verifyFail q) := .ite h.advance.setFld h

theorem Keeps.refusalNotice (h : Keeps o s) : Keeps o s.refusalNotice := .ite h.advance.upd.notice h.advance.upd

theorem Keeps.portLoss {q} (h : Keeps o s) : Keeps o (s.portLoss q) := by
  unfold State.portLoss
  extract_lets s1 _ s2
  have h1 : Keeps o s1 := .foldl (fun _ _ h => .foldl (fun _ _ h' => h'.discard) h.setQueue) h
  have h2 : Keeps o s2 := h1.setEgrPort
  refine .foldl (fun s3 _ h3 => ?_) h2
  split
  · exact h3.discard
  · exact h3

theorem Keeps.setSkews {p l} (h : Keeps o s) : Keeps o (s.setSkews p l) := h.setEgrPort

theorem Keeps.loadCal {l cls} (h : Keeps o s) : Keeps o (s.loadCal l cls) := by
  unfold State.loadCal
  extract_lets _ _ s1 s2
  have h1 : Keeps o s1 := h.setReg
  have h2 : Keeps o s2 := h1.setReg
  exact .ite h.setReg.setReg.setBit h2.setBit.raise

theorem Keeps.loadSpares {p} (h : Keeps o s) : Keeps o (s.loadSpares p) := .foldl (fun _ _ h => h.loadCal) h.upd

theorem Keeps.linkUp {p inverted} (h : Keeps o s) : Keeps o (s.linkUp p inverted) := by
  unfold State.linkUp
  extract_lets _ s1 s2 s3 s4 _ _ s5
  have h1 : Keeps o s1 := h.setBit
  have h2 : Keeps o s2 := .foldl (fun _ _ h => .ite h.setBit.setBit.setCause.unitState h.setBit.setBit.setCause) h1
  have h3 : Keeps o s3 := .ite h2.setCause h2
  have h4 : Keeps o s4 := .ite h3.unitState h3
  have h5 : Keeps o s5 := h4.setFld.setEgrPort
  exact .ite h h5.loadSpares.linkNotice

theorem Keeps.laneLoss {l partner} (h : Keeps o s) : Keeps o (s.laneLoss l partner) := h.upd.setFld.setCause.raiseU

theorem Keeps.linkDown {p lanes partner} (h : Keeps o s) : Keeps o (s.linkDown p lanes partner) := by
  unfold State.linkDown
  extract_lets s1 _ s2 _ _ s3
  have h1 : Keeps o s1 := h.setBit.setFld.setBit
  have h2 : Keeps o s2 := .foldl (fun _ _ h => h.setBit) h1
  have h3 : Keeps o s3 := .ite h2.levelSource (.foldl (fun _ _ h => h.laneLoss) h2)
  exact .ite h h3.portLoss.linkNotice

/-! ### Machine/SmcOps.lean -/

theorem Keeps.setSmcQueue {ch l} (h : Keeps o s) : Keeps o (s.setSmcQueue ch l) := h.upd

theorem Keeps.dramReq {cls write a} (h : Keeps o s) : Keeps o (s.dramReq cls write a) := .ite h h.setSmcQueue.upd

theorem Keeps.dramReqs {cls write a n} (h : Keeps o s) : Keeps o (s.dramReqs cls write a n) := .ite h (.foldl (fun _ _ h => h.dramReq) h)

theorem Keeps.cutGo (h : Keeps o s) : Keeps o s.cutGo := by
  unfold State.cutGo
  split
  · exact .ite (.upd (.setFld (.setBit (.foldl (fun _ _ h => h.setReg) h)))) h
  · exact h

theorem Keeps.noStore (h : Keeps o s) : Keeps o s.noStore :=
  .ite (.setCause (.setFld (.setBit (.foldl (fun _ _ h => h.unref) h.upd))))
      (.bumpGen (.setCause (.setFld (.setBit (.foldl (fun _ _ h => h.unref) h.upd)))))

theorem Keeps.shrinkRewind (h : Keeps o s) : Keeps o s.shrinkRewind := by
  unfold State.shrinkRewind
  extract_lets _ _ _ _ s1 s2 _ _ s3 s4
  have h1 : Keeps o s1 := .foldl (fun _ _ h => h.setNum) h
  have h2 : Keeps o s2 := h1.setFld
  have h3 : Keeps o s3 := h2.upd
  have h4 : Keeps o s4 := h3.setFld.setNum
  exact .ite h3.noStore (.ite (.ite h4.upd h3.setFld) h3)

theorem Keeps.retireChannel {ch} (h : Keeps o s) : Keeps o (s.retireChannel ch).2 := by
  unfold State.retireChannel
  extract_lets s1 s2 s3
  have h1 : Keeps o s1 := h.cutGo
  have h2 : Keeps o s2 := h1.shrinkRewind
  have h3 : Keeps o s3 := h2.setBit.setFld.unitState
  exact .ite2 (.pair h1.raise) (.ite2 (.pair h1.pinRecord.upd.setFld.bumpGen.raise) (.pair h3.upd))

theorem Keeps.flagRow {ch p} (h : Keeps o s) : Keeps o (s.flagRow ch p) := by
  unfold State.flagRow
  extract_lets _ _ _ _ s1 s2 s3
  have h1 : Keeps o s1 := h.upd
  have h2 : Keeps o s2 := h1.raiseU
  have h3 : Keeps o s3 := h2.pinRow.count
  exact .ite h (.ite h3.retireChannel h3)

theorem Keeps.dramCorr {ch p} (h : Keeps o s) : Keeps o (s.dramCorr ch p) := by
  unfold State.dramCorr
  extract_lets s1 _ _ _ s2
  have h1 : Keeps o s1 := h.count.count.raise
  have h2 : Keeps o s2 := h1.upd
  exact .ite h2.flagRow h2

theorem Keeps.dramUncorr {ch p a} (h : Keeps o s) : Keeps o (s.dramUncorr ch p a) := by
  unfold State.dramUncorr
  extract_lets s1 s2 s3
  have h1 : Keeps o s1 := h.count.count
  have h2 : Keeps o s2 := h1.setReg.setReg
  have h3 : Keeps o s3 := h2.raise.flagRow
  exact .ite h3.retireChannel h3

/-! ### Machine/Rewind.lean -/

theorem Keeps.setRewState {st} (h : Keeps o s) : Keeps o (s.setRewState st) := .ite h h.setFld.bumpGen

theorem Keeps.rewAccept {k m} (h : Keeps o s) : Keeps o (s.rewAccept k m).2 :=
  .ite2 (.pair h.count) (.ite2 h (.ite2 (.pair h.count) (.pair h.upd.modCoach)))

theorem Keeps.closeSegment (h : Keeps o s) : Keeps o s.closeSegment := h.setBytes.upd

theorem Keeps.closeFull (h : Keeps o s) : Keeps o s.closeFull := .ite h.closeSegment h

theorem Keeps.openNext (h : Keeps o s) : Keeps o s.openNext := h.setFld.upd.setNum

theorem Keeps.appendRecord {l ts cut} (h : Keeps o s) : Keeps o (s.appendRecord l ts cut) := by
  unfold State.appendRecord
  extract_lets s1
  have h1 : Keeps o s1 := h.setBytes.dramReqs
  exact h1.upd.closeFull

theorem Keeps.endSegment (h : Keeps o s) : Keeps o s.endSegment := by
  unfold State.endSegment
  extract_lets s1
  have h1 : Keeps o s1 := .ite h.setBytes h
  exact h1.closeSegment.openNext

theorem Keeps.recordCoach {p c} (h : Keeps o s) : Keeps o (s.recordCoach p c) := by
  unfold State.recordCoach
  exact .unref (.appendRecord (.ite h h.endSegment))

theorem Keeps.recordWrite (h : Keeps o s) : Keeps o s.recordWrite := by
  unfold State.recordWrite
  split
  · exact h
  · split
    · exact h.upd
    · exact .ite h h.upd.recordCoach

theorem Keeps.clearIndex (h : Keeps o s) : Keeps o s.clearIndex := .foldl (fun _ _ h => h.setNum) h

theorem Keeps.rewEnable (h : Keeps o s) : Keeps o s.rewEnable := by
  unfold State.rewEnable
  extract_lets s1 s2
  have h1 : Keeps o s1 := h.setBit
  have h2 : Keeps o s2 := h1.clearIndex.setRewState
  exact .ite h (.ite h2.upd h1)

theorem Keeps.rewDisable (h : Keeps o s) : Keeps o s.rewDisable :=
  .ite h (.setCause (.setRewState (.setBit (.foldl (fun _ _ h => h.unref) h.upd))))

theorem Keeps.rewPostEnd (h : Keeps o s) : Keeps o s.rewPostEnd := by
  unfold State.rewPostEnd
  extract_lets s1
  have h1 : Keeps o s1 := h.advance
  exact .ite h1.upd h

theorem Keeps.flushRecords {n} : ∀ {s}, Keeps o s → Keeps o (s.flushRecords n) := by
  induction n with
  | zero => exact fun h => h
  | succ n ih => exact fun h => ih h.recordWrite

theorem Keeps.rewFrozen (h : Keeps o s) : Keeps o s.rewFrozen := by
  unfold State.rewFrozen
  extract_lets s1 s2 _ s3 s4 _ s5 s6
  have h1 : Keeps o s1 := h.flushRecords
  have h2 : Keeps o s2 := .ite h1 h1.closeSegment
  have h3 : Keeps o s3 := h2.upd
  have h4 : Keeps o s4 := h3.setReg
  have h5 : Keeps o s5 := h4.setReg.setReg
  have h6 : Keeps o s6 := h5.setReg
  exact .ite (.ite h1 h6.setRewState.levelSource) h

theorem Keeps.rewResume (h : Keeps o s) : Keeps o s.rewResume.2 := .ite2 (.pair h.upd.setRewState.openNext.setCause) h

theorem Keeps.drainStart {lo hi} (h : Keeps o s) : Keeps o (s.drainStart lo hi).2 := .ite2 (.pair h.setRewState.setReg.upd) h

theorem Keeps.drainAbort (h : Keeps o s) : Keeps o s.drainAbort.2 := by
  unfold State.drainAbort
  split
  · exact .ite2 (.pair h.upd) h
  · exact h

theorem Keeps.takeCells {owner n} : ∀ {s got}, Keeps o s → Keeps o (s.takeCells owner n got).2 := by
  induction n with
  | zero => exact fun h => h
  | succ n ih =>
    intro s got h
    unfold State.takeCells
    split
    · rename_i e
      exact ih (Keeps.of_snd e h.poolGet).cleanCell
    · rename_i e
      exact (Keeps.of_snd e h.poolGet).freeCopyCells

theorem Keeps.drainSend (h : Keeps o s) : Keeps o s.drainSend := by
  unfold State.drainSend
  extract_lets s1
  have h1 : Keeps o s1 := h.setBit
  split
  · exact h
  · refine .ite h ?_
    refine .ite h1.upd ?_
    split
    split
    · rename_i s2 e
      have h2 : Keeps o s2 := .of_snd e h.takeCells
      exact h2
    · rename_i s2 e
      have h2 : Keeps o s2 := .of_snd e h.takeCells
      extract_lets s3
      have h3 : Keeps o s3 := .foldl (fun _ _ h => h.setBytes) h2
      split
      · rename_i s4 e
        have h4 : Keeps o s4 := .of_snd e h3.enqueueFrame
        exact h4.freeCopyCells
      · rename_i s4 e
        have h4 : Keeps o s4 := .of_snd e h3.enqueueFrame
        extract_lets s5
        have h5 : Keeps o s5 := h4.setReg.setFld
        exact h5.upd

theorem Keeps.drainComplete (h : Keeps o s) : Keeps o s.drainComplete := by
  unfold State.drainComplete
  extract_lets _ s1 s2
  have h1 : Keeps o s1 := h.upd
  have h2 : Keeps o s2 := h1.setRewState
  split
  · exact .ite (.ite h2 h2.latch.eventNotice) h
  · exact h

theorem Keeps.drainContinue (h : Keeps o s) : Keeps o s.drainContinue := by
  unfold State.drainContinue
  extract_lets _ _ s1
  have h1 : Keeps o s1 := h.setBit
  split
  · exact .ite h1.upd h
  · exact h

theorem Keeps.drainStall (h : Keeps o s) : Keeps o s.drainStall := by
  unfold State.drainStall
  extract_lets
  split
  · split
    · extract_lets s1
      have h1 : Keeps o s1 := h.advance.raise
      exact .ite h1.upd h
    · exact h
  · exact h

/-! ### Machine/PathStop.lean -/

theorem Keeps.freePortCells (h : Keeps o s) : Keeps o s.freePortCells := .upd (.foldl (fun _ _ h => h.release) h)

theorem Keeps.dropModuleFrames (h : Keeps o s) : Keeps o s.dropModuleFrames :=
  .foldl (fun _ _ h => .foldl (fun _ _ h' => .ite h'.freeCopyCells h') h) h

theorem Keeps.pathStop (h : Keeps o s) : Keeps o s.pathStop := by
  unfold State.pathStop
  extract_lets s1 s2 _ s3 _ s4 _ s5 _ _ s6
  have h1 : Keeps o s1 := h.setBit.dropModuleFrames.freePortCells
  have h2 : Keeps o s2 := h1.upd
  have h3 : Keeps o s3 := h2.upd
  have h4 : Keeps o s4 := h3.upd
  have h5 : Keeps o s5 := h4.upd
  have h6 : Keeps o s6 := h5.upd
  exact .ite h h6.upd

theorem Keeps.pathFail (h : Keeps o s) : Keeps o s.pathFail := h.pathStop.setFld.setCause.raise

/-! ### Machine/Threads.lean -/

theorem Keeps.setThread {i x} (h : Keeps o s) : Keeps o (s.setThread i x) := h.upd

theorem Keeps.modThread {i f} (h : Keeps o s) : Keeps o (s.modThread i f) := h.setThread

theorem Keeps.setCore {c x} (h : Keeps o s) : Keeps o (s.setCore c x) := h.upd

theorem Keeps.setLink {i c} (h : Keeps o s) : Keeps o (s.setLink i c) := h.upd

theorem Keeps.setResult {i c} (h : Keeps o s) : Keeps o (s.setResult i c) := h.upd

theorem Keeps.setCh14 {c x} (h : Keeps o s) : Keeps o (s.setCh14 c x) := h.upd

theorem Keeps.setDeferred {c l} (h : Keeps o s) : Keeps o (s.setDeferred c l) := h.upd

theorem Keeps.sendItem {c item} (h : Keeps o s) : Keeps o (s.sendItem c item) := .ite h.setCh14 h.setDeferred

theorem Keeps.notify {i code value} (h : Keeps o s) : Keeps o (s.notify i code value) := h.sendItem

theorem Keeps.discardPending {i} (h : Keeps o s) : Keeps o (s.discardPending i) := by
  unfold State.discardPending
  extract_lets _ s1
  have h1 : Keeps o s1 := h.upd
  exact h1.modThread

theorem Keeps.setCry {n c} (h : Keeps o s) : Keeps o (s.setCry n c) := by
  unfold State.setCry
  extract_lets _ s1
  have h1 : Keeps o s1 := h.upd
  exact h1.setFld.setBit.setFld.setBit

theorem Keeps.settleCry {n} (h : Keeps o s) : Keeps o (s.settleCry n) := by
  unfold State.settleCry
  extract_lets
  split
  · exact .ite h.setCry h
  · exact h

theorem Keeps.releaseCry {i} (h : Keeps o s) : Keeps o (s.releaseCry i) := .ite h.setCry.settleCry h

theorem Keeps.leaveCry {i} (h : Keeps o s) : Keeps o (s.leaveCry i) := .releaseCry (.ite h h.setCry.modThread)

theorem Keeps.returnThread {i} (h : Keeps o s) : Keeps o (s.returnThread i) := by
  unfold State.returnThread
  extract_lets s1
  have h1 : Keeps o s1 := h.discardPending.leaveCry
  exact h1.modThread

theorem Keeps.releaseJoiners {i} (h : Keeps o s) : Keeps o (s.releaseJoiners i) := by
  unfold State.releaseJoiners
  extract_lets
  refine .foldl (fun s1 _ h1 => ?_) h
  split
  · exact .ite h1.modThread h1
  · exact h1

theorem Keeps.returnServer {i q late} (h : Keeps o s) : Keeps o (s.returnServer i q late) :=
  .ite (.notify (.foldl (fun _ _ h => h.returnThread.releaseJoiners) h)) (.foldl (fun _ _ h => h.returnThread.releaseJoiners) h)

theorem Keeps.completeCoach {i q} (h : Keeps o s) : Keeps o (s.completeCoach i q) := by
  unfold State.completeCoach
  exact .modThread (.releaseCry (.foldl (fun _ _ h => h.returnThread.releaseJoiners) h.modCoach))

theorem Keeps.setRole {c r} (h : Keeps o s) : Keeps o (s.setRole c r) := h.setCore

theorem Keeps.setMig {n m} (h : Keeps o s) : Keeps o (s.setMig n m) := h.upd

theorem Keeps.showCores {n} (h : Keeps o s) : Keeps o (s.showCores n) := h.setFld.setBit.setBit.setBit.setFld

theorem Keeps.stnRaise {c cause code pc} (h : Keeps o s) : Keeps o (s.stnRaise c cause code pc) := h.raiseU

theorem Keeps.degradeStn {n} (h : Keeps o s) : Keeps o (s.degradeStn n) := by
  unfold State.degradeStn
  extract_lets _ s1 s2
  have h1 : Keeps o s1 := h.setCause.raiseU
  have h2 : Keeps o s2 := h1.unitState
  exact .ite h (.ite (.ite h2.upd h2) h.pathFail)

theorem Keeps.loseCore {n c slot} (h : Keeps o s) : Keeps o (s.loseCore n c slot) := by
  unfold State.loseCore
  extract_lets s1
  have h1 : Keeps o s1 := h.raise
  split
  · exact .ite h.raise.degradeStn (.ite h.setMig.raise (.ite h.unitState.setMig.raise (.ite h1.pathFail h1)))
  · split
    · extract_lets s2
      have h2 : Keeps o s2 := h.setRole.unitState
      exact h2.setMig.raise
    · exact h.raise.degradeStn

theorem Keeps.dropServed {n k} (h : Keeps o s) : Keeps o (s.dropServed n k) := by
  unfold State.dropServed
  refine .foldl (fun s1 _ h1 => ?_) h
  split
  · exact .ite h1.dropCoach h1
  · exact h1

theorem Keeps.containCore {c} (h : Keeps o s) : Keeps o (s.containCore c) := by
  unfold State.containCore
  refine .ite h ?_
  extract_lets s1 s2 s3 s4
  have h3 : Keeps o s3 := (Keeps.foldl (fun _ _ h => h.leaveCry) h.dropServed).setRole.retirePart
  have h4 : Keeps o s4 := by
    unfold s4
    cases s.roleOf c with
    | service k => exact h3.loseCore
    | leaving => exact h3.setMig
    | preparing => exact h3.setMig
    | _ => exact .ite h3 h3.raise
  exact h4.showCores

theorem Keeps.trapThread {i code async value} (h : Keeps o s) : Keeps o (s.trapThread i code async value) :=
  .ite h.stnRaise.containCore h.setThread.sendItem

theorem Keeps.countIssue {n q} (h : Keeps o s) : Keeps o (s.countIssue n q) := by
  unfold State.countIssue
  split
  · exact h
  · exact .ite (.raise (.count (.ite h.setCoach.setFld h.setCoach))) (.ite h.setCoach.setFld h.setCoach)

theorem Keeps.hardAction {i q} (h : Keeps o s) : Keeps o (s.hardAction i q).2 := by
  unfold State.hardAction
  split
  · exact h
  · extract_lets _ s1
    have h1 : Keeps o s1 := h.setCoach
    refine .ite2 h ?_
    split
    · exact .pair h1.notify
    · exact .pair h1.dropCoach.returnServer
    · exact h1

theorem Keeps.noteIssue {i} (h : Keeps o s) : Keeps o (s.noteIssue i) := .ite h h.upd

theorem Keeps.monitor {i} (h : Keeps o s) : Keeps o (s.monitor i).2 := by
  unfold State.monitor
  split
  · exact .pair h.noteIssue
  · split
    · rename_i s1 e
      have h1 : Keeps o s1 := .of_snd e h.noteIssue.hardAction
      exact .pair h1.countIssue
    · rename_i s1 e
      have h1 : Keeps o s1 := .of_snd e h.noteIssue.hardAction
      exact h1

theorem Keeps.stepPc {i} (h : Keeps o s) : Keeps o (s.stepPc i) := h.modThread

/-- The state that an effect carries, if any, is kept apart from `o` as `Keeps` says. -/
def Eff.Keeps (o : State) : Eff → Prop
  | .next s => Machine.Keeps o s
  | .goto s _ => Machine.Keeps o s
  | .done s => Machine.Keeps o s
  | .wait s _ => Machine.Keeps o s
  | .trap _ _ => True
  | .trapIn s _ _ => Machine.Keeps o s

theorem Eff.Keeps.ite {c : Prop} [Decidable c] {a b : Eff} (ha : a.Keeps o) (hb : b.Keeps o) : Eff.Keeps o (if c then a else b) := by
  split <;> assumption

theorem Keeps.settle {i e} (h : Keeps o s) (he : Eff.Keeps o e) : Keeps o (s.settle i e) := by
  cases e with
  | next t => exact Keeps.stepPc he
  | goto t pc =>
    rw [State.settle]
    exact Keeps.modThread he
  | done t => exact he
  | wait t w =>
    rw [State.settle]
    exact Keeps.modThread he
  | trap code value => exact h.trapThread
  | trapIn t code value => exact Keeps.trapThread he

theorem Keeps.issuePkt {i word legal falls body} (h : Keeps o s) (hb : ∀ {s}, Keeps o s → Eff.Keeps o (body s)) :
    Keeps o (s.issuePkt i word legal falls body) := by
  unfold State.issuePkt
  refine .ite h ?_
  split
  extract_lets s1
  have h1 : Keeps o s1 := h.setThread
  split
  · exact Keeps.trapThread h1.raise
  · split
    · rename_i e
      exact .of_snd e h1.monitor
    · rename_i s2 e
      have h2 : Keeps o s2 := .of_snd e h1.monitor
      exact .ite h2.raise.trapThread (.ite (.ite h h2.trapThread) (.ite h2.trapThread (.ite h2.trapThread (h2.settle (hb h2)))))

/-! ### Machine/MemMap.lean -/

theorem Keeps.setCtlc {c x} (h : Keeps o s) : Keeps o (s.setCtlc c x) := h.upd

theorem Keeps.recall {ln} (h : Keeps o s) : Keeps o (s.recall ln) := by
  unfold State.recall
  split
  · exact h
  · extract_lets s1
    have h1 : Keeps o s1 := h.setBytes
    exact .foldl (fun _ _ h => h.setCtlc) h1

theorem Keeps.heal {a n} (h : Keeps o s) : Keeps o (s.heal a n) := h.upd

theorem Keeps.storeBytes {a l} (h : Keeps o s) : Keeps o (s.storeBytes a l) := h.setBytes.heal

theorem Keeps.writeBytes {a l} (h : Keeps o s) : Keeps o (s.writeBytes a l) := by
  unfold State.writeBytes
  extract_lets s1
  have h1 : Keeps o s1 := .foldl (fun _ _ h => .ite h.recall h) h
  exact h1.storeBytes

theorem Keeps.writeNum {a n v} (h : Keeps o s) : Keeps o (s.writeNum a n v) := h.writeBytes

theorem Keeps.raiseEcc {a} (h : Keeps o s) : Keeps o (s.raiseEcc a) := by
  unfold State.raiseEcc
  split
  · exact h.noteYard
  · exact h.raise
  · exact h.raise
  · exact h.raise
  · exact h.raise
  · exact h.dramUncorr
  · exact h.raise
  · exact h.count.raise

/-! ### Machine/Ctl.lean -/

theorem Keeps.setSys {c sr v} (h : Keeps o s) : Keeps o (s.setSys c sr v) := h.setCtlc

theorem Keeps.modCtlc {c f} (h : Keeps o s) : Keeps o (s.modCtlc c f) := h.setCtlc

theorem Keeps.trapCtl {c code async value} (h : Keeps o s) : Keeps o (s.trapCtl c code async value) := by
  unfold State.trapCtl
  exact .modCtlc (.setSys (.setSys (.setSys (.setSys (.ite h.raise h)))))

theorem Keeps.eret {c} (h : Keeps o s) : Keeps o (s.eret c) := by
  unfold State.eret
  exact h.setSys.modCtlc

theorem Keeps.fillTlb {l size e} (h : Keeps o s) : Keeps o (fillTlb s l size e).2 := .ite2 h (.pair h.upd)

theorem Keeps.walkError {a lvl asid req ecc} (h : Keeps o s) : Keeps o (s.walkError a lvl asid req ecc) := by
  unfold State.walkError
  extract_lets s1 s2
  have h1 : Keeps o s1 := h.setReg
  have h2 : Keeps o s2 := h1.setReg
  exact h2.raise

theorem Keeps.translate {c va kind} (h : Keeps o s) : Keeps o (s.translate c va kind).2 := by
  unfold State.translate
  refine .ite2 h ?_
  refine .ite2 h ?_
  extract_lets
  split
  · exact .ite2 h h
  · split
    · exact .ite2 (.pair h.fillTlb.modCtlc) h
    · exact h
    · exact .pair h.walkError
    · exact .pair h.walkError

theorem Keeps.tlbi {c va} (h : Keeps o s) : Keeps o (s.tlbi c va) := by
  unfold State.tlbi
  exact h.modCtlc

theorem Keeps.evictAck {c} (h : Keeps o s) : Keeps o (s.evictAck c) := by
  unfold State.evictAck
  extract_lets
  split
  · exact h
  · extract_lets s1
    have h1 : Keeps o s1 := h.setCtlc
    exact .ite h1 h1.setBytes

theorem Keeps.evictLine {c l} (h : Keeps o s) : Keeps o (s.evictLine c l) := by
  unfold State.evictLine
  extract_lets s1
  have h1 : Keeps o s1 := .ite h.evictAck h
  exact h1.modCtlc

theorem Keeps.drainEvict {c ln n} : ∀ {s}, Keeps o s → Keeps o (s.drainEvict c ln n) := by
  induction n with
  | zero => exact fun h => h
  | succ n ih => exact fun h => .ite (ih h.evictAck) h

theorem Keeps.missEvict {c} (h : Keeps o s) : Keeps o (s.missEvict c) := by
  unfold State.missEvict
  extract_lets
  split
  rename_i s1 e
  have h1 : Keeps o s1 := .of_snd e h.upd
  split
  · exact h1.evictLine
  · exact h1

theorem Keeps.touchLine {c ln} (h : Keeps o s) : Keeps o (s.touchLine c ln) := by
  unfold State.touchLine
  extract_lets s1
  have h1 : Keeps o s1 := h.drainEvict
  exact .ite h1 h1.missEvict

theorem Keeps.storeLine {c a l} (h : Keeps o s) : Keeps o (s.storeLine c a l) := by
  unfold State.storeLine
  exact .modCtlc (.foldl (fun _ _ h => h.setCtlc) h.touchLine)

theorem Keeps.dcwb {c ln} (h : Keeps o s) : Keeps o (s.dcwb c ln) := by
  unfold State.dcwb
  split
  · exact h.modCtlc.setBytes
  · exact h

theorem Keeps.dcinv {c ln} (h : Keeps o s) : Keeps o (s.dcinv c ln) := h.modCtlc

theorem Keeps.settleCtl {c e} (h : Keeps o s) (he : Eff.Keeps o e) : Keeps o (s.settleCtl c e) := by
  cases e with
  | next t =>
    rw [State.settleCtl]
    exact Keeps.modCtlc he
  | goto t pc =>
    rw [State.settleCtl]
    exact Keeps.modCtlc he
  | done t => exact he
  | wait t w =>
    rw [State.settleCtl]
    exact Keeps.modCtlc he
  | trap code value => exact h.trapCtl
  | trapIn t code value => exact Keeps.trapCtl he

theorem Keeps.codeLine {c ln} (h : Keeps o s) : Keeps o (s.codeLine c ln).2 := .ite2 h (.pair h.upd)

theorem Keeps.codeFetch {c a} (h : Keeps o s) : Keeps o (s.codeFetch c a).2 := .ite2 (.pair h.codeLine.modCtlc) h

theorem Keeps.icinv {c ln} (h : Keeps o s) : Keeps o (s.icinv c ln) := h.modCtlc

theorem Keeps.fetchCtl {c} (h : Keeps o s) : Keeps o (s.fetchCtl c).2 := by
  unfold State.fetchCtl
  split
  · rename_i s1 e
    have h1 : Keeps o s1 := .of_snd e h.translate
    exact h1
  · rename_i s1 e
    have h1 : Keeps o s1 := .of_snd e h.translate
    exact .ite2 h1 (.ite2 (.pair h1.raiseEcc) (.pair h1.codeFetch))

theorem Keeps.issueCtl {c word legal body} (h : Keeps o s) (hb : ∀ {s}, Keeps o s → Eff.Keeps o (body s)) :
    Keeps o (s.issueCtl c word legal body) := by
  unfold State.issueCtl
  refine .ite h ?_
  split
  · rename_i e
    exact (Keeps.of_snd e h.fetchCtl).trapCtl
  · rename_i s1 e
    have h1 : Keeps o s1 := .of_snd e h.fetchCtl
    exact .ite (.ite h h1.trapCtl) (.ite h1.trapCtl (h1.settleCtl (hb h1)))

theorem Keeps.rset {h1 r v} (h : Keeps o s) : Keeps o (s.rset h1 r v) := by
  unfold State.rset
  split
  · exact h.modThread
  · exact h.modCtlc

theorem Keeps.setLk {h1 v} (h : Keeps o s) : Keeps o (s.setLk h1 v) := by
  unfold State.setLk
  split
  · exact h.modThread
  · exact h.modCtlc

theorem Keeps.issue {h1 word legal falls body} (h : Keeps o s) (hb : ∀ {s}, Keeps o s → Eff.Keeps o (body s)) :
    Keeps o (s.issue h1 word legal falls body) := by
  cases h1 with
  | pkt n k t => exact h.issuePkt hb
  | ctl c => exact h.issueCtl hb

theorem Keeps.issueP {h1 word legal falls body} (h : Keeps o s) (hb : ∀ i {s}, Keeps o s → Eff.Keeps o (body i s)) :
    Keeps o (s.issueP h1 word legal falls body) := by
  cases h1 with
  | pkt n k t => exact h.issuePkt (hb _)
  | ctl c => exact h.issueCtl fun h => h

theorem Keeps.issueC {h1 word legal body} (h : Keeps o s) (hb : ∀ c {s}, Keeps o s → Eff.Keeps o (body c s)) :
    Keeps o (s.issueC h1 word legal body) := by
  cases h1 with
  | pkt n k t => exact h.issuePkt fun h => h
  | ctl c => exact h.issueCtl (hb _)

/-! ### Machine/Isa.lean -/

theorem Keeps.alu {h1 rd ra rb fn f} (h : Keeps o s) : Keeps o (s.alu h1 rd ra rb fn f) := h.issue fun h => h.rset

theorem Keeps.alu1 {h1 rd ra fn f} (h : Keeps o s) : Keeps o (s.alu1 h1 rd ra fn f) := h.issue fun h => h.rset

theorem Keeps.aluI {h1 op rd ra imm legal f} (h : Keeps o s) : Keeps o (s.aluI h1 op rd ra imm legal f) := h.issue fun h => h.rset

theorem Keeps.jumpTo {h1 target} (h : Keeps o s) : Eff.Keeps o (jumpTo h1 target s) := by
  cases h1 with
  | pkt n k t => exact .ite trivial (.ite trivial h)
  | ctl c => exact .ite trivial h

theorem Keeps.branch {h1 op ra rb off p} (h : Keeps o s) : Keeps o (s.branch h1 op ra rb off p) := h.issue fun h => .ite h.jumpTo h

theorem Keeps.dbnz {h1 ra off} (h : Keeps o s) : Keeps o (s.dbnz h1 ra off) := h.issue fun h => .ite h.rset.jumpTo h.rset

theorem Keeps.callTo {h1 target} (h : Keeps o s) : Eff.Keeps o (callTo h1 target s) := by
  cases h1 with
  | pkt n k t => exact .ite trivial h.setLk.jumpTo
  | ctl c =>
    unfold Machine.callTo
    exact h.setLk.jumpTo

theorem Keeps.mtlk {h1 ra} (h : Keeps o s) : Keeps o (s.mtlk h1 ra) := by
  refine h.issue fun h => ?_
  extract_lets v
  split
  · trivial
  · exact h.setLk

theorem Keeps.super {h1 rd ra k t fn body} (h : Keeps o s) (hb : ∀ i j {s}, Keeps o s → Keeps o (body i j s)) :
    Keeps o (s.super h1 rd ra k t fn body) := by
  cases h1 with
  | pkt n c j => exact h.issuePkt (hb _ _)
  | ctl c => exact h.issueCtl fun h => h

theorem Keeps.resumeAt {i pc} (h : Keeps o s) : Keeps o (s.resumeAt i pc) := h.modThread

theorem Keeps.tent {rd i j} (h : Keeps o s) : Keeps o (s.tent rd i j) := by
  unfold State.tent
  extract_lets s1
  have h1 : Keeps o s1 := by
    unfold s1
    split
    · exact .ite h.returnServer h.returnThread.releaseJoiners.notify
    · exact h.upd.returnThread.releaseJoiners.notify
  exact .ite h.modThread h1.modThread

theorem Keeps.priv {h1 word legal open_ body} (h : Keeps o s) (hb : ∀ c {s}, Keeps o s → Eff.Keeps o (body c s)) :
    Keeps o (s.priv h1 word legal open_ body) := h.issueC fun c _ h => .ite (hb c h) trivial

theorem Keeps.mtsr {c sr v} (h : Keeps o s) : Keeps o (s.mtsr c sr v) := by
  unfold State.mtsr
  split
  · exact h.setSys
  · exact h.setSys
  · exact h.setSys
  · exact h.setSys
  · exact h
  · exact h
  · exact h.setSys

theorem Keeps.cacheOp {c va f} (h : Keeps o s) (hf : ∀ a {s}, Keeps o s → Keeps o (f a s)) : Eff.Keeps o (s.cacheOp c va f) := by
  unfold State.cacheOp
  split
  · rename_i e
    exact Keeps.of_snd e h.translate
  · rename_i e
    exact hf _ (.of_snd e h.translate)

/-! ### Machine/EgressCmds.lean -/

theorem Keeps.drainRegs (h : Keeps o s) : Keeps o s.drainRegs := h.drainStart

theorem Keeps.linkCut {p cut} (h : Keeps o s) : Keeps o (s.linkCut p cut) := .ite h.countDrop h

theorem Keeps.bootTimes {p} (h : Keeps o s) : Keeps o (s.bootTimes p) :=
  .ite (.setFld (.ite (.setFld (.ite h.setFld h)) (.ite h.setFld h))) (.ite (.setFld (.ite h.setFld h)) (.ite h.setFld h))

theorem Keeps.linkUpAt {p t inverted skews} (h : Keeps o s) : Keeps o (s.linkUpAt p t inverted skews) := by
  unfold State.linkUpAt
  extract_lets s1 s2
  have h1 : Keeps o s1 := h.advance.setSkews
  have h2 : Keeps o s2 := h1.linkUp
  exact .ite h1.linkUp (.ite (.ite h2.bootTimes h2) h1)

/-! ### Machine/Channels.lean -/

theorem Keeps.setChanOf {i p c} (h : Keeps o s) : Keeps o (s.setChanOf i p c) := by
  unfold State.setChanOf
  split
  · exact h.setResult
  · exact h.setLink
  · exact h.setCh14
  · exact h

theorem Keeps.chrd {i rd ch} (h : Keeps o s) : Eff.Keeps o (s.chrd i rd ch) := by
  unfold State.chrd
  extract_lets p
  clear_value p
  split
  · exact h
  · exact h.modThread
  · trivial
  · trivial
  · trivial
  · split
    · exact h.setChanOf.modThread
    · exact h

theorem Keeps.linkWrite {k v last} (h : Keeps o s) : Keeps o (s.linkWrite k v last) := .ite h.setLink h.setLink.count

theorem Keeps.chwr {i ch v last} (h : Keeps o s) : Eff.Keeps o (s.chwr i ch v last) := by
  unfold State.chwr
  split
  · extract_lets x
    split
    · trivial
    · exact .ite trivial (.ite h.modThread.completeCoach h.modThread)
  · exact .ite trivial (.ite h h.linkWrite)
  · trivial

theorem Keeps.chflush {i ch} (h : Keeps o s) : Keeps o (s.chflush i ch) :=
  .ite h.setLink.count (.ite (.foldl (fun _ _ h => h.setResult.count.upd) h) h)

theorem Keeps.fork {i rd ra rb} (h : Keeps o s) : Eff.Keeps o (s.fork i rd ra rb) := by
  unfold State.fork
  refine .ite trivial (.ite trivial ?_)
  split
  · exact h.modThread
  · exact h.modThread.modThread

theorem Keeps.collect {i rd j} (h : Keeps o s) : Keeps o (s.collect i rd j) := by
  unfold State.collect
  exact h.modThread.modThread

theorem Keeps.join {i rd t} (h : Keeps o s) : Eff.Keeps o (s.join i rd t) := .ite (.ite h.collect h) h.modThread

theorem Keeps.quit {i} (h : Keeps o s) : Eff.Keeps o (s.quit i) := by
  unfold State.quit
  refine .ite ?_ h.releaseCry.modThread
  show Keeps o _
  split
  · exact h.returnServer
  · exact h.returnThread

theorem Keeps.wake {i} (h : Keeps o s) : Keeps o (s.wake i) := h.modThread

theorem Keeps.nextCycle {later} (h : Keeps o s) : Keeps o (s.nextCycle later) := .ite h.advance h

theorem Keeps.chrdResume {i} (h : Keeps o s) : Keeps o (s.chrdResume i) := by
  unfold State.chrdResume
  split
  · extract_lets
    split
    · exact h
    · extract_lets u
      have hu : Keeps o u := h.nextCycle
      split
      · exact hu.setChanOf.modThread.wake
      · exact h
  · exact h

theorem Keeps.chwrResume {i} (h : Keeps o s) : Keeps o (s.chwrResume i) := by
  unfold State.chwrResume
  split
  · split
    · exact .ite h.nextCycle.linkWrite.wake h
    · exact h
  · exact h

theorem Keeps.joinResume {i} (h : Keeps o s) : Keeps o (s.joinResume i) := by
  unfold State.joinResume
  split
  · exact .ite h.collect.wake (.ite h.modThread.wake h)
  · exact h

theorem Keeps.sendDeferred {c} (h : Keeps o s) : Keeps o (s.sendDeferred c) := by
  unfold State.sendDeferred
  split
  · exact h
  · exact .ite h.setDeferred.setCh14 h

theorem Keeps.standstill {c} (h : Keeps o s) : Keeps o (s.standstill c) := by
  unfold State.standstill
  extract_lets s1 _ s2 _ s3 s4
  have h1 : Keeps o s1 := h.advance
  have h2 : Keeps o s2 := h1.upd
  have h3 : Keeps o s3 := h2.sendItem
  have h4 : Keeps o s4 := h3.count.setFld
  exact .ite h4.stnRaise h

/-! ### Machine/Xops.lean -/

theorem Keeps.tau {i fn a b} (h : Keeps o s) : Keeps o (s.tau i fn a b).2 := by
  unfold State.tau
  extract_lets
  split
  · exact .ite2 h (.pair h.stampIn)
  · exact .ite2 h (.pair h.convert)
  · exact .ite2 h h
  · exact .ite2 h h
  · split
    · exact h
    · exact .pair h.stampIn

theorem Keeps.cryJoin {n i k ctx} (h : Keeps o s) : Keeps o (s.cryJoin n i k ctx) := h.setCry

theorem Keeps.cryTake {n i k ctx} (h : Keeps o s) : Keeps o (s.cryTake n i k ctx) := h.setCry

theorem Keeps.cryYield {n h1 kh i k ctx} (h : Keeps o s) : Keeps o (s.cryYield n h1 kh i k ctx) := h.modThread.setCry.cryTake

theorem Keeps.cryContext {n r} (h : Keeps o s) (e : s.cryContext n = .ok r) : Keeps o r.2.2 := by
  have hLoad {c} (e : State.cryContext.load s n c = .ok r) : Keeps o r.2.2 := by
    unfold State.cryContext.load at e
    extract_lets a at e
    split at e
    · cases e
    · split at e
      · cases e
      · cases e
        exact h.setCry
  unfold State.cryContext at e
  extract_lets c at e
  split at e
  · split at e
    · cases e
      exact h
    · exact hLoad e
  · exact hLoad e

theorem Keeps.cryTag {i verify a b c} (h : Keeps o s) : Keeps o (s.cryTag i verify a b c).2 := by
  unfold State.cryTag
  extract_lets n ofs len aad ivOff ivGen tagOff tagLen
  split
  · exact h
  · rename_i s1 e
    have h1 : Keeps o s1 := h.cryContext e
    refine .ite2 h1 (.ite2 h1 (.ite2 h1 (.ite2 h1 ?_)))
    split
    · exact h1
    · exact h1.noteYard
    · exact .pair (.ite h1.writeNum h1)

theorem Keeps.cryBody {i q verify a b} (h : Keeps o s) : Keeps o (s.cryBody i q verify a b).2 := by
  unfold State.cryBody
  split
  · exact h
  · exact .ite2 h (.pair h.cryTag)

theorem Keeps.cryOp {i k fn a b} (h : Keeps o s) : Keeps o (s.cryOp i k fn a b).2 := by
  unfold State.cryOp
  extract_lets
  refine .ite2 h ?_
  split
  · refine .ite2 (.pair h.setCry) ?_
    refine .ite2 (.pair h.cryTake) ?_
    split
    · exact .pair h.cryYield
    · exact .pair h.cryJoin
  · exact .pair h.releaseCry
  · exact .ite2 (.pair h.setCry) h
  · exact .ite2 h.cryBody h

theorem Keeps.xopAnswer {i k unit fn a b} (h : Keeps o s) : Keeps o (s.xopAnswer i k unit fn a b).2 := by
  unfold State.xopAnswer
  split
  · exact .pair h.tau
  · exact h
  · exact h.cryOp

theorem Keeps.xopAccept {i k unit fn a b} (h : Keeps o s) : Keeps o (s.xopAccept i k unit fn a b) := by
  unfold State.xopAccept
  exact .modThread (.ite (.upd (.ite h.xopAnswer.upd h.xopAnswer)) (.ite h.xopAnswer.upd h.xopAnswer))

theorem Keeps.xop {h1 k unit fn ra rb} (h : Keeps o s) : Keeps o (s.xop h1 k unit fn ra rb) := by
  unfold State.xop
  extract_lets word
  refine h.issueP fun i s h => ?_
  extract_lets a b
  split
  · trivial
  · exact .ite h h.xopAccept

theorem Keeps.xopResume {i} (h : Keeps o s) : Keeps o (s.xopResume i) := by
  unfold State.xopResume
  split
  · exact .ite h h.xopAccept.wake
  · exact h

theorem Keeps.xopTail {i k} (h : Keeps o s) : Keeps o (s.xopTail i k) := by
  unfold State.xopTail
  extract_lets
  split
  · refine .ite ?_ h
    split
    · rename_i s1 e
      have h1 : Keeps o s1 := .of_snd e h.cryBody
      exact h1.modThread
    · rename_i s1 e
      have h1 : Keeps o s1 := .of_snd e h.cryBody
      exact h
  · exact h

theorem Keeps.lateRaise {i src} (h : Keeps o s) : Keeps o (s.lateRaise i src) := .ite h.raiseU h.raise

theorem Keeps.xopResult {i k} (h : Keeps o s) : Keeps o (s.xopResult i k) := by
  unfold State.xopResult
  extract_lets s1
  have h1 : Keeps o s1 := h.xopTail
  split
  · split
    · extract_lets s2 s3 s4 s5
      have h2 : Keeps o s2 := h1.advance
      have h3 : Keeps o s3 := by
        unfold s3
        split
        · exact h2.lateRaise
        · exact h2
      have h4 : Keeps o s4 := h3.modThread
      have h5 : Keeps o s5 := by
        unfold s5
        split
        · exact .ite h4.dropCoach h4
        · exact h4
      exact h5.settleCry
    · exact h1
  · exact h1

theorem Keeps.xopLate {i k} (h : Keeps o s) : Keeps o (s.xopLate i k) := by
  unfold State.xopLate
  extract_lets s1
  have h1 : Keeps o s1 := h.xopTail
  split
  · extract_lets s2 s3
    have h2 : Keeps o s2 := h1.advance
    have h3 : Keeps o s3 := by
      unfold s3
      split
      · exact h2.lateRaise
      · exact h2
    split
    · extract_lets s4 s5 s6 s7
      have h4 : Keeps o s4 := h3.setFld.setFld.setFld
      have h5 : Keeps o s5 := h4.count
      have h6 : Keeps o s6 := h5.modThread
      have h7 : Keeps o s7 := h6.settleCry
      exact .ite h7 (.ite h7.sendItem h7.trapThread)
    · exact h1
  · exact h1

theorem Keeps.xget {i rd k w} (h : Keeps o s) : Eff.Keeps o (s.xget i rd k w) := .ite h h.modThread

theorem Keeps.xgetResume {i} (h : Keeps o s) : Keeps o (s.xgetResume i) := by
  unfold State.xgetResume
  split
  · exact .ite h h.modThread.wake
  · exact h

theorem Keeps.cryGrant {n} (h : Keeps o s) : Keeps o (s.cryGrant n) := by
  unfold State.cryGrant
  extract_lets s1 _ s2
  have h1 : Keeps o s1 := h.settleCry
  have h2 : Keeps o s2 := h1.nextCycle
  refine .ite h1 ?_
  split
  · exact h1
  · extract_lets s3
    have h3 : Keeps o s3 := h2.setCry
    exact h3.modThread

theorem Keeps.cryFence {n} (h : Keeps o s) : Keeps o (s.cryFence n) := .setCry (.foldl (fun _ _ h => h.modThread) h)

/-! ### Machine/Clauses.lean -/

theorem Keeps.setClause {g a c} (h : Keeps o s) : Keeps o (s.setClause g a c) := h.upd

theorem Keeps.addLog {r} (h : Keeps o s) : Keeps o (s.addLog r) := by
  unfold State.addLog
  extract_lets _ s1
  have h1 : Keeps o s1 := h.upd
  exact h1.setFld

theorem Keeps.dropLog {p} (h : Keeps o s) : Keeps o (s.dropLog p) := by
  unfold State.dropLog
  extract_lets _ s1
  have h1 : Keeps o s1 := h.upd
  exact h1.setFld

theorem Keeps.setLost {g l} (h : Keeps o s) : Keeps o (s.setLost g l) := h.upd

theorem Keeps.clauseFirst {u} (h : Keeps o s) : Keeps o (s.clauseFirst u) := .ite h.setClause h

theorem Keeps.refind {g a} (h : Keeps o s) : Keeps o (s.refind g a) := .ite h (.ite h.setLost.liftFence h.setLost)

theorem Keeps.clauseLast {u} (h : Keeps o s) : Keeps o (s.clauseLast u) := by
  unfold State.clauseLast
  extract_lets
  split
  · exact h.setClause.addLog
  · exact .ite h.setClause h.setClause.addLog
  · exact h.setClause.refind
  · exact h.setClause
  · exact .ite h h.writeBytes

theorem Keeps.clauseStart {op g a r jen} (h : Keeps o s) : Keeps o (s.clauseStart op g a r jen) := h.setBit.upd

theorem Keeps.clauseCtl {v} (h : Keeps o s) : Keeps o (s.clauseCtl v) :=
  .ite h.setFld.setFld (.ite h.setFld.setFld.setFld h.setFld.setFld.clauseStart)

theorem Keeps.clauseCut {g} (h : Keeps o s) : Keeps o (s.clauseCut g) := by
  unfold State.clauseCut
  split
  · exact .ite h.upd h
  · exact h

theorem Keeps.clauseStall (h : Keeps o s) : Keeps o s.clauseStall := by
  unfold State.clauseStall
  extract_lets
  split
  · extract_lets s1
    have h1 : Keeps o s1 := h.advance.raise
    exact .ite h1.upd h
  · exact h

/-! ### Machine/Tables.lean -/

theorem Keeps.fdbCount {a d} (h : Keeps o s) : Keeps o (s.fdbCount a d) := .ite h.setFld h.setFld.setFld

theorem Keeps.fdbPut {a l} (h : Keeps o s) : Keeps o (s.fdbPut a l) := by
  unfold State.fdbPut
  extract_lets s1 s2
  have h1 : Keeps o s1 := .ite h.fdbCount h
  have h2 : Keeps o s2 := h1.setBytes
  exact .ite h2.fdbCount h2

theorem Keeps.fdbClear {a} (h : Keeps o s) : Keeps o (s.fdbClear a) := .ite h.fdbPut h

theorem Keeps.showLpm (h : Keeps o s) : Keeps o s.showLpm := h.setFld

theorem Keeps.setStrControl {i w} (h : Keeps o s) : Keeps o (s.setStrControl i w) := h.setNum

theorem Keeps.strCount {d} (h : Keeps o s) : Keeps o (s.strCount d) := h.setFld

theorem Keeps.setLogWord {r w} (h : Keeps o s) : Keeps o (s.setLogWord r w) := by
  unfold State.setLogWord
  split
  · exact h.upd
  · exact .setStrControl (.ite h h.strCount)
  · exact h.upd

theorem Keeps.sweepPrefixes (h : Keeps o s) : Keeps o s.sweepPrefixes := h.upd.setFld.showLpm

/-! ### Machine/Tenses.lean -/

theorem Keeps.scheduleCommit (h : Keeps o s) : Keeps o s.scheduleCommit := .ite h.upd h

theorem Keeps.commitReq (h : Keeps o s) : Keeps o s.commitReq.2 := .ite2 h (.ite2 h (.ite2 (.pair h.raise) (.pair h.setBit.scheduleCommit)))

theorem Keeps.abortReq (h : Keeps o s) : Keeps o s.abortReq.2 := .ite2 h (.pair h.upd)

theorem Keeps.voidReq (h : Keeps o s) : Keeps o s.voidReq.2 := .ite2 h (.pair (.foldl (fun _ _ h => h.dropCoach) h.upd))

theorem Keeps.tenseWrite {v} (h : Keeps o s) : Keeps o (s.tenseWrite v) := by
  unfold State.tenseWrite
  split
  · exact h.commitReq
  · exact h.abortReq
  · exact h.voidReq
  · exact h

theorem Keeps.commitEffect (h : Keeps o s) : Keeps o s.commitEffect := by
  unfold State.commitEffect
  split
  · exact h
  · extract_lets s1 _ _ s2 s3 _ _ _ s4 s5 s6
    have h1 : Keeps o s1 := h.advance
    have h2 : Keeps o s2 := h1.setFld.setFld.setFld
    have h3 : Keeps o s3 := h2.setBit
    have h4 : Keeps o s4 := h3.upd
    have h5 : Keeps o s5 := h4.bumpGen
    have h6 : Keeps o s6 := h5.answer
    exact h6.eventNotice

theorem Keeps.abortDone (h : Keeps o s) : Keeps o s.abortDone :=
  .ite h (.bumpGen (.upd (.dropLog (.sweepPrefixes (.foldl (fun _ _ h => .ite h (.ite (.ite h.setLogWord h) (.ite h.setLogWord h))) h)))))

theorem Keeps.settleStart (h : Keeps o s) : Keeps o s.settleStart := .ite h.setBit h

theorem Keeps.settle1 {t} (h : Keeps o s) : Keeps o (s.settle1 t) := by
  unfold State.settle1
  extract_lets s1
  have h1 : Keeps o s1 := .foldl (fun _ _ h => .ite h (.ite h.setLogWord (.ite h.setLogWord h))) h
  exact h1.sweepPrefixes.dropLog

theorem Keeps.settleDone (h : Keeps o s) : Keeps o s.settleDone := .ite h.settle1.setBit.setFld.setFld.upd.bumpGen h

theorem Keeps.drainCheck (h : Keeps o s) : Keeps o s.drainCheck := by
  unfold State.drainCheck
  extract_lets _ s1
  have h1 : Keeps o s1 := h.advance
  exact .ite h1 (.foldl (fun _ _ h => .ite h.raise.upd h) h1)

theorem Keeps.clauseFinish (h : Keeps o s) : Keeps o s.clauseFinish := by
  unfold State.clauseFinish
  split
  · exact h
  · extract_lets _ _ s1 s2 _ s3
    have h1 : Keeps o s1 := .ite h.clauseLast h
    have h2 : Keeps o s2 := h1.setFld.setBit
    have h3 : Keeps o s3 := h2.upd
    exact .scheduleCommit (.ite h3.answer h3)

theorem Keeps.clauseSlot (h : Keeps o s) : Keeps o s.clauseSlot := by
  unfold State.clauseSlot
  split
  · exact h
  · extract_lets s1 _ s2
    have h1 : Keeps o s1 := .ite h.clauseFirst h
    have h2 : Keeps o s2 := h1.upd
    exact .ite h2.clauseFinish h2

theorem Keeps.setRcvy {r x} (h : Keeps o s) : Keeps o (s.setRcvy r x) := h.upd

theorem Keeps.paramWrite {o1 ix l} (h : Keeps o s) : Keeps o (s.paramWrite o1 ix l) := by
  unfold State.paramWrite
  extract_lets _ s1
  have h1 : Keeps o s1 := h.setBytes
  split
  · exact h1.upd
  · exact h.setBytes.setRcvy
  · exact h1.upd
  · exact h.setBytes

theorem Keeps.fdbFlush {port flags vid} (h : Keeps o s) : Keeps o (s.fdbFlush port flags vid) := .foldl (fun _ _ h => .ite h.fdbClear h) h

theorem Keeps.fwdApply {op r} (h : Keeps o s) : Keeps o (s.fwdApply op r) := by
  unfold State.fwdApply
  extract_lets
  split
  · split
    · exact h.fdbPut
    · exact h
  · split
    · exact h.fdbClear
    · exact h
  · exact h.fdbFlush
  · exact h.upd.addLog.showLpm
  · split
    · exact .ite h.setLogWord.sweepPrefixes h.setLogWord.addLog
    · exact h
  · split
    · extract_lets s1
      have h1 : Keeps o s1 := h.setBytes.setStrControl
      exact h1.setBytes.strCount.addLog
    · exact h
  · split
    · exact .ite h.setLogWord h.setLogWord.addLog
    · exact h
  · exact h.paramWrite
  · exact h.setRcvy
  · exact h

theorem Keeps.fwdStart {op r jen} (h : Keeps o s) : Keeps o (s.fwdStart op r jen) := h.setBit.upd

theorem Keeps.fwdCtlWrite {v} (h : Keeps o s) : Keeps o (s.fwdCtlWrite v) := .ite h.setFld (.ite h.setFld.setFld h.setFld.fwdStart)

theorem Keeps.fwdFinish (h : Keeps o s) : Keeps o s.fwdFinish := by
  unfold State.fwdFinish
  split
  · exact h
  · extract_lets _ _ s1 s2 _ s3
    have h1 : Keeps o s1 := .ite h (.ite (.ite h h.writeBytes) h.fwdApply)
    have h2 : Keeps o s2 := h1.setFld.setBit
    have h3 : Keeps o s3 := h2.upd
    exact .scheduleCommit (.ite h3.answer h3)

theorem Keeps.fwdCut {eng} (h : Keeps o s) : Keeps o (s.fwdCut eng) := by
  unfold State.fwdCut
  split
  · exact .ite h.upd h
  · exact h

/-! ### Machine/Search.lean -/

theorem Keeps.takeSlot {eng m} (h : Keeps o s) : Keeps o (s.takeSlot eng m) := by
  unfold State.takeSlot
  extract_lets s1
  have h1 : Keeps o s1 := h.advance
  exact h1.upd

theorem Keeps.pushResult {i port l} (h : Keeps o s) : Keeps o (s.pushResult i port l) := h.setResult

theorem Keeps.replyNow {i port w} (h : Keeps o s) : Keeps o (s.replyNow i port w) := h.setResult

theorem Keeps.applyResult {q} (h : Keeps o s) : Keeps o (s.applyResult q) := by
  unfold State.applyResult
  extract_lets
  split
  · exact .ite h.modCoach h
  · exact .modCoach (.ite h.modCoach h)
  · exact .modCoach (.ite h.modCoach h)
  · exact .dropCoach (.modCoach (.ite h.modCoach h))
  · exact .dropCoach (.ite h.modCoach h)

theorem Keeps.srqCounted {q count bad} (h : Keeps o s) : Keeps o (s.srqCounted q count bad) :=
  .ite h.count.raise.replyNow (.ite h.raise.applyResult.replyNow (.ite h.applyResult.replyNow h.upd))

theorem Keeps.srqSend {i eng port a b} (h : Keeps o s) : Keeps o (s.srqSend i eng port a b) := by
  unfold State.srqSend
  split
  · exact h.replyNow
  · split
    · exact h.replyNow
    · extract_lets counted
      have hcounted : Keeps o counted := h.setCoach
      split
      · exact .ite hcounted.srqCounted h.replyNow
      · exact hcounted.srqCounted

theorem Keeps.srq {h1 eng port ra rb} (h : Keeps o s) : Keeps o (s.srq h1 eng port ra rb) := by
  unfold State.srq
  extract_lets word
  refine h.issueP fun i s h => ?_
  extract_lets a b
  split
  · trivial
  · exact .ite h h.srqSend

theorem Keeps.srqResume {i} (h : Keeps o s) : Keeps o (s.srqResume i) := by
  unfold State.srqResume
  split
  · exact .ite h h.srqSend.wake
  · exact h

theorem Keeps.lrnCount {o1} (h : Keeps o s) : Keeps o (s.lrnCount o1) := h.count

theorem Keeps.learnFail (h : Keeps o s) : Keeps o s.learnFail := h.lrnCount.raise

theorem Keeps.showLearn (h : Keeps o s) : Keeps o s.showLearn := h.setFld

theorem Keeps.learnQueue {k key c} (h : Keeps o s) : Keeps o (s.learnQueue k key c).2 := by
  unfold State.learnQueue
  extract_lets
  split
  · exact .ite2 (.pair (.ite h.lrnCount h)) (.ite2 h (.ite2 (.pair h.learnFail) (.pair h.upd.showLearn)))
  · exact .ite2 (.pair h.learnFail) (.ite2 (.pair h.learnFail) (.pair h.upd.showLearn))

theorem Keeps.learn {k key} (h : Keeps o s) : Keeps o (s.learn k key).2 := by
  unfold State.learn
  split
  · exact h
  · exact .ite2 (.pair h.setCoach) h.setCoach.learnQueue

theorem Keeps.learnRun (h : Keeps o s) : Keeps o s.learnRun := by
  unfold State.learnRun
  split
  · exact h
  · extract_lets _ s1 s2
    have h1 : Keeps o s1 := h.upd
    have h2 : Keeps o s2 := h1.showLearn
    split
    · exact h
    · refine .ite h2 ?_
      split
      · exact .ite h2 (.ite h2.setNum h2.fdbPut.lrnCount.raise)
      · split
        · exact h2.fdbPut.lrnCount
        · exact h2.learnFail

theorem Keeps.serve {q bad} (h : Keeps o s) : Keeps o (s.serve q bad).2 := by
  unfold State.serve
  extract_lets
  split
  · exact .ite2 h (.ite2 (.pair h.raise) h)
  · refine .ite2 h ?_
    refine .ite2 (.pair h.raise) ?_
    split
    rename_i s1 e
    have h1 : Keeps o s1 := .of_snd e (.ite2 h.learn h)
    extract_lets
    split
    · exact h1
    · exact h1
  · refine .ite2 h ?_
    refine .ite2 (.pair h.raise) ?_
    split
    · exact h
    · exact h
  · refine .ite2 h ?_
    refine .ite2 (.pair h.raise) ?_
    split
    · exact h
    · exact h
  · exact .ite2 h (.ite2 (.pair h.raise) h)

theorem Keeps.showSpare (h : Keeps o s) : Keeps o s.showSpare := .ite h.setFld.setFld.setBit.raise h.setFld.setFld.setBit

theorem Keeps.blockWait {b} (h : Keeps o s) : Keeps o (s.blockWait b) := .ite h h.upd

theorem Keeps.blockMoveStart {b retire} (h : Keeps o s) : Keeps o (s.blockMoveStart b retire).2 := by
  unfold State.blockMoveStart
  split
  · extract_lets s1 _ s2
    have h1 : Keeps o s1 := h.unitState.unitState
    have h2 : Keeps o s2 := h1.upd
    exact .pair h2.showSpare
  · exact h

theorem Keeps.blockCopied (h : Keeps o s) : Keeps o s.blockCopied := .ite h.upd h

theorem Keeps.blockSpare {b} (h : Keeps o s) : Keeps o (s.blockSpare b) := .ite h.blockWait h.blockMoveStart

theorem Keeps.blockNextMove (h : Keeps o s) : Keeps o s.blockNextMove := by
  unfold State.blockNextMove
  split
  · exact h
  · exact h.upd.blockMoveStart

theorem Keeps.blockSwitch (h : Keeps o s) : Keeps o s.blockSwitch := by
  unfold State.blockSwitch
  split
  · exact h
  · exact .ite h (.blockNextMove (.showSpare (.migrationNotice (.raiseU (.ite h.upd.unitState.retirePart h.upd.unitState.unitState)))))

theorem Keeps.blockTested {ok} (h : Keeps o s) : Keeps o (s.blockTested ok) := by
  unfold State.blockTested
  extract_lets _ s1
  have h1 : Keeps o s1 := h.upd
  split
  · exact h
  · extract_lets s2
    have h2 : Keeps o s2 := h1.upd
    exact .showSpare (.ite h1.unitState h2.retirePart)

theorem Keeps.blockRotate (h : Keeps o s) : Keeps o s.blockRotate := .ite (.ite h.blockMoveStart.upd h.blockMoveStart) h

theorem Keeps.softError {b g entry} (h : Keeps o s) : Keeps o (s.softError b g entry) :=
  .ite h.count.setFld.raise.upd h.count.setFld.raise.upd.blockSpare

theorem Keeps.clauseScrub {e} (h : Keeps o s) : Keeps o (s.clauseScrub e) := by
  unfold State.clauseScrub
  extract_lets
  split
  · exact .ite (.softError (.ite h.upd.setFld h.upd)) (.ite h.upd.setFld h.upd)
  · extract_lets
    split
    · exact .softError (.ite h.upd.setFld h.upd)
    · exact .ite (.setLost (.ite h.upd.setFld h.upd)) (.ite (.raise (.setClause (.ite h.upd.setFld h.upd))) (.ite h.upd.setFld h.upd))
    · exact .ite h.upd.setFld h.upd

theorem Keeps.agePassStart (h : Keeps o s) : Keeps o s.agePassStart := by
  unfold State.agePassStart
  extract_lets s1
  have h1 : Keeps o s1 := h.setFld
  exact h1.upd

theorem Keeps.ageStep (h : Keeps o s) : Keeps o s.ageStep := by
  unfold State.ageStep
  extract_lets _ s1 s2
  have h1 : Keeps o s1 := .foldl (fun _ _ h => .ite h.fdbPut h) h
  have h2 : Keeps o s2 := h1.setFld
  exact .ite h (.ite (.ite h2.agePassStart h2.upd) h1.upd)

theorem Keeps.ageTick (h : Keeps o s) : Keeps o s.ageTick := by
  unfold State.ageTick
  extract_lets _ s1 _ s2 s3
  have h1 : Keeps o s1 := h.advance
  have h2 : Keeps o s2 := h1.upd
  have h3 : Keeps o s3 := h2.latch.raise
  exact .ite h (.ite h3.upd h2.agePassStart)

theorem Keeps.ageWrite {v} (h : Keeps o s) : Keeps o (s.ageWrite v) := by
  unfold State.ageWrite
  extract_lets s1
  have h1 : Keeps o s1 := h.setFld
  exact h1.upd

theorem Keeps.searchResult {eng} (h : Keeps o s) : Keeps o (s.searchResult eng) := by
  unfold State.searchResult
  extract_lets _ due
  clear_value due
  split
  · exact h
  · extract_lets s1 q _ s2 s3
    have h3 : Keeps o s3 := Keeps.applyResult (Keeps.upd (Keeps.advance h))
    exact .ite h3 h3.pushResult

theorem Keeps.takeReserve {q} (h : Keeps o s) : Keeps o (s.takeReserve q) := by
  unfold State.takeReserve
  split
  · exact h
  · exact .ite h.upd.setCoach h

theorem Keeps.entryWrite {q c r} (h : Keeps o s) : Keeps o (s.entryWrite q c r) := h.setCoach.takeReserve

theorem Keeps.askEntry {k} (h : Keeps o s) : Keeps o (s.askEntry k) := by
  unfold State.askEntry
  split
  · exact h
  · exact .ite h (.ite h.entryWrite (.ite h.entryWrite.count.raise (.ite h.setCoach h.setCoach.upd)))

/-! ### Machine/Streams.lean -/

theorem Keeps.fwdPortWrite {p v} (h : Keeps o s) : Keeps o (s.fwdPortWrite p v) := .ite h.setFld.setFld h.setFld

theorem Keeps.memCount {a} (h : Keeps o s) : Keeps o (s.memCount a) := h.setNum

theorem Keeps.meterStep {m size t c} (h : Keeps o s) : Keeps o (s.meterStep m size t c).2 := by
  unfold State.meterStep
  extract_lets _ _ _ _ _ _ _ s1
  have h1 : Keeps o s1 := h.upd
  exact .ite2 (.pair h.upd) (.ite2 (.ite2 (.pair h1.memCount.raise) h1) (.pair h.upd.memCount.raise))

/-- What the definition matches on goes under a name: the kernel would evaluate it, in unary arithmetic, to compare two matches. -/
theorem Keeps.gateStep {f g c} (h : Keeps o s) : Keeps o (s.gateStep f g c).2.2 := by
  obtain ⟨stampIn, hStamp⟩ : ∃ f, f = @State.stampIn := ⟨_, rfl⟩
  obtain ⟨gate, hGate⟩ : ∃ f, f = qciGate := ⟨_, rfl⟩
  have hDef : @State.gateStep = State.gateStep := rfl
  conv at hDef => rhs; delta State.gateStep
  have h1 {s n t} (h : Keeps o s) : Keeps o (stampIn s n t).2.2 := hStamp ▸ h.stampIn
  rw [hDef, ← hStamp, ← hGate]
  dsimp only
  exact .ite3 (h1 (h1 h)) (h1 (h1 h)).memCount.raise

theorem Keeps.qciFilter {f c} (h : Keeps o s) : Keeps o (s.qciFilter f c).2 := by
  unfold State.qciFilter
  extract_lets _ _ _ _ _ s1 s2
  have h1 : Keeps o s1 := h.memCount
  have h2 : Keeps o s2 := .ite h1.setNum h1
  exact .ite2 h2 (.ite2 (.pair (.ite3 h h.gateStep)) (.meterStep (.ite3 h h.gateStep)))

theorem Keeps.streamHit {i c} (h : Keeps o s) : Keeps o (s.streamHit i c).2 := by
  unfold State.streamHit
  extract_lets a act s1 c1 c2 c3 f
  have h1 : Keeps o s1 := h.memCount
  split
  rename_i c4 s2 e2
  have h2 : Keeps o s2 := .of_snd e2 (.ite2 h1 h1.qciFilter)
  extract_lets lofs
  split
  · exact h2
  · split
    rename_i s3 e3
    have h3 : Keeps o s3 := .of_snd_snd e3 h2.stampIn
    exact .ite2 h3 h3

theorem Keeps.askStream {k} (h : Keeps o s) : Keeps o (s.askStream k) := by
  unfold State.askStream
  split
  · exact h
  · exact .ite h (.ite h.setCoach.count.raise (.ite h.setCoach h.setCoach.upd))

theorem Keeps.askIngress {k} (h : Keeps o s) : Keeps o (s.askIngress k) := h.askEntry.askStream

theorem Keeps.serveEntry {q bad} (h : Keeps o s) : Keeps o (s.serveEntry q bad) := by
  unfold State.serveEntry
  split
  · exact h
  · extract_lets t g r
    refine .ite (.ite h.setCoach (.ite h.setCoach.raise h.entryWrite)) (.ite h.setCoach (.ite h.setCoach.raise ?_))
    split
    · exact h.setCoach
    · split
      rename_i e
      exact (Keeps.of_snd e h.streamHit).setCoach

theorem Keeps.recover {r sq t} (h : Keeps o s) : Keeps o (s.recover r sq t).2 := by
  unfold State.recover
  extract_lets
  split
  · exact .ite2 (.pair h.setRcvy.memCount) (.pair h.setRcvy.memCount)
  · exact .ite2 (.pair h.setRcvy.memCount) (.ite2 (.ite2 (.pair h.setRcvy) (.pair h.setRcvy.memCount))
      (.ite2 (.pair h.setRcvy.memCount.raise) (.ite2 (.pair h.setRcvy.memCount)
          (.ite2 (.pair h.setRcvy.memCount) (.pair h.setRcvy.memCount)))))

theorem Keeps.frer {c} (h : Keeps o s) : Keeps o (s.frer c).2.2 := by
  unfold State.frer
  refine .ite3 h (.ite3 h ?_)
  split
  · exact h.setNum
  · exact h.recover
  · exact h

theorem Keeps.latentCheck (h : Keeps o s) : Keeps o s.latentCheck := by
  unfold State.latentCheck
  extract_lets _ s1 _ s2
  have h1 : Keeps o s1 := h.advance
  have h2 : Keeps o s2 := h1.upd
  exact .ite h (.foldl (fun _ _ h => .ite h.setRcvy.raise h.setRcvy) h2)

/-! ### Machine/Slots.lean -/

theorem Keeps.serveOne {m ix q bad} (h : Keeps o s) : Keeps o (s.serveOne m ix q bad) := by
  unfold State.serveOne
  extract_lets s1
  have h1 : Keeps o s1 := h.serveEntry
  exact .ite h1.upd h.serve.upd

theorem Keeps.serveOwner {eng n m bad} (h : Keeps o s) : Keeps o (s.serveOwner eng n m bad) :=
  .upd (.foldl2 (fun _ _ h => .pair h.serveOne) h)

theorem Keeps.fdbSlot (h : Keeps o s) : Keeps o s.fdbSlot.2 := .ite2 (.pair h.fwdFinish) (.ite2 (.pair h.learnRun) h)

theorem Keeps.freeSlot {eng owner e} (h : Keeps o s) : Keeps o (s.freeSlot eng owner e) := by
  unfold State.freeSlot
  split
  · exact .ite h.clauseSlot h.clauseScrub
  · exact .ite (.ite h.ageStep h.fdbSlot) (.ite h.fdbSlot (.ite h h.ageStep))
  · exact .ite h.fwdFinish h

theorem Keeps.slotServe {eng e} (h : Keeps o s) : Keeps o (s.slotServe eng e) := by
  unfold State.slotServe
  split
  · exact h
  · extract_lets s1
    have h1 : Keeps o s1 := h.takeSlot
    exact .ite h1.serveOwner h1.freeSlot

theorem Keeps.slotsUntil {eng stop n} : ∀ {s}, Keeps o s → Keeps o (State.slotsUntil eng stop n s) := by
  induction n with
  | zero => exact fun h => h
  | succ n ih => exact fun h => .ite h (ih h.slotServe)

theorem Keeps.clauseDone (h : Keeps o s) : Keeps o s.clauseDone := by
  unfold State.clauseDone
  split
  · exact h
  · exact .ite h.clauseFinish h.slotsUntil.clauseFinish

theorem Keeps.fwdDone (h : Keeps o s) : Keeps o s.fwdDone := by
  unfold State.fwdDone
  split
  · exact h
  · exact .ite h.fwdFinish h.slotsUntil.fwdFinish

theorem Keeps.learnItem (h : Keeps o s) : Keeps o s.learnItem := by
  unfold State.learnItem
  split
  · exact h
  · extract_lets s1
    have h1 : Keeps o s1 := h.slotsUntil
    exact .ite h (.ite h1.learnRun h1)

theorem Keeps.entrySearch {k} (h : Keeps o s) : Keeps o (s.entrySearch k) := by
  unfold State.entrySearch
  extract_lets s1
  have h1 : Keeps o s1 := h.askEntry
  exact h1.slotsUntil

theorem Keeps.streamSearch {k} (h : Keeps o s) : Keeps o (s.streamSearch k) := by
  unfold State.streamSearch
  extract_lets s1
  have h1 : Keeps o s1 := h.askStream
  exact h1.slotsUntil

/-! ### Machine/Frame.lean -/

theorem Keeps.admits {p cls} (h : Keeps o s) : Keeps o (s.admits p cls).2 := .ite2 h (.ite2 h (.pair h.upd))

theorem Keeps.degradeMeters {t} (h : Keeps o s) : Keeps o (s.degradeMeters t) := .ite h h.upd

theorem Keeps.setMiss {isParse b} (h : Keeps o s) : Keeps o (s.setMiss isParse b) := .ite h.upd h.upd

theorem Keeps.missToken {isParse} (h : Keeps o s) : Keeps o (s.missToken isParse).2 := .pair h.setMiss

theorem Keeps.trapCounts (h : Keeps o s) : Keeps o s.trapCounts.2 := .ite2 (.pair h.upd) (.pair h.upd.raise)

theorem Keeps.ptpIngress {c b} (h : Keeps o s) : Keeps o (s.ptpIngress c b).2 := by
  unfold State.ptpIngress
  refine .ite2 h ?_
  split
  · exact h
  · exact h
  · exact .ite2 (.pair h.trapCounts) (.pair h.trapCounts)

theorem Keeps.parseError (h : Keeps o s) : Keeps o s.parseError := by
  unfold State.parseError
  extract_lets s1 _ _ _ _ _ _ _ s2
  have h1 : Keeps o s1 := h.count
  have h2 : Keeps o s2 := h1.upd
  exact .ite h2.raise h2

theorem Keeps.stampCoach {c} (h : Keeps o s) : Keeps o (s.stampCoach c).2 := .pair h.stampIn

theorem Keeps.lensAdmit {c len} (h : Keeps o s) : Keeps o (s.lensAdmit c len).2 := .ite2 h (.ite2 (.pair h.count.raise) (.pair h.upd))

theorem Keeps.buildCoach {p kind ts cell draw reserved body len} (h : Keeps o s) : Keeps o
    (s.buildCoach p kind ts cell draw reserved body len).2 := by
  unfold State.buildCoach
  extract_lets _ _ s1
  have h1 : Keeps o s1 := h.upd
  exact .pair (.ite (.askIngress (.setCoach (.lensAdmit (.ptpIngress (.ite h1.stampCoach.parseError h1.stampCoach)))))
      (.setCoach (.lensAdmit (.ptpIngress (.ite h1.stampCoach.parseError h1.stampCoach)))))

theorem Keeps.admitFrame {p kind ts body len} (h : Keeps o s) : Keeps o (s.admitFrame p kind ts body len).2 := by
  unfold State.admitFrame
  split
  rename_i s1 e
  have h1 : Keeps o s1 := .of_snd e h.upd
  extract_lets
  split
  · rename_i s2 e
    have h2 : Keeps o s2 := .of_snd e h1.admits
    exact .pair h2.count.countDrop
  · rename_i s2 e
    have h2 : Keeps o s2 := .of_snd e h1.admits
    extract_lets
    split
    · rename_i s3 e
      have h3 : Keeps o s3 := .of_snd e h2.takeCell
      exact .pair h3.countDrop
    · rename_i s3 e
      have h3 : Keeps o s3 := .of_snd e h2.takeCell
      exact .pair h3.buildCoach

theorem Keeps.setRxList {p l} (h : Keeps o s) : Keeps o (s.setRxList p l) := h.upd

theorem Keeps.frameReceive {p t len lane head} (h : Keeps o s) : Keeps o (s.frameReceive p t len lane head) := by
  unfold State.frameReceive
  extract_lets s1
  have h1 : Keeps o s1 := h.advance
  exact .ite h1 h1.admitFrame.setRxList

theorem Keeps.learnVerdict {q reason} (h : Keeps o s) : Keeps o (s.learnVerdict q reason) := h.upd

theorem Keeps.verdict {q reason} (h : Keeps o s) : Keeps o (s.verdict q reason) := by
  unfold State.verdict
  extract_lets s1
  have h1 : Keeps o s1 := h.learnVerdict
  split
  · exact h1
  · extract_lets
    split
    · exact .ite h1.setCoach h1.setCoach.upd.leaveDropped
    · exact .ite h1.setCoach h1.setCoach.dropCoach
    · exact .ite h1.setCoach.settleCopies h1.setCoach.failCopies

theorem Keeps.bodyCell {p q bytes} (h : Keeps o s) : Keeps o (s.bodyCell p q bytes).2 := by
  unfold State.bodyCell
  split
  · exact h
  · extract_lets
    refine .ite2 h ?_
    split
    · rename_i s1 e
      have h1 : Keeps o s1 := .of_snd e h.takeCell
      exact .pair h1.verdict
    · rename_i s1 e
      have h1 : Keeps o s1 := .of_snd e h.takeCell
      extract_lets s2
      have h2 : Keeps o s2 := h1.setBytes
      exact .pair h2.setCoach

theorem Keeps.bodyArrive {p bytes} (h : Keeps o s) : Keeps o (s.bodyArrive p bytes) := by
  unfold State.bodyArrive
  split
  · exact h
  · extract_lets s1
    have h1 : Keeps o s1 := h.setRxList
    split
    · exact h1.bodyCell
    · exact h1

theorem Keeps.verdictFinal {p t v} (h : Keeps o s) : Keeps o (s.verdictFinal p t v) := by
  unfold State.verdictFinal
  extract_lets s1
  have h1 : Keeps o s1 := h.advance
  split
  · exact h1
  · extract_lets s2
    have h2 : Keeps o s2 := h1.setRxList
    split
    · exact h2
    · exact .ite h2 h2.verdict

theorem Keeps.lensScan {q} (h : Keeps o s) : Keeps o (s.lensScan q) := by
  unfold State.lensScan
  split
  · exact h
  · exact .ite h h.upd.setCoach.askIngress

/-! ### Machine/Stations.lean -/

theorem Keeps.setStn {n x} (h : Keeps o s) : Keeps o (s.setStn n x) := h.upd

theorem Keeps.enterStation {n q t} (h : Keeps o s) : Keeps o (s.enterStation n q t) := by
  unfold State.enterStation
  extract_lets _ s1
  have h1 : Keeps o s1 := h.raise
  split
  · exact h
  · exact .ite h1.leaveDropped h.setStn.setCoach

theorem Keeps.enterS0 {q} (h : Keeps o s) : Keeps o (s.enterS0 q) := by
  unfold State.enterS0
  split
  · exact h
  · exact .ite h h.advance.setCoach.enterStation

theorem Keeps.tryMirror {q m} (h : Keeps o s) : Keeps o (s.tryMirror q m).2 := .ite2 h.rewAccept h.tryTarget

theorem Keeps.tryPorts {q cls} {l : List Nat} : ∀ {s yes no}, Keeps o s → Keeps o (s.tryPorts q cls l yes no).2.2 := by
  induction l with
  | nil => exact fun h => h
  | cons p t ih => exact fun h => .ite3 (ih h.tryTarget) (ih h.tryTarget)

theorem Keeps.settleTargets {q yes no m mirrorOk} (h : Keeps o s) : Keeps o (s.settleTargets q yes no m mirrorOk) := by
  unfold State.settleTargets
  extract_lets _ _ s1 _ _ s2
  have h1 : Keeps o s1 := h.modCoach
  have h2 : Keeps o s2 := .ite h1.raise h1
  split
  · exact h2
  · extract_lets s3
    have h3 : Keeps o s3 := .ite h2.countDrop h2
    exact .ite h2 h3.freeCoach

theorem Keeps.missCount {q} (h : Keeps o s) : Keeps o (s.missCount q) := by
  unfold State.missCount
  split
  · exact h.count
  · exact h

theorem Keeps.tryTargets {q c ports} (h : Keeps o s) : Keeps o (s.tryTargets q c ports) := by
  unfold State.tryTargets
  split
  rename_i s1 e
  have h1 : Keeps o s1 := .of_snd_snd e h.tryPorts
  split
  · exact h1.settleTargets
  · exact h1.tryMirror.settleTargets

theorem Keeps.missPath {q c} (h : Keeps o s) : Keeps o (s.missPath q c) := by
  unfold State.missPath
  extract_lets
  split
  · rename_i s1 e
    have h1 : Keeps o s1 := .of_snd e h.missToken
    exact h1.tryTargets.missCount
  · rename_i s1 e
    have h1 : Keeps o s1 := .of_snd e h.missToken
    extract_lets s2
    have h2 : Keeps o s2 := h1.count.raise
    exact h2.leaveDropped

theorem Keeps.enqueueStage {q c} (h : Keeps o s) : Keeps o (s.enqueueStage q c) := by
  unfold State.enqueueStage
  split
  rename_i s1 e
  have h1 : Keeps o s1 := .of_snd_snd e h.frer
  split
  · exact h1.leaveDropped
  · exact .ite h1.setCoach.missPath (.ite h1.setCoach.leaveDropped h1.setCoach.tryTargets)

theorem Keeps.lateCoach {n q c} (h : Keeps o s) : Keeps o (s.lateCoach n q c) := h.setCoach.count.raise

theorem Keeps.lateVerdict {n q} (h : Keeps o s) : Keeps o (s.lateVerdict n q) := by
  unfold State.lateVerdict
  split
  · exact .ite h (.ite h.dropCoach h.failCopies)
  · exact h

theorem Keeps.releaseCoach {n q c} (h : Keeps o s) : Keeps o (s.releaseCoach n q c) := by
  unfold State.releaseCoach
  extract_lets t s1 done late s2 s3
  have h2 : Keeps o s2 := .ite h.advance.lateCoach h.advance
  have h3 : Keeps o s3 := by
    unfold s3
    split
    · exact h2.returnServer
    · exact h2
  split
  · exact h3
  · exact .ite h3.leaveDropped (.ite h3.enterStation.lateVerdict h3.enqueueStage.lateVerdict)

theorem Keeps.couplerRelease {n} (h : Keeps o s) : Keeps o (s.couplerRelease n) := by
  unfold State.couplerRelease
  extract_lets
  split
  · exact h
  · extract_lets s1
    have h1 : Keeps o s1 := h.setStn
    split
    · exact h1
    · exact h1.releaseCoach

theorem Keeps.handOff {n q k t c} (h : Keeps o s) : Keeps o (s.handOff n q k t c) := by
  unfold State.handOff
  extract_lets _ s1 _ _ s2
  have h1 : Keeps o s1 := h.setCoach
  have h2 : Keeps o s2 := h1.setFld
  split
  · extract_lets s3
    have h3 : Keeps o s3 := h2.modThread.wake
    exact h3.modThread
  · exact h

theorem Keeps.dispatch {n} (h : Keeps o s) : Keeps o (s.dispatch n) := by
  unfold State.dispatch
  extract_lets _ s1
  have h1 : Keeps o s1 := h.setStn
  refine .ite h ?_
  split
  · exact h1.handOff.countIssue
  · exact h

theorem Keeps.dispatchStall {n} (h : Keeps o s) : Keeps o (s.dispatchStall n) := by
  unfold State.dispatchStall
  split
  · exact h
  · extract_lets s1
    have h1 : Keeps o s1 := h.advance
    exact .ite h h1.setCoach.raise

theorem Keeps.monWrite {n v} (h : Keeps o s) : Keeps o (s.monWrite n v) := by
  unfold State.monWrite
  extract_lets s1
  have h1 : Keeps o s1 := .ite h h.setFld
  exact .ite h1.setStn.setFld h1

/-! ### Machine/Raw.lean -/

theorem Keeps.setRaw {j u} (h : Keeps o s) : Keeps o (s.setRaw j u) := h.upd

theorem Keeps.rawShow {j st count} (h : Keeps o s) : Keeps o (s.rawShow j st count) := h.setFld.setFld

theorem Keeps.rawHunt {j u o1} (h : Keeps o s) : Keeps o (s.rawHunt j u o1) := h.setRaw.rawShow

theorem Keeps.rawCfgWrite {j v} (h : Keeps o s) : Keeps o (s.rawCfgWrite j v) := by
  unfold State.rawCfgWrite
  extract_lets _ s1 _ s2
  have h1 : Keeps o s1 := h.setFld
  have h2 : Keeps o s2 := by
    unfold s2
    split
    · exact .ite h1 h1.verdict
    · exact h1
  exact .ite (.ite h1 h1.setRaw.rawShow) (.ite h2.setRaw.rawShow.setCause h1)

theorem Keeps.rawStart (h : Keeps o s) : Keeps o s.rawStart := .foldl (fun _ _ h => .ite h.setRaw.rawShow h) h

theorem Keeps.rawMatch {j l} (h : Keeps o s) : Keeps o (s.rawMatch j l) := by
  unfold State.rawMatch
  refine .ite h ?_
  extract_lets
  split
  · exact h.setRaw.rawShow
  · exact h.setRaw

theorem Keeps.rawConfirm {j l} (h : Keeps o s) : Keeps o (s.rawConfirm j l) :=
  .ite h (.ite h.setRaw (.ite (.ite h.count.setCause.setRaw.rawShow h.setRaw.rawShow) h.rawHunt))

theorem Keeps.rawMiss {j u} (h : Keeps o s) : Keeps o (s.rawMiss j u) := .ite h.count.rawHunt.levelSource h.count.setRaw

theorem Keeps.rawFill {j q ofs total u n} : ∀ {s}, Keeps o s → Keeps o (s.rawFill j q ofs total u n) := by
  induction n with
  | zero => exact fun h => h
  | succ n ih =>
    intro s h
    unfold State.rawFill
    split
    · exact h
    · exact .ite h (.ite (ih h.bodyCell) h.bodyCell)

theorem Keeps.rawVerdict {j q t n ok} (h : Keeps o s) : Keeps o (s.rawVerdict j q t n ok) := by
  unfold State.rawVerdict
  extract_lets s1
  have h1 : Keeps o s1 := h.advance
  exact .ite h1 h1.verdict

theorem Keeps.rawProceed {j q u} (h : Keeps o s) : Keeps o (s.rawProceed j q u) := .ite h.rawFill.rawVerdict.setRaw h.rawFill.setRaw

theorem Keeps.rawDeliver {j t l} (h : Keeps o s) : Keeps o (s.rawDeliver j t l) := by
  unfold State.rawDeliver
  refine .ite h ?_
  extract_lets u ofs n s1
  split
  · exact h.rawProceed
  · refine .ite h.setRaw (.ite h.rawMiss (.ite h.setRaw ?_))
    have h1 : Keeps o s1 := h.advance
    split
    rename_i s2 e
    have h2 : Keeps o s2 := .of_snd e (.ite2 h1.admitFrame h1)
    split
    · exact h2.modCoach.rawProceed
    · exact .ite h2.setRaw h2.setRaw

/-! ### Machine/Yard.lean -/

theorem Keeps.showBanks (h : Keeps o s) : Keeps o s.showBanks := .ite h.setFld.setBit.raise h.setFld.setBit

theorem Keeps.bankMoveStart {b} (h : Keeps o s) : Keeps o (s.bankMoveStart b).2 := by
  unfold State.bankMoveStart
  split
  · extract_lets s1 _ s2
    have h1 : Keeps o s1 := h.unitState.unitState
    have h2 : Keeps o s2 := h1.upd
    exact .pair h2.showBanks
  · exact h

theorem Keeps.bankSpare {b} (h : Keeps o s) : Keeps o (s.bankSpare b) := .ite h.bankMoveStart (.ite h h.upd)

theorem Keeps.bankNextMove (h : Keeps o s) : Keeps o s.bankNextMove := by
  unfold State.bankNextMove
  split
  · exact h
  · exact h.upd.bankMoveStart

theorem Keeps.bankCopied (h : Keeps o s) : Keeps o s.bankCopied := .ite h.upd h

theorem Keeps.bankSwitch (h : Keeps o s) : Keeps o s.bankSwitch := by
  unfold State.bankSwitch
  split
  · exact h
  · exact .ite h h.upd.unitState.retirePart.count.raiseU.migrationNotice.showBanks.bankNextMove

theorem Keeps.withdrawBuf {k i} (h : Keeps o s) : Keeps o (s.withdrawBuf k i) :=
  .ite h (.ite (.ite h.setPool1.count.setFld.setFld h.setPool1.count.setFld) h.setPool1.count)

theorem Keeps.withdrawBank {b} (h : Keeps o s) : Keeps o (s.withdrawBank b) := by
  unfold State.withdrawBank
  extract_lets s1
  have h1 : Keeps o s1 := .foldl (fun _ _ h => .foldl (fun _ _ h' => h'.withdrawBuf) h) h
  exact h1.count.levelSource

theorem Keeps.yardCorr {w} (h : Keeps o s) : Keeps o (s.yardCorr w) := .ite h.count.setFld.raise.upd.bankSpare h.count.setFld.raise.upd

theorem Keeps.markCells {i} (h : Keeps o s) : Keeps o (s.markCells i) := .foldl (fun _ _ h => h.setCoach) h

theorem Keeps.yardUncorr {w} (h : Keeps o s) : Keeps o (s.yardUncorr w) := by
  unfold State.yardUncorr
  extract_lets s1 _ s2 s3
  have h1 : Keeps o s1 := h.noteYard
  have h2 : Keeps o s2 := h1.upd
  have h3 : Keeps o s3 := h1.upd
  split
  split
  · exact h2.setBytes
  · exact .ite h3.markCells h3

theorem Keeps.yardScrub {e} (h : Keeps o s) : Keeps o (s.yardScrub e) := by
  unfold State.yardScrub
  extract_lets w start last errs _ s1 s2
  have h2 : Keeps o s2 := by
    cases e with
    | soft => exact h.upd.yardCorr
    | shadowCorr => exact h.upd.yardCorr
    | uncorr => exact h.upd.yardUncorr
    | shadowUncorr => exact h.upd.yardUncorr
    | clean => exact h.upd
  exact .ite h2.setFld h2

theorem Keeps.poolGetRead {r k} (h : Keeps o s) : Keeps o (s.poolGetRead r k) := by
  unfold State.poolGetRead
  split
  · exact h.answerRead
  · split
    · rename_i s1 e
      have h1 : Keeps o s1 := .of_snd e h.poolGet
      exact h1.answerRead
    · rename_i s1 e
      have h1 : Keeps o s1 := .of_snd e h.poolGet
      exact h1.answerRead

theorem Keeps.poolPutWrite {r v} (h : Keeps o s) : Keeps o (s.poolPutWrite r v) := by
  unfold State.poolPutWrite
  split
  · exact h
  · exact h.poolPut

theorem Keeps.poolGiveWrite {r c v} (h : Keeps o s) : Keeps o (s.poolGiveWrite r c v) := by
  unfold State.poolGiveWrite
  split
  · exact h
  · exact h.poolGive

theorem Keeps.poolMinWrite {k v} (h : Keeps o s) : Keeps o (s.poolMinWrite k v) := .ite h.setFld h

theorem Keeps.auditSel {v} (h : Keeps o s) : Keeps o (s.auditSel v) := by
  unfold State.auditSel
  extract_lets _ _ s1
  have h1 : Keeps o s1 := h.setFld
  exact .foldl (fun _ _ h => h.setReg) h1.setReg.setReg

theorem Keeps.leak {owner k i age} (h : Keeps o s) : Keeps o (s.leak owner k i age) := h.raise.notice

theorem Keeps.leakPass {l : List (Nat × Nat × Held × Nat)} : ∀ {s seen}, Keeps o s → Keeps o (s.leakPass l seen) := by
  induction l with
  | nil => exact fun h => h
  | cons x rest ih => exact fun h => .ite (ih h.leak) (ih h)

theorem Keeps.auditPassEnd {t} (h : Keeps o s) : Keeps o (s.auditPassEnd t) := by
  unfold State.auditPassEnd
  extract_lets s1 _ s2 s3 s4
  have h1 : Keeps o s1 := h.advance
  have h2 : Keeps o s2 := h1.leakPass
  have h3 : Keeps o s3 := .foldl (fun _ _ h => .ite h h.setAudit) h2
  have h4 : Keeps o s4 := h3.setFld
  exact h4.upd

/-! ### Machine/Locks.lean -/

theorem Keeps.setLocks {l} (h : Keeps o s) : Keeps o (s.setLocks l) := h.upd.setFld

theorem Keeps.lockFull (h : Keeps o s) : Keeps o s.lockFull.2 := .pair h.count

theorem Keeps.lockRead {o1 a} (h : Keeps o s) : Keeps o (s.lockRead o1 a).2 :=
  .ite2 h.raiseEcc.lockFull (.ite2 h (.ite2 h.lockFull (.pair h.writeNum.setLocks)))

theorem Keeps.unlock {e} (h : Keeps o s) : Keeps o (s.unlock e) := .setLocks (.ite h.writeNum h)

theorem Keeps.lockStore {o1 a v} (h : Keeps o s) : Keeps o (s.lockStore o1 a v) := by
  unfold State.lockStore
  split
  · exact h.count
  · exact .ite h.count (.ite h.unlock (.ite h.writeNum.setLocks h.count))

theorem Keeps.lockLast {e aged} (h : Keeps o s) : Keeps o (s.lockLast e aged) := by
  unfold State.lockLast
  extract_lets s1
  have h1 : Keeps o s1 := h.setReg
  exact h1.setReg

theorem Keeps.expire {e} (h : Keeps o s) : Keeps o (s.expire e) := by
  unfold State.expire
  extract_lets s1
  have h1 : Keeps o s1 := h.unlock.count.lockLast
  exact h1.raise

theorem Keeps.leaseTick (h : Keeps o s) : Keeps o s.leaseTick := by
  unfold State.leaseTick
  extract_lets s1 s2
  have h1 : Keeps o s1 := h.advance
  have h2 : Keeps o s2 := h1.setLocks
  exact .foldl (fun _ _ h => h.expire) h2

theorem Keeps.stuckCheck (h : Keeps o s) : Keeps o s.stuckCheck := by
  unfold State.stuckCheck
  extract_lets s1
  have h1 : Keeps o s1 := h.advance
  exact .ite h1 (.foldl (fun _ _ h => h.setLocks.lockLast.raise) h1)

theorem Keeps.breakLock {a} (h : Keeps o s) : Keeps o (s.breakLock a).2 := by
  unfold State.breakLock
  refine .ite2 h ?_
  split
  · exact .pair h.unlock
  · exact h

theorem Keeps.lockBreakWrite {v} (h : Keeps o s) : Keeps o (s.lockBreakWrite v) := by
  unfold State.lockBreakWrite
  split
  · exact h
  · split
    rename_i e
    exact (Keeps.of_snd e h.breakLock).setFld

theorem Keeps.lockAcquire {r a} (h : Keeps o s) : Keeps o (s.lockAcquire r a) := by
  unfold State.lockAcquire
  split
  · exact h.upd
  · exact .ite h.upd h.lockRead.answerRead

theorem Keeps.lockAliasStore {r a v} (h : Keeps o s) : Keeps o (s.lockAliasStore r a v) := by
  unfold State.lockAliasStore
  split
  · exact h.upd
  · exact .ite h.upd h.lockStore.answerWrite

/-! ### Machine/Smc.lean -/

theorem Keeps.poison {a} (h : Keeps o s) : Keeps o (s.poison a) := .foldl (fun _ _ h => h.upd) h

theorem Keeps.dramError {ch p e} (h : Keeps o s) : Keeps o (s.dramError ch p e) := by
  unfold State.dramError
  split
  · exact h
  · exact h.dramCorr
  · exact h.dramCorr
  · exact h.poison.dramUncorr
  · exact h.poison.dramUncorr

theorem Keeps.dramScrub {ch e} (h : Keeps o s) : Keeps o (s.dramScrub ch e) := by
  unfold State.dramScrub
  extract_lets _ _ s1 _ _ s2 s3
  have h1 : Keeps o s1 := h.dramError
  have h2 : Keeps o s2 := h1.upd
  have h3 : Keeps o s3 := h2.setFld
  exact .ite h (.ite h3.upd h2)

theorem Keeps.serveClass {ch k e} (h : Keeps o s) : Keeps o (s.serveClass ch k e) := by
  unfold State.serveClass
  extract_lets _ _ _ _ _ s1
  have h1 : Keeps o s1 := h.upd
  split
  · exact h1
  · extract_lets _ _ _ s2 s3
    have h2 : Keeps o s2 := h1.upd
    have h3 : Keeps o s3 := h2.setSmcQueue
    exact .ite h3.upd.dramError h2

theorem Keeps.dramSlotServe {ch e} (h : Keeps o s) : Keeps o (s.dramSlotServe ch e) := by
  unfold State.dramSlotServe
  extract_lets
  split
  · exact h
  · extract_lets s1 _ s2
    have h1 : Keeps o s1 := h.advance
    have h2 : Keeps o s2 := h1.upd
    refine .ite h ?_
    split
    · exact h2.serveClass
    · exact h2.dramScrub

theorem Keeps.refreshed {ch} (h : Keeps o s) : Keeps o (s.refreshed ch) := h.upd

theorem Keeps.refreshIssue {ch issued} (h : Keeps o s) : Keeps o (s.refreshIssue ch issued) := by
  unfold State.refreshIssue
  split
  · exact h
  · extract_lets s1
    have h1 : Keeps o s1 := h.advance
    exact .ite h (.ite h1.refreshed h1.raiseU)

theorem Keeps.mr4Read {rates} (h : Keeps o s) : Keeps o (s.mr4Read rates) := by
  unfold State.mr4Read
  extract_lets s1 _ s2 _ s3
  have h1 : Keeps o s1 := h.advance
  have h2 : Keeps o s2 := h1.setReg
  have h3 : Keeps o s3 := h2.setCause
  exact .foldl (fun _ _ h => .ite h.raiseU h) h3

/-- What the definition matches on goes under a name: the kernel would evaluate it, in unary arithmetic, to compare two matches. -/
theorem Keeps.extraRefresh {ch} (h : Keeps o s) : Keeps o (s.extraRefresh ch) := by
  unfold State.extraRefresh
  refine .ite h ?_
  obtain ⟨run, hRun⟩ : ∃ run, run = s.nextRun ch (s.now + 1) := ⟨_, rfl⟩
  obtain ⟨slots, hSlots⟩ : ∃ slots, slots = s.extraSlots ch := ⟨_, rfl⟩
  rw [← hRun, ← hSlots]
  split
  · exact h
  · extract_lets
    split
    · exact h
    · exact h.advance.refreshed.upd

theorem Keeps.setChState {ch st} (h : Keeps o s) : Keeps o (s.setChState ch st) := .ite h h.setFld.bumpGen

theorem Keeps.srEntry {ch} (h : Keeps o s) : Keeps o (s.srEntry ch) := by
  unfold State.srEntry
  extract_lets
  refine .ite h ?_
  split
  · exact h
  · exact .ite h h.advance.setFld.setChState

theorem Keeps.srExit {ch} (h : Keeps o s) : Keeps o (s.srExit ch) := .ite h.setFld.setChState.refreshed.upd h

theorem Keeps.loadSet {i f} (h : Keeps o s) : Keeps o (s.loadSet i f) :=
  .foldl (fun _ _ h => h.upd.setReg) h.upd.upd.setReg.setReg.setReg.setReg.setReg

theorem Keeps.freqWrite {v} (h : Keeps o s) : Keeps o (s.freqWrite v) := .ite h.setFld (.ite h.setFld.setFld h.setFld.loadSet.setBit.upd)

theorem Keeps.freqBegin {t} (h : Keeps o s) : Keeps o (s.freqBegin t) := .ite (.foldl (fun _ _ h => .ite h.setChState h) h) h

theorem Keeps.dphyLock {t} (h : Keeps o s) : Keeps o (s.dphyLock t) := by
  unfold State.dphyLock
  extract_lets s1
  have h1 : Keeps o s1 := h.advance.setBit
  split
  · exact .ite h1.upd h
  · exact h

theorem Keeps.freqEnd {status} (h : Keeps o s) : Keeps o (s.freqEnd status) := by
  unfold State.freqEnd
  extract_lets s1 s2
  have h1 : Keeps o s1 := .foldl (fun _ _ h => .ite h.setChState.refreshed h) h
  have h2 : Keeps o s2 := h1.setBit.setFld
  exact h2.upd

theorem Keeps.freqComplete (h : Keeps o s) : Keeps o s.freqComplete := by
  unfold State.freqComplete
  split
  · extract_lets s1 s2
    have h1 : Keeps o s1 := h.advance
    have h2 : Keeps o s2 := h1.setFld.setFld
    exact .ite h2.freqEnd h
  · exact h

theorem Keeps.freqFail (h : Keeps o s) : Keeps o s.freqFail := by
  unfold State.freqFail
  split
  · extract_lets s1
    have h1 : Keeps o s1 := h.advance.count.raise
    exact .ite h h1.upd.advance.freqEnd
  · exact h

theorem Keeps.retireWrite {v} (h : Keeps o s) : Keeps o (s.retireWrite v) := by
  unfold State.retireWrite
  extract_lets _ s1 s2
  have h1 : Keeps o s1 := h.setFld.setFld
  have h2 : Keeps o s2 := h1.cutGo
  exact .ite h1 (.ite h2.setFld h2.retireChannel.setFld)

theorem Keeps.retireCopied (h : Keeps o s) : Keeps o s.retireCopied := .ite h.upd h

theorem Keeps.channelSwitch (h : Keeps o s) : Keeps o s.channelSwitch := by
  unfold State.channelSwitch
  split
  · exact h
  · extract_lets _ s1 _ s2 _ s3 s4
    have h1 : Keeps o s1 := h.upd
    have h2 : Keeps o s2 := h1.setBit.setFld.setBit.setFld
    have h3 : Keeps o s3 := .foldl (fun _ _ h => h.dramReq) h2.setSmcQueue
    have h4 : Keeps o s4 := h3.setFld.retirePart.raiseU
    exact .ite h (.ite h4 h4.setCause.raise)

/-! ### Machine/Tasks.lean -/

theorem Keeps.setSlot {t st} (h : Keeps o s) : Keeps o (s.setSlot t st) :=
  .setFld (.ite (.setFld (.ite h.setFld (.ite h.setFld h))) (.ite (.setFld (.ite h.setFld (.ite h.setFld h)))
      (.ite h.setFld (.ite h.setFld h))))

theorem Keeps.setReady {p l} (h : Keeps o s) : Keeps o (s.setReady p l) := h.upd

theorem Keeps.toReady {t head} (h : Keeps o s) : Keeps o (s.toReady t head) := h.setReady.setSlot

theorem Keeps.taskRefuse (h : Keeps o s) : Keeps o s.taskRefuse := h.count

theorem Keeps.taskAlloc (h : Keeps o s) : Keeps o s.taskAlloc := by
  unfold State.taskAlloc
  split
  · exact h.setSlot.answerRead
  · exact h.taskRefuse.raise.answerRead

theorem Keeps.taskPost {t} (h : Keeps o s) : Keeps o (s.taskPost t) := by
  unfold State.taskPost
  split
  · exact h.taskRefuse
  · exact h.toReady
  · exact h.count
  · exact h.setBit

theorem Keeps.taskTake {r} (h : Keeps o s) : Keeps o (s.taskTake r) := by
  unfold State.taskTake
  split
  · exact h.answerRead
  · refine .ite h.taskRefuse.answerRead ?_
    split
    · exact h.answerRead
    · exact h.setReady.setSlot.setFld.setSys.answerRead

theorem Keeps.taskReturn {r t head} (h : Keeps o s) : Keeps o (s.taskReturn r t head) := by
  unfold State.taskReturn
  split
  · exact h
  · exact .ite h.setBit.toReady h.taskRefuse

theorem Keeps.taskDone {r t} (h : Keeps o s) : Keeps o (s.taskDone r t) := by
  unfold State.taskDone
  split
  · exact h
  · exact .ite h.taskRefuse (.ite h.setBit.toReady h.setSlot)

theorem Keeps.taskFree {t} (h : Keeps o s) : Keeps o (s.taskFree t) := .ite h.setSlot h.taskRefuse

theorem Keeps.slotCfgWrite {t v} (h : Keeps o s) : Keeps o (s.slotCfgWrite t v) := .ite h.setReg h

theorem Keeps.markSeen {a} (h : Keeps o s) : Keeps o (s.markSeen a) := by
  unfold State.markSeen
  extract_lets v
  clear_value v
  split
  · exact h.upd
  · exact h

theorem Keeps.wfiDone {c} (h : Keeps o s) : Keeps o (s.wfiDone c) := h.modCtlc

theorem Keeps.interrupt {c} (h : Keeps o s) : Keeps o (s.interrupt c) := by
  unfold State.interrupt
  extract_lets s1
  have h1 : Keeps o s1 := .ite h.wfiDone h
  split
  · exact .ite h1.trapCtl h
  · exact h

theorem Keeps.wfi {c} (h : Keeps o s) : Eff.Keeps o (s.wfi c) := .ite h h

theorem Keeps.wfiWake {c} (h : Keeps o s) : Keeps o (s.wfiWake c) := .ite h.wfiDone h

theorem Keeps.wdogWrite {c v} (h : Keeps o s) : Keeps o (s.wdogWrite c v) := .ite h.setFld.modCtlc h.setFld

theorem Keeps.wdogHalf {c} (h : Keeps o s) : Keeps o (s.wdogHalf c) := .ite h.advance.modCtlc h

theorem Keeps.wdogExpire {c} (h : Keeps o s) : Keeps o (s.wdogExpire c) := .ite h.advance.modCtlc.raise h

theorem Keeps.iotlbWrite {v} (h : Keeps o s) : Keeps o (s.iotlbWrite v) := .ite h.setFld.setFld h.setFld.setFld.setBit.upd

theorem Keeps.iotlbDone (h : Keeps o s) : Keeps o s.iotlbDone := by
  unfold State.iotlbDone
  split
  · exact h.upd.setBit
  · exact h

/-! ### Machine/Units.lean -/

theorem Keeps.absentReqs {p} (h : Keeps o s) : Keeps o (s.absentReqs p) := by
  unfold State.absentReqs
  extract_lets s1
  have h1 : Keeps o s1 := .foldl (fun _ _ h => h.serveEntry) h
  exact h1.upd

theorem Keeps.updEnd (h : Keeps o s) : Keeps o s.updEnd := .ite (.fwdDone (.ite h.clauseDone h)) (.ite h.clauseDone h)

theorem Keeps.cryAbsent {n} (h : Keeps o s) : Keeps o (s.cryAbsent n) := by
  unfold State.cryAbsent
  extract_lets s1
  have h1 : Keeps o s1 := h.cryFence
  exact .foldl (fun _ _ h => h.modThread) h1

theorem Keeps.fenceEffect {u} (h : Keeps o s) : Keeps o (s.fenceEffect u) := by
  unfold State.fenceEffect
  extract_lets _ s1
  have h1 : Keeps o s1 := by
    unfold s1
    refine .ite ?_ h.fwdCut.updEnd
    split
    · exact h.clauseCut.updEnd
    · exact h
  split
  · exact h.clauseCut.updEnd.absentReqs
  · exact h1.absentReqs
  · exact h.cryAbsent
  · split
    · exact h.linkDown
    · exact h
  · exact h.linkDown
  · exact h.forceOut
  · exact h

theorem Keeps.fenceUnit {u by_} (h : Keeps o s) : Keeps o (s.fenceUnit u by_) := .ite h h.fence.fenceEffect

theorem Keeps.txDrop {x} (h : Keeps o s) : Keeps o (s.txDrop x) := by
  unfold State.txDrop
  refine .ite h ?_
  split
  · exact h.verdict
  · exact h.freeCells.countDrop
  · exact h

theorem Keeps.resetEffect {u} (h : Keeps o s) : Keeps o (s.resetEffect u) := by
  unfold State.resetEffect
  extract_lets _ s1 _ s2 _ s3 _ _ _ _ _ _ s4 _ s5 s6
  have h1 : Keeps o s1 := .foldl (fun _ _ h => h.setReg) h
  have h2 : Keeps o s2 := h1.portLoss
  have h3 : Keeps o s3 := h1.setFld
  have h4 : Keeps o s4 := h1.txDrop
  have h5 : Keeps o s5 := h4.upd
  have h6 : Keeps o s6 := h5.setFld.setFld
  split
  · exact .ite h1.upd.showLearn h1
  · exact h1.setCry
  · exact h1.setBit
  · exact h2.upd
  · exact .ite h3.setTrig h1.setPpso
  · split
    · extract_lets s7
      have h7 : Keeps o s7 := h6.setFld.writeNum
      exact h7.latch.raiseU
    · exact h6
  · exact h1

theorem Keeps.resetBegin {u} (h : Keeps o s) : Keeps o (s.resetBegin u) := by
  unfold State.resetBegin
  extract_lets s1
  have h1 : Keeps o s1 := h.fenceUnit.resetEffect.unitState
  exact h1.upd

theorem Keeps.unfence {u} (h : Keeps o s) : Keeps o (s.unfence u) := by
  unfold State.unfence
  extract_lets s1
  have h1 : Keeps o s1 := h.liftFence
  exact .ite h.unitState (.ite h1.driveOut h1)

/-! ### Machine/Faults.lean -/

theorem Keeps.showPending (h : Keeps o s) : Keeps o s.showPending := h.setFld

theorem Keeps.setPend {x b} (h : Keeps o s) : Keeps o (s.setPend x b) := by
  unfold State.setPend
  extract_lets s1
  have h1 : Keeps o s1 := .ite h.latch h.setBit
  exact h1.setBit.showPending

theorem Keeps.clearPend {x} (h : Keeps o s) : Keeps o (s.clearPend x).2 := by
  unfold State.clearPend
  extract_lets s1
  have h1 : Keeps o s1 := .ite h.journalRecover (.ite (.foldl (fun _ _ h => h.setBit) h) h)
  exact .ite2 h (.ite2 h (.pair h1.setPend))

theorem Keeps.pendWrite {w v} (h : Keeps o s) : Keeps o (s.pendWrite w v) := .foldl (fun _ _ h => h.clearPend) h

theorem Keeps.rearm (h : Keeps o s) : Keeps o s.rearm := h.setFld

theorem Keeps.fltCtlWrite {v} (h : Keeps o s) : Keeps o (s.fltCtlWrite v) := by
  unfold State.fltCtlWrite
  extract_lets s1
  have h1 : Keeps o s1 := h.setFld
  exact .ite h1.rearm h1

theorem Keeps.contain {r} (h : Keeps o s) : Keeps o (s.contain r) :=
  .ite (.foldl (fun _ _ h => h.fenceUnit) h) (.ite h.fenceUnit (.ite (.ite h.containCore h)
      (.ite h.fenceUnit (.ite h.fenceUnit (.ite h.fenceUnit (.ite h.fenceUnit
          (.ite h.fenceUnit (.ite h.fenceUnit (.ite h.fenceUnit (.ite h.fenceUnit h))))))))))

theorem Keeps.react {r cls} (h : Keeps o s) : Keeps o (s.react r cls) := by
  unfold State.react
  extract_lets s1 s2 s3
  have h1 : Keeps o s1 := .ite h.forceSafe.setBit h
  have h2 : Keeps o s2 := .ite h1.contain h1
  have h3 : Keeps o s3 := .ite h2.forceSafe.rewTrigger h2
  exact .ite h3 h3.upd

theorem Keeps.fillFirst {r cls} (h : Keeps o s) : Keeps o (s.fillFirst r cls) := by
  unfold State.fillFirst
  extract_lets s1 s2 s3 s4
  have h1 : Keeps o s1 := h.setReg
  have h2 : Keeps o s2 := h1.setReg
  have h3 : Keeps o s3 := h2.setReg
  have h4 : Keeps o s4 := h3.setReg
  exact .foldl (fun _ _ h => h.setReg) h4

theorem Keeps.fileRaise {r cls first} (h : Keeps o s) : Keeps o (s.fileRaise r cls first) := by
  unfold State.fileRaise
  extract_lets _ _ _ _ _ s1 s2 _ s3
  have h1 : Keeps o s1 := by
    unfold s1
    exact .ite h.nextRecno.upd.queueRecord (.ite h.upd h)
  have h2 : Keeps o s2 := h1.setCell
  have h3 : Keeps o s3 := .ite h2.upd h1
  exact .ite h3.notice h3

theorem Keeps.latchOne {r first} (h : Keeps o s) : Keeps o (s.latchOne r first) :=
  .ite (.lastGasp (.fileRaise (.react (.ite h.setPend.count.fillFirst h.setPend.count))))
      (.fileRaise (.react (.ite h.setPend.count.fillFirst h.setPend.count)))

theorem Keeps.latchAll {l : List Raise} : ∀ {s x}, Keeps o s → Keeps o (s.latchAll l x) := by
  induction l with
  | nil => exact fun h => h
  | cons r t ih =>
    intro s x h
    cases x with
    | none => exact ih h.latchOne
    | some x => exact .ite (ih h.latchOne) (ih h.latchOne)

theorem Keeps.coachFails {q} (h : Keeps o s) : Keeps o (s.coachFails q) := by
  unfold State.coachFails
  extract_lets s1
  have h1 : Keeps o s1 := h.modCoach
  split
  · exact .ite h1.failCopies h1
  · exact h1

theorem Keeps.faultLatch {n others} (h : Keeps o s) : Keeps o (s.faultLatch n others) := by
  unfold State.faultLatch
  extract_lets s1 s2 _ _ s3 _ _ _ s4
  have h1 : Keeps o s1 := h.advance
  have h2 : Keeps o s2 := by
    unfold s2
    refine .foldl (fun s5 _ h5 => ?_) h1
    split
    · exact .ite h5.coachFails h5
    · exact h5
  have h3 : Keeps o s3 := h2.upd
  have h4 : Keeps o s4 := h3.latchAll
  exact .ite h (.ite h4.setBit h4)

theorem Keeps.collectorParity {t place w} (h : Keeps o s) : Keeps o (s.collectorParity t place w) := by
  unfold State.collectorParity
  extract_lets s1 s2 s3
  have h1 : Keeps o s1 := h.advance
  have h2 : Keeps o s2 := h1.latch.specialRecord
  have h3 : Keeps o s3 := h2.setReg
  refine .ite h1 ?_
  split
  · exact .showPending (.foldl (fun _ _ h => h.setBit.setBit) h2)
  · exact .foldl (fun _ _ h => h.setReg) h3
  · exact h2.setReg.setBit

theorem Keeps.endDown (h : Keeps o s) : Keeps o s.endDown := by
  unfold State.endDown
  split
  · exact h.upd.count.count
  · exact h

theorem Keeps.availHour (h : Keeps o s) : Keeps o s.availHour := h.advance.availRecord

/-! ### Machine/Cores.lean -/

theorem Keeps.loadCode {c half x} (h : Keeps o s) : Keeps o (s.loadCode c half x) := h.setBytes

theorem Keeps.prepCore {c} (h : Keeps o s) : Keeps o (s.prepCore c) := by
  unfold State.prepCore
  extract_lets n x hf s1 s2 s3 s4 s5
  have h1 : Keeps o s1 := h.loadCode.setBytes
  have h2 : Keeps o s2 := by
    unfold s2
    split
    · exact h1.loadCode
    · exact h1
  have h3 : Keeps o s3 := .foldl (fun _ _ h => h.discardPending.modThread) h2
  have h4 : Keeps o s4 := .foldl (fun _ _ h => h.setLink) h3
  have h5 : Keeps o s5 := .foldl (fun _ _ h => h.setResult) h4
  exact h5.setCh14.setDeferred

theorem Keeps.migPrepared {n ok} (h : Keeps o s) : Keeps o (s.migPrepared n ok) := by
  unfold State.migPrepared
  split
  · exact h
  · extract_lets s1 s2 s3
    have h1 : Keeps o s1 := h.setRole.unitState.setMig
    have h2 : Keeps o s2 := h1.raiseU.migrationNotice
    have h3 : Keeps o s3 := .ite h2.unitState h2.degradeStn
    exact .ite h (.ite h.prepCore.setMig h3.raise.showCores)

theorem Keeps.migSwitch {n t} (h : Keeps o s) : Keeps o (s.migSwitch n t) := by
  unfold State.migSwitch
  split
  · exact h
  · extract_lets _ s1 s2
    have h1 : Keeps o s1 := h.setCore.unitState
    have h2 : Keeps o s2 := .ite h1.setRole h1
    exact .ite h h2.setMig.degradeStn.showCores

theorem Keeps.migDone {n} (h : Keeps o s) : Keeps o (s.migDone n) := by
  unfold State.migDone
  split
  · exact h
  · split
    · exact h
    · extract_lets s1 _ s2 s3
      have h1 : Keeps o s1 := h.advance.setMig
      have h2 : Keeps o s2 := .ite h1 (.ite h1.setRole.retirePart h1.setRole.unitState)
      have h3 : Keeps o s3 := h2.raiseU.migrationNotice
      exact h3.showCores

theorem Keeps.migStart {n incoming outgoing slot retire} (h : Keeps o s) : Keeps o (s.migStart n incoming outgoing slot retire) := by
  unfold State.migStart
  extract_lets s1 s2
  have h1 : Keeps o s1 := h.setRole.unitState
  have h2 : Keeps o s2 := h1.unitState
  exact h2.setMig.showCores

theorem Keeps.rotate {n} (h : Keeps o s) : Keeps o (s.rotate n) := by
  unfold State.rotate
  refine .ite h ?_
  extract_lets
  split
  · exact .ite h.advance.setStn h.advance.setStn.migStart
  · exact h.advance.setStn

theorem Keeps.ageUnit {u src a v p} (h : Keeps o s) : Keeps o (s.ageUnit u src a v p).2 := by
  unfold State.ageUnit
  extract_lets _ s1 s2 _ _ s3
  have h1 : Keeps o s1 := h.upd
  have h2 : Keeps o s2 := h1.setFld
  have h3 : Keeps o s3 := .ite h2.raiseU h2
  exact h3

theorem Keeps.rotationTested {n pass age} (h : Keeps o s) : Keeps o (s.rotationTested n pass age) := by
  unfold State.rotationTested
  split
  · exact h
  · exact .ite h.ageUnit.setCore.setRole.unitState.showCores h.ageUnit.setCore.stnRaise.containCore

theorem Keeps.ageSram {cls margins} (h : Keeps o s) : Keeps o (s.ageSram cls margins) := by
  unfold State.ageSram
  refine .foldl (fun s1 _ h1 => ?_) h
  extract_lets
  split
  rename_i s2 e
  have h2 : Keeps o s2 := .of_snd e h1.ageUnit
  refine .ite h2 ?_
  refine .ite ?_ ?_
  · split
    · exact h2.bankSpare
    · exact h2
  · split
    · exact h2.blockSpare
    · exact h2

theorem Keeps.laneReplace {l} (h : Keeps o s) : Keeps o (s.laneReplace l).2 := by
  unfold State.laneReplace
  split
  · exact .pair h.upd
  · exact h
  · exact .pair h.raise

theorem Keeps.laneSwap {l x} (h : Keeps o s) : Keeps o (s.laneSwap l x) := by
  unfold State.laneSwap
  extract_lets s1 s2 _ s3 s4
  have h1 : Keeps o s1 := by
    unfold s1
    split
    · exact h.linkDown
    · exact h
  have h2 : Keeps o s2 := h1.setFld
  have h3 : Keeps o s3 := h2.upd
  have h4 : Keeps o s4 := h3.retirePart.unitState
  exact h4.migrationNotice

theorem Keeps.swapWritten {ok} (h : Keeps o s) : Keeps o (s.swapWritten ok) := by
  unfold State.swapWritten
  extract_lets _ s1
  have h1 : Keeps o s1 := h.upd
  split
  · exact h
  · exact .ite h1.laneSwap h1.raise

theorem Keeps.lossCheck {l} (h : Keeps o s) : Keeps o (s.lossCheck l) := .ite h.laneReplace h

theorem Keeps.laneAging {margins} (h : Keeps o s) : Keeps o (s.laneAging margins) := by
  unfold State.laneAging
  extract_lets s1
  have h1 : Keeps o s1 := h.advance
  exact .foldl (fun _ _ h => .ite h.setFld.ageUnit.laneReplace h.setFld.ageUnit) h1

theorem Keeps.spareRetire {u} (h : Keeps o s) : Keeps o (s.spareRetire u).2 := by
  unfold State.spareRetire
  extract_lets _ _ _ s1 s2
  have h1 : Keeps o s1 := h.upd
  have h2 : Keeps o s2 := h.cutGo
  refine .ite2 h ?_
  split
  · refine .ite2 h ?_
    split
    · exact .pair h.migStart
    · exact h
    · exact .pair h.setRole.retirePart.showCores
  · refine .ite2 h ?_
    split
    · exact .pair h.blockMoveStart
    · exact .pair h1.retirePart.showSpare
  · refine .ite2 h ?_
    split
    · exact .pair h.bankMoveStart
    · exact .pair h.retirePart.showBanks
  · exact .ite2 h2 (.pair h2.retireChannel)
  · exact .ite2 h (.pair h.laneReplace)

/-! ### Machine/Pins.lean -/

theorem Keeps.dropEdges {f} (h : Keeps o s) : Keeps o (s.dropEdges f) := .ite (.setTrig (.ite h h.count)) (.ite h.setPpso h)

theorem Keeps.pinLeave {f} (h : Keeps o s) : Keeps o (s.pinLeave f) := .ite h.forceOut h.driveFn

theorem Keeps.pinCommit (h : Keeps o s) : Keeps o s.pinCommit := by
  unfold State.pinCommit
  refine .ite h ?_
  split
  · exact h.latch.setFld.raise
  · extract_lets new newAt changed s1 s2
    have h1 : Keeps o s1 := by
      refine .foldl (fun s c h => ?_) h
      split
      · exact h.pinLeave
      · exact h
    have h2 : Keeps o s2 := .foldl (fun _ _ h => h.setFld) h1
    exact h2.upd.setBit

theorem Keeps.pinCommitWrite {v} (h : Keeps o s) : Keeps o (s.pinCommitWrite v) := by
  unfold State.pinCommitWrite
  extract_lets s1
  have h1 : Keeps o s1 := h.w1c
  exact .ite h1.pinCommit h1

theorem Keeps.pinDrive {c} (h : Keeps o s) : Keeps o (s.pinDrive c) := by
  unfold State.pinDrive
  extract_lets _ s1 _ s2
  have h1 : Keeps o s1 := h.advance.setContact
  have h2 : Keeps o s2 := h1.upd
  refine .ite h ?_
  split
  · extract_lets s3 _ s4
    have h3 : Keeps o s3 := h.advance.dropEdges
    have h4 : Keeps o s4 := h3.upd
    exact .ite h h4.driveFn.setBit
  · exact h2.setBit

theorem Keeps.gpoWrite {v} (h : Keeps o s) : Keeps o (s.gpoWrite v) := .ite h.setReg (.foldl (fun _ _ h => .ite h h.driveFn) h.setReg)

theorem Keeps.cbusWrite {v} (h : Keeps o s) : Keeps o (s.cbusWrite v) := by
  unfold State.cbusWrite
  extract_lets _ s1 s2
  have h1 : Keeps o s1 := h.setReg
  have h2 : Keeps o s2 := h1.setBit
  exact .ite h2.upd h1

theorem Keeps.cbusData {l} (h : Keeps o s) : Keeps o (s.cbusData l) := .foldl (fun _ _ h => h.setFld) h

theorem Keeps.cbusDone {e} (h : Keeps o s) : Keeps o (s.cbusDone e) := by
  unfold State.cbusDone
  extract_lets s1
  have h1 : Keeps o s1 := h.setBit
  refine .ite ?_ ?_
  · split
    · exact h1.cbusData.setFld.setBit
    · exact h1.setFld.setBit.raise
    · exact h1.setFld.setBit.raise
  · split
    · exact h
    · exact h.swapWritten
    · exact h.raise.swapWritten
    · exact h.raise.swapWritten

theorem Keeps.mdioWrite {m v} (h : Keeps o s) : Keeps o (s.mdioWrite m v) := by
  unfold State.mdioWrite
  extract_lets _ _ s1 s2 _ _ _ s3
  have h1 : Keeps o s1 := h.setReg
  have h2 : Keeps o s2 := h1.setBit
  have h3 : Keeps o s3 := h2.upd
  exact .ite h1 (.ite h3.upd h3)

theorem Keeps.mdioDone {m data} (h : Keeps o s) : Keeps o (s.mdioDone m data) := by
  unfold State.mdioDone
  extract_lets _ s1
  have h1 : Keeps o s1 := .ite h.setFld h
  exact .ite h h1.setBit

theorem Keeps.jtag {i} (h : Keeps o s) : Keeps o (s.jtag i) := by
  unfold State.jtag
  split
  · exact h.raise
  · exact h

/-! ### Machine/Power.lean -/

theorem Keeps.cleared (h : Keeps o s) : Keeps o s.cleared := ⟨h.mem, fun _ => rfl, h.pending⟩

theorem Keeps.setSysCause {c} (h : Keeps o s) : Keeps o (s.setSysCause c) := h.setFld

theorem Keeps.setPhase {p} (h : Keeps o s) : Keeps o (s.setPhase p) := h.setFld

theorem Keeps.moduleReset {cause} (h : Keeps o s) : Keeps o (s.moduleReset cause) := by
  unfold State.moduleReset
  extract_lets t t1 t2 t3 t4 t5
  have ht : Keeps o t := h.cleared
  have ht1 : Keeps o t1 := ht.setReg.setFld
  have ht2 : Keeps o t2 := ht1.setReg.setReg
  have ht3 : Keeps o t3 := ht2.setReg.setCell
  have ht4 : Keeps o t4 := ht3.setReg.setReg
  have ht5 : Keeps o t5 := ht4.setSysCause
  exact .ite ht5.setPhase.setBit ht5.setPhase

theorem Keeps.powerGone {pwrAlive} (h : Keeps o s) : Keeps o (s.powerGone pwrAlive) := by
  unfold State.powerGone
  extract_lets t f t1 t2
  have h1 : Keeps o t1 := ⟨fun _ => rfl, fun _ => rfl, h.pending⟩
  have h2 : Keeps o t2 := h1.setReg
  exact .ite h2.setReg.setCell.upd h2

theorem Keeps.powerUp (h : Keeps o s) : Keeps o s.powerUp := by
  unfold State.powerUp
  extract_lets _ _ s1
  have h1 : Keeps o s1 := h.upd
  exact .ite h h1.setSysCause.setPhase

theorem Keeps.railsUp (h : Keeps o s) : Keeps o s.railsUp := .ite h h.upd

theorem Keeps.refSteady (h : Keeps o s) : Keeps o s.refSteady := by
  unfold State.refSteady
  extract_lets s1
  have h1 : Keeps o s1 := h.setBit
  exact .ite h h1.upd

theorem Keeps.refStable (h : Keeps o s) : Keeps o s.refStable := .ite h.refSteady.setCause h

theorem Keeps.rootLock {lead} (h : Keeps o s) : Keeps o (s.rootLock lead) := by
  unfold State.rootLock
  extract_lets s1 _ s2 _ _ s3
  have h1 : Keeps o s1 := h.setBit.setCause
  have h2 : Keeps o s2 := h1.upd
  have h3 : Keeps o s3 := h2.upd
  exact .ite h (.ite h3.setPhase.setBit h1)

theorem Keeps.clearImage (h : Keeps o s) : Keeps o s.clearImage := by
  unfold State.clearImage
  extract_lets s1 _ _ s2 _ s3
  have h1 : Keeps o s1 := .foldl (fun _ _ h => h.setReg) h
  have h2 : Keeps o s2 := h1.upd
  have h3 : Keeps o s3 := h2.upd
  exact h3.upd

theorem Keeps.outputsSafe (h : Keeps o s) : Keeps o s.outputsSafe := by
  unfold State.outputsSafe
  extract_lets s1
  have h1 : Keeps o s1 := .foldl (fun _ _ h => h.forceOut) h
  exact .foldl (fun _ _ h => h.driveFn) h1

theorem Keeps.restartLoad {slot kept} (h : Keeps o s) : Keeps o (s.restartLoad slot kept) := by
  unfold State.restartLoad
  extract_lets s1 s2 _ s3 s4 s5 _ _ s6
  have h1 : Keeps o s1 := h.pathStop.outputsSafe
  have h2 : Keeps o s2 := .foldl (fun _ _ h => h.closeSession) h1
  have h3 : Keeps o s3 := h2.upd
  have h4 : Keeps o s4 := h3.noticeStat
  have h5 : Keeps o s5 := h4.clearImage
  have h6 : Keeps o s6 := h5.upd
  exact h6.setBit.setBit.setPhase

theorem Keeps.refLost {on} (h : Keeps o s) : Keeps o (s.refLost on) := .levelSource (.ite h.setBit h.refSteady)

theorem Keeps.rootUnlock (h : Keeps o s) : Keeps o s.rootUnlock := .ite h h.setBit.levelSource.allInvalid

theorem Keeps.lanePllLoss {p on} (h : Keeps o s) : Keeps o (s.lanePllLoss p on) := h.setBit.levelSource

theorem Keeps.cdcMerge {x} (h : Keeps o s) : Keeps o (s.cdcMerge x) := h.count.setFld.raise

theorem Keeps.setVin {v} (h : Keeps o s) : Keeps o (s.setVin v) := by
  unfold State.setVin
  extract_lets _ s1
  have h1 : Keeps o s1 := h.upd
  exact h1.setFld

theorem Keeps.watch {src hot cool} (h : Keeps o s) : Keeps o (s.watch src hot cool) := .ite (.ite h h.levelSource) (.ite h.setCause h)

theorem Keeps.inputLost {t} (h : Keeps o s) : Keeps o (s.inputLost t) := by
  unfold State.inputLost
  extract_lets s1
  have h1 : Keeps o s1 := h.advance
  exact .ite h h1.upd

theorem Keeps.lossEnds {t} (h : Keeps o s) : Keeps o (s.lossEnds t) := by
  unfold State.lossEnds
  extract_lets s1
  have h1 : Keeps o s1 := h.advance
  split
  · exact .ite h h1.upd
  · exact h

theorem Keeps.lossConfirm (h : Keeps o s) : Keeps o s.lossConfirm := by
  unfold State.lossConfirm
  split
  · extract_lets s1 _ s2 s3 s4
    have h1 : Keeps o s1 := h.advance.levelSource
    have h2 : Keeps o s2 := h1.upd
    have h3 : Keeps o s3 := h2.setFld.pathStop
    have h4 : Keeps o s4 := .foldl (fun _ _ h => h.linkDown) h3
    exact .ite h h4.upd
  · exact h

theorem Keeps.railsOff {t} (h : Keeps o s) : Keeps o (s.railsOff t) := by
  unfold State.railsOff
  split
  · exact .ite h.advance.lastGasp.powerGone h
  · exact h

theorem Keeps.holdupTest {energy} (h : Keeps o s) : Keeps o (s.holdupTest energy) := h.setFld.watch

theorem Keeps.holdupStart {v} (h : Keeps o s) : Keeps o (s.holdupStart v) := .ite h.upd.holdupTest h

theorem Keeps.warnZone {z} (h : Keeps o s) : Keeps o (s.warnZone z) := h.watch

theorem Keeps.thermal {temps} (h : Keeps o s) : Keeps o (s.thermal temps) := by
  unfold State.thermal
  extract_lets s1 s2 s3 _ s4
  have h1 : Keeps o s1 := h.advance
  have h2 : Keeps o s2 := .foldl (fun _ _ h => h.setFld) h1
  have h3 : Keeps o s3 := .foldl (fun _ _ h => h.warnZone) h2
  have h4 : Keeps o s4 := h3.watch
  exact .foldl (fun _ _ h => .ite h h.holdLimit) h4

theorem Keeps.enterLow (h : Keeps o s) : Keeps o s.enterLow := by
  unfold State.enterLow
  extract_lets _ s1 s2 _ s3 s4 s5 _ s6
  have h1 : Keeps o s1 := h.upd
  have h2 : Keeps o s2 := h1.powerGone
  have h3 : Keeps o s3 := h1.pathStop.outputsSafe
  have h4 : Keeps o s4 := .foldl (fun _ _ h => h.linkDown) h3
  have h5 : Keeps o s5 := .foldl (fun _ _ h => .ite h.setFld.setChState h) h4
  have h6 : Keeps o s6 := by
    clear_value s5
    exact ⟨fun hm => Memory.wf_filter _ (h5.mem hm), h5.ctl, h5.pending⟩
  exact .ite h1 (.ite h2.upd h6.setFld)

theorem Keeps.exitLow (h : Keeps o s) : Keeps o s.exitLow := by
  unfold State.exitLow
  extract_lets _ _ s1
  have h1 : Keeps o s1 := h.upd
  exact .ite h1.latch.setSysCause.setPhase (.ite h.setFld.restartLoad h)

theorem Keeps.wakeFell {t} (h : Keeps o s) : Keeps o (s.wakeFell t) := by
  unfold State.wakeFell
  extract_lets s1
  have h1 : Keeps o s1 := h.advance.levelSource
  exact .ite h h1.upd

theorem Keeps.graceEnd (h : Keeps o s) : Keeps o s.graceEnd := by
  unfold State.graceEnd
  split
  · exact h.advance.enterLow
  · exact h

theorem Keeps.wakeRose {t} (h : Keeps o s) : Keeps o (s.wakeRose t) := by
  unfold State.wakeRose
  extract_lets s1 _ s2
  have h1 : Keeps o s1 := h.advance.setCause
  have h2 : Keeps o s2 := h1.upd
  exact h2.exitLow

theorem Keeps.pwrCtlWrite {v} (h : Keeps o s) : Keeps o (s.pwrCtlWrite v) := by
  unfold State.pwrCtlWrite
  extract_lets _ _ s1 _ s2 s3
  have h1 : Keeps o s1 := h.setBit
  have h2 : Keeps o s2 := h1.upd
  have h3 : Keeps o s3 := .ite (.ite h2.exitLow h2) h1
  exact .ite h3.enterLow h3

/-! ### Machine/DmaOps.lean -/

theorem Keeps.setDch {k x} (h : Keeps o s) : Keeps o (s.setDch k x) := h.upd

theorem Keeps.modDch {k f} (h : Keeps o s) : Keeps o (s.modDch k f) := h.setDch

theorem Keeps.setDmaState {k st} (h : Keeps o s) : Keeps o (s.setDmaState k st) := .ite h h.setFld.bumpGen

theorem Keeps.dmaIrq {k} (h : Keeps o s) : Keeps o (s.dmaIrq k) := h.latch

theorem Keeps.descDone {k i done code stamp} (h : Keeps o s) : Keeps o (s.descDone k i done code stamp) := h.writeNum.writeNum

theorem Keeps.descHalt {k i done code} (h : Keeps o s) : Keeps o (s.descHalt k i done code) := by
  unfold State.descHalt
  extract_lets s1 s2 s3
  have h1 : Keeps o s1 := h.writeNum
  have h2 : Keeps o s2 := h1.setDmaState.setFld.setFld
  have h3 : Keeps o s3 := h2.modDch
  exact h3.dmaIrq.raiseU

theorem Keeps.headRead {k} (h : Keeps o s) : Keeps o (s.headRead k) := .ite h.modDch.descHalt h.modDch

theorem Keeps.headNext {k} (h : Keeps o s) : Keeps o (s.headNext k) := .setFld (.ite h.modDch h)

theorem Keeps.descClose {k i done code stamp bits d} (h : Keeps o s) : Keeps o (s.descClose k i done code stamp bits d) := by
  unfold State.descClose
  extract_lets s1 _ _ _ s2 s3 s4
  have h1 : Keeps o s1 := h.descDone
  have h2 : Keeps o s2 := h1.writeNum
  have h3 : Keeps o s3 := h2.setFld
  have h4 : Keeps o s4 := .ite h3.dmaIrq h3
  exact h4.headNext

theorem Keeps.txFail {k} (h : Keeps o s) : Keeps o (s.txFail k) := h.setDch.txDrop

theorem Keeps.dmaOff {k} (h : Keeps o s) : Keeps o (s.dmaOff k) := by
  unfold State.dmaOff
  extract_lets s1
  have h1 : Keeps o s1 := .ite h.txFail h
  exact h1.setBit.modDch

theorem Keeps.dmaCfgWrite {k v} (h : Keeps o s) : Keeps o (s.dmaCfgWrite k v) := by
  unfold State.dmaCfgWrite
  extract_lets _ _ s1 s2 s3
  have h1 : Keeps o s1 := h.setFld
  have h2 : Keeps o s2 := .ite h1 h1.setFld
  have h3 : Keeps o s3 := h2.dmaOff
  exact .ite (.ite h2.modDch (.ite h2.setFld h2.setBit.setFld.setDch.setDmaState)) (.ite h2 (.ite h2.modDch (.ite h3.setDmaState h3)))

theorem Keeps.dmaBaseWrite {k o1 v} (h : Keeps o s) : Keeps o (s.dmaBaseWrite k o1 v) := .ite h (.ite h.setFld h.setReg)

theorem Keeps.dmaKick {k} (h : Keeps o s) : Keeps o (s.dmaKick k) := .ite h.headRead h

theorem Keeps.skipFrame {k n} : ∀ {s}, Keeps o s → Keeps o (s.skipFrame k n) := by
  induction n with
  | zero => exact fun h => h
  | succ n ih => exact fun h => .ite h (.ite h.descClose (ih h.descClose))

theorem Keeps.dmaCtlWrite {k v} (h : Keeps o s) : Keeps o (s.dmaCtlWrite k v) := by
  unfold State.dmaCtlWrite
  extract_lets _ s1 _ s2 s3 _ _ s4 s5 s6
  have h1 : Keeps o s1 := h.setDmaState
  have h2 : Keeps o s2 := h1.setFld
  have h3 : Keeps o s3 := .ite (.ite h2.setDch (.ite h1.setDch h1.setDch.headRead)) h
  have h4 : Keeps o s4 := h3.writeNum
  have h5 : Keeps o s5 := h4.headNext.setDmaState.modDch
  have h6 : Keeps o s6 := .ite (.ite h5.skipFrame h5) h3
  exact .ite h6.modDch h6

theorem Keeps.dmaSeen {k v} (h : Keeps o s) : Keeps o (s.dmaSeen k v) := h.setFld

/-! ### Machine/Bus.lean -/

theorem Keeps.plain {a v} (h : Keeps o s) : Keeps o (s.plain a v) := h.setReg

theorem Keeps.wrTime {o1 v} (h : Keeps o s) : Keeps o (s.wrTime o1 v) := by
  unfold State.wrTime
  refine .ite h.snapWrite ?_
  refine .ite h.convWrite ?_
  refine .ite h ?_
  refine .ite h.plain ?_
  refine .ite ?_ h.plain
  extract_lets
  split
  · exact h.incrLoWrite
  · exact h.incrHiWrite
  · exact h.slewWrite
  · exact h.stepCtlWrite
  · exact h.refWrite
  · exact h.ofsWrite
  · exact h.plain

theorem Keeps.ppsoCfgWrite {k v} (h : Keeps o s) : Keeps o (s.ppsoCfgWrite k v) := .ite h.plain (.ite h.plain h.plain.driveOut)

theorem Keeps.ppsiCfgWrite {k v} (h : Keeps o s) : Keeps o (s.ppsiCfgWrite k v) := .ite h.plain.setBit h.plain.setBit.setEvIn

theorem Keeps.clkoCfgWrite {j v} (h : Keeps o s) : Keeps o (s.clkoCfgWrite j v) := .ite (.ite h.plain h.plain.clkoStart) h.plain.clkoStop

theorem Keeps.lcalMonWrite {l v} (h : Keeps o s) : Keeps o (s.lcalMonWrite l v) := .ite h.w1c.setPend h.w1c

theorem Keeps.wrTio {o1 v} (h : Keeps o s) : Keeps o (s.wrTio o1 v) := by
  unfold State.wrTio
  refine .ite (.ite h.tioResume h) ?_
  refine .ite ?_ ?_
  · extract_lets
    split
    · exact h.trigCfgWrite
    · exact h.w1c
    · exact h.diagClear
    · exact h.plain
  · refine .ite ?_ ?_
    · split
      · exact h.ppsoCfgWrite
      · exact h.diagClear
      · exact h.plain
    · refine .ite h.clkoCfgWrite ?_
      refine .ite ?_ ?_
      · split
        · exact h.ppsiCfgWrite
        · exact h.w1c
        · exact h.plain
      · refine .ite ?_ (.ite (.ite h.lcalMonWrite h) (.ite h.schedWrite h.plain))
        split
        · exact h.plain.setBit
        · exact h.w1c
        · exact h.plain

theorem Keeps.wrEgr {o1 v} (h : Keeps o s) : Keeps o (s.wrEgr o1 v) := by
  unfold State.wrEgr
  refine .ite ?_ ?_
  · extract_lets
    split
    · exact h.pshapeWrite
    · exact h.gclWrite
    · exact h.plain
  · refine .ite ?_ (.ite h.gateWrite h.plain)
    extract_lets
    split
    · exact h.qcfgWrite
    · exact h.qshapeWrite
    · exact .ite h.flushQueue h
    · exact h.plain

theorem Keeps.wrPool {r o1 v} (h : Keeps o s) : Keeps o (s.wrPool r o1 v) :=
  .ite h.poolMinWrite (.ite h.poolPutWrite (.ite h.poolGiveWrite (.ite h.auditSel h.plain)))

theorem Keeps.rewCtlWrite {r v} (h : Keeps o s) : Keeps o (s.rewCtlWrite r v) :=
  .ite (.drainAbort (.ite (.drainRegs (.ite (.rewResume (.ite (.rewTrigger (.ite h.rewEnable (.ite h.rewDisable h)))
      (.ite h.rewEnable (.ite h.rewDisable h)))) (.ite (.rewTrigger (.ite h.rewEnable (.ite h.rewDisable h)))
          (.ite h.rewEnable (.ite h.rewDisable h))))) (.ite (.rewResume
              (.ite (.rewTrigger (.ite h.rewEnable (.ite h.rewDisable h))) (.ite h.rewEnable (.ite h.rewDisable h))))
                  (.ite (.rewTrigger (.ite h.rewEnable (.ite h.rewDisable h))) (.ite h.rewEnable (.ite h.rewDisable h))))))
                      (.ite (.drainRegs (.ite (.rewResume (.ite (.rewTrigger (.ite h.rewEnable (.ite h.rewDisable h)))
                          (.ite h.rewEnable (.ite h.rewDisable h)))) (.ite (.rewTrigger (.ite h.rewEnable (.ite h.rewDisable h)))
                              (.ite h.rewEnable (.ite h.rewDisable h)))))
                                  (.ite (.rewResume (.ite (.rewTrigger (.ite h.rewEnable (.ite h.rewDisable h)))
                                      (.ite h.rewEnable (.ite h.rewDisable h))))
                                          (.ite (.rewTrigger (.ite h.rewEnable (.ite h.rewDisable h)))
                                              (.ite h.rewEnable (.ite h.rewDisable h)))))

theorem Keeps.wrRew {r o1 v} (h : Keeps o s) : Keeps o (s.wrRew r o1 v) := .ite h.rewCtlWrite (.ite h h.plain)

theorem Keeps.wrTask {r o1 v} (h : Keeps o s) : Keeps o (s.wrTask r o1 v) := by
  unfold State.wrTask
  extract_lets
  split
  · exact h.taskPost
  · exact h.taskReturn
  · exact h.taskReturn
  · exact h.taskDone
  · exact h.taskFree
  · exact .ite h.slotCfgWrite h.plain

theorem Keeps.wrDma {o1 v} (h : Keeps o s) : Keeps o (s.wrDma o1 v) := by
  unfold State.wrDma
  refine .ite ?_ h.plain
  extract_lets
  split
  · exact h.dmaCfgWrite
  · exact h.dmaCtlWrite
  · exact h.dmaBaseWrite
  · exact h.dmaBaseWrite
  · exact h.dmaKick
  · exact h.dmaSeen
  · exact h.plain

theorem Keeps.missWrite {isParse v} (h : Keeps o s) : Keeps o (s.missWrite isParse v) := h.setMiss.plain

theorem Keeps.regWrite {r a v} (h : Keeps o s) : Keeps o (s.regWrite r a v) := by
  unfold State.regWrite
  extract_lets
  split
  · exact .ite h.moduleReset h
  · exact .ite h.pwrCtlWrite (.ite h.holdupStart h.plain)
  · exact .ite h.pinCommitWrite (.ite h.gpoWrite h.plain)
  · exact h.wrTime
  · exact h.wrTio
  · exact .ite h.rawCfgWrite (.ite h.missWrite h.plain)
  · exact .ite h.tenseWrite (.ite h.clauseCtl h.plain)
  · exact .ite h.ageWrite (.ite h.fwdCtlWrite (.ite h.fwdPortWrite h.plain))
  · exact .ite h.monWrite h.plain
  · exact h.wrEgr
  · exact h.wrPool
  · exact .ite h.freqWrite (.ite h.retireWrite h.plain)
  · exact h.wrRew
  · exact .ite h.wdogWrite h.plain
  · exact .ite h.iotlbWrite h.plain
  · exact h.wrTask
  · exact .ite h.lockBreakWrite h.plain
  · exact h.wrDma
  · exact .ite h.fltCtlWrite (.ite h.pendWrite h.plain)
  · exact .ite h.cbusWrite (.ite h.mdioWrite h.plain)
  · exact h.plain

theorem Keeps.busWrite {r a v} (h : Keeps o s) : Keeps o (s.busWrite r a v) := .ite h.upd h.regWrite.answerWrite

/-- What the definition matches on goes under a name: the kernel would evaluate it, in unary arithmetic, to compare two matches. -/
theorem Keeps.regRead {r a} (h : Keeps o s) : Keeps o (s.regRead r a) := by
  unfold State.regRead
  obtain ⟨blk, hBlk⟩ : ∃ blk, blk = (a - block 0) / 0x100000 := ⟨_, rfl⟩
  obtain ⟨reg, hReg⟩ : ∃ reg, reg = a % 0x100000 := ⟨_, rfl⟩
  rw [← hBlk, ← hReg]
  dsimp only
  refine .ite h.latchHi (.ite h.readHi ?_)
  split
  · exact h.answerRead
  · exact h.answerRead
  · exact .ite h.popTxts (.ite (.ite h.secHiRead h.answerRead) h.answerRead)
  · exact .ite h.popStamp (.ite (.ite h.ppsiRead h.answerRead) h.answerRead)
  · exact h.answerRead
  · exact h.answerRead
  · exact h.answerRead
  · exact .ite h.poolGetRead h.answerRead
  · exact .ite h.answerRead h.answerRead
  · split
    · exact h.taskAlloc
    · exact h.taskTake
    · exact h.answerRead
  · exact h.answerRead

theorem Keeps.busRead {r a} (h : Keeps o s) : Keeps o (s.busRead r a) := by
  unfold State.busRead
  extract_lets s1
  have h1 : Keeps o s1 := by
    unfold s1
    split
    · exact h.markSeen
    · exact h
  exact .ite h.upd h1.regRead

/-! ### Machine/Image.lean -/

theorem Keeps.setting {e} (h : Keeps o s) : Keeps o (s.setting e) := h.setReg

theorem Keeps.settings {l} (h : Keeps o s) : Keeps o (s.settings l) := by
  unfold State.settings
  refine .foldl (fun s1 _ h1 => ?_) h
  exact h1.setting

/-! ### Machine/Boot.lean -/

theorem Keeps.dramOut {x st} (h : Keeps o s) : Keeps o (s.dramOut x st) := h.setFld.setFld.setBit.setFld.upd.unitState

theorem Keeps.trainDram {untrained} (h : Keeps o s) : Keeps o (s.trainDram untrained) := by
  unfold State.trainDram
  extract_lets s1 old s2
  have h1 : Keeps o s1 := h.loadSet
  have h2 : Keeps o s2 := by
    unfold s2
    clear_value old
    split
    · exact h1.dramOut
    · exact h1
  exact .foldl (fun _ _ h => .ite h.raiseU.setFld.raiseU h.raiseU.dramOut.retirePart) h2

theorem Keeps.repairRows {ok} (h : Keeps o s) : Keeps o (s.repairRows ok) :=
  .foldl (fun _ _ h => .ite h (.ite h.raiseU h.upd.count.raiseU.upd.setFld)) h

theorem Keeps.journalStart (h : Keeps o s) : Keeps o s.journalStart := by
  unfold State.journalStart
  extract_lets
  split
  · exact h.upd.setFld.setFld.setReg.setReg
  · exact h.upd.setFld.setFld

theorem Keeps.carrierCode {e} (h : Keeps o s) : Keeps o (s.carrierCode e) := by
  unfold State.carrierCode
  split
  · exact .upd (.ite h.setReg h)
  · exact h.raise
  · exact h.setBit.raise

theorem Keeps.readOtp {ok} (h : Keeps o s) : Keeps o (s.readOtp ok) := by
  unfold State.readOtp
  extract_lets _ s1 s2
  have h1 : Keeps o s1 := h.upd
  have h2 : Keeps o s2 := .foldl (fun _ _ h => h.setBit) h1
  exact .ite h2.setBit h1.raise

theorem Keeps.bist {r} (h : Keeps o s) : Keeps o (s.bist r) := by
  unfold State.bist
  extract_lets s1 _ s2 s3 s4
  have h1 : Keeps o s1 := h.journalStart.readOtp.carrierCode
  have h2 : Keeps o s2 := h1.upd
  have h3 : Keeps o s3 := h2.trainDram.repairRows
  have h4 : Keeps o s4 := .foldl (fun _ _ h => h.setBit) h3
  exact .ite h h4.setPhase

theorem Keeps.showSlot {slot st reason} (h : Keeps o s) : Keeps o (s.showSlot slot st reason) := h.setFld.setFld

theorem Keeps.bootRecord (h : Keeps o s) : Keeps o s.bootRecord := h.specialRecord.copyCell

theorem Keeps.recover_ (h : Keeps o s) : Keeps o s.recover_ := by
  unfold State.recover_
  extract_lets s1 _ _ s2
  have h1 : Keeps o s1 := h.clearImage
  have h2 : Keeps o s2 := h1.upd
  exact h2.setPhase.bootRecord

theorem Keeps.readHeader {slot} (h : Keeps o s) : Keeps o (s.readHeader slot) := .showSlot (.ite h h.setReg)

theorem Keeps.norFails {slot b} (h : Keeps o s) : Keeps o (s.norFails slot b) := .ite h.upd.raise h

theorem Keeps.selectImage {failA failB} (h : Keeps o s) : Keeps o (s.selectImage failA failB) := by
  unfold State.selectImage
  extract_lets s1
  have h1 : Keeps o s1 := h.norFails.norFails.readHeader.readHeader
  refine .ite h ?_
  split
  · exact h1.upd.setPhase
  · exact h1.recover_

theorem Keeps.formatBad (h : Keeps o s) : Keeps o (formatBad s).2 := h

theorem Keeps.defaultMux (h : Keeps o s) : Keeps o s.defaultMux := .foldl (fun _ _ h => h.setFld.setFld) h

theorem Keeps.faultDefaults (h : Keeps o s) : Keeps o s.faultDefaults := .foldl (fun _ _ h => h.setReg) h

theorem Keeps.beforeSection {t} (h : Keeps o s) : Keeps o (s.beforeSection t) := by
  unfold State.beforeSection
  split
  · exact h.defaultMux
  · exact h.faultDefaults
  · exact h

theorem Keeps.sectionCal {b} (h : Keeps o s) : Keeps o (s.sectionCal b).2 := .ite2 h (.ite2 h.formatBad (.pair h.upd))

theorem Keeps.sectionPins (h : Keeps o s) : Keeps o s.sectionPins.2 := by
  unfold State.sectionPins
  extract_lets s1
  have h1 : Keeps o s1 := h.pinCommit
  exact .pair (.foldl (fun _ _ h => h.driveFn) h1)

theorem Keeps.sectionFaults {l} (h : Keeps o s) : Keeps o (s.sectionFaults l).2 := .pair h.upd

theorem Keeps.configPort {p r} (h : Keeps o s) : Keeps o (s.configPort p r) := by
  unfold State.configPort
  extract_lets s1 s2 s3 s4
  have h1 : Keeps o s1 := h.setReg.setReg
  have h2 : Keeps o s2 := .ite h1.setFld h1
  have h3 : Keeps o s3 := .ite h2.setReg.setReg h2
  have h4 : Keeps o s4 := h3.setFld
  exact .ite (.ite h4.setFld.setFld.loadCal h4.setFld.setFld) h4

theorem Keeps.sectionPorts {b} (h : Keeps o s) : Keeps o (s.sectionPorts b).2 := by
  unfold State.sectionPorts
  extract_lets _ _ s1 s2
  have h1 : Keeps o s1 := h.upd
  have h2 : Keeps o s2 := by
    unfold s2
    exact .foldl (fun _ _ h => .configPort (.ite (.foldl (fun _ _ h' => h'.setFld) h.setBit) h)) h1
  exact .ite2 h.formatBad (.pair (.ite h2.levelSource h2.setCause))

theorem Keeps.sectionTio (h : Keeps o s) : Keeps o s.sectionTio.2 := by
  unfold State.sectionTio
  extract_lets s1 _ s2 s3
  have h1 : Keeps o s1 := .foldl (fun _ _ h => h.driveFn) h
  have h2 : Keeps o s2 := .foldl (fun _ _ h => .ite h.setBit.trigCfgWrite h) h1
  have h3 : Keeps o s3 := .foldl (fun _ _ h => .ite h.setBit.ppsoCfgWrite h) h2
  exact .pair (.foldl (fun _ _ h => .ite h.setBit.clkoCfgWrite h) h3)

theorem Keeps.sectionPools {b} (h : Keeps o s) : Keeps o (s.sectionPools b).2 :=
  .ite2 h.formatBad (.pair (.ite (.rewEnable (.setBit (.setFld (.setReg
      (.setReg (.foldl (fun _ _ h => h.setFld) (.setReg (.setReg (.foldl (fun _ _ h => h.setFld) h.setReg.setReg)))))))))
          (.setFld (.setReg (.setReg (.foldl (fun _ _ h => h.setFld) (.setReg
              (.setReg (.foldl (fun _ _ h => h.setFld) h.setReg.setReg)))))))))

theorem Keeps.markParts {cls n good used} (h : Keeps o s) : Keeps o (s.markParts cls n good used) := .foldl (fun _ _ h => h.unitState) h

theorem Keeps.placeStation {good n} (h : Keeps o s) : Keeps o (s.placeStation good n) :=
  .showCores (.degradeStn (.setStn (.foldl (fun _ _ h => h.setCore) h)))

theorem Keeps.place_ {b} (h : Keeps o s) : Keeps o (s.place_ b) := by
  unfold State.place_
  exact .ite (.raise (.foldl (fun _ _ h => h.laneReplace) (.foldl (fun _ _ h => h.unitState)
      (.showBanks (.showSpare (.foldl (fun _ _ h => h.withdrawBank) (.upd
          (.markParts (.upd (.markParts (.foldl (fun _ _ h => h.placeStation) h.markParts)))))))))))
              (.foldl (fun _ _ h => h.laneReplace) (.foldl (fun _ _ h => h.unitState)
                  (.showBanks (.showSpare (.foldl (fun _ _ h => h.withdrawBank)
                      (.upd (.markParts (.upd (.markParts (.foldl (fun _ _ h => h.placeStation) h.markParts))))))))))

theorem Keeps.sectionPlace {b} (h : Keeps o s) : Keeps o (s.sectionPlace b).2 := .ite2 (.pair h.setCause.raise) (.pair h.setCause.place_)

theorem Keeps.showTimetable {t} (h : Keeps o s) : Keeps o (s.showTimetable t) := by
  unfold State.showTimetable
  extract_lets s1
  have h1 : Keeps o s1 := h.setReg.setFld.setFld
  exact .foldl (fun _ _ h => h.setFld.setFld.setFld.setFld.setFld.setFld.setFld.setReg.setReg) h1

theorem Keeps.lookAhead {img} (h : Keeps o s) : Keeps o (s.lookAhead img) := .foldl (fun _ _ h => .elim h fun _ => h.settings) h

theorem Keeps.sectionTimetable {img b} (h : Keeps o s) : Keeps o (s.sectionTimetable img b).2 := by
  unfold State.sectionTimetable
  extract_lets t r s1
  have h1 : Keeps o s1 := h.setFld.setFld
  clear_value r
  split
  · exact .pair h1.upd.showTimetable
  · exact h1
  · exact .pair h1.upd.setBit.showTimetable

theorem Keeps.fenceShort (h : Keeps o s) : Keeps o s.fenceShort := by
  unfold State.fenceShort
  refine .foldl (fun s1 _ h1 => ?_) h
  split
  · exact h1.fenceUnit
  · exact h1

theorem Keeps.sectionClauses {b} (h : Keeps o s) : Keeps o (s.sectionClauses b).2 := by
  unfold State.sectionClauses
  extract_lets groups fixedBad
  refine .ite2 h (.foldl2 (fun p i hp => ?_) (.pair h))
  split
  · exact .ite2 hp (.pair (Keeps.setClause hp))
  · exact hp

theorem Keeps.tableItem {op r} (h : Keeps o s) : Keeps o (s.tableItem op r).2 := by
  unfold State.tableItem
  extract_lets s1 _ s2
  have h1 : Keeps o s1 := h.fwdApply
  have h2 : Keeps o s2 := .foldl (fun _ _ h => h.setLogWord) h1
  exact .ite2 h.formatBad (.pair h2.dropLog)

theorem Keeps.tableItems {n} : ∀ {l s}, Keeps o s → Keeps o (State.tableItems n l s).2 := by
  induction n with
  | zero => exact fun h => h
  | succ n ih =>
    intro l s h
    unfold State.tableItems
    refine .ite2 h (.ite2 h.formatBad ?_)
    split
    · rename_i e
      exact ih (.of_snd e h.tableItem)
    · exact h.tableItem

theorem Keeps.sectionKeys {b} (h : Keeps o s) : Keeps o (s.sectionKeys b).2 :=
  .ite2 h.formatBad (.pair (.foldl (fun _ _ h => .ite h.setBit.setFld.upd h) h))

theorem Keeps.sectionFirmware {b} (h : Keeps o s) : Keeps o (s.sectionFirmware b).2 := by
  unfold State.sectionFirmware
  extract_lets _ _ s1
  have h1 : Keeps o s1 := h.upd
  split
  · exact h.formatBad
  · extract_lets s2
    have h2 : Keeps o s2 := .foldl (fun _ _ h => h.storeBytes) h1
    exact .ite2 h.formatBad (.pair (.foldl (fun _ _ h => h.setCtlc) h2))

theorem Keeps.sectionWrites {b} (h : Keeps o s) : Keeps o (s.sectionWrites b).2 := by
  unfold State.sectionWrites
  split
  · exact h.formatBad
  · exact .pair (.foldl (fun _ _ h => h.busWrite) h)

theorem Keeps.sectionBody {img t l b} (h : Keeps o s) : Keeps o (s.sectionBody img t l b).2 := by
  unfold State.sectionBody
  split
  · exact h.sectionTimetable
  · exact h.sectionPlace
  · exact h.sectionPorts
  · exact h.sectionTio
  · exact h.sectionClauses
  · exact h.tableItems
  · exact h.sectionPools
  · exact h.sectionFaults
  · exact h.sectionKeys
  · exact h.sectionPins
  · exact h.sectionCal
  · exact h

theorem Keeps.applySection {img t} (h : Keeps o s) : Keeps o (s.applySection img t).2 := by
  unfold State.applySection
  extract_lets _ s1
  have h1 : Keeps o s1 := h.beforeSection
  refine .ite2 h.sectionFirmware ?_
  refine .ite2 (.ite2 h h.sectionWrites) ?_
  refine .ite2 h1.sectionBody ?_
  split
  · exact h1.formatBad
  · exact .ite2 h1.formatBad h1.settings.sectionBody

theorem Keeps.applyAll {img} (h : Keeps o s) : Keeps o (s.applyAll img).2 := by
  refine .foldl2 (fun p t hp => ?_) (.pair h)
  split
  · split
    · rename_i e
      exact .of_snd e hp.applySection
    · rename_i e
      exact .of_snd e hp.applySection
  · exact hp

theorem Keeps.freshPath (h : Keeps o s) : Keeps o s.freshPath := by
  unfold State.freshPath
  extract_lets up mine check s1 s2 s3 lanes s4
  have h1 : Keeps o s1 := ⟨h.mem, fun hc => awf_filter _ _ _ (h.ctl hc), h.pending⟩
  have h2 : Keeps o s2 := h1.setFld
  have h3 : Keeps o s3 := ⟨fun hm => Memory.wf_filter _ (h1.mem hm), h2.ctl, h2.pending⟩
  have h4 : Keeps o s4 := .foldl (fun _ _ h => .ite h h.setFld) h3
  exact .foldl (fun _ _ h => h.setBit) h4

theorem Keeps.loadFail {slot reason} (h : Keeps o s) : Keeps o (s.loadFail slot reason) := by
  unfold State.loadFail
  extract_lets s1 s2 _ s3
  have h1 : Keeps o s1 := h.showSlot.clearImage.freshPath
  have h2 : Keeps o s2 := .ite h1 h1.readHeader
  have h3 : Keeps o s3 := h2.upd
  exact .ite h3.setBit.raise.setPhase h2.recover_

theorem Keeps.loadGood {slot img} (h : Keeps o s) : Keeps o (s.loadGood slot img) := by
  unfold State.loadGood
  extract_lets s1 s2 s3 _ _ s4 s5 s6
  have h1 : Keeps o s1 := h.setFld.setReg
  have h2 : Keeps o s2 := h1.setReg.setFld
  have h3 : Keeps o s3 := h2.showSlot
  have h4 : Keeps o s4 := h3.upd
  have h5 : Keeps o s5 := h4.rawStart.fenceShort
  have h6 : Keeps o s6 := .ite h5.setFld h5
  exact h6.setPhase.bootRecord

theorem Keeps.takeImage {slot img} (h : Keeps o s) : Keeps o (s.takeImage slot img) := h.upd

theorem Keeps.excludeChannel {img} (h : Keeps o s) : Keeps o (s.excludeChannel img) := by
  unfold State.excludeChannel
  split
  · exact .ite h h.dramOut
  · exact h

theorem Keeps.loadImage {norFail} (h : Keeps o s) : Keeps o (s.loadImage norFail) := by
  unfold State.loadImage
  split
  · exact h
  · extract_lets s1 _ s2 s3
    have h1 : Keeps o s1 := h.norFails.readHeader
    have h2 : Keeps o s2 := h1.storeBytes
    have h3 : Keeps o s3 := h2.freshPath.takeImage.excludeChannel.setPhase
    refine .ite h ?_
    refine .ite h1.loadFail ?_
    split
    · exact h1.loadFail
    · split
      · rename_i s4 e
        have h4 : Keeps o s4 := .of_snd e h3.applyAll
        extract_lets s5
        have h5 : Keeps o s5 := h4.loadFail.setFld.setFld
        exact h5.setFld
      · rename_i s4 e
        have h4 : Keeps o s4 := .of_snd e h3.applyAll
        exact h4.loadGood

theorem Keeps.tenseStart (h : Keeps o s) : Keeps o s.tenseStart := by
  unfold State.tenseStart
  extract_lets s1 s2
  have h1 : Keeps o s1 := h.setFld.setFld.setFld
  have h2 : Keeps o s2 := h1.setBit.setFld.setBit
  exact h2.upd

theorem Keeps.pathStart (h : Keeps o s) : Keeps o s.pathStart :=
  .ite h (.ite (.foldl (fun _ _ h => .ite h.linkUp h) (.foldl (fun _ _ h =>
      .ite h.prepCore h) h.advance.upd.upd.upd.upd.setReg.setReg.setReg.setReg.tenseStart.endDown.setBit.setBit))
          (.setPhase (.foldl (fun _ _ h => .ite h.linkUp h) (.foldl (fun _ _ h =>
              .ite h.prepCore h) h.advance.upd.upd.upd.upd.setReg.setReg.setReg.setReg.tenseStart.endDown.setBit.setBit))))

theorem Keeps.legSwitch {t} (h : Keeps o s) : Keeps o (s.legSwitch t) := by
  unfold State.legSwitch
  extract_lets _ _ s1
  have h1 : Keeps o s1 := h.upd
  split
  · exact h
  · extract_lets _ s2 s3 s4 s5 _ s6
    have h2 : Keeps o s2 := h1.upd
    have h3 : Keeps o s3 := h2.setFld.setReg
    have h4 : Keeps o s4 := h3.setReg.setFld
    have h5 : Keeps o s5 := h4.showTimetable
    have h6 : Keeps o s6 := h5.upd
    exact h6.bumpGen.eventNotice.answer

theorem Keeps.epochBoundary (h : Keeps o s) : Keeps o s.epochBoundary :=
  .ite h (.freqBegin (.channelSwitch (.bankSwitch (.blockSwitch (.foldl (fun _ _ h => h.migSwitch)
      (.legSwitch (.upd (.ite h.advance.setReg.setReg.degradeMeters h.advance.setReg.setReg))))))))

/-! ### Machine/Dma.lean -/

theorem Keeps.ioRoot {asid} (h : Keeps o s) : Keeps o (s.ioRoot asid).2 := by
  unfold State.ioRoot
  split
  · exact h
  · exact .pair h.upd

theorem Keeps.ioAddr {d va write} (h : Keeps o s) : Keeps o (s.ioAddr d va write).2 := by
  unfold State.ioAddr
  refine .ite2 h ?_
  extract_lets
  refine .ite2 (.pair h.raise) ?_
  split
  · exact .ite2 h (.pair h.raise)
  · split
    rename_i s1 e
    have h1 : Keeps o s1 := .of_snd e h.ioRoot
    split
    · exact .ite2 (.pair h1.fillTlb.upd) (.pair h1.raise)
    · exact .pair h1.raise
    · exact .pair h1.walkError
    · exact .pair h1.walkError

theorem Keeps.dmaRead {k d n} : ∀ {s ofs}, Keeps o s → Keeps o (s.dmaRead k d ofs n).2 := by
  induction n with
  | zero => exact fun h => h
  | succ n ih =>
    intro s ofs h
    unfold State.dmaRead
    split
    · rename_i e
      exact .of_snd e h.ioAddr
    · rename_i e
      have h1 := Keeps.of_snd e h.ioAddr
      refine .ite2 h1 (.ite2 h1.raiseEcc ?_)
      extract_lets s2
      have h2 : Keeps o s2 := .ite h1.dramReq h1
      split
      · rename_i e2
        exact .of_snd e2 (ih h2)
      · rename_i e2
        exact .of_snd e2 (ih h2)

theorem Keeps.dmaReadWord {k d a} (h : Keeps o s) : Keeps o (s.dmaReadWord k d a).2 := by
  unfold State.dmaReadWord
  extract_lets _ t
  have ht : Keeps o t := h.busRead
  exact .ite2 h (.ite2 (.pair h.lockRead) (.pair ht.upd))

theorem Keeps.dmaWrite {k d} {l : List Byte} : ∀ {s ofs}, Keeps o s → Keeps o (s.dmaWrite k d ofs l).2.2 := by
  induction l with
  | nil => exact fun h => h
  | cons b t ih =>
    intro s ofs h
    unfold State.dmaWrite
    split
    · rename_i e
      exact .of_snd e h.ioAddr
    · rename_i e
      have h1 := Keeps.of_snd e h.ioAddr
      exact .ite3 h1 (ih (Keeps.ite h1.dramReq h1).writeBytes)

theorem Keeps.dmaWriteWord {k d a v} (h : Keeps o s) : Keeps o (s.dmaWriteWord k d a v).2 := by
  unfold State.dmaWriteWord
  extract_lets _ t
  have ht : Keeps o t := h.busWrite
  exact .ite2 h (.ite2 (.pair h.lockStore) (.pair ht.upd))

theorem Keeps.dmaFetch {k d off n} (h : Keeps o s) : Keeps o (s.dmaFetch k d off n).2 := by
  unfold State.dmaFetch
  split
  · rename_i s1 e
    have h1 : Keeps o s1 := .of_snd e h.ioAddr
    exact h1
  · rename_i s1 e
    have h1 : Keeps o s1 := .of_snd e h.ioAddr
    exact .ite2 h1.dmaReadWord h1.dmaRead

theorem Keeps.dmaPut {k d off l} (h : Keeps o s) : Keeps o (s.dmaPut k d off l).2.2 := by
  unfold State.dmaPut
  refine .ite3 (.pair3 h.modDch) ?_
  split
  · rename_i s1 e
    have h1 : Keeps o s1 := .of_snd e h.ioAddr
    exact h1
  · rename_i s1 e
    have h1 : Keeps o s1 := .of_snd e h.ioAddr
    refine .ite3 ?_ h1.dmaWrite
    split
    · rename_i s2 e
      have h2 : Keeps o s2 := .of_snd e h1.dmaWriteWord
      exact h2
    · rename_i s2 _ e
      have h2 : Keeps o s2 := .of_snd e h1.dmaWriteWord
      exact h2

theorem Keeps.dmaMove {k d upTo n} : ∀ {s ofs}, Keeps o s → Keeps o (s.dmaMove k d upTo n ofs).2.2 := by
  induction n with
  | zero => exact fun h => h
  | succ n ih =>
    intro s ofs h
    unfold State.dmaMove
    refine .ite3 h (.ite3 h ?_)
    extract_lets len
    split
    · rename_i e
      exact .of_snd e h.dmaFetch
    · rename_i e
      have h1 := Keeps.of_snd e h.dmaFetch
      split
      · rename_i e2
        exact ih (.of_snd_snd e2 h1.dmaPut)
      · rename_i e2
        exact .of_snd_snd e2 h1.dmaPut

theorem Keeps.txBuild {k last} (h : Keeps o s) : Keeps o (s.txBuild k last) := by
  unfold State.txBuild
  extract_lets
  split
  · exact .ite h h.upd.buildCoach.modCoach.setDch
  · exact h

theorem Keeps.txFeed {k q last n} : ∀ {s}, Keeps o s → Keeps o (s.txFeed k q last n) := by
  induction n with
  | zero => exact fun h => h
  | succ n ih =>
    intro s h
    unfold State.txFeed
    split
    · exact h
    · exact .ite h (ih h.bodyCell)

theorem Keeps.txDeliver {k last} (h : Keeps o s) : Keeps o (s.txDeliver k last) := by
  unfold State.txDeliver
  extract_lets s1 s2
  have h1 : Keeps o s1 := h.txBuild
  have h2 : Keeps o s2 := by
    unfold s2
    split
    · exact h1
    · extract_lets s3
      have h3 : Keeps o s3 := h1.txFeed
      exact .ite h3.verdict h3
  exact .ite h2.modDch h2

theorem Keeps.setBusy {e k} (h : Keeps o s) : Keeps o (s.setBusy e k) := h.upd

theorem Keeps.dmaTake {k} (h : Keeps o s) : Keeps o (s.dmaTake k) := h.modDch.upd.setBusy.setDmaState

theorem Keeps.txStart {k} (h : Keeps o s) : Keeps o (s.txStart k) := by
  unfold State.txStart
  extract_lets hd w cls
  split
  refine .ite h.setDmaState ?_
  split
  · rename_i e
    exact (Keeps.of_snd e h.admits).setDmaState
  · rename_i s1 e
    have h1 : Keeps o s1 := .of_snd e h.admits
    split
    rename_i s2 e2
    have h2 : Keeps o s2 := by
      refine .of_snd e2 ?_
      split
      · rename_i e3
        exact .of_snd e3 h1.takeCell
      · rename_i e3
        exact .pair (Keeps.of_snd e3 h1.takeCell).countDrop
    exact h2.modDch.dmaTake

theorem Keeps.dmaStart {e} (h : Keeps o s) : Keeps o (s.dmaStart e) := by
  unfold State.dmaStart
  refine .ite h ?_
  split
  · exact h
  · exact .ite h.txStart h.dmaTake

theorem Keeps.dmaContinue {k} (h : Keeps o s) : Keeps o (s.dmaContinue k) := .ite h (.ite h.setDmaState (.ite h h.advance.setDmaState))

theorem Keeps.dmaFree {k} (h : Keeps o s) : Keeps o (s.dmaFree k) := by
  unfold State.dmaFree
  extract_lets s1 s2
  have h1 : Keeps o s1 := h.modDch.setBusy
  have h2 : Keeps o s2 := .ite h1.dmaOff.modDch h1
  exact .ite h2 h2.setDmaState.headRead

theorem Keeps.raiseFenced {u} (h : Keeps o s) : Keeps o (s.raiseFenced u) := by
  unfold State.raiseFenced
  split
  · exact h.raiseU
  · exact h

theorem Keeps.dmaHalts {k h1 done code} (h : Keeps o s) : Keeps o (s.dmaHalts k h1 done code) := by
  unfold State.dmaHalts
  extract_lets s1 s2 s3
  have h1 : Keeps o s1 := .ite h.raiseFenced h
  have h2 : Keeps o s2 := h1.descHalt
  have h3 : Keeps o s3 := .ite h2.modDch h2
  exact .dmaFree (.ite h3.txFail h3)

theorem Keeps.dmaComplete {e upTo} (h : Keeps o s) : Keeps o (s.dmaComplete e upTo) := by
  unfold State.dmaComplete
  split
  · exact h
  · extract_lets
    split
    · exact h.setBusy
    · refine .ite h.dmaHalts ?_
      split
      · rename_i s1 e
        have h1 : Keeps o s1 := .of_snd_snd e h.dmaMove
        extract_lets _ s2 s3
        have h2 : Keeps o s2 := .ite h1.txDeliver h1
        have h3 : Keeps o s3 := h2.modDch.descClose
        exact .ite h1.dmaHalts h3.dmaFree
      · rename_i s1 _ e
        have h1 : Keeps o s1 := .of_snd_snd e h.dmaMove
        exact h1.dmaHalts

theorem Keeps.selectRing (h : Keeps o s) : Keeps o s.selectRing := by
  unfold State.selectRing
  refine .ite h ?_
  split
  · rename_i s1 e
    have h1 : Keeps o s1 := .of_snd e h.pickHead
    exact h1.startCopy
  · rename_i s1 e
    have h1 : Keeps o s1 := .of_snd e h.pickHead
    exact h1

theorem Keeps.ringHead {c} (h : Keeps o s) : Keeps o (s.ringHead c).2 := by
  unfold State.ringHead
  split
  · exact h
  · exact .pair h.upd

theorem Keeps.ringFill {k endCode stamp cut n} : ∀ {s first l}, Keeps o s →
    Keeps o (s.ringFill k endCode stamp cut n first l).2.2 := by
  induction n with
  | zero => exact fun h => h
  | succ n ih =>
    intro s first l h
    have h1 {a l' q w a' len} : Keeps o ((s.writeBytes a l').dramReqs q w a' len) := h.writeBytes.dramReqs
    exact .ite3 (.ite3 h1.descClose h1.descClose) (.ite3 (ih h1.descClose) h1.descClose)

theorem Keeps.ringDone {cp reasons} (h : Keeps o s) : Keeps o (s.ringDone cp reasons) := by
  unfold State.ringDone
  extract_lets s1 s2
  have h1 : Keeps o s1 := .foldl (fun _ _ h => h.countQ) h
  have h2 : Keeps o s2 := h1.addFill
  split
  · exact h2.unref
  · exact h2.freeCopyCells

theorem Keeps.ringWrite {headParity bodyParity} (h : Keeps o s) : Keeps o (s.ringWrite headParity bodyParity) := by
  unfold State.ringWrite
  split
  · exact h
  · rename_i cp _
    split
    · exact h
    · extract_lets c _ s1
      have h1 : Keeps o s1 := h.setEgrPort
      clear_value c
      split
      rename_i stamp x s2 e2
      have h2 : Keeps o s2 := .of_snd_snd e2 h1.stampIn
      extract_lets s3
      have h3 : Keeps o s3 := by
        unfold s3
        split
        · exact h2.reportCopy
        · exact h2
      split
      rename_i meta_ s4 e4
      have h4 : Keeps o s4 := .of_snd e4 h3.ringHead
      split
      rename_i body s5 e5
      have h5 : Keeps o s5 := by
        refine .of_snd e5 ?_
        split
        · exact h4.copyFrame
        · exact h4
      split
      rename_i check s6 e6
      have h6 : Keeps o s6 := .of_snd e6 h5.checkCopy
      extract_lets bad all keep check code
      split
      rename_i lost ran s7 e7
      have h7 : Keeps o s7 := .of_snd_snd e7 h6.ringFill
      extract_lets s8 s9
      have h8 : Keeps o s8 := .ite h7.count h7
      have hFresh : Keeps o (s8.freshBelow 24).2 := h8.freshBelow
      have h9 : Keeps o s9 := .ite hFresh.raise.countQuiet.ringDone (.ite h8.ringDone h8.ringDone)
      exact h9.headRead

/-! ### Machine/Jenitor.lean -/

theorem Keeps.jenMeter {p} (h : Keeps o s) : Keeps o (s.jenMeter p).2 := .pair h.upd

theorem Keeps.jenAccepted {i p vlan mac} (h : Keeps o s) : Keeps o (s.jenAccepted i p vlan mac) := by
  unfold State.jenAccepted
  extract_lets _ s1
  have h1 : Keeps o s1 := h.setSession.showSession
  exact h1.upd.pumpNotices

theorem Keeps.jenRepeat {i m} (h : Keeps o s) : Keeps o (s.jenRepeat i m) := by
  unfold State.jenRepeat
  extract_lets _ s1
  have h1 : Keeps o s1 := h.count
  split
  · exact h.count
  · split
    · exact h1
    · exact h1.jenSend

theorem Keeps.jenCommand {i p vlan mac m} (h : Keeps o s) : Keeps o (s.jenCommand i p vlan mac m) := by
  unfold State.jenCommand
  extract_lets
  split
  · exact h.jenRepeat
  · extract_lets s1 s2
    have h1 : Keeps o s1 := h.setSession
    have h2 : Keeps o s2 := h1.jenAccepted
    exact .ite h2.respond h2.upd.settleItems

theorem Keeps.jenAck {i p vlan mac m} (h : Keeps o s) : Keeps o (s.jenAck i p vlan mac m) := by
  unfold State.jenAck
  extract_lets
  split
  · exact h.count
  · extract_lets s1 s2
    have h1 : Keeps o s1 := h.setSession
    have h2 : Keeps o s2 := h1.dropNotices
    exact h2.jenAccepted

theorem Keeps.jenHostNotice {i p vlan mac m} (h : Keeps o s) : Keeps o (s.jenHostNotice i p vlan mac m) := by
  unfold State.jenHostNotice
  extract_lets s1
  have h1 : Keeps o s1 := h.jenAccepted
  exact h1.jenSend

theorem Keeps.jenTagFails {i} (h : Keeps o s) : Keeps o (s.jenTagFails i) :=
  .ite h.setSession.count.raise.closeSession h.setSession.count.raise

theorem Keeps.jenOfSession {i p vlan mac m} (h : Keeps o s) : Keeps o (s.jenOfSession i p vlan mac m) := by
  unfold State.jenOfSession
  refine .ite h.jenTagFails ?_
  split
  · exact h.jenCommand
  · exact h.jenHostNotice
  · exact h.jenAck

theorem Keeps.jenReceive {p t f} (h : Keeps o s) : Keeps o (s.jenReceive p t f) := by
  unfold State.jenReceive
  extract_lets s1
  have h1 : Keeps o s1 := h.advance
  split
  · exact h1
  · refine .ite h1 ?_
    extract_lets
    split
    · rename_i s2 e
      have h2 : Keeps o s2 := .of_snd e h1.jenMeter
      exact h2.count
    · rename_i s2 e
      have h2 : Keeps o s2 := .of_snd e h1.jenMeter
      extract_lets s3
      have h3 : Keeps o s3 := h2.count
      refine .ite h3.count ?_
      refine .ite h3.upd.settleItems ?_
      split
      · exact h3.jenOfSession
      · exact h3.count.raise

theorem Keeps.perform {op role p size f} (h : Keeps o s) (hf : ∀ c b {s}, Keeps o s → Keeps o (f c b s).2) :
    Keeps o (s.perform op role p size f) := by
  unfold State.perform
  split
  · exact h
  · refine .ite h (.ite h.finishItem.settleItems (.ite h.finishItem.settleItems ?_))
    split
    · rename_i e
      exact (Keeps.of_snd e (hf _ _ h)).finishItem.settleItems
    · rename_i e
      exact (Keeps.of_snd e (hf _ _ h)).upd.settleItems

theorem Keeps.ifGen {u gen f} (h : Keeps o s) (hf : ∀ {s}, Keeps o s → Keeps o (f s).2) : Keeps o (s.ifGen u gen f).2 :=
  .ite2 h.raise (hf h)

theorem Keeps.badAuth {c p} (h : Keeps o s) : Keeps o (s.badAuth c p) := by
  unfold State.badAuth
  extract_lets _ s1
  have h1 : Keeps o s1 := h.upd
  exact .ite h h1.respondOpen

theorem Keeps.sessionOpen {c o1 b} (h : Keeps o s) : Keeps o (s.sessionOpen c o1 b) := by
  unfold State.sessionOpen
  split
  · exact h.badAuth
  · refine .ite h.badAuth ?_
    split
    · exact h.respondOpen
    · exact h.upd.setSession.showSession.respondOpen

theorem Keeps.openFront (h : Keeps o s) : Keeps o s.openFront := by
  unfold State.openFront
  split
  · extract_lets _ s1
    have h1 : Keeps o s1 := h.upd
    split
    · exact h1.sessionOpen.settleItems
    · exact h
  · exact h

theorem Keeps.closeFront (h : Keeps o s) : Keeps o s.closeFront := by
  unfold State.closeFront
  split
  · extract_lets _ s1
    have h1 : Keeps o s1 := h.upd
    exact .ite h (.ite h.finishItem.settleItems h1.finishItem.settleItems)
  · exact h

theorem Keeps.idleClose {i} (h : Keeps o s) : Keeps o (s.idleClose i) := .ite h h.advance.closeSession

theorem Keeps.noticeConfig {c b} (h : Keeps o s) : Keeps o (State.noticeConfig c b s).2 := by
  unfold State.noticeConfig
  extract_lets _ _ s1
  have h1 : Keeps o s1 := .ite h.setSession.showSession h
  exact .ite2 h h1

theorem Keeps.noticeResend (h : Keeps o s) : Keeps o s.noticeResend := by
  unfold State.noticeResend
  split
  · exact h
  · extract_lets s1
    have h1 : Keeps o s1 := h.advance
    split
    · exact h1
    · split
      · exact h1
      · exact .pumpNotices (.upd (.ite2 h1 h1.sendCopy))

/-! ### Machine/JenCmds.lean -/

theorem Keeps.ping {x x1} (h : Keeps o s) : Keeps o (State.ping x x1 s).2 := h

theorem Keeps.jenReadWord {c a} (h : Keeps o s) : Keeps o (s.jenReadWord c a).2 := by
  unfold State.jenReadWord
  extract_lets s1
  have h1 : Keeps o s1 := .ite h.busRead h.lockAcquire
  exact h1

theorem Keeps.jenRead {c b} (h : Keeps o s) : Keeps o (State.jenRead c b s).2 := .ite2 h (.pair h.jenReadWord)

theorem Keeps.jenWrite {c b} (h : Keeps o s) : Keeps o (State.jenWrite c b s).2 := .ite2 h (.pair (.ite h.busWrite h.lockAliasStore))

theorem Keeps.jenReadBlock {c b} (h : Keeps o s) : Keeps o (State.jenReadBlock c b s).2 :=
  .ite2 h (.pair (.foldl2 (fun _ _ h => .pair h.jenReadWord) h))

theorem Keeps.tableWrite {x b} (h : Keeps o s) : Keeps o (State.tableWrite x b s).2 :=
  .ite2 (.ite2 h (.ite2 h (.pair h.clauseStart))) (.ite2 h (.ite2 h (.pair h.fwdStart)))

theorem Keeps.tenseItem {f waits x b} (h : Keeps o s) (hf : ∀ {s}, Keeps o s → Keeps o (f s).2) :
    Keeps o (State.tenseItem f waits x b s).2 := h.ifGen fun h => .ite2 (hf h) (.ite2 (hf h) (hf h))

theorem Keeps.stateQuery {x b} (h : Keeps o s) : Keeps o (State.stateQuery x b s).2 := .ite2 h (.pair h.upd)

theorem Keeps.unitItem {f x b} (h : Keeps o s) (hf : ∀ u {s}, Keeps o s → Keeps o (f u s).2) : Keeps o (State.unitItem f x b s).2 :=
  .ite2 h (.ite2 h (h.ifGen (hf _)))

theorem Keeps.unitReset {u} (h : Keeps o s) : Keeps o (State.unitReset u s).2 := by
  unfold State.unitReset
  extract_lets _ s1
  have h1 : Keeps o s1 := h.afterFence.resetBegin
  exact .ite2 h (.ite2 h (.pair h1.setUnit))

theorem Keeps.unitFence {u} (h : Keeps o s) : Keeps o (State.unitFence u s).2 := by
  unfold State.unitFence
  extract_lets _ s1
  have h1 : Keeps o s1 := h.afterFence.fenceUnit
  exact .ite2 h (.ite2 h h1)

theorem Keeps.unitUnfence {u} (h : Keeps o s) : Keeps o (State.unitUnfence u s).2 := by
  unfold State.unitUnfence
  extract_lets s1
  have h1 : Keeps o s1 := h.unfence
  exact .ite2 h (.ite2 h h1)

theorem Keeps.resetAnswer {u} (h : Keeps o s) : Keeps o (s.resetAnswer u) := by
  unfold State.resetAnswer
  extract_lets _ s1
  have h1 : Keeps o s1 := h.upd
  exact h1.answer

theorem Keeps.resetDone {u} (h : Keeps o s) : Keeps o (s.resetDone u) := .ite h (.ite (.ite h.resetAnswer h) (.ite h.unfence.resetAnswer h))

theorem Keeps.resetTimeout {u} (h : Keeps o s) : Keeps o (s.resetTimeout u) := by
  unfold State.resetTimeout
  split
  · exact h.advance.resetAnswer
  · exact h

theorem Keeps.lockBreakItem {x b} (h : Keeps o s) : Keeps o (State.lockBreakItem x b s).2 := .pair h.breakLock

theorem Keeps.auditRead {x b} (h : Keeps o s) : Keeps o (State.auditRead x b s).2 := .ite2 h h

theorem Keeps.faultClear {x b} (h : Keeps o s) : Keeps o (State.faultClear x b s).2 :=
  .ite2 h (.pair (.ite (.rearm (.foldl2 (fun _ _ h => .pair h.clearPend) h)) (.foldl2 (fun _ _ h => .pair h.clearPend) h)))

theorem Keeps.journalRead {x b} (h : Keeps o s) : Keeps o (State.journalRead x b s).2 := .ite2 h (.pair h.upd.upd)

theorem Keeps.imageWriteItem {x b} (h : Keeps o s) : Keeps o (State.imageWriteItem x b s).2 := .ite2 h (.ite2 h (.ite2 h (.pair h.upd)))

theorem Keeps.program {slot} {l : List Byte} : ∀ {s a}, Keeps o s → Keeps o (s.program slot a l) := by
  induction l with
  | nil => exact fun h => h
  | cons x rest ih =>
    intro s a h
    have h1 : Keeps o (s.fresh 8).2 := h.fresh
    exact ih (.ite h1.upd h1.upd)

theorem Keeps.eraseSector {slot o1} (h : Keeps o s) : Keeps o (s.eraseSector slot o1) := .ite h.upd h.upd

theorem Keeps.imageWritten (h : Keeps o s) : Keeps o s.imageWritten := by
  unfold State.imageWritten
  split
  · exact h
  · extract_lets s1 s2 _ s3
    have h1 : Keeps o s1 := .ite h.eraseSector h
    have h2 : Keeps o s2 := h1.program
    have h3 : Keeps o s3 := h2.upd
    exact h3.answer

theorem Keeps.activateItem {f x b} (h : Keeps o s) (hf : ∀ slot sq {s}, Keeps o s → Keeps o (f slot sq s).2) :
    Keeps o (State.activateItem f x b s).2 := .ite2 h (h.ifGen fun h => .ite2 h (hf _ _ h))

theorem Keeps.activateNext {slot seq} (h : Keeps o s) : Keeps o (State.activateNext slot seq s).2 := .pair h.upd

theorem Keeps.verified (h : Keeps o s) : Keeps o s.verified := by
  unfold State.verified
  split
  · exact h.upd.answer
  · exact h

theorem Keeps.activateNow {slot seq} (h : Keeps o s) : Keeps o (State.activateNow slot seq s).2 := by
  unfold State.activateNow
  split
  · exact h
  · exact .ite2 h (.pair (.upd (.foldl (fun _ _ h => .ite h.loadCode h) h)))

theorem Keeps.sentFirst {p} (h : Keeps o s) : Keeps o (s.sentFirst p) := by
  unfold State.sentFirst
  split
  · exact h.upd
  · exact h

theorem Keeps.warmRestart {slot} (h : Keeps o s) : Keeps o (s.warmRestart slot) := by
  unfold State.warmRestart
  extract_lets s1
  have h1 : Keeps o s1 := h.bumpGen.eventNotice
  exact .ite h.moduleReset h1.restartLoad.setSysCause.setBit

theorem Keeps.activateRestart (h : Keeps o s) : Keeps o s.activateRestart := by
  unfold State.activateRestart
  split
  · refine .ite h (.ite h.finishItem.settleItems (.ite h.finishItem.settleItems ?_))
    have hItem {f c b} (hf : ∀ slot sq {s}, Keeps o s → Keeps o (f slot sq s).2) : Keeps o (State.activateItem f c b s).2 :=
      h.activateItem hf
    split
    · rename_i e
      exact (Keeps.of_snd e (hItem fun _ _ _ h => h)).finishItem.sentFirst.warmRestart
    · rename_i e
      exact (Keeps.of_snd e (hItem fun _ _ _ h => h)).finishItem.settleItems
    · rename_i e
      exact .of_snd e (hItem fun _ _ _ h => h)
  · exact h

theorem Keeps.timeSet {x b} (h : Keeps o s) : Keeps o (State.timeSet x b s).2 := by
  unfold State.timeSet
  extract_lets _ _ _ _ _ _ _ _ s1 s2 s3 _ s4
  have h1 : Keeps o s1 := h.setReg.setReg
  have h2 : Keeps o s2 := h1.setReg.setReg
  have h3 : Keeps o s3 := h2.setBit.setFld
  have h4 : Keeps o s4 := h3.armStep
  exact .ite2 h (.ite2 h (.ite2 (.pair h3.refuseStep) (.pair h4.setInst)))

theorem Keeps.adjustIncr {x b} (h : Keeps o s) : Keeps o (State.adjustIncr x b s).2 := by
  unfold State.adjustIncr
  extract_lets _ s1
  have h1 : Keeps o s1 := h.commitIncr
  exact .ite2 h h1

theorem Keeps.adjustSlew {x b} (h : Keeps o s) : Keeps o (State.adjustSlew x b s).2 := by
  unfold State.adjustSlew
  extract_lets _ _ _ s1
  have h1 : Keeps o s1 := h.setReg.setFld
  exact .ite2 h (.pair h1.startSlew)

theorem Keeps.freezeItem {x x1} (h : Keeps o s) : Keeps o (State.freezeItem x x1 s).2 := by
  unfold State.freezeItem
  extract_lets s1
  have h1 : Keeps o s1 := h.rewTrigger
  exact .ite2 h h1

theorem Keeps.resumeItem {x x1} (h : Keeps o s) : Keeps o (State.resumeItem x x1 s).2 := by
  unfold State.resumeItem
  split
  · rename_i s1 e
    have h1 : Keeps o s1 := .of_snd e h.rewResume
    exact h1
  · rename_i s1 e
    have h1 : Keeps o s1 := .of_snd e h.rewResume
    exact h1

theorem Keeps.drainItem {x b} (h : Keeps o s) : Keeps o (State.drainItem x b s).2 := by
  unfold State.drainItem
  extract_lets
  split
  · rename_i s1 e
    have h1 : Keeps o s1 := .of_snd e h.drainStart
    extract_lets s2
    have h2 : Keeps o s2 := h1.setReg.setReg
    exact .pair h2.setReg.setReg
  · rename_i s1 e
    have h1 : Keeps o s1 := .of_snd e h.drainStart
    exact h1

theorem Keeps.drainAbortItem {x x1} (h : Keeps o s) : Keeps o (State.drainAbortItem x x1 s).2 := by
  unfold State.drainAbortItem
  split
  · rename_i s1 e
    have h1 : Keeps o s1 := .of_snd e h.drainAbort
    exact h1
  · rename_i s1 e
    have h1 : Keeps o s1 := .of_snd e h.drainAbort
    exact h1

theorem Keeps.placementRead {c b} (h : Keeps o s) : Keeps o (State.placementRead c b s).2 :=
  .ite2 h (.pair (.foldl2 (fun _ _ h => .pair h.upd) h))

theorem Keeps.retireItem {x b} (h : Keeps o s) : Keeps o (State.retireItem x b s).2 :=
  .ite2 h (.ite2 h (h.ifGen fun h => h.spareRetire))

/-! ### Machine/LoadStore.lean -/

theorem Keeps.openLoad {i rd v d bad} (h : Keeps o s) : Keeps o (s.openLoad i rd v d bad) := h.modThread

theorem Keeps.pktLoad {i n ea signed rd} (h : Keeps o s) : Eff.Keeps o (s.pktLoad i n ea signed rd) := by
  unfold State.pktLoad
  split
  · trivial
  · exact .ite trivial (.ite trivial h.lockRead.openLoad)
  · refine .ite trivial ?_
    split
    · trivial
    · exact h.openLoad
  · exact .ite trivial h.openLoad

/-- What the definition matches on goes under a name: the kernel would evaluate it, in unary arithmetic, to compare two matches. -/
theorem Keeps.pktStore {i n ea v} (h : Keeps o s) : Eff.Keeps o (s.pktStore i n ea v) := by
  unfold State.pktStore
  obtain ⟨store, hStore⟩ : ∃ store, store = Coach.legStore := ⟨_, rfl⟩
  rw [← hStore]
  split
  · trivial
  · exact .ite trivial (.ite trivial h.lockStore)
  · refine .ite trivial ?_
    split
    · trivial
    · split
      · trivial
      · exact h.setCoach
  · exact .ite trivial h.storeBytes

theorem Keeps.ctlDram {r a} (h : Keeps o s) : Keeps o (s.ctlDram r a) := .ite (.ite h.upd.dramReq h.upd) h

theorem Keeps.ctlLoad {c n ea signed rd} (h : Keeps o s) : Eff.Keeps o (s.ctlLoad c n ea signed rd) := by
  unfold State.ctlLoad
  split
  · rename_i e
    exact Keeps.of_snd e h.translate
  · rename_i a s1 e
    have h1 : Keeps o s1 := .of_snd e h.translate
    extract_lets put
    split
    · exact h1
    · exact .ite h1 h1.busRead.upd.modCtlc
    · exact .ite h1 h1.lockRead.modCtlc
    · refine .ite h1 ?_
      extract_lets s2
      have h2 : Keeps o s2 := .ite (Keeps.ite h1.touchLine h1).ctlDram h1
      exact .ite h2.raiseEcc.modCtlc.trapCtl h2.modCtlc

theorem Keeps.ctlStore {c n ea v} (h : Keeps o s) : Eff.Keeps o (s.ctlStore c n ea v) := by
  unfold State.ctlStore
  split
  · rename_i e
    exact Keeps.of_snd e h.translate
  · rename_i a s1 e
    have h1 : Keeps o s1 := .of_snd e h.translate
    split
    · exact h1
    · exact .ite h1 (.ite h1.busWrite.upd h1.busWrite.upd)
    · exact .ite h1 h1.lockStore
    · exact h1
    · exact h1
    · exact .ite h1 (.ite h1 h1.storeBytes)
    · exact .ite h1 (.ite h1.storeBytes (.ite h1.ctlDram.storeLine h1.ctlDram.writeBytes))

theorem Keeps.loadI {h1 op n signed rd ra imm} (h : Keeps o s) : Keeps o (s.loadI h1 op n signed rd ra imm) := by
  refine h.issue fun h => ?_
  cases h1 with
  | pkt m k t => exact h.pktLoad
  | ctl c => exact h.ctlLoad

theorem Keeps.storeI {h1 op n rs ra imm} (h : Keeps o s) : Keeps o (s.storeI h1 op n rs ra imm) := by
  refine h.issue fun h => ?_
  cases h1 with
  | pkt m k t => exact h.pktStore
  | ctl c => exact h.ctlStore

/-! ### Machine/Step.lean -/

theorem Keeps.idle (h : Keeps o s) : Keeps o s.idle := .ite h.advance h

/-! ### The commands and the step -/

/-- The outcome is a next state that differs from `o` as `Keeps` allows. -/
def NextKeeps (o : State) (r : Host.Outcome State Fault Refusal) : Prop := ∃ t, r = .next t ∧ Keeps o t

theorem Keeps.execChpoll {h1 rd ch} (h : Keeps o s) : NextKeeps o (execChpoll h1 rd ch s) := by
  refine ⟨_, rfl, h.issueP fun i s h => ?_⟩
  split
  · exact h.modThread
  · trivial

theorem Keeps.execSearchSlotServe {eng e margins} (h : Keeps o s) : NextKeeps o (execSearchSlotServe eng e margins s) := by
  have hServe : Keeps o (s.slotServe eng e) := h.slotServe
  exact ⟨_, rfl, .ite (Keeps.ite (.foldl (fun _ _ h => .ite h.fenceUnit h) hServe) hServe).ageSram
    (.ite (.foldl (fun _ _ h => .ite h.fenceUnit h) hServe) hServe)⟩

theorem Keeps.execHaltReset (h : Keeps o s) : NextKeeps o (execHaltReset s) := by
  unfold Machine.execHaltReset
  split
  · exact ⟨_, rfl, h⟩
  · have hReset {t} : Keeps o ((s.advance t).moduleReset 3) := h.advance.moduleReset
    exact ⟨_, rfl, .ite hReset.upd.setReg.setPhase hReset⟩

/-- Every command answers a next state; it changes memory and control space through their accessors alone, and queues nothing. -/
theorem Keeps.exec (h : Keeps o s) : ∀ c, NextKeeps o (exec c s)
  | .registerWrite .. => ⟨_, rfl, h.busWrite⟩
  | .powerUp => ⟨_, rfl, h.powerUp⟩
  | .railsSequenced => ⟨_, rfl, h.railsUp⟩
  | .refStable => ⟨_, rfl, h.refStable⟩
  | .rootPllLock .. => ⟨_, rfl, h.rootLock⟩
  | .bistDone .. => ⟨_, rfl, h.bist⟩
  | .imageSelect .. => ⟨_, rfl, h.selectImage⟩
  | .imageLoadDone .. => ⟨_, rfl, h.loadImage⟩
  | .packetPathStart => ⟨_, rfl, h.pathStart⟩
  | .epochBoundary => ⟨_, rfl, h.epochBoundary⟩
  | .migrationPrepDone .. => ⟨_, rfl, h.migPrepared⟩
  | .migrationDone .. => ⟨_, rfl, h.migDone⟩
  | .frameReceive .. => ⟨_, rfl, h.frameReceive⟩
  | .lensScanDone .. => ⟨_, rfl, h.lensScan⟩
  | .bodyCellArrival .. => ⟨_, rfl, h.bodyArrive⟩
  | .verdictFinal .. => ⟨_, rfl, h.verdictFinal⟩
  | .entrySearch .. => ⟨_, rfl, h.entrySearch⟩
  | .ingressStreamSearch .. => ⟨_, rfl, h.streamSearch⟩
  | .coachEnterS0 .. => ⟨_, rfl, h.enterS0⟩
  | .couplerRelease .. => ⟨_, rfl, h.couplerRelease⟩
  | .dispatch .. => ⟨_, rfl, h.dispatch⟩
  | .dispatchStall .. => ⟨_, rfl, h.dispatchStall⟩
  | .egressSelection .. => ⟨_, rfl, .ite h.selectRing h.select⟩
  | .copyTransmitEnd .. => ⟨_, rfl, h.transmitEnd⟩
  | .stnMonClear .. => ⟨_, rfl, h.monWrite⟩
  | .stnEpochLoRead .. => ⟨_, rfl, .ite h.latchHi h.latchHi⟩
  | .timeIncrLoWrite .. => ⟨_, rfl, h.incrLoWrite⟩
  | .timeIncrCommit .. => ⟨_, rfl, h.incrHiWrite⟩
  | .slewStart .. => ⟨_, rfl, h.slewWrite⟩
  | .slewEnd .. => ⟨_, rfl, h.endSlew⟩
  | .stepArm .. => ⟨_, rfl, h.stepCtlWrite⟩
  | .stepApply .. => ⟨_, rfl, h.applyStep⟩
  | .timeSecHiRead .. => ⟨_, rfl, h.secHiRead⟩
  | .timeSnapTake => ⟨_, rfl, h.snapWrite⟩
  | .timeSnapRelease => ⟨_, rfl, h.snapWrite⟩
  | .timeConvGo .. => ⟨_, rfl, h.convWrite⟩
  | .timeConvDone => ⟨_, rfl, h.convDone⟩
  | .timeOfsWrite .. => ⟨_, rfl, h.ofsWrite⟩
  | .timeRefSrcClear .. => ⟨_, rfl, h.refWrite⟩
  | .refTimeout .. => ⟨_, rfl, h.refTimeout⟩
  | .holdIncrUpdate .. => ⟨_, rfl, h.holdIncrUpdate⟩
  | .holdoverTcomp .. => ⟨_, rfl, h.tcomp⟩
  | .holdoverElapsedTick .. => ⟨_, rfl, h.elapsedTick⟩
  | .warmSet => ⟨_, rfl, h.warmSet⟩
  | .oscMeasure => ⟨_, rfl, h.oscMeasure⟩
  | .timeParityError .. => ⟨_, rfl, h.timeParity⟩
  | .txtsPop => ⟨_, rfl, h.popTxts⟩
  | .driftMeasure .. => ⟨_, rfl, h.driftMeasure⟩
  | .trigEnable .. => ⟨_, rfl, h.trigCfgWrite⟩
  | .trigDisable .. => ⟨_, rfl, h.trigCfgWrite⟩
  | .trigEntryRead .. => ⟨_, rfl, h.trigRead⟩
  | .trigEntryWrite .. => ⟨_, rfl, h.schedWrite⟩
  | .trigEdgeCommit .. => ⟨_, rfl, h.trigCommit⟩
  | .trigEdgeDrive .. => ⟨_, rfl, h.edgeDrive⟩
  | .ppsoPulse .. => ⟨_, rfl, h.ppsoPulse⟩
  | .evtEdge .. => ⟨_, rfl, h.evtEdge⟩
  | .evtqPop => ⟨_, rfl, h.popStamp⟩
  | .ppsInEdge .. => ⟨_, rfl, h.ppsEdge⟩
  | .ppsInLost .. => ⟨_, rfl, h.ppsLost⟩
  | .ppsiSecHiRead .. => ⟨_, rfl, h.ppsiRead⟩
  | .driverShortGnd .. => ⟨_, rfl, h.driverFault⟩
  | .driverShortNet .. => ⟨_, rfl, h.driverFault⟩
  | .driverThermal .. => ⟨_, rfl, h.driverFault⟩
  | .driverOpenTest .. => ⟨_, rfl, h.openTestAt⟩
  | .diagClear .. => ⟨_, rfl, h.diagClear⟩
  | .polarityInvert .. => ⟨_, rfl, h.polarityInvert⟩
  | .inputOvervoltage .. => ⟨_, rfl, h.overvoltage⟩
  | .tioResume => ⟨_, rfl, h.tioResume⟩
  | .add .. => ⟨_, rfl, h.alu⟩
  | .sub .. => ⟨_, rfl, h.alu⟩
  | .and .. => ⟨_, rfl, h.alu⟩
  | .or .. => ⟨_, rfl, h.alu⟩
  | .xor .. => ⟨_, rfl, h.alu⟩
  | .andn .. => ⟨_, rfl, h.alu⟩
  | .sll .. => ⟨_, rfl, h.alu⟩
  | .srl .. => ⟨_, rfl, h.alu⟩
  | .sra .. => ⟨_, rfl, h.alu⟩
  | .slt .. => ⟨_, rfl, h.alu⟩
  | .sltu .. => ⟨_, rfl, h.alu⟩
  | .min .. => ⟨_, rfl, h.alu⟩
  | .max .. => ⟨_, rfl, h.alu⟩
  | .minu .. => ⟨_, rfl, h.alu⟩
  | .maxu .. => ⟨_, rfl, h.alu⟩
  | .mul .. => ⟨_, rfl, h.alu⟩
  | .mulh .. => ⟨_, rfl, h.alu⟩
  | .mulhu .. => ⟨_, rfl, h.alu⟩
  | .revh .. => ⟨_, rfl, h.alu1⟩
  | .revw .. => ⟨_, rfl, h.alu1⟩
  | .revd .. => ⟨_, rfl, h.alu1⟩
  | .clz .. => ⟨_, rfl, h.alu1⟩
  | .ctz .. => ⟨_, rfl, h.alu1⟩
  | .popc .. => ⟨_, rfl, h.alu1⟩
  | .addi .. => ⟨_, rfl, h.aluI⟩
  | .andi .. => ⟨_, rfl, h.aluI⟩
  | .ori .. => ⟨_, rfl, h.aluI⟩
  | .xori .. => ⟨_, rfl, h.aluI⟩
  | .slli .. => ⟨_, rfl, h.aluI⟩
  | .srli .. => ⟨_, rfl, h.aluI⟩
  | .srai .. => ⟨_, rfl, h.aluI⟩
  | .slti .. => ⟨_, rfl, h.aluI⟩
  | .sltiu .. => ⟨_, rfl, h.aluI⟩
  | .lui .. => ⟨_, rfl, h.aluI⟩
  | .ins16 .. => ⟨_, rfl, h.issue fun h => h.rset⟩
  | .bfx .. => ⟨_, rfl, h.aluI⟩
  | .bfi .. => ⟨_, rfl, h.issue fun h => h.rset⟩
  | .lb .. => ⟨_, rfl, h.loadI⟩
  | .lbu .. => ⟨_, rfl, h.loadI⟩
  | .lh .. => ⟨_, rfl, h.loadI⟩
  | .lhu .. => ⟨_, rfl, h.loadI⟩
  | .lw .. => ⟨_, rfl, h.loadI⟩
  | .lwu .. => ⟨_, rfl, h.loadI⟩
  | .ld .. => ⟨_, rfl, h.loadI⟩
  | .sb .. => ⟨_, rfl, h.storeI⟩
  | .sh .. => ⟨_, rfl, h.storeI⟩
  | .sw .. => ⟨_, rfl, h.storeI⟩
  | .sd .. => ⟨_, rfl, h.storeI⟩
  | .beq .. => ⟨_, rfl, h.branch⟩
  | .bne .. => ⟨_, rfl, h.branch⟩
  | .blt .. => ⟨_, rfl, h.branch⟩
  | .bge .. => ⟨_, rfl, h.branch⟩
  | .bltu .. => ⟨_, rfl, h.branch⟩
  | .bgeu .. => ⟨_, rfl, h.branch⟩
  | .dbnz .. => ⟨_, rfl, h.dbnz⟩
  | .jal .. => ⟨_, rfl, h.issue fun h => h.callTo⟩
  | .jr .. => ⟨_, rfl, h.issue fun h => h.jumpTo⟩
  | .jalr .. => ⟨_, rfl, h.issue fun h => h.callTo⟩
  | .ret .. => ⟨_, rfl, h.issue fun h => h.jumpTo⟩
  | .mflk .. => ⟨_, rfl, h.issue fun h => h.rset⟩
  | .mtlk .. => ⟨_, rfl, h.mtlk⟩
  | .chrd .. => ⟨_, rfl, h.issueP fun _ _ h => h.chrd⟩
  | .chrdResume .. => ⟨_, rfl, h.chrdResume⟩
  | .chwr .. => ⟨_, rfl, h.issueP fun _ _ h => h.chwr⟩
  | .chwrResume .. => ⟨_, rfl, h.chwrResume⟩
  | .chpoll .. => h.execChpoll
  | .chflush .. => ⟨_, rfl, h.issueP fun _ _ h => h.chflush⟩
  | .fork .. => ⟨_, rfl, h.issueP fun _ _ h => .ite trivial h.fork⟩
  | .join .. => ⟨_, rfl, h.issueP fun _ _ h => .ite trivial h.join⟩
  | .joinResume .. => ⟨_, rfl, h.joinResume⟩
  | .quit .. => ⟨_, rfl, h.issueP fun _ _ h => .ite trivial h.quit⟩
  | .tauNow .. => ⟨_, rfl, h.xop⟩
  | .tauConv .. => ⟨_, rfl, h.xop⟩
  | .tauAddns .. => ⟨_, rfl, h.xop⟩
  | .tauDiff .. => ⟨_, rfl, h.xop⟩
  | .tauResid .. => ⟨_, rfl, h.xop⟩
  | .hshCrc32c .. => ⟨_, rfl, h.xop⟩
  | .hshCrc32 .. => ⟨_, rfl, h.xop⟩
  | .hshCrc0 .. => ⟨_, rfl, h.xop⟩
  | .hshHash .. => ⟨_, rfl, h.xop⟩
  | .cryAcq .. => ⟨_, rfl, h.xop⟩
  | .cryRel .. => ⟨_, rfl, h.xop⟩
  | .cryTag .. => ⟨_, rfl, h.xop⟩
  | .cryVerify .. => ⟨_, rfl, h.xop⟩
  | .crySync .. => ⟨_, rfl, h.xop⟩
  | .xopResume .. => ⟨_, rfl, h.xopResume⟩
  | .xopResult .. => ⟨_, rfl, h.xopResult⟩
  | .xopLateError .. => ⟨_, rfl, h.xopLate⟩
  | .cryLockGrant .. => ⟨_, rfl, h.cryGrant⟩
  | .xget .. => ⟨_, rfl, h.issueP fun _ _ h => h.xget⟩
  | .xgetResume .. => ⟨_, rfl, h.xgetResume⟩
  | .srqClause .. => ⟨_, rfl, h.srq⟩
  | .srqFdb .. => ⟨_, rfl, h.srq⟩
  | .srqLpm .. => ⟨_, rfl, h.srq⟩
  | .srqStream .. => ⟨_, rfl, h.srq⟩
  | .srqTread .. => ⟨_, rfl, h.srq⟩
  | .srqResume .. => ⟨_, rfl, h.srqResume⟩
  | .fence .. => ⟨_, rfl, h.issue fun h => h⟩
  | .trap .. => ⟨_, rfl, h.issue fun _ => trivial⟩
  | .tres .. => ⟨_, rfl, h.super fun _ _ _ h => .ite h.resumeAt.modThread h.modThread⟩
  | .tent .. => ⟨_, rfl, h.super fun _ _ _ h => h.tent⟩
  | .trdw .. => ⟨_, rfl, h.super fun _ _ _ h => h.modThread⟩
  | .twrw .. => ⟨_, rfl, h.super fun _ _ _ h => .ite h.modThread h⟩
  | .tstat .. => ⟨_, rfl, h.super fun _ _ _ h => h.modThread⟩
  | .trapItemDeferredSend .. => ⟨_, rfl, h.sendDeferred⟩
  | .eret .. => ⟨_, rfl, h.priv fun _ _ h => .ite trivial h.eret⟩
  | .mfsr .. => ⟨_, rfl, h.priv fun _ _ h => h.modCtlc⟩
  | .mtsr .. => ⟨_, rfl, h.priv fun _ _ h => h.mtsr⟩
  | .wfi .. => ⟨_, rfl, h.priv fun _ _ h => h.wfi⟩
  | .tlbi .. => ⟨_, rfl, h.priv fun _ _ h => h.tlbi⟩
  | .tlbia .. => ⟨_, rfl, h.priv fun _ _ h => h.modCtlc⟩
  | .dcwb .. => ⟨_, rfl, h.priv fun _ _ h => h.cacheOp fun _ _ h => h.dcwb⟩
  | .dcinv .. => ⟨_, rfl, h.priv fun _ _ h => h.cacheOp fun _ _ h => h.dcinv⟩
  | .icinv .. => ⟨_, rfl, h.priv fun _ _ h => h.cacheOp fun _ _ h => h.icinv⟩
  | .l2EvictAck .. => ⟨_, rfl, h.evictAck⟩
  | .ctlInterrupt .. => ⟨_, rfl, h.interrupt⟩
  | .standstill .. => ⟨_, rfl, h.standstill⟩
  | .rawEnable .. => ⟨_, rfl, h.rawCfgWrite⟩
  | .rawDisable .. => ⟨_, rfl, h.rawCfgWrite⟩
  | .rawHuntMatch .. => ⟨_, rfl, h.rawMatch⟩
  | .rawConfirmCheck .. => ⟨_, rfl, h.rawConfirm⟩
  | .rawFrameDeliver .. => ⟨_, rfl, h.rawDeliver⟩
  | .searchSlotServe .. => h.execSearchSlotServe
  | .searchResult .. => ⟨_, rfl, h.searchResult⟩
  | .learnItemRun => ⟨_, rfl, h.learnItem⟩
  | .clauseInsert .. => ⟨_, rfl, h.clauseCtl⟩
  | .clauseDelete .. => ⟨_, rfl, h.clauseCtl⟩
  | .privWrite .. => ⟨_, rfl, h.clauseCtl⟩
  | .privClear .. => ⟨_, rfl, h.clauseCtl⟩
  | .clauseRead .. => ⟨_, rfl, h.clauseCtl⟩
  | .clauseUpdateDone => ⟨_, rfl, h.clauseDone⟩
  | .clauseUpdateStall => ⟨_, rfl, h.clauseStall⟩
  | .clauseTenseCommit => ⟨_, rfl, h.tenseWrite⟩
  | .clauseTenseAbort => ⟨_, rfl, h.tenseWrite⟩
  | .clauseTenseVoid => ⟨_, rfl, h.tenseWrite⟩
  | .tenseCommitEffect => ⟨_, rfl, h.commitEffect⟩
  | .tenseAbortDone => ⟨_, rfl, h.abortDone⟩
  | .settlePassStart => ⟨_, rfl, h.settleStart⟩
  | .settlePassDone => ⟨_, rfl, h.settleDone⟩
  | .tenseDrainCheck => ⟨_, rfl, h.drainCheck⟩
  | .clauseBlockCopyDone => ⟨_, rfl, h.blockCopied⟩
  | .ageTick => ⟨_, rfl, h.ageTick⟩
  | .ageTickWrite .. => ⟨_, rfl, h.ageWrite⟩
  | .frerLatentCheck => ⟨_, rfl, h.latentCheck⟩
  | .fdbWrite => ⟨_, rfl, h.fwdCtlWrite⟩
  | .fdbDelete => ⟨_, rfl, h.fwdCtlWrite⟩
  | .fdbFlush => ⟨_, rfl, h.fwdCtlWrite⟩
  | .lpmAdd => ⟨_, rfl, h.fwdCtlWrite⟩
  | .lpmDelete => ⟨_, rfl, h.fwdCtlWrite⟩
  | .strInsert => ⟨_, rfl, h.fwdCtlWrite⟩
  | .strDelete => ⟨_, rfl, h.fwdCtlWrite⟩
  | .paramWrite => ⟨_, rfl, h.fwdCtlWrite⟩
  | .frerReset => ⟨_, rfl, h.fwdCtlWrite⟩
  | .fwdRead => ⟨_, rfl, h.fwdCtlWrite⟩
  | .fwdUpdateDone => ⟨_, rfl, h.fwdDone⟩
  | .fwdPortSkindWrite .. => ⟨_, rfl, h.fwdPortWrite⟩
  | .egrQuotaWrite .. => ⟨_, rfl, h.qcfgWrite⟩
  | .gclArm .. => ⟨_, rfl, h.gclWrite⟩
  | .gclBankSwitch .. => ⟨_, rfl, h.gclSwitch⟩
  | .gateBoundary .. => ⟨_, rfl, h.gateBoundary⟩
  | .preemptVerifySend .. => ⟨_, rfl, h.verifySend⟩
  | .preemptVerifyResponse .. => ⟨_, rfl, h.verifyResponse⟩
  | .preemptVerifyFail .. => ⟨_, rfl, h.verifyFail⟩
  | .queueFlush .. => ⟨_, rfl, h.flushQueue⟩
  | .refusalNotice => ⟨_, rfl, h.refusalNotice⟩
  | .yardScrubStep .. => ⟨_, rfl, .ite h.yardScrub.ageSram h.yardScrub⟩
  | .poolGet .. => ⟨_, rfl, h.poolGetRead⟩
  | .poolPut .. => ⟨_, rfl, h.poolPutWrite⟩
  | .poolGive .. => ⟨_, rfl, h.poolGiveWrite⟩
  | .poolMinClear .. => ⟨_, rfl, h.poolMinWrite⟩
  | .auditSelWrite .. => ⟨_, rfl, h.auditSel⟩
  | .auditPassEnd .. => ⟨_, rfl, h.auditPassEnd⟩
  | .rewindRecordWrite => ⟨_, rfl, h.recordWrite⟩
  | .rewCtlEnable => ⟨_, rfl, h.rewEnable⟩
  | .rewCtlDisable => ⟨_, rfl, h.rewDisable⟩
  | .rewCtlFreeze => ⟨_, rfl, h.rewTrigger⟩
  | .rewindPostEnd => ⟨_, rfl, h.rewPostEnd⟩
  | .rewindFrozenEntry => ⟨_, rfl, h.rewFrozen⟩
  | .rewCtlResume => ⟨_, rfl, h.rewResume⟩
  | .rewCtlDrain => ⟨_, rfl, h.drainRegs⟩
  | .rewCtlAbort => ⟨_, rfl, h.drainAbort⟩
  | .drainFrameSend => ⟨_, rfl, h.drainSend⟩
  | .drainComplete => ⟨_, rfl, h.drainComplete⟩
  | .drainPaceContinue => ⟨_, rfl, h.drainContinue⟩
  | .drainStall => ⟨_, rfl, h.drainStall⟩
  | .rewLoRead .. => ⟨_, rfl, h.latchHi⟩
  | .dramSlotServe .. => ⟨_, rfl, h.dramSlotServe⟩
  | .refreshIssue .. => ⟨_, rfl, h.refreshIssue⟩
  | .mr4Read .. => ⟨_, rfl, h.mr4Read⟩
  | .extraRefresh .. => ⟨_, rfl, h.extraRefresh⟩
  | .selfRefreshEntry .. => ⟨_, rfl, h.srEntry⟩
  | .selfRefreshExit .. => ⟨_, rfl, h.srExit⟩
  | .smcFreqGo .. => ⟨_, rfl, h.freqWrite⟩
  | .dphyPllLock .. => ⟨_, rfl, h.dphyLock⟩
  | .freqChangeComplete => ⟨_, rfl, h.freqComplete⟩
  | .freqChangeFail => ⟨_, rfl, h.freqFail⟩
  | .smcRetireGo .. => ⟨_, rfl, h.retireWrite⟩
  | .retireCopyDone => ⟨_, rfl, h.retireCopied⟩
  | .iotlbInvalidate .. => ⟨_, rfl, h.iotlbWrite⟩
  | .iotlbInvalidateDone => ⟨_, rfl, h.iotlbDone⟩
  | .taskAlloc => ⟨_, rfl, h.taskAlloc⟩
  | .taskPost .. => ⟨_, rfl, h.taskPost⟩
  | .taskTake .. => ⟨_, rfl, h.taskTake⟩
  | .taskYield .. => ⟨_, rfl, h.taskReturn⟩
  | .taskPreempt .. => ⟨_, rfl, h.taskReturn⟩
  | .taskDone .. => ⟨_, rfl, h.taskDone⟩
  | .taskFree .. => ⟨_, rfl, h.taskFree⟩
  | .taskSlotCfgWrite .. => ⟨_, rfl, h.slotCfgWrite⟩
  | .watchdogKick .. => ⟨_, rfl, h.wdogWrite⟩
  | .watchdogHalf .. => ⟨_, rfl, h.wdogHalf⟩
  | .watchdogExpire .. => ⟨_, rfl, h.wdogExpire⟩
  | .lockAcquire .. => ⟨_, rfl, h.lockAcquire⟩
  | .lockAliasStore .. => ⟨_, rfl, h.lockAliasStore⟩
  | .leaseTick => ⟨_, rfl, h.leaseTick⟩
  | .stuckLockCheck => ⟨_, rfl, h.stuckCheck⟩
  | .lockBreakGo => ⟨_, rfl, h.lockBreakWrite⟩
  | .dmaEnable .. => ⟨_, rfl, h.dmaCfgWrite⟩
  | .dmaKick .. => ⟨_, rfl, h.dmaKick⟩
  | .dmaDescriptorStart .. => ⟨_, rfl, h.dmaStart⟩
  | .dmaTxContinue .. => ⟨_, rfl, h.dmaContinue⟩
  | .dmaDescriptorComplete .. => ⟨_, rfl, h.dmaComplete⟩
  | .dmaResume .. => ⟨_, rfl, h.dmaCtlWrite⟩
  | .dmaSkip .. => ⟨_, rfl, h.dmaCtlWrite⟩
  | .dmaAbort .. => ⟨_, rfl, h.dmaCtlWrite⟩
  | .rxRingWrite .. => ⟨_, rfl, h.ringWrite⟩
  | .ringSeenWrite .. => ⟨_, rfl, h.dmaSeen⟩
  | .jenFrameReceive .. => ⟨_, rfl, h.jenReceive⟩
  | .ping => ⟨_, rfl, h.perform fun _ _ _ h => h.ping⟩
  | .read => ⟨_, rfl, h.perform fun _ _ _ h => h.jenRead⟩
  | .write => ⟨_, rfl, h.perform fun _ _ _ h => h.jenWrite⟩
  | .readBlock => ⟨_, rfl, h.perform fun _ _ _ h => h.jenReadBlock⟩
  | .tableWrite => ⟨_, rfl, h.perform fun _ _ _ h => h.tableWrite⟩
  | .tenseCommit => ⟨_, rfl, h.perform fun _ _ _ h => h.tenseItem fun h => h.commitReq⟩
  | .tenseCommitAbort => ⟨_, rfl, h.perform fun _ _ _ h => h.tenseItem fun h => h.abortReq⟩
  | .tenseCommitVoid => ⟨_, rfl, h.perform fun _ _ _ h => h.tenseItem fun h => h.voidReq⟩
  | .stateQuery => ⟨_, rfl, h.perform fun _ _ _ h => h.stateQuery⟩
  | .unitReset => ⟨_, rfl, h.perform fun _ _ _ h => h.unitItem fun _ _ h => h.unitReset⟩
  | .unitFence => ⟨_, rfl, h.perform fun _ _ _ h => h.unitItem fun _ _ h => h.unitFence⟩
  | .unitUnfence => ⟨_, rfl, h.perform fun _ _ _ h => h.unitItem fun _ _ h => h.unitUnfence⟩
  | .unitResetDone .. => ⟨_, rfl, h.resetDone⟩
  | .unitResetTimeout .. => ⟨_, rfl, h.resetTimeout⟩
  | .lockBreak => ⟨_, rfl, h.perform fun _ _ _ h => h.lockBreakItem⟩
  | .auditRead => ⟨_, rfl, h.perform fun _ _ _ h => h.auditRead⟩
  | .faultClear => ⟨_, rfl, h.perform fun _ _ _ h => h.faultClear⟩
  | .journalRead => ⟨_, rfl, h.perform fun _ _ _ h => h.journalRead⟩
  | .imageWrite => ⟨_, rfl, h.perform fun _ _ _ h => h.imageWriteItem⟩
  | .imageWriteDone => ⟨_, rfl, h.imageWritten⟩
  | .imageActivateNext => ⟨_, rfl, h.perform fun _ _ _ h => h.activateItem fun _ _ _ h => h.activateNext⟩
  | .imageActivateNow => ⟨_, rfl, h.perform fun _ _ _ h => h.activateItem fun _ _ _ h => h.activateNow⟩
  | .imageActivateRestart => ⟨_, rfl, h.activateRestart⟩
  | .timeSet => ⟨_, rfl, h.perform fun _ _ _ h => h.timeSet⟩
  | .timeAdjustIncr => ⟨_, rfl, h.perform fun _ _ _ h => h.adjustIncr⟩
  | .timeAdjustSlew => ⟨_, rfl, h.perform fun _ _ _ h => h.adjustSlew⟩
  | .rewindFreeze => ⟨_, rfl, h.perform fun _ _ _ h => h.freezeItem⟩
  | .rewindFreezeResume => ⟨_, rfl, h.perform fun _ _ _ h => h.resumeItem⟩
  | .rewindDrainStart => ⟨_, rfl, h.perform fun _ _ _ h => h.drainItem⟩
  | .rewindDrainAbort => ⟨_, rfl, h.perform fun _ _ _ h => h.drainAbortItem⟩
  | .placementRead => ⟨_, rfl, h.perform fun _ _ _ h => h.placementRead⟩
  | .spareRetire => ⟨_, rfl, h.perform fun _ _ _ h => h.retireItem⟩
  | .noticeConfig => ⟨_, rfl, h.perform fun _ _ _ h => h.noticeConfig⟩
  | .sessionOpen => ⟨_, rfl, h.openFront⟩
  | .sessionClose => ⟨_, rfl, h.closeFront⟩
  | .sessionIdleClose .. => ⟨_, rfl, h.idleClose⟩
  | .jenAck .. => ⟨_, rfl, .ite h.jenReceive h.advance⟩
  | .noticeResend => ⟨_, rfl, h.noticeResend⟩
  | .moduleReset .. => ⟨_, rfl, .ite h.moduleReset h⟩
  | .resetNAssert => ⟨_, rfl, h.moduleReset.upd⟩
  | .resetNRelease => ⟨_, rfl, h.upd⟩
  | .faultLatch .. => ⟨_, rfl, h.faultLatch⟩
  | .haltReset => h.execHaltReset
  | .collectorParityError .. => ⟨_, rfl, h.collectorParity⟩
  | .faultPendClear .. => ⟨_, rfl, h.pendWrite⟩
  | .fltRearm .. => ⟨_, rfl, h.fltCtlWrite⟩
  | .journalWriteDone => ⟨_, rfl, h.journalWrite⟩
  | .journalMemFail .. => ⟨_, rfl, h.journalFail⟩
  | .availRecord => ⟨_, rfl, h.availHour⟩
  | .coreRotation .. => ⟨_, rfl, h.rotate⟩
  | .rotationTestDone .. => ⟨_, rfl, h.rotationTested⟩
  | .blockRotation => ⟨_, rfl, h.blockRotate⟩
  | .laneAgingMeasure .. => ⟨_, rfl, h.laneAging⟩
  | .linkUp .. => ⟨_, rfl, h.linkUpAt⟩
  | .linkDown .. => ⟨_, rfl, .foldl (fun _ _ h => h.lossCheck) h.advance.linkDown.linkCut⟩
  | .cdcPulseMerge .. => ⟨_, rfl, h.cdcMerge⟩
  | .refLost .. => ⟨_, rfl, h.refLost⟩
  | .clkMonitor .. => ⟨_, rfl, h.levelSource⟩
  | .pwrOsc .. => ⟨_, rfl, h.levelSource⟩
  | .lanePllLoss .. => ⟨_, rfl, h.lanePllLoss⟩
  | .rootUnlock => ⟨_, rfl, h.rootUnlock⟩
  | .vinOver .. => ⟨_, rfl, h.setVin.watch⟩
  | .vinUnder .. => ⟨_, rfl, h.setVin.watch⟩
  | .vinReversed .. => ⟨_, rfl, h.setVin.watch⟩
  | .vinClamp => ⟨_, rfl, h.raise⟩
  | .inputDisconnect .. => ⟨_, rfl, h.setBit.inputLost.setVin⟩
  | .inputLoss .. => ⟨_, rfl, h.inputLost.setVin⟩
  | .lossConfirm => ⟨_, rfl, h.lossConfirm⟩
  | .railsOff .. => ⟨_, rfl, h.railsOff⟩
  | .convFault .. => ⟨_, rfl, h.levelSource⟩
  | .thermalMeasure .. => ⟨_, rfl, h.thermal⟩
  | .wakeDrop .. => ⟨_, rfl, h.wakeFell⟩
  | .lowPowerEnter => ⟨_, rfl, h.graceEnd⟩
  | .pwrCtlEnter .. => ⟨_, rfl, h.pwrCtlWrite⟩
  | .pwrCtlHold .. => ⟨_, rfl, h.pwrCtlWrite⟩
  | .wakeAssert .. => ⟨_, rfl, h.wakeRose⟩
  | .holdupTest .. => ⟨_, rfl, h.holdupTest⟩
  | .cbusTransaction .. => ⟨_, rfl, h.cbusWrite⟩
  | .cbusDone .. => ⟨_, rfl, h.cbusDone⟩
  | .mdioAddress .. => ⟨_, rfl, h.mdioWrite⟩
  | .mdioWrite .. => ⟨_, rfl, h.mdioWrite⟩
  | .mdioRead .. => ⟨_, rfl, h.mdioWrite⟩
  | .mdioReadInc .. => ⟨_, rfl, h.mdioWrite⟩
  | .mdioDone .. => ⟨_, rfl, h.mdioDone⟩
  | .jtagInstruction .. => ⟨_, rfl, h.jtag⟩
  | .pinCommit .. => ⟨_, rfl, h.pinCommitWrite⟩
  | .pinDriveStart .. => ⟨_, rfl, h.pinDrive⟩
  | .holdupReady => ⟨_, rfl, .ite h.setBit h⟩
  | .inputReconnect .. => ⟨_, rfl, .setVin (.ite h.setBit.lossEnds h)⟩
  | .dipEnd .. => ⟨_, rfl, h.lossEnds.setVin⟩
  | .imageVerifyDone => ⟨_, rfl, h.verified⟩
  | .yardBankCopyDone => ⟨_, rfl, h.bankCopied⟩
  | .clauseBlockTestDone .. => ⟨_, rfl, h.blockTested⟩
  | .wfiWake .. => ⟨_, rfl, h.wfiWake⟩

/-- A step is taken from the state whose queue has lost its front command. -/
theorem step_keeps (s : State) : NextKeeps { s with pending := s.pending.tail } (step s) := by
  unfold step
  split
  · rename_i hNone
    have hStart : Keeps { s with pending := s.pending.tail } s := ⟨id, id, by simp [hNone]⟩
    exact ⟨_, rfl, hStart.idle⟩
  · rename_i c rest hCons
    rw [hCons]
    exact Keeps.refl.exec c

theorem keeps_of_step {t : State} (hStep : step s = .next t) : Keeps { s with pending := s.pending.tail } t := by
  obtain ⟨u, hNext, hKeeps⟩ := step_keeps s
  cases hStep.symm.trans hNext
  exact hKeeps

end Sys2Proof.Machine
end

section
namespace Sys2Proof.Machine

/-- Settles O54: every operation that a step calls writes memory and control space through accessors that keep their canonical forms. -/
theorem stepKeepsCanonicalForm : Obligations.StepKeepsCanonicalForm := by
  intro s t hMem hCtl hStep
  have hKeeps := keeps_of_step hStep
  exact ⟨hKeeps.mem hMem, hKeeps.ctl hCtl⟩

/-- Settles O55: no operation that a step calls touches the queue, whose front the step itself has taken. -/
theorem stepsServeTheQueueInOrder : Obligations.StepsServeTheQueueInOrder := fun _ _ hStep => (keeps_of_step hStep).pending

end Sys2Proof.Machine
end

section
/-!
The state right after reset (O53).
-/
namespace Sys2Proof.Machine

/-- Settles O53: the registers and the bytes of the reset state are its reset tables by definition, and the values of the named registers
are read off those tables. -/
theorem resetState : Obligations.ResetState := by
  refine ⟨fun _ => rfl, ?sysId, ?poolBase, ?poolMin, ?tense, ?epoch, rfl, rfl, fun _ => rfl, rfl, rfl⟩
  case sysId => decide
  case poolBase => decide
  case poolMin => decide
  case tense => decide
  case epoch => decide

end Sys2Proof.Machine
end

section
/-!
Register frames (O60). A ready list is plain data: nothing in the model keeps a number of 1024 or more out of it, and the register that
TASK_TAKE writes for such a slot lies outside the TASK block.
-/
namespace Sys2Proof.Machine

/-- A number no slot has; by its offset its state register is the second word of the LOCK block. -/
def straySlot : Nat := 0x1FE00

/-- The reset state with the stray slot on the ready list of priority 0. -/
def strayReady : State := { State.reset with cpu := { State.reset.cpu with ready := [(0, [straySlot])] } }

theorem slotStR_straySlot : slotStR straySlot = lockB + 4 := by decide

theorem strayReady_reg_lock : strayReady.reg (slotStR straySlot) = 0 := by decide

theorem strayReady_taskTake_reg_lock : (strayReady.taskTake (.hart (.ctl 0))).reg (slotStR straySlot) = 3 := by decide +kernel

/-- Refutes O60: with slot 0x1FE00 on a ready list, TASK_TAKE by core 0 takes that slot and writes its STATE into a register of the LOCK
block, where the statement allows changes in the TASK block alone. -/
theorem not_registerFrames : ¬ Obligations.RegisterFrames := by
  intro h
  obtain ⟨hTask, -⟩ := h 0 0 0 0 0 0 0 0 0 0 .other 0 0 0 0 0 false strayReady
  obtain ⟨t, hExec, hBlocks, -⟩ := hTask (.taskTake 0) (by simp)
  have hTaken : strayReady.taskTake (.hart (.ctl 0)) = t := Host.Outcome.next.inj hExec
  have hKept : t.reg (slotStR straySlot) = strayReady.reg (slotStR straySlot) := hBlocks _ (by decide) (by decide)
  rw [← hTaken, strayReady_taskTake_reg_lock, strayReady_reg_lock] at hKept
  exact absurd hKept (by decide)

end Sys2Proof.Machine
end

section
/-!
What REGISTER_WRITE does (O51): the dispatch of a bus write by address, one lemma per register with a command of its own.
-/
namespace Sys2Proof.Machine

variable {s : State}

theorem inControl_iff {a : Nat} : inControl a = true ↔ block 0 ≤ a ∧ a < block 26 := by
  simp only [inControl, Bool.and_eq_true, decide_eq_true_eq]

/-- REGISTER_WRITE of an aligned control-space word writes that register and answers. -/
theorem exec_registerWrite_ofNat (r : Requester) (b : Nat) (v : Word) (hWord : b % 4 = 0) (hIn : inControl b = true) :
    exec (.registerWrite r (BitVec.ofNat 40 b) v) s = .next (s.regWrite r b v).answerWrite := by
  have hLt : b < 2 ^ 40 := by
    have := (inControl_iff.mp hIn).2
    simp only [block] at this
    omega
  have hAddr : (BitVec.ofNat 40 b).toNat = b := by rw [BitVec.toNat_ofNat, Nat.mod_eq_of_lt hLt]
  show Host.Outcome.next (s.busWrite r (BitVec.ofNat 40 b).toNat v) = _
  rw [hAddr, State.busWrite, if_neg (by simp [hWord, hIn])]

theorem busWrite_of_bad {r : Requester} {n : Nat} {v : Word} (h : n % 4 ≠ 0 ∨ inControl n = false) :
    s.busWrite r n v = { s with resp := .error } := by
  rw [State.busWrite, if_pos (by simpa using h)]

theorem busWrite_of_control {r : Requester} {n : Nat} {v : Word} (hWord : n % 4 = 0) (hIn : inControl n = true) :
    s.busWrite r n v = (s.regWrite r n v).answerWrite := by
  rw [State.busWrite, if_neg (by simp [hWord, hIn])]

/-- The CLK, LANE, PORT and YARD blocks hold no register with a behaviour of its own. -/
theorem regWrite_plain_block {r : Requester} {n : Nat} {v : Word} (h : (n - block 0) / 0x100000 ∈ [1, 6, 7, 14]) :
    s.regWrite r n v = s.plain n v := by
  simp only [List.mem_cons, List.not_mem_nil, or_false] at h
  unfold State.regWrite
  rcases h with h | h | h | h <;> simp only [h]

/-! ### Registers with a command of their own -/

theorem regWrite_pendR (r : Requester) (w : Fin 8) (v : Word) : s.regWrite r (pendR w) v = s.pendWrite w v := by
  have hBlock : (pendR w - block 0) / 0x100000 = 22 := by simp only [pendR, fltB, block]; omega
  have hOff : pendR w % 0x100000 = 0x100 + w * 4 := by simp only [pendR, fltB, block]; omega
  have hWord : (0x100 + w.val * 4 - 0x100) / 4 = w := by omega
  unfold State.regWrite
  simp only [hBlock, hOff, hWord]
  rw [if_neg (by omega), if_pos (by omega)]

theorem regWrite_dmaR (r : Requester) (k : Fin 64) (o : Nat) (ho : o < 0x40) (v : Word) :
    s.regWrite r (dmaR k o) v = s.wrDma (0x1000 + k * 0x40 + o) v := by
  have hBlock : (dmaR k o - block 0) / 0x100000 = 21 := by simp only [dmaR, dmaB, block]; omega
  have hOff : dmaR k o % 0x100000 = 0x1000 + k * 0x40 + o := by simp only [dmaR, dmaB, block]; omega
  unfold State.regWrite
  simp only [hBlock, hOff]

theorem dma_channel_of_offset (k : Fin 64) {o : Nat} (ho : o < 0x40) : (0x1000 + k.val * 0x40 + o - 0x1000) / 0x40 = k := by omega

theorem dma_register_of_offset (k : Fin 64) {o : Nat} (ho : o < 0x40) : (0x1000 + k.val * 0x40 + o) % 0x40 = o := by omega

theorem regWrite_dmaKick (r : Requester) (k : Fin 64) (v : Word) : s.regWrite r (dmaR k 0x18) v = s.dmaKick k := by
  rw [regWrite_dmaR r k _ (by decide), State.wrDma, if_pos (by omega)]
  simp only [dma_channel_of_offset k (o := 0x18) (by decide), dma_register_of_offset k (o := 0x18) (by decide)]

theorem regWrite_dmaSeen (r : Requester) (k : Fin 64) (v : Word) : s.regWrite r (dmaR k 0x1C) v = s.dmaSeen k v := by
  rw [regWrite_dmaR r k _ (by decide), State.wrDma, if_pos (by omega)]
  simp only [dma_channel_of_offset k (o := 0x1C) (by decide), dma_register_of_offset k (o := 0x1C) (by decide)]

theorem regWrite_dmaCfg (r : Requester) (k : Fin 64) (v : Word) : s.regWrite r (dmaR k 0) v = s.dmaCfgWrite k v := by
  rw [regWrite_dmaR r k _ (by decide), State.wrDma, if_pos (by omega)]
  simp only [dma_channel_of_offset k (o := 0) (by decide), dma_register_of_offset k (o := 0) (by decide)]

theorem regWrite_sysReset (r : Requester) : s.regWrite r (sysB + 8) 0x52534554 = s.moduleReset 2 := rfl

theorem regWrite_pinCommit (r : Requester) (v : Word) : s.regWrite r pinCommitR v = s.pinCommitWrite v := rfl

theorem regWrite_fltCtl (r : Requester) (v : Word) : s.regWrite r fltB v = s.fltCtlWrite v := rfl

theorem inControl_dmaR (k : Fin 64) (o : Nat) (ho : o < 0x40) : inControl (dmaR k o) = true := by
  simp only [inControl_iff, dmaR, dmaB, block]
  omega

theorem inControl_pendR (w : Fin 8) : inControl (pendR w) = true := by
  simp only [inControl_iff, pendR, fltB, block]
  omega

/-- Setting a bit 0 that is set already changes nothing. -/
theorem or_one_of_bit_zero {v : Word} (h : v.getLsbD 0 = true) : v ||| 1 = v := by
  apply BitVec.eq_of_getLsbD_eq
  intro i hi
  cases i with
  | zero => simp [h]
  | succ j => simp [BitVec.getLsbD_one]

/-- A register write is command `cmd` where the command's next state is what the write of the register leaves. -/
theorem exec_registerWrite_of_command {r : Requester} {b : Nat} {v : Word} {cmd : Instr} (hWord : b % 4 = 0) (hIn : inControl b = true)
    (hCmd : exec cmd s = .next (s.regWrite r b v)) :
    ∀ t, exec cmd s = .next t → exec (.registerWrite r (BitVec.ofNat 40 b) v) s = .next t.answerWrite := by
  intro t ht
  rw [exec_registerWrite_ofNat r b v hWord hIn, ← Host.Outcome.next.inj (hCmd.symm.trans ht)]

/-- Settles O51: the dispatch of `busWrite` by address, with the lemma of each register that has a command of its own. -/
theorem registerWriteResults : Obligations.RegisterWriteResults := by
  intro r a v w k s n is
  refine ⟨fun hBad => ?bad, fun hWord hIn hBlock => ?plain, ?pend, ?kick, ?seen, fun hKey => ?reset, fun hBit => ?enabling⟩
  case bad => exact congrArg Host.Outcome.next (busWrite_of_bad hBad)
  case plain =>
    have hNext : s.busWrite r n v = (s.plain n v).answerWrite := by rw [busWrite_of_control hWord hIn, regWrite_plain_block hBlock]
    refine ⟨_, congrArg Host.Outcome.next hNext, rfl, ?_, fun b hb => ?_, rfl, rfl, rfl⟩
    · exact (State.reg_setReg _ _ _ _).trans (if_pos rfl)
    · exact (State.reg_setReg _ _ _ _).trans (if_neg hb)
  case pend =>
    refine exec_registerWrite_of_command ?_ (inControl_pendR w) (congrArg Host.Outcome.next (regWrite_pendR r w v).symm)
    simp only [pendR, fltB, block]
    omega
  case kick =>
    refine exec_registerWrite_of_command ?_ (inControl_dmaR k _ (by decide)) (congrArg Host.Outcome.next (regWrite_dmaKick r k v).symm)
    simp only [dmaR, dmaB, block]
    omega
  case seen =>
    refine exec_registerWrite_of_command ?_ (inControl_dmaR k _ (by decide)) (congrArg Host.Outcome.next (regWrite_dmaSeen r k v).symm)
    simp only [dmaR, dmaB, block]
    omega
  case reset =>
    subst hKey
    exact exec_registerWrite_of_command (by decide) (by decide) (congrArg Host.Outcome.next (regWrite_sysReset r).symm)
  case enabling =>
    have hOr := or_one_of_bit_zero hBit
    refine ⟨exec_registerWrite_of_command (by decide) (by decide) ?_, exec_registerWrite_of_command ?_ (inControl_dmaR k _ (by decide)) ?_,
      exec_registerWrite_of_command (by decide) (by decide) ?_⟩
    · exact congrArg (fun x => Host.Outcome.next (s.pinCommitWrite x)) hOr
    · simp only [dmaR, dmaB, block]
      omega
    · rw [regWrite_dmaCfg]
      exact congrArg (fun x => Host.Outcome.next (s.dmaCfgWrite k x)) hOr
    · exact congrArg (fun x => Host.Outcome.next (s.fltCtlWrite x)) hOr

end Sys2Proof.Machine
end

section
/-!
What notices, responses and the retirement of a part leave alone (O15, O23, O24). They move Jenitor's sessions, the egress queues, units,
the journal and the fault collector; of control space they write the EGR block and the blocks above it, whatever port a session names.
-/
namespace Sys2Proof.Machine

/-- `s` comes from `o` by changes of units, Jenitor, egress queues, the journal and registers from the EGR block on alone; the raises and
the causes of `o` still stand. -/
structure Quiet (o s : State) : Prop where
  time : s.time = o.time
  mem : s.mem = o.mem
  image : s.image = o.image
  boot : s.boot = o.boot
  path : s.path = o.path
  stns : s.stns = o.stns
  cores : s.cores = o.cores
  coaches : s.coaches = o.coaches
  meters : s.meters = o.meters
  pool : s.pool = o.pool
  cpu : s.cpu = o.cpu
  cls : s.cls = o.cls
  causes : s.flt.causes = o.flt.causes
  raises : ∀ r ∈ o.flt.raises, r ∈ s.flt.raises
  reg : ∀ a < egrB, s.reg a = o.reg a

variable {o s : State}

namespace Quiet

theorem refl : Quiet o o := ⟨rfl, rfl, rfl, rfl, rfl, rfl, rfl, rfl, rfl, rfl, rfl, rfl, rfl, fun _ h => h, fun _ _ => rfl⟩

theorem trans {t : State} (h : Quiet o s) (g : Quiet s t) : Quiet o t where
  time := g.time.trans h.time
  mem := g.mem.trans h.mem
  image := g.image.trans h.image
  boot := g.boot.trans h.boot
  path := g.path.trans h.path
  stns := g.stns.trans h.stns
  cores := g.cores.trans h.cores
  coaches := g.coaches.trans h.coaches
  meters := g.meters.trans h.meters
  pool := g.pool.trans h.pool
  cpu := g.cpu.trans h.cpu
  cls := g.cls.trans h.cls
  causes := g.causes.trans h.causes
  raises r hr := g.raises r (h.raises r hr)
  reg a ha := (g.reg a ha).trans (h.reg a ha)

theorem ite {c : Prop} [Decidable c] {a b : State} (ha : Quiet o a) (hb : Quiet o b) : Quiet o (if c then a else b) := by
  split <;> assumption

theorem ite2 {α : Type} {c : Prop} [Decidable c] {a b : α × State} (ha : Quiet o a.2) (hb : Quiet o b.2) :
    Quiet o (if c then a else b).2 := by
  split <;> assumption

theorem pair {α : Type} {x : α} {t : State} (h : Quiet o t) : Quiet o (x, t).2 := h

theorem foldl {α : Type} {f : State → α → State} {l : List α} (hf : ∀ s x, Quiet o s → Quiet o (f s x)) :
    ∀ {s}, Quiet o s → Quiet o (l.foldl f s) := by
  induction l with
  | nil => exact fun h => h
  | cons x t ih => exact fun h => ih (hf _ x h)

theorem foldl2 {α β : Type} {f : β × State → α → β × State} {l : List α} (hf : ∀ p x, Quiet o p.2 → Quiet o (f p x).2) :
    ∀ {p}, Quiet o p.2 → Quiet o (l.foldl f p).2 := by
  induction l with
  | nil => exact fun h => h
  | cons x t ih => exact fun h => ih (hf _ x h)

/-- An update of units, Jenitor, the egress queues and the free counter. -/
theorem upd {u j e f} (h : Quiet o s) : Quiet o { s with units := u, jen := j, egr := e, freeCtr := f } :=
  ⟨h.time, h.mem, h.image, h.boot, h.path, h.stns, h.cores, h.coaches, h.meters, h.pool, h.cpu, h.cls, h.causes, h.raises, h.reg⟩

/-- An update of the fault collector that drops no raise and no cause. -/
theorem flt {f : FltSt} (h : Quiet o s) (hCauses : f.causes = s.flt.causes) (hRaises : ∀ r ∈ s.flt.raises, r ∈ f.raises) :
    Quiet o { s with flt := f } :=
  h.trans ⟨rfl, rfl, rfl, rfl, rfl, rfl, rfl, rfl, rfl, rfl, rfl, rfl, hCauses, hRaises, fun _ _ => rfl⟩

theorem setReg {a w} (h : Quiet o s) (ha : egrB ≤ a) : Quiet o (s.setReg a w) :=
  h.trans ⟨rfl, rfl, rfl, rfl, rfl, rfl, rfl, rfl, rfl, rfl, rfl, rfl, rfl, fun _ h => h, fun b hb => by
    rw [State.reg_setReg, if_neg (by omega)]⟩

theorem setFld {a lo len v} (h : Quiet o s) (ha : egrB ≤ a) : Quiet o (s.setFld a lo len v) := h.setReg ha

theorem setBit {a i b} (h : Quiet o s) (ha : egrB ≤ a) : Quiet o (s.setBit a i b) := h.setFld ha

theorem count {a lo len k} (h : Quiet o s) (ha : egrB ≤ a) : Quiet o (s.count a lo len k) := h.setFld ha

theorem raiseU {src ctx unit} (h : Quiet o s) : Quiet o (s.raiseU src ctx unit) := h.flt rfl fun _ hr => List.mem_append_left _ hr

theorem raise {src ctx} (h : Quiet o s) : Quiet o (s.raise src ctx) := h.raiseU

theorem unitState {u c} (h : Quiet o s) : Quiet o (s.unitState u c) := .ite h h.upd

theorem bumpGen {u} (h : Quiet o s) : Quiet o (s.bumpGen u) := h.upd

/-! ### Egress queues -/

theorem countDrop {p set reason} (h : Quiet o s) : Quiet o (s.countDrop p set reason) := by
  unfold State.countDrop
  extract_lets s1 _ _ s2 _ _ _ s3
  have h1 : Quiet o s1 := h.count (by simp only [dropR]; omega)
  have h2 : Quiet o s2 := h1.upd
  have h3 : Quiet o s3 := h2.upd
  exact .ite (.ite h3.raise h3) h2

theorem countQ {cp reason} (h : Quiet o s) (hModule : cp.coach = none) : Quiet o (s.countQ cp reason) := by
  unfold State.countQ State.countQuiet
  simp only [hModule, Option.bind_none]
  apply Quiet.countDrop
  split
  · exact h.raise
  · exact h

theorem addFill {q c n} (h : Quiet o s) : Quiet o (s.addFill q c n) :=
  (h.setFld (by simp only [egrQR]; omega)).setFld (by omega)

theorem pushCopy {q c cp} (h : Quiet o s) : Quiet o (s.pushCopy q c cp) := (show Quiet o (s.setQueue _ _ _) from h.upd).addFill

theorem enqueueFrame {q c frame cells owner} (h : Quiet o s) : Quiet o (s.enqueueFrame q c frame cells owner).2 :=
  .ite2 (.pair (h.countQ rfl)) (.ite2 (.pair (h.countQ rfl)) (.ite2 (.pair (h.countQ rfl)) (.ite2 (.pair (h.countQ rfl)) (.pair h.pushCopy))))

/-! ### Notices and responses -/

theorem jenSend {port vlan dst msg} (h : Quiet o s) : Quiet o (s.jenSend port vlan dst msg) := .ite h.pushCopy h.enqueueFrame

theorem noticeStat (h : Quiet o s) : Quiet o s.noticeStat := (h.setFld (by decide)).setFld (by decide)

theorem sendCopies {p} {l : List Notice} : ∀ {done s}, Quiet o s → Quiet o (s.sendCopies p done l) := by
  induction l with
  | nil => exact fun h => h.upd
  | cons n rest ih =>
    intro done s h
    refine ih (Quiet.upd (.foldl2 (fun acc c hc => ?_) (show Quiet o ([], s).2 from h)))
    split
    · exact hc.jenSend
    · exact hc

theorem pumpNotices (h : Quiet o s) : Quiet o s.pumpNotices := h.sendCopies.noticeStat

theorem notice {kind body} (h : Quiet o s) : Quiet o (s.notice kind body) := by
  unfold State.notice
  extract_lets subs full parked s1 _ s2 n s3
  have h1 : Quiet o s1 := .ite (h.count (by decide)).raise h
  have h2 : Quiet o s2 := by
    unfold s2
    clear_value full parked
    split
    · exact h1.upd
    · exact h1
  have h3 : Quiet o s3 := .foldl (fun _ _ h => h.upd) h2
  exact .ite h (.ite h2 h3.upd.pumpNotices)

theorem eventNotice {code} (h : Quiet o s) : Quiet o (s.eventNotice code) := h.upd.notice

theorem linkNotice {p up} (h : Quiet o s) : Quiet o (s.linkNotice p up) := h.notice

theorem migrationNotice {unit src dst outcome} (h : Quiet o s) : Quiet o (s.migrationNotice unit src dst outcome) := h.notice

theorem closeSession {i} (h : Quiet o s) : Quiet o (s.closeSession i) := by
  unfold State.closeSession
  extract_lets s1
  have h1 : Quiet o s1 := by
    have h0 : Quiet o (s.setSession i { opens := (s.session i).opens }) := h.upd
    exact (h0.setReg (by simp only [sessR, jenB, egrB, block]; omega)).setReg (by simp only [sessR, jenB, egrB, block]; omega)
  exact .ite h (Quiet.noticeStat h1.upd).raise

theorem respondOpen {c key} (h : Quiet o s) : Quiet o (s.respondOpen c key) := by
  unfold State.respondOpen
  split
  · exact h.jenSend
  · exact h

theorem respond {c} (h : Quiet o s) : Quiet o (s.respond c) := by
  unfold State.respond
  extract_lets x payload msg s1 s2
  have h2 : Quiet o s2 := (show Quiet o s1 from h.upd).jenSend
  exact .ite h.respondOpen (.ite (.ite h2.closeSession h2) h)

theorem finishItem {i status body last} (h : Quiet o s) : Quiet o (s.finishItem i status body last) := by
  unfold State.finishItem
  split
  · exact h
  · split
    · exact h
    · exact .ite (Quiet.respond h.upd) h.upd

theorem drainBad {n} : ∀ {s}, Quiet o s → Quiet o (s.drainBad n) := by
  induction n with
  | zero => exact fun h => h
  | succ n ih =>
    intro s h
    unfold State.drainBad
    split
    · exact .ite h (ih h.finishItem)
    · exact h

theorem answer {p status body} (h : Quiet o s) : Quiet o (s.answer p status body) := by
  unfold State.answer
  split
  · exact h.finishItem.drainBad
  · exact h

/-! ### Journal -/

theorem queueRecord {r} (h : Quiet o s) : Quiet o (s.queueRecord r) := .ite (h.count (by decide)) (h.flt rfl fun _ hr => hr)

theorem pinRecord {src ctx unit} (h : Quiet o s) : Quiet o (s.pinRecord src ctx unit).2 := by
  refine .ite2 h.raise ?_
  have h1 : Quiet o s.nextRecno.2 := h.setReg (by decide)
  exact (Quiet.ite (h1.setFld (by decide)) h1).queueRecord

theorem retirePart {unit src} (h : Quiet o s) : Quiet o (s.retirePart unit src) := by
  unfold State.retirePart
  extract_lets s1
  have h1 : Quiet o s1 := h.unitState
  exact .ite (.flt (.ite2 h1 h1.pinRecord) rfl fun _ hr => hr) (.ite2 h1 h1.pinRecord)

end Quiet
end Sys2Proof.Machine
end

section
/-!
Release of an incomplete coach counts every drop its reason says (O22) — but not in every state. A coach's record names its server by
core and hardware thread, two plain numbers. A core number far outside the chip puts the lock register of "its station" on top of a drop
counter of port 0, and a release first gives the server's CRY lock back, which writes that register.
-/
namespace Sys2Proof.Machine

/-- A core number whose station's lock register is the drop counter of port 0 and reason 5. -/
def strayCore : Nat := 184480

def strayThread : Nat := threadId 0 strayCore 0

/-- An incomplete coach of port 0 that ends with reason 5, served by hardware thread 0 of the stray core. -/
def strayCoach : Coach := { ({} : Coach).setFld 196 26 6 5 with server := some (strayCore, 0) }

/-- The coach stands first in station 0, its server holds the lock of its station, and the drop counter reads 1. -/
def strayServer : State :=
  let s : State := { coaches := [(0, some strayCoach)], stns := [(0, { order := [0] })] }
  let s := s.setThread strayThread { binding := some 0 }
  let s : State := { s with cpu := { s.cpu with crys := [(stnOf strayThread, { holder := some strayThread })] } }
  s.setReg (dropR 0 8 5) 1

theorem stn2R_stray : stn2R (stnOf strayThread) 0x14 = dropR 0 8 5 := by decide

theorem strayCoach_fields :
    strayCoach.reason = 5 ∧ strayCoach.inPort = 0 ∧ strayCoach.complete = false ∧ strayCoach.dropBy = none := by decide +kernel

theorem strayServer_reg : strayServer.reg (dropR 0 8 5) = 1 := by decide +kernel

theorem strayServer_first : (strayServer.stn 0).order = [0] ∧ strayServer.coach 0 = some strayCoach := by decide +kernel

/-- The drop is counted, but giving the lock back cleared the counter first: it reads 1 again, not 2. -/
theorem strayServer_released : (strayServer.couplerRelease 0).reg (dropR 0 8 5) = 1 := by decide +kernel

/-- Refutes O22: releasing `strayCoach` leaves its drop counter as it was. -/
theorem not_stationResults : ¬ Obligations.StationResults := by
  intro h
  obtain ⟨-, -, hDropped, -⟩ := h 0 0 [] strayCoach 0 false strayServer
  obtain ⟨hReason, hPort, hComplete, hDropBy⟩ := strayCoach_fields
  obtain ⟨t, hExec, -, hCount⟩ := hDropped strayServer_first (by simp [hReason]) (.inr (by simp [hDropBy]))
  have hNext : strayServer.couplerRelease 0 = t := Host.Outcome.next.inj hExec
  rw [← hNext, hPort, hReason, strayServer_released, strayServer_reg] at hCount
  exact absurd hCount (by decide)

end Sys2Proof.Machine
end

section
/-!
Preparing, switching and rotating cores, the aging of lanes and a step of the yard scrubber (O24).
-/
namespace Sys2Proof.Machine

variable {o s : State}

/-! ### Migrations, roles and raises -/

theorem raises_raiseU (s : State) (src : Nat) (ctx : List Nat) (u : Nat) : Raises (s.raiseU src ctx u) src :=
  ⟨⟨src, ctx, u⟩, List.mem_append_right _ (List.mem_singleton_self _), rfl⟩

theorem raises_raise (s : State) (src : Nat) (ctx : List Nat) : Raises (s.raise src ctx) src := raises_raiseU s src ctx 0

@[simp] theorem State.migOf_setMig (s : State) (n : Nat) (m : Option Migration) : (s.setMig n m).migOf n = m := by
  simp [State.migOf, State.setMig]

@[simp] theorem State.roleOf_setRole (s : State) (c : Nat) (r : CoreRole) (j : Nat) :
    (s.setRole c r).roleOf j = if j = c then r else s.roleOf j := by
  simp only [State.roleOf, State.setRole, State.core_setCore]
  split <;> rfl

/-- Time, the stations' records and the cores of `s` are those of `o`, whose raises still stand. -/
structure Stands (o s : State) : Prop where
  time : s.time = o.time
  stns : s.stns = o.stns
  cores : s.cores = o.cores
  raises : ∀ r ∈ o.flt.raises, r ∈ s.flt.raises

theorem Quiet.stands (h : Quiet o s) : Stands o s := ⟨h.time, h.stns, h.cores, h.raises⟩

namespace Stands

theorem refl : Stands o o := ⟨rfl, rfl, rfl, fun _ h => h⟩

theorem trans {t : State} (h : Stands o s) (g : Stands s t) : Stands o t :=
  ⟨g.time.trans h.time, g.stns.trans h.stns, g.cores.trans h.cores, fun r hr => g.raises r (h.raises r hr)⟩

theorem quiet {t : State} (h : Stands o s) (g : Quiet s t) : Stands o t := h.trans g.stands

theorem foldl {α : Type} {f : State → α → State} {l : List α} (h : Stands o s) (hf : ∀ s x, Stands o s → Stands o (f s x)) :
    Stands o (l.foldl f s) := List.foldlRecOn (motive := Stands o) l f h fun s hs x _ => hf s x hs

theorem now (h : Stands o s) : s.now = o.now := congrArg TimeSt.now h.time

theorem migOf (h : Stands o s) (n : Nat) : s.migOf n = o.migOf n := by rw [State.migOf, State.migOf, h.stns]

theorem roleOf (h : Stands o s) (c : Nat) : s.roleOf c = o.roleOf c := by rw [State.roleOf, State.roleOf, State.core, State.core, h.cores]

theorem raised {src : Nat} (h : Stands o s) (hRaised : Raises o src) : Raises s src :=
  hRaised.imp fun r hr => ⟨h.raises r hr.1, hr.2⟩

/-- An update of memory, control space, threads, coaches and units. -/
theorem upd {m c p q u} (h : Stands o s) : Stands o { s with mem := m, ctl := c, cpu := p, coaches := q, units := u } :=
  ⟨h.time, h.stns, h.cores, h.raises⟩

theorem setReg {a w} (h : Stands o s) : Stands o (s.setReg a w) := h.upd

theorem setFld {a lo len v} (h : Stands o s) : Stands o (s.setFld a lo len v) := h.setReg

theorem setBit {a i b} (h : Stands o s) : Stands o (s.setBit a i b) := h.setFld

theorem showCores {n} (h : Stands o s) : Stands o (s.showCores n) := h.setFld.setBit.setBit.setBit.setFld

theorem setBytes {l : List Byte} : ∀ {s a}, Stands o s → Stands o (s.setBytes a l) := by
  induction l with
  | nil => exact fun h => h
  | cons b t ih => exact fun h => ih h.upd

theorem modThread {i f} (h : Stands o s) : Stands o (s.modThread i f) := h.upd

theorem discardPending {i} (h : Stands o s) : Stands o (s.discardPending i) := by
  unfold State.discardPending
  extract_lets _ s1
  have h1 : Stands o s1 := h.upd
  exact h1.modThread

/-! ### Preparation and containment of a core (Table 1.9, R375) -/

theorem prepCore {c} (h : Stands o s) : Stands o (s.prepCore c) := by
  unfold State.prepCore
  extract_lets n x half s1 s2 s3 s4 s5
  have h1 : Stands o s1 := h.setBytes.setBytes
  have h2 : Stands o s2 := by
    unfold s2
    split
    · exact h1.setBytes
    · exact h1
  have h3 : Stands o s3 := h2.foldl fun _ _ h => h.discardPending.modThread
  have h5 : Stands o s5 := (h3.foldl fun _ _ h => h.upd).foldl fun _ _ h => h.upd
  exact (show Stands o (s5.setCh14 c {}) from h5.upd).upd

theorem setCry {n c} (h : Stands o s) : Stands o (s.setCry n c) :=
  (show Stands o { s with cpu := _ } from h.upd).setFld.setBit.setFld.setBit

theorem settleCry {n} (h : Stands o s) : Stands o (s.settleCry n) := by
  unfold State.settleCry
  extract_lets c
  split
  · split
    · exact h.setCry
    · exact h
  · exact h

theorem releaseCry {i} (h : Stands o s) : Stands o (s.releaseCry i) := by
  unfold State.releaseCry
  extract_lets c
  split
  · exact h.setCry.settleCry
  · exact h

theorem leaveCry {i} (h : Stands o s) : Stands o (s.leaveCry i) := by
  unfold State.leaveCry
  extract_lets c mine s1
  have h1 : Stands o s1 := by
    unfold s1
    split
    · exact h
    · exact h.setCry.modThread
  exact h1.releaseCry

theorem modCoach {q f} (h : Stands o s) : Stands o (s.modCoach q f) := by
  unfold State.modCoach
  split
  · exact h.upd
  · exact h

theorem dropServed {n k} (h : Stands o s) : Stands o (s.dropServed n k) :=
  h.foldl fun s e hs => by
    split
    · split
      · exact hs.modCoach
      · exact hs
    · exact hs

end Stands

/-- The supervisor of a core that has been loaded is ready. -/
theorem prepCore_supervisor (s : State) (c : Nat) : ((s.prepCore c).thread (c * 8 + 7)).run = .ready := by
  unfold State.prepCore
  extract_lets n x h s1 s2 s3 s4 s5
  have h3 : (s3.thread (c * 8 + 7)).run = .ready := by
    simp only [s3, List.range_succ (n := 7), List.foldl_append, List.foldl_cons, List.foldl_nil, State.modThread, State.thread_setThread]
    simp
  have h4 : (s4.thread (c * 8 + 7)).run = .ready :=
    List.foldlRecOn (motive := fun (s : State) => (s.thread (c * 8 + 7)).run = Run.ready) _ _ h3 fun _ h _ _ => h
  have h5 : (s5.thread (c * 8 + 7)).run = .ready :=
    List.foldlRecOn (motive := fun (s : State) => (s.thread (c * 8 + 7)).run = Run.ready) _ _ h4 fun _ h _ _ => h
  clear_value s5
  exact h5

/-! ### Migrations (R25) -/

theorem migPrepared_ready {n : Nat} {m : Migration} {u : State} (hU : s.migPrepared n true = u) (hMig : s.migOf n = some m)
    (hReady : m.ready = false) (hLeave : m.leaveAt = none) :
    u.migOf n = some { m with ready := true } ∧ (u.thread (m.incoming * 8 + 7)).run = .ready := by
  have hSupervisor := prepCore_supervisor s m.incoming
  simp only [State.migPrepared, hMig, hReady, hLeave, Bool.false_eq_true, Option.isSome_none, or_self, if_false, if_true] at hU
  subst hU
  generalize s.prepCore m.incoming = t at hSupervisor ⊢
  exact ⟨by rw [State.migOf_setMig, hLeave], hSupervisor⟩

theorem migPrepared_failed {n : Nat} {m : Migration} {u : State} (hU : s.migPrepared n false = u) (hMig : s.migOf n = some m) (hReady : m.ready = false) (hLeave : m.leaveAt = none)
    (hOther : m.incoming ≠ m.outgoing) (hServes : (s.roleOf m.outgoing).serves = true) :
    u.migOf n = none ∧ u.roleOf m.incoming = .failed ∧ Raises u Src.migrationFail ∧ Raises u Src.spareLow := by
  simp -zeta only [State.migPrepared, hMig, hReady, hLeave, Bool.false_eq_true, Option.isSome_none, or_self, if_false] at hU
  extract_lets s1 s2 s3 at hU
  subst hU
  have hQuiet : Quiet (s.setRole m.incoming .failed) ((s.setRole m.incoming .failed).unitState (unitId 2 m.incoming) 6) := .unitState .refl
  have hRole : s1.roleOf = (s.setRole m.incoming .failed).roleOf := funext hQuiet.stands.roleOf
  have h2 : Stands s1 s2 := (Quiet.refl.raiseU.migrationNotice).stands
  have hRaised : Raises s2 Src.migrationFail := (Quiet.refl.migrationNotice).stands.raised (raises_raiseU s1 _ _ _)
  have hKept : (s2.roleOf m.outgoing).serves = true := by
    rw [h2.roleOf, hRole, State.roleOf_setRole, if_neg (Ne.symm hOther)]; exact hServes
  have h3 : Quiet s2 s3 := by
    unfold s3
    rw [if_pos hKept]
    exact .unitState .refl
  have hEnd : Stands s2 ((s3.raise Src.spareLow).showCores n) := (Stands.refl.quiet h3.raise).showCores
  refine ⟨?_, ?_, hEnd.raised hRaised, (Stands.refl.showCores).raised (raises_raise s3 _ _)⟩
  · rw [hEnd.migOf, h2.migOf]
    exact State.migOf_setMig _ _ _
  · rw [hEnd.roleOf, h2.roleOf, hRole, State.roleOf_setRole, if_pos rfl]

theorem migDone_switched {n t : Nat} {m : Migration} {u : State} (hU : s.migDone n = u) (hMig : s.migOf n = some m) (hLeave : m.leaveAt = some t)
    (hRole : s.roleOf m.outgoing ≠ .retired) :
    u.migOf n = none ∧ u.now = max s.now t ∧ Raises u Src.migrationDone ∧ u.roleOf m.outgoing = if m.retire then .retired else .testing := by
  simp -zeta only [State.migDone, hMig, hLeave] at hU
  extract_lets s1 o s2 s3 at hU
  subst hU
  have hKept : s1.roleOf m.outgoing ≠ .retired := hRole
  obtain ⟨hRole2, hNow2, hMig2⟩ : s2.roleOf m.outgoing = (if m.retire then .retired else .testing) ∧ s2.now = s1.now ∧ s2.migOf n = none := by
    unfold s2
    rw [if_neg hKept]
    split
    · have h : Stands (s1.setRole m.outgoing .retired) _ := (Quiet.refl.retirePart (unit := unitId 2 m.outgoing) (src := Src.migrationDone)).stands
      exact ⟨by rw [h.roleOf]; simp, h.now, by rw [h.migOf]; exact State.migOf_setMig _ _ _⟩
    · have h : Stands (s1.setRole m.outgoing .testing) _ := (Quiet.refl.unitState (u := unitId 2 m.outgoing) (c := 5)).stands
      exact ⟨by rw [h.roleOf]; simp, h.now, by rw [h.migOf]; exact State.migOf_setMig _ _ _⟩
  have h3 : Stands s2 (s3.showCores n) := Stands.showCores (Quiet.refl.raiseU.migrationNotice).stands
  refine ⟨by rw [h3.migOf, hMig2], by rw [h3.now, hNow2]; rfl, ?_, by rw [h3.roleOf, hRole2]⟩
  exact (Stands.showCores (Quiet.refl.migrationNotice).stands).raised (raises_raiseU s2 _ _ _)

theorem migStart_migOf (s : State) (n incoming outgoing slot : Nat) (retire : Bool) :
    (s.migStart n incoming outgoing slot retire).migOf n =
      some { incoming := incoming, outgoing := outgoing, slot := slot, retire := retire } := by
  unfold State.migStart
  extract_lets s1 s2
  rw [(Stands.showCores (n := n) .refl).migOf]
  exact State.migOf_setMig s2 n _

/-! ### Core rotation (R376) -/

/-- Noting the period of a station's last rotation leaves the migrations alone. -/
theorem migOf_setRotated (s : State) (n : Nat) (j : Option Nat) (i : Nat) :
    (s.setStn n { s.stn n with rotated := j }).migOf i = s.migOf i := by
  simp only [State.migOf, State.setStn, aget_aset]
  split
  · next h => subst h; rfl
  · rfl

theorem rotate_idle {n : Nat} (h : s.bit (fltB + 0x80) 16 = false ∨ s.pathRun = false) : s.rotate n = s := by
  unfold State.rotate
  exact if_pos (by simpa [rotR] using h)

/-- At the instant of a rotation, with a tested core in the rotation slot and no migration under way, the longest-serving core leaves. -/
theorem rotate_started {n r c k : Nat} (hOn : s.bit (fltB + 0x80) 16 = true) (hRun : s.pathRun = true) (hMig : s.migOf n = none)
    (hPending : s.migPending = false) (hCore : s.rotationCore n = some r) (hLongest : s.longest n = some (c, k))
    (hTested : (s.core r).testPassed = true) : (s.rotate n).migOf n = some { incoming := r, outgoing := c, slot := k } := by
  unfold State.rotate
  rw [if_neg (by simp [rotR, hOn, hRun])]
  extract_lets p off j0 j1 s1 _ s2
  have hMigs (i : Nat) : s2.migOf i = s.migOf i := migOf_setRotated s1 n _ i
  have hPending2 : s2.migPending = false := by rw [← hPending, State.migPending, State.migPending]; simp only [hMigs]
  have hCore2 : s2.rotationCore n = some r := hCore
  have hLongest2 : s2.longest n = some (c, k) := hLongest
  have hTested2 : (s2.core r).testPassed = true := hTested
  rw [hCore2, hLongest2]
  simp only [hMigs, hMig, hPending2, hTested2]
  exact migStart_migOf _ _ _ _ _ _

/-- Without a threshold to retire at, no measurement says that a unit has aged (R378). -/
theorem ageUnit_young {u src a v : Nat} {p : Nat → Bool} (h : s.fld a 8 8 = 0) : (s.ageUnit u src a v p).1 = false := by
  unfold State.ageUnit
  extract_lets _ s1 s2 warn retire
  have hRetire : retire = 0 := by rw [← h]; exact State.fld_setFld_ne _ _ _ _ _ _ _ _ (by omega)
  simp [hRetire]

theorem Stands.ageUnit {u src a v p} (h : Stands o s) : Stands o (s.ageUnit u src a v p).2 := by
  unfold State.ageUnit
  extract_lets _ s1 s2
  have h2 : Stands o s2 := Stands.setFld (h.trans ⟨rfl, rfl, rfl, fun _ h => h⟩)
  show Stands o (if _ then _ else _)
  split
  · exact h2.quiet Quiet.refl.raiseU
  · exact h2

theorem rotationTested_passed {n c age : Nat} {u : State} (hU : s.rotationTested n true age = u)
    (hCore : (stnCores n).find? (fun c => decide (s.roleOf c = CoreRole.testing)) = some c) (hNever : s.fld (fltB + 0x84) 8 8 = 0) :
    u.roleOf c = .rotation ∧ (u.core c).testPassed = true := by
  obtain ⟨old, s1, hAge⟩ : ∃ old s1, s.ageUnit (unitId 2 c) Src.agingCore (fltB + 0x84) age (fun u => u / 256 == 2) = (old, s1) := ⟨_, _, rfl⟩
  have hOld : old = false := by rw [← ageUnit_young hNever, hAge]
  simp -zeta only [State.rotationTested, hCore, hAge, hOld, Bool.not_false, and_self, if_true] at hU
  extract_lets _ s2 at hU
  subst hU
  have h : Stands (s2.setRole c .rotation) _ := Stands.showCores (n := n) (Quiet.refl.unitState (u := unitId 2 c) (c := 4)).stands
  have hEq : (s2.setRole c .rotation).core c = { s2.core c with role := .rotation } := by simp [State.setRole]
  have hPassed : (s2.core c).testPassed = true := by rw [show s2.core c = _ from State.core_setCore _ _ _ _, if_pos rfl]
  simp only [State.roleOf, State.core, h.cores]
  exact ⟨congrArg CoreSt.role hEq, (congrArg CoreSt.testPassed hEq).trans hPassed⟩

/-- Containing a core under test retires it and keeps what was raised. -/
theorem containCore_testing {c : Nat} (hRole : s.roleOf c = .testing) :
    ∃ t, Stands s t ∧ Stands (t.setRole c .retired) (s.containCore c) := by
  unfold State.containCore
  rw [if_neg (by simp [hRole])]
  extract_lets s1 s2 s3 s4
  refine ⟨s2, Stands.foldl (Stands.dropServed .refl) fun _ _ h => h.leaveCry, ?_⟩
  have h3 : Quiet (s2.setRole c .retired) s3 := Quiet.refl.retirePart
  have h4 : Quiet (s2.setRole c .retired) s4 := by
    unfold s4
    rw [hRole]
    exact .ite h3 h3.raise
  exact h4.stands.showCores

/-- The cores of a station carry its number. -/
theorem stnCores_div {n c : Nat} (h : c ∈ stnCores n) : c / 10 = n := by
  obtain ⟨k, hk, rfl⟩ := List.mem_map.mp h
  have := List.mem_range.mp hk
  omega

theorem rotationTested_failed {n c age : Nat} {u : State} (hU : s.rotationTested n false age = u)
    (hCore : (stnCores n).find? (fun c => decide (s.roleOf c = CoreRole.testing)) = some c) :
    u.roleOf c = .retired ∧ Raises u (Src.stnFault n) := by
  obtain ⟨old, s1, hAge⟩ : ∃ old s1, s.ageUnit (unitId 2 c) Src.agingCore (fltB + 0x84) age (fun u => u / 256 == 2) = (old, s1) := ⟨_, _, rfl⟩
  have hStands : Stands s s1 := by rw [show s1 = _ from (congrArg Prod.snd hAge).symm]; exact .ageUnit .refl
  simp -zeta only [State.rotationTested, hCore, hAge, Bool.false_eq_true, false_and, if_false] at hU
  extract_lets _ s2 at hU
  subst hU
  have hTesting : s.roleOf c = .testing := by simpa using List.find?_some hCore
  have hRole2 : s2.roleOf c = .testing := by
    have h : (s2.core c).role = (s1.core c).role := by rw [show s2.core c = _ from State.core_setCore _ _ _ _, if_pos rfl]
    exact h.trans ((hStands.roleOf c).trans hTesting)
  have hNum : c / 10 = n := stnCores_div (List.mem_of_find?_eq_some hCore)
  have hRaised : Raises (s2.stnRaise c 2 0 0) (Src.stnFault n) := by rw [← hNum]; exact raises_raiseU s2 _ _ _
  obtain ⟨t, ht, hEnd⟩ := containCore_testing (s := s2.stnRaise c 2 0 0) hRole2
  have hRetired : Raises (t.setRole c .retired) (Src.stnFault n) := ht.raised hRaised
  exact ⟨by rw [hEnd.roleOf, State.roleOf_setRole, if_pos rfl], hEnd.raised hRetired⟩

/-! ### Aging of the lanes (R378) -/

theorem laneReplace_reg (l a : Nat) : (s.laneReplace l).2.reg a = s.reg a := by
  unfold State.laneReplace
  split <;> rfl

theorem laneReplace_time (l : Nat) : (s.laneReplace l).2.time = s.time := by
  unfold State.laneReplace
  split <;> rfl

theorem ageUnit_reg {u src a v b : Nat} {p : Nat → Bool} (h : b ≠ a) : (s.ageUnit u src a v p).2.reg b = s.reg b := by
  unfold State.ageUnit
  extract_lets _ s1 s2 warn retire s3
  have h2 : s2.reg b = s.reg b := by rw [show s2.reg b = _ from State.reg_setReg _ _ _ _, if_neg h]; rfl
  show s3.reg b = _
  unfold s3
  clear_value s2
  split
  · exact h2
  · exact h2

/-- LANE_AGING_MEASURE for one lane: its margin `v` and number `l`. -/
def State.measureLane (s : State) (l v : Nat) : State :=
  let s := s.setFld (laneB + l * 0x10 + 4) 8 8 (satur 8 v)
  let (old, s) := s.ageUnit (unitId 9 l) Src.agingLane (fltB + 0x8C) v (fun u => u / 256 == 9)
  if old ∧ l < 32 ∧ s.fld (laneB + l * 0x10 + 4) 2 2 = 0 then (s.laneReplace l).2 else s

theorem laneAging_eq (s : State) (margins : List (BitVec 16)) :
    s.laneAging margins = (margins.take 34).zipIdx.foldl (fun s e => s.measureLane e.2 e.1.toNat)
      (s.advance ((s.now / (10 * secU) + 1) * (10 * secU))) := rfl

theorem measureLane_time (l v : Nat) : (s.measureLane l v).time = s.time := by
  unfold State.measureLane
  extract_lets s1
  obtain ⟨old, s2, hAge⟩ : ∃ old s2, s1.ageUnit (unitId 9 l) Src.agingLane (fltB + 0x8C) v (fun u => u / 256 == 9) = (old, s2) := ⟨_, _, rfl⟩
  have h2 : s2.time = s.time := by rw [show s2 = _ from (congrArg Prod.snd hAge).symm]; exact (Stands.ageUnit (Stands.setFld .refl)).time
  rw [hAge]
  clear_value s1
  dsimp only
  split
  · exact (laneReplace_time l).trans h2
  · exact h2

theorem measureLane_reg {l v a : Nat} (ha : a < fltB) :
    (s.measureLane l v).reg a = (s.setFld (laneB + l * 0x10 + 4) 8 8 (satur 8 v)).reg a := by
  unfold State.measureLane
  extract_lets s1
  obtain ⟨old, s2, hAge⟩ : ∃ old s2, s1.ageUnit (unitId 9 l) Src.agingLane (fltB + 0x8C) v (fun u => u / 256 == 9) = (old, s2) := ⟨_, _, rfl⟩
  have h2 : s2.reg a = (s.setFld (laneB + l * 0x10 + 4) 8 8 (satur 8 v)).reg a := by rw [show s2 = _ from (congrArg Prod.snd hAge).symm]; exact ageUnit_reg (by omega)
  rw [hAge]
  clear_value s1
  dsimp only
  split
  · exact (laneReplace_reg l a).trans h2
  · exact h2

theorem lane_lt_fltB {l : Nat} (h : l < 34) : laneB + l * 0x10 + 4 < fltB := by
  simp only [laneB, fltB, block]; omega

theorem measureLane_margin {l v : Nat} (h : l < 34) : (s.measureLane l v).fld (laneB + l * 0x10 + 4) 8 8 = min 255 v := by
  rw [State.fld, measureLane_reg (lane_lt_fltB h)]
  have := State.fld_setFld s (laneB + l * 0x10 + 4) 8 8 (satur 8 v) (by omega)
  rw [State.fld] at this
  rw [this, satur]
  omega

theorem measureLane_margin_ne {l v m : Nat} (h : m < 34) (hne : m ≠ l) :
    (s.measureLane l v).fld (laneB + m * 0x10 + 4) 8 8 = s.fld (laneB + m * 0x10 + 4) 8 8 := by
  rw [State.fld, measureLane_reg (lane_lt_fltB h)]
  exact State.fld_setFld_ne _ _ _ _ _ _ _ _ (.inl (by omega))

theorem measureLanes_time {l : List (BitVec 16 × Nat)} : ∀ {s : State}, (l.foldl (fun s e => s.measureLane e.2 e.1.toNat) s).time = s.time := by
  induction l with
  | nil => exact rfl
  | cons e t ih => exact ih.trans (measureLane_time _ _)

theorem measureLanes_margin_ne {m : Nat} (hm : m < 34) {l : List (BitVec 16 × Nat)} : ∀ {s : State}, (∀ e ∈ l, m ≠ e.2) →
    (l.foldl (fun s e => s.measureLane e.2 e.1.toNat) s).fld (laneB + m * 0x10 + 4) 8 8 = s.fld (laneB + m * 0x10 + 4) 8 8 := by
  induction l with
  | nil => exact fun _ => rfl
  | cons e t ih =>
    intro s h
    exact (ih fun x hx => h x (.tail _ hx)).trans (measureLane_margin_ne hm (h e (.head _)))

/-- Every lane measured shows its own margin: no later measurement touches its register. -/
theorem measureLanes_margin {vs : List (BitVec 16)} : ∀ {k m : Nat} {s : State}, m < 34 → k ≤ m → m < k + vs.length →
    ((vs.zipIdx k).foldl (fun s e => s.measureLane e.2 e.1.toNat) s).fld (laneB + m * 0x10 + 4) 8 8 = min 255 (vs.getD (m - k) 0).toNat := by
  induction vs with
  | nil => intro k m s _ hk h; simp at h; omega
  | cons v t ih =>
    intro k m s hm hk h
    rw [List.zipIdx_cons, List.foldl_cons]
    by_cases hEq : m = k
    · subst hEq
      have hLater : ∀ e ∈ t.zipIdx (m + 1), m ≠ e.2 := fun e he => by
        have := List.le_snd_of_mem_zipIdx he
        omega
      rw [measureLanes_margin_ne hm hLater, measureLane_margin hm]
      simp
    · rw [ih hm (by omega) (by simp at h; omega), show m - k = (m - (k + 1)) + 1 from by omega, List.getD_cons_succ]

/-! ### The obligation -/

theorem yardScrub_clean (h : s.pool.scrubAt + 1 < 3145728) :
    (s.yardScrub .clean).pool.scrubAt = s.pool.scrubAt + 1 ∧ (s.yardScrub .clean).mem = s.mem := by
  have hLast : s.pool.scrubAt ≠ 3145727 := by omega
  simp [State.yardScrub, hLast]

/-- Settles O24: preparing, switching and rotating cores are followed through the records they write; notices, unit states and registers
leave those alone. -/
theorem migrationAndAgingResults : Obligations.MigrationAndAgingResults := by
  unfold Obligations.MigrationAndAgingResults
  intro n m age margins rows s
  refine ⟨fun hMig hReady hLeave => ⟨s.migPrepared n true, rfl, ?_⟩, fun hMig hReady hLeave hOther hServes => ⟨s.migPrepared n false, rfl, ?_⟩,
    fun t hMig hLeave hRole => ⟨s.migDone n, rfl, ?_⟩, fun hNone => ?_, fun h => congrArg Host.Outcome.next (rotate_idle h), fun hNone => ?_,
    fun r c k hOn hRun hMig hPending hCore hLongest hTested => ⟨s.rotate n, rfl, ?_⟩,
    fun c hCore hNever => ⟨⟨s.rotationTested n true age.toNat, rfl, ?_⟩, ⟨s.rotationTested n false age.toNat, rfl, ?_⟩⟩,
    ⟨s.laneAging margins, rfl, ?_, fun l hl hLength => ?_⟩, fun h => ?_⟩
  · exact migPrepared_ready rfl hMig hReady hLeave
  · exact migPrepared_failed rfl hMig hReady hLeave hOther hServes
  · exact migDone_switched rfl hMig hLeave hRole
  · refine ⟨congrArg Host.Outcome.next ?_, congrArg Host.Outcome.next ?_, congrArg Host.Outcome.next ?_⟩
    · simp [State.migPrepared, hNone]
    · simp [State.migPrepared, hNone]
    · simp [State.migDone, hNone]
  · refine ⟨congrArg Host.Outcome.next ?_, congrArg Host.Outcome.next ?_⟩
    · simp [State.rotationTested, hNone]
    · simp [State.rotationTested, hNone]
  · exact rotate_started hOn hRun hMig hPending hCore hLongest hTested
  · exact rotationTested_passed rfl hCore hNever
  · exact rotationTested_failed rfl hCore
  · rw [laneAging_eq]
    exact congrArg TimeSt.now measureLanes_time
  · rw [laneAging_eq, measureLanes_margin hl (by omega) (by simp; omega)]
    simp [List.getD_eq_getElem?_getD, hl]
  · have hScrub := yardScrub_clean h
    have hGoes : (s.yardScrub .clean).pool.scrubAt ≠ 0 := by rw [hScrub.1]; omega
    refine ⟨s.yardScrub .clean, ?_, hScrub⟩
    exact congrArg Host.Outcome.next (if_neg hGoes)

end Sys2Proof.Machine
end

section
/-!
Search requests (O15, R32, R156): the budget monitor leaves alone what a request reads, so that a request that the station's bound allows
joins the requests with its key.
-/
namespace Sys2Proof.Machine

variable {o s : State}

@[simp] theorem State.coach_setCoach (s : State) (q : Nat) (c : Coach) (p : Nat) :
    (s.setCoach q c).coach p = if p = q then some c else s.coach p :=
  aget_aset (fun _ => none) s.coaches q (some c) p

@[simp] theorem State.result_setResult (s : State) (i : Nat) (c : Chan) (j : Nat) :
    (s.setResult i c).result j = if j = i then c else s.result j :=
  aget_aset _ _ _ _ _

/-! ### What the budget monitor leaves alone -/

/-- The budget monitor has left `o` as `s`: memory, units, requests and results stand, every register but the monitor's own (STN_WATERn and
STN_BUDGETn), and of every coach what a request reads of it. -/
structure Watched (o s : State) : Prop where
  mem : s.mem = o.mem
  units : s.units = o.units
  pool : s.pool = o.pool
  reqs : s.cpu.reqs = o.cpu.reqs
  results : s.cpu.results = o.cpu.results
  ctls : s.cpu.ctls = o.cpu.ctls
  upsets : s.cpu.upsets = o.cpu.upsets
  binding : ∀ i, (s.thread i).binding = (o.thread i).binding
  reg : ∀ a, (∀ n, a ≠ stnR n 0xC ∧ a ≠ stnR n 0x10) → s.reg a = o.reg a
  coach : ∀ q c, o.coach q = some c → ∃ d, s.coach q = some d ∧ d.raw = c.raw ∧ d.ecc = c.ecc ∧ d.searches = c.searches

namespace Watched

theorem refl : Watched o o := ⟨rfl, rfl, rfl, rfl, rfl, rfl, rfl, fun _ => rfl, fun _ _ => rfl, fun _ c h => ⟨c, h, rfl, rfl, rfl⟩⟩

theorem trans {t : State} (h : Watched o s) (g : Watched s t) : Watched o t where
  mem := g.mem.trans h.mem
  units := g.units.trans h.units
  pool := g.pool.trans h.pool
  reqs := g.reqs.trans h.reqs
  results := g.results.trans h.results
  ctls := g.ctls.trans h.ctls
  upsets := g.upsets.trans h.upsets
  binding i := (g.binding i).trans (h.binding i)
  reg a ha := (g.reg a ha).trans (h.reg a ha)
  coach q c hc := by
    obtain ⟨d, hd, hRaw, hEcc, hSearches⟩ := h.coach q c hc
    obtain ⟨e, he, hRaw', hEcc', hSearches'⟩ := g.coach q d hd
    exact ⟨e, he, hRaw'.trans hRaw, hEcc'.trans hEcc, hSearches'.trans hSearches⟩

/-- Counting or marking a coach leaves what a request reads of it. -/
theorem setCoach {q c d} (hc : s.coach q = some c) (hRaw : d.raw = c.raw) (hEcc : d.ecc = c.ecc) (hSearches : d.searches = c.searches) :
    Watched s (s.setCoach q d) where
  mem := rfl
  units := rfl
  pool := rfl
  reqs := rfl
  results := rfl
  ctls := rfl
  upsets := rfl
  binding _ := rfl
  reg _ _ := rfl
  coach p x hx := by
    by_cases h : p = q
    · subst h
      have : c = x := Option.some.inj (hc.symm.trans hx)
      subst this
      exact ⟨d, by simp, hRaw, hEcc, hSearches⟩
    · exact ⟨x, by simp [h, hx], rfl, rfl, rfl⟩

theorem setFld {a lo len v} (h : Watched o s) (ha : ∃ n, a = stnR n 0xC ∨ a = stnR n 0x10) : Watched o (s.setFld a lo len v) :=
  h.trans ⟨rfl, rfl, rfl, rfl, rfl, rfl, rfl, fun _ => rfl, fun b hb => by
    obtain ⟨n, hn⟩ := ha
    have := hb n
    exact (State.reg_setReg _ _ _ _).trans (if_neg (by rintro rfl; tauto)), fun _ c h => ⟨c, h, rfl, rfl, rfl⟩⟩

theorem raise {src ctx} (h : Watched o s) : Watched o (s.raise src ctx) :=
  h.trans ⟨rfl, rfl, rfl, rfl, rfl, rfl, rfl, fun _ => rfl, fun _ _ => rfl, fun _ c h => ⟨c, h, rfl, rfl, rfl⟩⟩

theorem sendItem {c l} (h : Watched o s) : Watched o (s.sendItem c l) := by
  unfold State.sendItem
  split
  · exact h.trans ⟨rfl, rfl, rfl, rfl, rfl, rfl, rfl, fun _ => rfl, fun _ _ => rfl, fun _ c h => ⟨c, h, rfl, rfl, rfl⟩⟩
  · exact h.trans ⟨rfl, rfl, rfl, rfl, rfl, rfl, rfl, fun _ => rfl, fun _ _ => rfl, fun _ c h => ⟨c, h, rfl, rfl, rfl⟩⟩

theorem noteIssue {i} (h : Watched o s) : Watched o (s.noteIssue i) := by
  unfold State.noteIssue
  split
  · exact h
  · exact h.trans ⟨rfl, rfl, rfl, rfl, rfl, rfl, rfl, fun _ => rfl, fun _ _ => rfl, fun _ c h => ⟨c, h, rfl, rfl, rfl⟩⟩

theorem countIssue {n q} (h : Watched o s) : Watched o (s.countIssue n q) := by
  unfold State.countIssue
  split
  · exact h
  · next c hc =>
    extract_lets k past s1 lost s2
    have h1 : Watched o s1 := h.trans (setCoach hc rfl rfl rfl)
    have h2 : Watched o s2 := by
      unfold s2
      split
      · exact h1.setFld ⟨n, .inl rfl⟩
      · exact h1
    split
    · exact (h2.setFld ⟨n, .inr rfl⟩).raise
    · exact h2

/-- A thread that keeps its binding. -/
theorem setThread {i x} (h : Watched o s) (hx : x.binding = (s.thread i).binding) : Watched o (s.setThread i x) :=
  h.trans ⟨rfl, rfl, rfl, rfl, rfl, rfl, rfl, fun j => by
    rw [State.thread_setThread]
    split
    · next hj => rw [hx, hj]
    · rfl, fun _ _ => rfl, fun _ c h => ⟨c, h, rfl, rfl, rfl⟩⟩

/-- The hard action that does not stop the thread (R29). -/
theorem hardAction {i q} (h : Watched o s)
    (hGoes : ∀ c, s.coach q = some c → c.issued ≠ s.budget (stnOf i) ∨ c.overB = true ∨ s.fld (stnR (stnOf i) 8) 0 2 ≠ 2) :
    (s.hardAction i q).1 = true ∧ Watched o (s.hardAction i q).2 := by
  refine ⟨(hardAction_same s i q hGoes).1, ?_⟩
  unfold State.hardAction
  split
  · exact h
  · next c hc =>
    extract_lets n s1
    split
    · exact h
    · next hStop =>
      have h1 : Watched o s1 := h.trans (setCoach hc rfl rfl rfl)
      have hMode : s1.fld (stnR n 8) 0 2 ≠ 2 := by
        rcases hGoes c hc with h | h | h
        · exact absurd (.inl h) hStop
        · exact absurd (.inr h) hStop
        · exact h
      split
      · exact h1.sendItem
      · next hTwo => exact absurd hTwo hMode
      · exact h1

theorem monitor {i} (h : Watched o s) (hGoes : s.inBudget i) : (s.monitor i).1 = true ∧ Watched o (s.monitor i).2 := by
  refine ⟨(monitor_same s i hGoes).1, ?_⟩
  obtain ⟨-, -, hCoaches, hCtl⟩ := noteIssue_same s i
  unfold State.monitor
  split
  · exact h.noteIssue
  · next q hq =>
    have hAct := (h.noteIssue (i := i)).hardAction (i := i) (q := q) fun c hc => by
      have := hGoes q c hq (by simpa only [State.coach, hCoaches] using hc)
      simpa only [State.budget, State.fld, State.reg, hCtl] using this
    split
    · next hr => rw [hr] at hAct; exact hAct.2.countIssue
    · next hr => rw [hr] at hAct; exact absurd hAct.1 Bool.false_ne_true

end Watched

/-! ### The issue of a request -/

theorem deliver_binding_pc (x : Thread) : x.deliver.1.binding = x.binding ∧ x.deliver.1.pc = x.pc :=
  List.foldlRecOn (motive := fun (y : Thread) => y.binding = x.binding ∧ y.pc = x.pc) _ _ ⟨rfl, rfl⟩ fun y hy w _ => by
    split
    · exact hy
    · unfold Thread.put
      split
      · exact hy
      · exact hy

/-- An instruction that issues takes effect on the state that the due loads and the budget monitor leave. -/
theorem issuePkt_settles {n : Fin 16} {k : Fin 10} {t : Fin 8} {word : Nat} {falls : State → Bool} {body : State → Eff}
    (hIssues : Issues s (.pkt n k t)) (hFetch : Fetches s (.pkt n k t) word) (hFalls : Falls s (.pkt n k t)) :
    ∃ u, Watched s u ∧ u.thread (threadId n k t) = (s.thread (threadId n k t)).deliver.1
      ∧ s.issuePkt (threadId n k t) word true falls body = u.settle (threadId n k t) (body u) := by
  obtain ⟨hRuns, hReady, hLoads, hBudget, hUpset⟩ := hIssues
  set i := threadId n k t with hi
  obtain ⟨hBinding, hPc⟩ := deliver_binding_pc (s.thread i)
  have hGoes : (s.setThread i (s.thread i).deliver.1).inBudget i := fun q c hq hc => hBudget q c (by
    simpa only [State.chargedTo, State.thread_setThread, if_true, hBinding] using hq) hc
  obtain ⟨hGo, hWatched⟩ := Watched.monitor (Watched.setThread (.refl (o := s)) hBinding) hGoes
  obtain ⟨-, hSame, hHarts⟩ := monitor_same _ i hGoes
  refine ⟨_, hWatched, by rw [hHarts.thread, State.thread_setThread, if_pos rfl], ?_⟩
  have hWord : ((s.setThread i (s.thread i).deliver.1).monitor i).2.num (codeAddr i (s.thread i).pc.toNat) 4 = word := by
    rw [← (show s.codeWord i = word from hFetch)]
    simp only [State.codeWord, State.num, State.bytes, State.byte, hSame.mem, show (s.setThread i (s.thread i).deliver.1).mem = s.mem from rfl]
  have hFetched : aget (fun _ => false) ((s.setThread i (s.thread i).deliver.1).monitor i).2.cpu.upsets (codeAddr i (s.thread i).pc.toNat / 8) = false := by
    rw [hWatched.upsets]; exact hUpset
  unfold State.issuePkt
  rw [← hi] at *
  have hFallsPc : (s.thread i).pc.toNat ≠ 0xFFFC := hFalls
  generalize hr : (s.setThread i (s.thread i).deliver.1).monitor i = r at *
  obtain ⟨b, u⟩ := r
  generalize hd : (s.thread i).deliver = d at *
  obtain ⟨x, bad⟩ := d
  simp only at hGo hLoads hPc hr
  subst hGo hLoads
  simp only [hRuns, hReady, hr, hPc, hFetched, hWord, hFallsPc, beq_self_eq_true, Bool.and_self, Bool.not_true, Bool.false_eq_true,
    if_false, ne_eq, not_true_eq_false, false_and]

/-! ### What a request reads -/

theorem Watched.searchCap (h : Watched o s) (n : Nat) : s.searchCap n = o.searchCap n := by
  have : s.reg (stnR n 0) = o.reg (stnR n 0) := h.reg _ fun m => by simp only [stnR]; omega
  rw [State.searchCap, State.searchCap, State.fld, State.fld, this]

theorem Watched.grpCfg (h : Watched o s) (g : Nat) (hg : g < 32) : s.reg (grpCfg g) = o.reg (grpCfg g) :=
  h.reg _ fun m => by simp only [Machine.grpCfg, stnR, clauseB, stnB, block]; omega

theorem Watched.absent (h : Watched o s) (u : Nat) : s.absent u = o.absent u := by
  simp only [State.absent, State.unit, h.units]

theorem Watched.clauseAbsent (h : Watched o s) (g : Nat) : s.clauseAbsent g = o.clauseAbsent g := by
  simp only [State.clauseAbsent, h.absent]

theorem Watched.srqPlaces (h : Watched o s) (i port : Nat) : s.srqPlaces i port = o.srqPlaces i port := by
  simp only [State.srqPlaces, State.result, h.reqs, h.results]

theorem Watched.cbyte (h : Watched o s) (a : Nat) : s.cbyte a = o.cbyte a := by
  simp only [State.cbyte, State.dirtyLine, State.ctlc, State.pbyte, State.byte, h.ctls, h.mem]

theorem Watched.rangeUpset (h : Watched o s) (a n : Nat) : s.rangeUpset a n = o.rangeUpset a n := by
  simp only [State.rangeUpset, State.upset, h.upsets, h.pool]

theorem getField_lt {w : Nat} (x : BitVec w) (lo len : Nat) : getField x lo len < 2 ^ len := (x.extractLsb' lo len).isLt

/-- A thread's key reads as before when its coach does. -/
theorem Watched.localBytes (h : Watched o s) {i q : Nat} {c : Coach} (hBinding : (o.thread i).binding = some q) (hc : o.coach q = some c)
    (ea n : Nat) : s.localBytes i ea n = o.localBytes i ea n := by
  obtain ⟨d, hd, hRaw, hEcc, -⟩ := h.coach q c hc
  have hBytes (j m : Nat) : d.bytes j m = c.bytes j m := by simp only [Coach.bytes, Coach.byte, hRaw]
  unfold State.localBytes
  simp only [h.binding, hBinding, Option.bind_some, hd, hc, hEcc, hBytes, h.rangeUpset, State.cbytes, h.cbyte, State.bytes, State.byte,
    h.mem]

theorem Watched.srqKey (h : Watched o s) {i q : Nat} {c : Coach} (hBinding : (o.thread i).binding = some q) (hc : o.coach q = some c)
    (eng : Nat) (a b : DWord) : s.srqKey i eng a b = o.srqKey i eng a b := by
  have hGrp : s.reg (Machine.grpCfg (getField b 0 5)) = o.reg (Machine.grpCfg (getField b 0 5)) := h.grpCfg _ (getField_lt b 0 5)
  have hForm : s.srqForm eng a b = o.srqForm eng a b := by
    unfold State.srqForm
    split
    · simp only [State.grpValid, State.bit, hGrp]
    · rfl
    · rfl
    · rfl
    · rfl
  have hLen : s.keyLen eng b = o.keyLen eng b := by
    unfold State.keyLen
    split
    · simp only [State.grpBytes, State.fld, hGrp]
    · rfl
    · rfl
    · rfl
  simp only [State.srqKey, hForm, hLen, h.localBytes hBinding hc]

/-! ### Requests -/

/-- The engine of a request, out of its form: a group's partition for clauses. -/
def engineOf (s : State) (eng : Nat) (b : DWord) : Bool :=
  if eng = 0 then s.clauseAbsent (getField b 0 5) else s.absent (unitId 5 eng)

/-- A request in form, of a station that may search and an engine that is there, joins the requests. -/
theorem srqSend_joins {i eng port q : Nat} {a b : DWord} {x : Coach} {key : List Byte} (hBinding : (s.thread i).binding = some q)
    (hCoach : s.coach q = some x) (hKey : s.srqKey i eng a b = .ok key) (hCap : x.searches + 1 ≤ s.searchCap (stnOf i))
    (hEngine : engineOf s eng b = false) :
    ∃ r : Srq, r.eng = eng ∧ r.thread = i ∧ r.port = port ∧ r.coach = q ∧ r.key = key ∧ r.ready = none
      ∧ s.srqSend i eng port a b = let t := s.setCoach q { x with searches := x.searches + 1 }
          { t with cpu := { t.cpu with reqs := t.cpu.reqs ++ [r] } } := by
  refine ⟨{ eng := eng, thread := i, port := port, coach := q, a := a, b := b, key := key }, rfl, rfl, rfl, rfl, rfl, rfl, ?_⟩
  unfold State.srqSend
  simp only [hBinding, hCoach, hKey, State.srqCounted, State.engineAbsent]
  rw [if_neg (by exact Nat.not_lt.mpr hCap), if_neg Bool.false_ne_true, if_neg (by exact ne_true_of_eq_false hEngine)]

/-- What a request of thread i does once it has issued. -/
def State.srqEff (s : State) (i eng port word ra rb : Nat) : Eff :=
  let a := (s.thread i).get ra
  let b := (s.thread i).get rb
  if thrOf i = 7 then .trap 0 word
  else if 4 ≤ s.srqPlaces i port then .wait s (.srq eng port a b)
  else .next (s.srqSend i eng port a b)

theorem srq_eq (n : Fin 16) (k : Fin 10) (t : Fin 8) (eng : Nat) (port : BitVec 2) (ra rb : BitVec 5) :
    s.srq (.pkt n k t) eng port ra rb =
      s.issuePkt (threadId n k t) (encQ eng port.toNat ra.toNat rb.toNat) true (fun _ => true)
        (fun s => s.srqEff (threadId n k t) eng port.toNat (encQ eng port.toNat ra.toNat rb.toNat) ra.toNat rb.toNat) := rfl

theorem stnOf_threadId (n : Fin 16) (k : Fin 10) (t : Fin 8) : stnOf (threadId n k t) = n := by
  simp only [stnOf, threadId]; omega

theorem thrOf_threadId (n : Fin 16) (k : Fin 10) (t : Fin 8) : thrOf (threadId n k t) = t := by
  simp only [thrOf, threadId]; omega

/-- SRQ of a bound thread (R156): the request joins, the search is counted and the thread goes on. -/
theorem srq_joins {n : Fin 16} {k : Fin 10} {t : Fin 8} {eng q : Nat} {port : BitVec 2} {ra rb : BitVec 5} {x : Coach} {key : List Byte}
    {u : State} (hU : s.srq (.pkt n k t) eng port ra rb = u)
    (hFetch : Fetches s (.pkt n k t) (encQ eng port.toNat ra.toNat rb.toNat)) (hIssues : Issues s (.pkt n k t))
    (hFalls : Falls s (.pkt n k t)) (hPool : t ≠ 7) (hPlaces : s.srqPlaces (threadId n k t) port.toNat < 4)
    (hBinding : (s.thread (threadId n k t)).binding = some q) (hCoach : s.coach q = some x)
    (hKey : s.srqKey (threadId n k t) eng (s.operand (.pkt n k t) ra.toNat) (s.operand (.pkt n k t) rb.toNat) = .ok key)
    (hCap : x.searches + 1 ≤ s.searchCap n) (hEngine : engineOf s eng (s.operand (.pkt n k t) rb.toNat) = false) :
    u.pcOf (.pkt n k t) = s.nextPc (.pkt n k t) ∧ (u.coach q).map (·.searches) = some (x.searches + 1)
      ∧ ∃ r, u.cpu.reqs = s.cpu.reqs ++ [r] ∧ r.eng = eng ∧ r.thread = threadId n k t ∧ r.port = port.toNat ∧ r.coach = q ∧ r.key = key
        ∧ r.ready = none := by
  rw [srq_eq] at hU
  obtain ⟨v, hWatched, hThread, hSettles⟩ := issuePkt_settles (falls := fun _ => true) (body := fun s =>
    s.srqEff (threadId n k t) eng port.toNat (encQ eng port.toNat ra.toNat rb.toNat) ra.toNat rb.toNat) hIssues hFetch hFalls
  rw [hSettles] at hU
  obtain ⟨d, hd, -, -, hSearches⟩ := hWatched.coach q x hCoach
  have hGet (r : Nat) : (v.thread (threadId n k t)).get r = s.operand (.pkt n k t) r := by rw [hThread]; rfl
  have hKey' := (hWatched.srqKey hBinding hCoach _ _ _).trans hKey
  have hEngine' : engineOf v eng (s.operand (.pkt n k t) rb.toNat) = false := by
    rw [← hEngine, engineOf, engineOf, hWatched.clauseAbsent, hWatched.absent]
  obtain ⟨r, hEng, hThr, hPort, hQ, hK, hNew, hSend⟩ := srqSend_joins (port := port.toNat) ((hWatched.binding _).trans hBinding) hd hKey'
    (by rw [stnOf_threadId, hWatched.searchCap, hSearches]; exact hCap) hEngine'
  have hEff : v.srqEff (threadId n k t) eng port.toNat (encQ eng port.toNat ra.toNat rb.toNat) ra.toNat rb.toNat =
      .next (v.srqSend (threadId n k t) eng port.toNat (s.operand (.pkt n k t) ra.toNat) (s.operand (.pkt n k t) rb.toNat)) := by
    rw [State.srqEff, hGet, hGet, thrOf_threadId, hWatched.srqPlaces, if_neg (by omega), if_neg (by omega)]
  rw [hEff, hSend] at hU
  subst hU
  refine ⟨?_, ?_, r, ?_, hEng, hThr, hPort, hQ, hK, hNew⟩
  · have hPc : (v.thread (threadId n k t)).pc = (s.thread (threadId n k t)).pc := by rw [hThread]; exact (deliver_binding_pc _).2
    simp only [State.settle, State.stepPc, State.modThread, State.pcOf, State.nextPc, State.thread_setThread, if_true]
    exact congrArg (fun (p : BitVec 16) => (p + 4).toNat) hPc
  · have h : (v.setCoach q { d with searches := d.searches + 1 }).coach q = some { d with searches := d.searches + 1 } := by
      rw [State.coach_setCoach, if_pos rfl]
    exact (congrArg (Option.map (·.searches)) h).trans (congrArg (fun k => some (k + 1)) hSearches)
  · exact congrArg (· ++ [r]) hWatched.reqs

/-! ### A request that waits -/

/-- The request of a thread that is bound to no coach is answered RANGE (R32). -/
theorem srqResume_unbound {i eng p : Nat} {va vb : DWord} {u : State} (hU : s.srqResume i = u)
    (hWaits : (s.thread i).run = .waiting (.srq eng p va vb)) (hPlaces : s.srqPlaces i p < 4) (hBinding : (s.thread i).binding = none) :
    (u.thread i).run = .ready ∧ u.result (i * 4 + p) = ((s.result (i * 4 + p)).write s.coreNow (statusWord 3) true).2 := by
  have hSend : s.srqSend i eng p va vb = s.replyNow i p (statusWord 3) := by simp only [State.srqSend, hBinding]
  rw [State.srqResume, hWaits] at hU
  simp only [hSend, if_neg (Nat.not_le.mpr hPlaces)] at hU
  subst hU
  refine ⟨?_, ?_⟩
  · simp only [State.wake, State.modThread, State.thread_setThread, if_true]
  · exact (State.result_setResult _ _ _ _).trans (if_pos rfl)

/-- A search instruction of `eng` where it stands. -/
theorem srq_sends {c : Instr} {n : Fin 16} {k : Fin 10} {t : Fin 8} {eng q : Nat} {port : BitVec 2} {ra rb : BitVec 5} {x : Coach}
    {key : List Byte} (hWord : wordOf c = some (.pkt n k t, encQ eng port.toNat ra.toNat rb.toNat))
    (hExec : exec c s = .next (s.srq (.pkt n k t) eng port ra rb)) (hIssues : Issues s (.pkt n k t))
    (hFalls : Falls s (.pkt n k t)) (hPool : t ≠ 7) (hPlaces : s.srqPlaces (threadId n k t) port.toNat < 4)
    (hBinding : (s.thread (threadId n k t)).binding = some q) (hCoach : s.coach q = some x)
    (hKey : s.srqKey (threadId n k t) eng (s.operand (.pkt n k t) ra.toNat) (s.operand (.pkt n k t) rb.toNat) = .ok key)
    (hCap : x.searches + 1 ≤ s.searchCap n) (hEngine : engineOf s eng (s.operand (.pkt n k t) rb.toNat) = false) :
    Runs c s (fun u => u.pcOf (.pkt n k t) = s.nextPc (.pkt n k t) ∧ (u.coach q).map (·.searches) = some (x.searches + 1)
      ∧ ∃ r, u.cpu.reqs = s.cpu.reqs ++ [r] ∧ r.eng = eng ∧ r.thread = threadId n k t ∧ r.port = port.toNat ∧ r.coach = q ∧ r.key = key
        ∧ r.ready = none) := by
  intro h w hOf hFetch
  obtain ⟨rfl, rfl⟩ := Prod.mk.inj (Option.some.inj (hWord.symm.trans hOf))
  exact ⟨_, hExec, srq_joins rfl hFetch hIssues hFalls hPool hPlaces hBinding hCoach hKey hCap hEngine⟩

end Sys2Proof.Machine
end

section
/-!
What searches answer, learning, the sparing of clause blocks and the aging of the forwarding table (O15, R181, R192, R201, R203, R377).
-/
namespace Sys2Proof.Machine

variable {o s : State}

/-! ### Results -/

/-- The result of the one request at its port (R156). -/
theorem searchResult_single {q : Srq} {eng : Nat} (hReqs : s.cpu.reqs = [q]) (hEng : q.eng = eng)
    (hReady : q.ready = some 0) (hApply : q.apply = none) (hLearned : q.learned = false) (hKept : q.discarded = false)
    (hAbsent : s.absent (unitId 5 eng) = false) (hForward : eng ≠ 0) :
    (s.searchResult eng).cpu.reqs = []
      ∧ (s.searchResult eng).result (q.thread * 4 + q.port) = (s.result (q.thread * 4 + q.port)).pushItem q.words := by
  unfold State.searchResult
  extract_lets l due
  have hDue : due = some (q, 0) := by
    have hl : l = [(q, 0)] := by simp [l, hReqs, hEng, hReady]
    unfold due
    rw [hl]
    rfl
  rw [hDue]
  simp -zeta only
  extract_lets s1 q1 _ s2 s3
  have hq : q1 = q := by
    have h : s1.engineAbsent q = false := by rw [State.engineAbsent, if_neg (by rw [hEng]; exact hForward), hEng]; exact hAbsent
    simp [q1, State.staleReply, h]
  have h3 : s3 = s2 := by
    unfold s3
    rw [hq, State.applyResult]
    simp only [hApply, hLearned, Bool.false_eq_true, if_false]
  rw [h3, hq, if_neg (by simp [hKept])]
  refine ⟨?_, ?_⟩
  · have : s1.cpu.reqs = [q] := hReqs
    simp [State.pushResult, State.setResult, s2, this]
  · exact (State.result_setResult _ _ _ _).trans (if_pos rfl)

/-! ### Learning -/

theorem slotsUntil_none {eng : Nat} {stop : State → Bool} (h : s.nextSlot eng = none) : ∀ fuel, State.slotsUntil eng stop fuel s = s
  | 0 => rfl
  | fuel + 1 => by
    rw [State.slotsUntil]
    split
    · rfl
    · rw [State.slotServe, h]
      exact slotsUntil_none h fuel

theorem slotsUntil_stopped {eng : Nat} {stop : State → Bool} (h : stop s = true) : ∀ fuel, State.slotsUntil eng stop fuel s = s
  | 0 => rfl
  | fuel + 1 => by rw [State.slotsUntil, if_pos h]

/-- A slot of the FDB that goes to updates is the learn item's when no operation is under way. -/
theorem slotServe_learn {x : Nat} {it : Learn} {rest : List Learn} (hSlot : s.nextSlot 1 = some (x, 0xC2))
    (hQueue : s.cls.learn = it :: rest) (hVerdict : it.verdict.isSome = true) (hIdle : s.fwdPending 1 = false) :
    s.slotServe 1 .clean = (s.takeSlot 1 x).learnRun := by
  have hPending : (s.takeSlot 1 x).fwdPending 1 = false := hIdle
  have hHead : (s.takeSlot 1 x).cls.learn.head?.any (fun it => it.verdict.isSome) = true := by
    rw [show (s.takeSlot 1 x).cls.learn = it :: rest from hQueue]; simpa using hVerdict
  have hFdb : (s.takeSlot 1 x).fdbSlot = (true, (s.takeSlot 1 x).learnRun) := by
    rw [State.fdbSlot, hPending, hHead]; rfl
  rw [State.slotServe, hSlot]
  simp only
  rw [if_neg (by simp), State.freeSlot, if_neg (by decide), hFdb]
  rfl

/-- A wheel that has a next slot gives a learn item at least that one. -/
theorem slotFuel_pos {p : Nat × Nat} (h : s.nextSlot 1 = some p) : ∃ fuel, s.slotFuel 1 1 = fuel + 1 := by
  unfold State.nextSlot at h
  unfold State.slotFuel
  split at h
  · exact absurd h (by simp)
  · next w hw =>
    rw [hw]
    split at h
    · exact absurd h (by simp)
    · next hPos =>
      have : w.pos ≠ [] := by
        rintro hNil
        simp [hNil] at hPos
      have := List.length_pos_iff.mpr this
      exact ⟨w.pos.length * 2 - 1, by simp only; omega⟩

/-- `s` shows the forwarding table as `o` does: its memory, and the age and limit that FWD_AGE holds. -/
structure SameFdb (o s : State) : Prop where
  mem : s.mem = o.mem
  age : s.reg fwdB = o.reg fwdB

theorem SameFdb.byte (h : SameFdb o s) (a : Nat) : s.byte a = o.byte a := by rw [State.byte, State.byte, h.mem]

theorem SameFdb.num (h : SameFdb o s) (a n : Nat) : s.num a n = o.num a n := by simp only [State.num, State.bytes, h.byte]

theorem SameFdb.ageNow (h : SameFdb o s) : s.ageNow = o.ageNow := by rw [State.ageNow, State.ageNow, State.fld, State.fld, h.age]

theorem SameFdb.fdbStatic (h : SameFdb o s) (a : Nat) : s.fdbStatic a = o.fdbStatic a := by rw [State.fdbStatic, State.fdbStatic, h.num]

theorem SameFdb.fdbPort (h : SameFdb o s) (a : Nat) : s.fdbPort a = o.fdbPort a := by rw [State.fdbPort, State.fdbPort, h.num]

theorem SameFdb.fdbFind (h : SameFdb o s) (k : Nat) : s.fdbFind k = o.fdbFind k := by
  simp only [State.fdbFind, State.fdbValid, State.fdbYoung, State.ageLimit, State.fld, h.age, h.num, h.fdbStatic, h.ageNow]
  rfl

/-- The learn queue once its head is out. -/
def State.popLearn (s : State) (rest : List Learn) : State := State.showLearn { s with cls := { s.cls with learn := rest } }

theorem popLearn_fdb (rest : List Learn) : SameFdb s (s.popLearn rest) :=
  ⟨rfl, (State.reg_setReg _ _ _ _).trans (if_neg (by decide))⟩

theorem learnRun_failed {it : Learn} {rest : List Learn} {v : Nat} (hQueue : s.cls.learn = it :: rest) (hVerdict : it.verdict = some v)
    (hFailed : v ≠ 0) : s.learnRun = s.popLearn rest := by
  simp -zeta only [State.learnRun, hQueue, hVerdict]
  exact if_pos hFailed

/-- A passed frame whose address stands at its own port makes the entry young again. -/
theorem learnRun_refreshed {it : Learn} {rest : List Learn} {a : Nat} (hQueue : s.cls.learn = it :: rest) (hVerdict : it.verdict = some 0)
    (hFind : s.fdbFind it.key = some a) (hDynamic : s.fdbStatic a = false) (hPort : s.fdbPort a = it.port) :
    s.learnRun = (s.popLearn rest).setNum (a + 9) 1 s.ageNow := by
  have h : SameFdb s (s.popLearn rest) := popLearn_fdb rest
  simp -zeta only [State.learnRun, hQueue, hVerdict]
  extract_lets _ s1 s2
  rw [show s2 = s.popLearn rest from rfl, if_neg (by simp), h.fdbFind, hFind]
  simp only [h.fdbStatic, hDynamic, h.fdbPort, hPort, h.ageNow, Bool.false_eq_true, if_false, if_true]

/-- LEARN_ITEM_RUN runs the item at the head, in the next slot of the FDB where it has a wheel. -/
theorem learnItem_runs {it : Learn} {rest : List Learn} (hQueue : s.cls.learn = it :: rest) (hNew : rest.head? ≠ some it)
    (hVerdict : it.verdict.isSome = true) (hIdle : s.fwdPending 1 = false) (hOwner : ∀ x o, s.nextSlot 1 = some (x, o) → o = 0xC2)
    (hRuns : ∀ t : State, t.cls = s.cls → SameFdb s t → t.learnRun.cls.learn = rest) :
    ∃ t : State, s.learnItem = t.learnRun ∧ t.cls = s.cls ∧ SameFdb s t
      ∧ ∀ x o, s.nextSlot 1 = some (x, o) → aget (fun _ => 0) t.cpu.lastSlot 1 = x + 1 := by
  have hNone : it.verdict.isNone = false := by simpa using hVerdict
  have hHead : s.cls.learn.head? = some it := by rw [hQueue]; rfl
  have hStop : (s.cls.learn.head? != some it) = false := by simp [hHead]
  have hItem : s.learnItem = let t := State.slotsUntil 1 (fun s => s.cls.learn.head? != some it) (s.slotFuel 1 1) s
      if t.cls.learn.head? = some it then t.learnRun else t := by
    simp only [State.learnItem, hHead, hNone, Bool.false_eq_true, if_false]
  cases hSlot : s.nextSlot 1 with
  | none =>
    refine ⟨s, ?_, rfl, ⟨rfl, rfl⟩, fun x o h => absurd h (by simp)⟩
    rw [hItem, slotsUntil_none hSlot]
    exact if_pos hHead
  | some p =>
    obtain ⟨x, o⟩ := p
    obtain rfl := hOwner x o hSlot
    obtain ⟨fuel, hFuel⟩ := slotFuel_pos hSlot
    have hFdb : SameFdb s (s.takeSlot 1 x) := ⟨rfl, rfl⟩
    have hRest : (s.takeSlot 1 x).learnRun.cls.learn = rest := hRuns (s.takeSlot 1 x) rfl hFdb
    have hGone : (s.takeSlot 1 x).learnRun.cls.learn.head? ≠ some it := by rw [hRest]; exact hNew
    refine ⟨s.takeSlot 1 x, ?_, rfl, hFdb, fun y o h => ?_⟩
    · rw [hItem, hFuel, State.slotsUntil, hStop, if_neg Bool.false_ne_true, slotServe_learn hSlot hQueue hVerdict hIdle,
        slotsUntil_stopped (by simpa using hGone)]
      exact if_neg hGone
    · obtain ⟨rfl, -⟩ := Prod.mk.inj (Option.some.inj h)
      exact (aget_aset (fun _ => 0) s.cpu.lastSlot 1 (x + 1) 1).trans (if_pos rfl)

theorem popLearn_learn (rest : List Learn) : (s.popLearn rest).cls.learn = rest := rfl

/-- An item of a frame that failed leaves the queue and changes nothing else of the table. -/
theorem learnItem_failed {it : Learn} {rest : List Learn} (hQueue : s.cls.learn = it :: rest) (hNew : rest.head? ≠ some it)
    (hIdle : s.fwdPending 1 = false) (hOwner : ∀ x o, s.nextSlot 1 = some (x, o) → o = 0xC2) (hVerdict : it.verdict = some 1) :
    s.learnItem.cls.learn = rest ∧ s.learnItem.mem = s.mem
      ∧ ∀ x o, s.nextSlot 1 = some (x, o) → aget (fun _ => 0) s.learnItem.cpu.lastSlot 1 = x + 1 := by
  have hRun (t : State) (hCls : t.cls = s.cls) : t.learnRun = t.popLearn rest :=
    learnRun_failed (hCls ▸ hQueue) hVerdict (by decide)
  obtain ⟨t, hItem, hCls, hFdb, hSlot⟩ := learnItem_runs hQueue hNew (by rw [hVerdict]; rfl) hIdle hOwner fun t hCls _ => by
    rw [hRun t hCls, popLearn_learn]
  rw [hItem, hRun t hCls]
  exact ⟨rfl, hFdb.mem, hSlot⟩

/-- An item of a passed frame whose address stands at its own port writes the age. -/
theorem learnItem_refreshed {it : Learn} {rest : List Learn} {a : Nat} (hQueue : s.cls.learn = it :: rest) (hNew : rest.head? ≠ some it)
    (hIdle : s.fwdPending 1 = false) (hOwner : ∀ x o, s.nextSlot 1 = some (x, o) → o = 0xC2) (hVerdict : it.verdict = some 0)
    (hFind : s.fdbFind it.key = some a) (hDynamic : s.fdbStatic a = false) (hPort : s.fdbPort a = it.port) :
    s.learnItem.cls.learn = rest ∧ s.learnItem.byte (a + 9) = BitVec.ofNat 8 s.ageNow
      ∧ ∀ x o, s.nextSlot 1 = some (x, o) → aget (fun _ => 0) s.learnItem.cpu.lastSlot 1 = x + 1 := by
  have hRun (t : State) (hCls : t.cls = s.cls) (h : SameFdb s t) : t.learnRun = (t.popLearn rest).setNum (a + 9) 1 s.ageNow := by
    rw [learnRun_refreshed (hCls ▸ hQueue) hVerdict (h.fdbFind _ ▸ hFind) (h.fdbStatic _ ▸ hDynamic) (h.fdbPort _ ▸ hPort), h.ageNow]
  obtain ⟨t, hItem, hCls, hFdb, hSlot⟩ := learnItem_runs hQueue hNew (by rw [hVerdict]; rfl) hIdle hOwner fun t hCls h => by
    rw [hRun t hCls h]; rfl
  rw [hItem, hRun t hCls hFdb]
  exact ⟨rfl, (State.byte_setByte _ _ _ _).trans (if_pos rfl), hSlot⟩

/-! ### Sparing of clause blocks (R377) -/

theorem showSpare_cls : s.showSpare.cls = s.cls := by
  unfold State.showSpare
  extract_lets k was s1
  have h1 : s1.cls = s.cls := rfl
  clear_value s1
  split
  · exact h1
  · exact h1

theorem blockCopied_ready : s.blockCopied.cls.blockReady = (s.cls.blockReady || s.cls.blockMove.isSome) := by
  unfold State.blockCopied
  split
  · next h => simp [h]
  · next h => simp [Bool.eq_false_iff.mpr h]

theorem blockTested_done {ok : Bool} (h : s.cls.blockTesting.isSome = true) : (s.blockTested ok).cls.blockTesting = none := by
  obtain ⟨p, hp⟩ := Option.isSome_iff_exists.mp h
  simp -zeta only [State.blockTested, hp]
  extract_lets _ s1 _ s2
  have h1 : (s1.unitState (unitId 4 p) 4).cls = s1.cls := (Quiet.refl.unitState).cls
  have h2 : (s2.retirePart (unitId 4 p) Src.clauseSoft).cls = s2.cls := (Quiet.refl.retirePart).cls
  rw [showSpare_cls]
  split
  · rw [h1]
  · rw [h2]

/-- A move that may start goes to the first spare block. -/
theorem blockMoveStart_moves {b p : Nat} {rest : List Nat} {retire : Bool} (hMove : s.cls.blockMove = none)
    (hFree : s.spareBlocks = p :: rest) :
    ∃ t, s.blockMoveStart b retire = (true, t) ∧ t.cls.blockMove = some (b, p) ∧ t.cls.blockNext = s.cls.blockNext := by
  unfold State.blockMoveStart
  rw [hMove, hFree]
  simp -zeta only
  extract_lets s1 _ s2
  have h1 : s1.cls = s.cls := (Quiet.refl.unitState.unitState).cls
  have h2 : s2.showSpare.cls = s2.cls := showSpare_cls
  exact ⟨_, rfl, by rw [h2], by rw [h2, ← h1]⟩

/-- A rotation moves the next block of the round to the first spare block. -/
theorem blockRotate_moves {p : Nat} {rest : List Nat} (hOn : s.bit (fltB + 0x80) 17 = true) (hSpares : 2 ≤ s.fld spareR 0 3)
    (hTesting : s.cls.blockTesting = none) (hMove : s.cls.blockMove = none) (hFree : s.spareBlocks = p :: rest) :
    s.blockRotate.cls.blockMove = some (s.cls.blockNext, p) ∧ s.blockRotate.cls.blockNext = (s.cls.blockNext + 1) % 48 := by
  obtain ⟨t, hStart, hTo, hNext⟩ := blockMoveStart_moves (b := s.cls.blockNext) (retire := false) hMove hFree
  unfold State.blockRotate
  rw [if_pos ⟨hOn, hSpares, hTesting⟩, hStart]
  exact ⟨hTo, congrArg (fun k => (k + 1) % 48) hNext⟩

/-! ### Aging of the forwarding table (R203) -/

theorem agePassStart_shows : s.agePassStart.cls.agePass = true ∧ s.agePassStart.cls.ageNext = 0
    ∧ s.agePassStart.fld fwdB 16 8 = (s.ageNow + 1) % 256 := by
  have h := State.fld_setFld s fwdB 16 8 ((s.ageNow + 1) % 256) (by omega)
  exact ⟨rfl, rfl, h.trans (Nat.mod_mod _ _)⟩

theorem advance_age (at_ : Nat) : (s.advance at_).cls = s.cls ∧ (s.advance at_).ageNow = s.ageNow := ⟨rfl, rfl⟩

theorem tickAt_age (at_ : Nat) :
    let t : State := { s with cls := { s.cls with ageTickAt := at_ } }
    t.cls.agePass = s.cls.agePass ∧ t.ageNow = s.ageNow := ⟨rfl, rfl⟩

theorem ageTick_starts (hOn : s.fld fwdB 0 8 ≠ 0) (hIdle : s.cls.agePass = false) :
    s.ageTick.cls.agePass = true ∧ s.ageTick.cls.ageNext = 0 ∧ s.ageTick.fld fwdB 16 8 = (s.ageNow + 1) % 256 := by
  unfold State.ageTick
  extract_lets t s1 _ s2
  obtain ⟨hCls1, hAge1⟩ : s1.cls = s.cls ∧ s1.ageNow = s.ageNow := advance_age _
  obtain ⟨hPass2, hAge2⟩ : s2.cls.agePass = s1.cls.agePass ∧ s2.ageNow = s1.ageNow := tickAt_age _
  have hOn : t ≠ 0 := hOn
  clear_value s2 s1 t
  rw [if_neg hOn, hPass2, hCls1, hIdle, if_neg Bool.false_ne_true, ← hAge1, ← hAge2]
  exact agePassStart_shows

theorem ageWrite_shows (v : Word) : (s.ageWrite v).fld fwdB 0 16 = (v.extractLsb' 0 16).toNat ∧ (s.ageWrite v).cls.ageTickAt = s.now :=
  ⟨(State.fld_setFld s fwdB 0 16 (getField v 0 16) (by omega)).trans (Nat.mod_eq_of_lt (getField_lt v 0 16)), rfl⟩

/-! ### The search slot of a wheel (R181) -/

/-- Hash slots read the bytes of the table and the words in error; taking a slot changes neither. -/
theorem serve_hash {q : Srq} (hEng : q.eng = 4) (hAbsent : s.absent (unitId 5 4) = false)
    (hGood : s.tableBad (0x30C00000 + q.a.toNat) (8 * q.b.toNat) = false) :
    s.serve q false = ({ q with words := (List.range q.b.toNat).map (fun j =>
      BitVec.ofNat 64 (s.cnum (0x30C00000 + q.a.toNat + 8 * j) 8)) ++ [0] }, s) := by
  simp only [State.serve, hEng, hAbsent, hGood, Bool.false_eq_true, or_self, if_false]

theorem serveOne_hash {q : Srq} {m ix : Nat} (hEng : q.eng = 4) (hPort : q.port ≠ 4) (hAbsent : s.absent (unitId 5 4) = false)
    (hGood : s.tableBad (0x30C00000 + q.a.toNat) (8 * q.b.toNat) = false) :
    ∃ r : Srq, (s.serveOne m ix q false).cpu.reqs = s.cpu.reqs.set ix r ∧ (s.serveOne m ix q false).cls = s.cls
      ∧ r.ready = some (2 * m + 14) ∧ r.port = q.port
      ∧ r.words = (List.range q.b.toNat).map (fun j => BitVec.ofNat 64 (s.cnum (0x30C00000 + q.a.toNat + 8 * j) 8)) ++ [0] := by
  have hEntry : q.isEntry = false := by simpa [Srq.isEntry, entryPort] using hPort
  unfold State.serveOne
  rw [if_neg (by simp [hEntry]), serve_hash hEng hAbsent hGood]
  exact ⟨_, rfl, rfl, by simp [State.latency, hEng], rfl, rfl⟩

/-- The one request of a station starts in the station's slot. -/
theorem serveOwner_hash {q : Srq} {m : Nat} (hReqs : s.cpu.reqs = [q]) (hEng : q.eng = 4) (hThread : q.thread < 80) (hPort : q.port ≠ 4)
    (hReady : q.ready = none) (hAbsent : s.absent (unitId 5 4) = false)
    (hGood : s.tableBad (0x30C00000 + q.a.toNat) (8 * q.b.toNat) = false) :
    ∃ r : Srq, (s.serveOwner 4 0 m false).cpu.reqs = [r] ∧ (s.serveOwner 4 0 m false).cls = s.cls ∧ r.ready = some (2 * m + 14)
      ∧ r.words = (List.range q.b.toNat).map (fun j => BitVec.ofNat 64 (s.cnum (0x30C00000 + q.a.toNat + 8 * j) 8)) ++ [0] := by
  have hWaiting : s.waiting 4 0 = [(q, 0)] := by
    simp [State.waiting, hReqs, hEng, hReady, stnOf, Nat.div_eq_of_lt hThread]
  obtain ⟨r, hSet, hCls, hDue, hRPort, hWords⟩ := serveOne_hash (m := m) (ix := 0) hEng hPort hAbsent hGood
  rw [hReqs] at hSet
  unfold State.serveOwner
  rw [hWaiting]
  refine ⟨r, ?_, hCls, hDue, hWords⟩
  show (s.serveOne m 0 q false).cpu.reqs.filter (fun q => !(q.isEntry && q.ready.isSome)) = [r]
  rw [hSet]
  simp [Srq.isEntry, entryPort, hRPort, hPort]


/-- What taking a slot leaves to a search. -/
structure SameSearch (o s : State) : Prop where
  reqs : s.cpu.reqs = o.cpu.reqs
  cls : s.cls = o.cls
  absent : s.absent = o.absent
  tableBad : s.tableBad = o.tableBad
  cnum : s.cnum = o.cnum

theorem advance_search (at_ : Nat) : SameSearch s (s.advance at_) := ⟨rfl, rfl, rfl, rfl, rfl⟩

theorem takeSlot_search (eng m : Nat) : SameSearch s (s.takeSlot eng m) := by
  have h : SameSearch s (s.advance (s.path.start + m * srchU)) := advance_search _
  unfold State.takeSlot
  generalize s.advance (s.path.start + m * srchU) = t at h ⊢
  exact ⟨h.reqs, h.cls, h.absent, h.tableBad, h.cnum⟩

/-- On a wheel of one position, every slot is its owner's. -/
theorem nextSlot_single {w : Wheel} {eng owner : Nat} (hWheels : s.image.tt.wheels = [w]) (hKind : w.kind = 1) (hInst : w.inst = eng)
    (hPos : w.pos = [owner]) (hRun : s.pathRun = true) :
    s.nextSlot eng = some (max (aget (fun _ => 0) s.cpu.lastSlot eng) s.srchCycle, owner) := by
  have hWheel : s.wheel 1 eng = some w := by simp [State.wheel, hWheels, hKind, hInst]
  simp [State.nextSlot, hWheel, hPos, hRun, Nat.mod_one]

theorem slotServe_hash {w : Wheel} {q : Srq} (hWheels : s.image.tt.wheels = [w]) (hKind : w.kind = 1) (hInst : w.inst = 4)
    (hPos : w.pos = [0x80]) (hRun : s.pathRun = true) (hReqs : s.cpu.reqs = [q]) (hEng : q.eng = 4) (hThread : q.thread < 80)
    (hPort : q.port ≠ 4) (hReady : q.ready = none) (hAbsent : s.absent (unitId 5 4) = false)
    (hGood : s.tableBad (0x30C00000 + q.a.toNat) (8 * q.b.toNat) = false) :
    ∃ r : Srq, (s.slotServe 4 .clean).cpu.reqs = [r] ∧ (s.slotServe 4 .clean).cls = s.cls
      ∧ r.ready = some (2 * max (aget (fun _ => 0) s.cpu.lastSlot 4) s.srchCycle + 14)
      ∧ r.words = (List.range q.b.toNat).map (fun j => BitVec.ofNat 64 (s.cnum (0x30C00000 + q.a.toNat + 8 * j) 8)) ++ [0] := by
  have hSlot := nextSlot_single hWheels hKind hInst hPos hRun
  have h := takeSlot_search (s := s) 4 (max (aget (fun _ => 0) s.cpu.lastSlot 4) s.srchCycle)
  have hTake : s.slotServe 4 .clean =
      (s.takeSlot 4 (max (aget (fun _ => 0) s.cpu.lastSlot 4) s.srchCycle)).serveOwner 4 0
        (max (aget (fun _ => 0) s.cpu.lastSlot 4) s.srchCycle) false := by
    have hWaits : ((s.takeSlot 4 (max (aget (fun _ => 0) s.cpu.lastSlot 4) s.srchCycle)).waiting 4 0).isEmpty = false := by
      simp [State.waiting, h.reqs, hReqs, hEng, hReady, stnOf, Nat.div_eq_of_lt hThread]
    rw [State.slotServe, hSlot]
    exact if_pos ⟨by decide, by decide, by simpa using hWaits⟩
  obtain ⟨r, hR, hCls, hDue, hWords⟩ := serveOwner_hash (m := max (aget (fun _ => 0) s.cpu.lastSlot 4) s.srchCycle) (h.reqs.trans hReqs)
    hEng hThread hPort hReady (h.absent ▸ hAbsent) (h.tableBad ▸ hGood)
  rw [h.cnum] at hWords
  exact ⟨r, hTake ▸ hR, hTake ▸ hCls.trans h.cls, hDue, hWords⟩

/-- Without a scrub pass that ends, serving a slot of another engine than the clauses' is all that SEARCH_SLOT_SERVE does. -/
theorem execSearchSlotServe_other {eng : Fin 5} {e : SlotErr} {m : List (BitVec 8 × BitVec 16)} (hEng : eng ≠ 0)
    (hCls : (s.slotServe eng e).cls = s.cls) : execSearchSlotServe eng e m s = .next (s.slotServe eng e) := by
  have hGoes : ¬ (s.cls.scrubAt ≠ 0 ∧ (s.slotServe eng e).cls.scrubAt = 0) := by rw [hCls]; tauto
  simp only [execSearchSlotServe, if_neg hEng]
  exact congrArg Host.Outcome.next (if_neg hGoes)

/-! ### The obligation -/

/-- Settles O15: the budget monitor leaves what a request reads, and each result, learn, sparing and aging command is followed through the
records it writes. -/
theorem searchResults : Obligations.SearchResults := by
  unfold Obligations.SearchResults
  refine ⟨fun n k t port ra rb s => ?_, fun eng ok v e m s => ?_⟩
  · have sends {c : Instr} {eng : Nat} (hWord : wordOf c = some (.pkt n k t, encQ eng port.toNat ra.toNat rb.toNat))
        (hExec : exec c s = .next (s.srq (.pkt n k t) eng port ra rb)) := fun q x key hIssues hFalls hPool hPlaces hBinding hCoach hKey hCap
        hEngine => srq_sends (q := q) (x := x) (key := key) hWord hExec hIssues hFalls hPool hPlaces hBinding hCoach hKey hCap hEngine
    exact ⟨sends rfl rfl, sends rfl rfl, sends rfl rfl, sends rfl rfl, sends rfl rfl,
      fun eng p va vb hWaits hPlaces hBinding => ⟨_, rfl, srqResume_unbound rfl hWaits hPlaces hBinding⟩⟩
  · refine ⟨fun q hReqs hEng hReady hApply hLearned hKept hAbsent hForward => ⟨s.searchResult eng, rfl, ?_⟩,
      fun it rest hQueue hNew hIdle hOwner => ⟨fun hVerdict => ⟨s.learnItem, rfl, ?_⟩,
        fun a hVerdict hFind hDynamic hPort => ⟨s.learnItem, rfl, ?_⟩⟩,
      ⟨s.blockCopied, rfl, blockCopied_ready⟩, fun hTesting => ⟨s.blockTested ok, rfl, blockTested_done hTesting⟩,
      fun hOn hIdle => ⟨s.ageTick, rfl, ageTick_starts hOn hIdle⟩, ⟨s.ageWrite v, rfl, ageWrite_shows v⟩,
      fun p rest hOn hSpares hTesting hMove hFree => ⟨s.blockRotate, rfl, blockRotate_moves hOn hSpares hTesting hMove hFree⟩,
      fun w q hWheels hKind hInst hPos hRun hReqs hEng hThread hPort hReady hAbsent hGood hClean => ?_⟩
    · exact searchResult_single hReqs hEng hReady hApply hLearned hKept hAbsent fun h => hForward (Fin.ext h)
    · exact learnItem_failed hQueue hNew hIdle hOwner hVerdict
    · exact learnItem_refreshed hQueue hNew hIdle hOwner hVerdict hFind hDynamic hPort
    · subst hClean
      obtain ⟨r, hR, hCls, hDue, hWords⟩ := slotServe_hash hWheels hKind hInst hPos hRun hReqs hEng hThread hPort hReady hAbsent hGood
      exact ⟨s.slotServe 4 .clean, execSearchSlotServe_other (by decide) hCls, r, hR, hDue, hWords⟩

end Sys2Proof.Machine
end

section
/-!
A coach record and its fields (Tables 2.1 to 2.3): what reads as written and what the marks of verbs, drops and searches leave alone (O21).
-/
namespace Sys2Proof.Machine

variable {o s : State} {c d : Coach}

/-! ### Fields -/

theorem Coach.fld_setFld (b lo len v : Nat) (h : 8 * b + lo + len ≤ 2048) : (c.setFld b lo len v).fld b lo len = v % 2 ^ len :=
  getField_putField _ _ _ _ h

theorem Coach.fld_setFld_ne (b lo len v b' lo' len' : Nat) (h : 8 * b' + lo' + len' ≤ 8 * b + lo ∨ 8 * b + lo + len ≤ 8 * b' + lo') :
    (c.setFld b lo len v).fld b' lo' len' = c.fld b' lo' len' :=
  getField_putField_ne _ _ _ _ _ _ h

/-- `d` is the coach `c` still: where it stands, its arrival, its verdict, its bytes, and the port, kind and number in its record. -/
structure Coach.Same (c d : Coach) : Prop where
  loc : d.loc = c.loc
  tsIn : d.tsIn = c.tsIn
  verdict : d.verdict = c.verdict
  got : d.got = c.got
  lensDone : d.lensDone = c.lensDone
  inPort : d.inPort = c.inPort
  kind : d.kind = c.kind
  seq : d.seq = c.seq

namespace Coach.Same

theorem refl : c.Same c := ⟨rfl, rfl, rfl, rfl, rfl, rfl, rfl, rfl⟩

theorem trans {e : Coach} (h : c.Same d) (g : d.Same e) : c.Same e :=
  ⟨g.loc.trans h.loc, g.tsIn.trans h.tsIn, g.verdict.trans h.verdict, g.got.trans h.got, g.lensDone.trans h.lensDone,
    g.inPort.trans h.inPort, g.kind.trans h.kind, g.seq.trans h.seq⟩

/-- A field apart from port, kind and number: CLASS, or one behind the first word of the record and outside SEQ. -/
theorem setFld {b lo len v} (h : c.Same d) (hApart : (b = 192 ∧ (20 ≤ lo ∧ lo + len ≤ 27)) ∨ (b = 196 ∧ lo + len ≤ 32) ∨ 204 ≤ b) :
    c.Same (d.setFld b lo len v) :=
  h.trans ⟨rfl, rfl, rfl, rfl, rfl, fld_setFld_ne _ _ _ _ _ _ _ (by omega), fld_setFld_ne _ _ _ _ _ _ _ (by omega),
    fld_setFld_ne _ _ _ _ _ _ _ (by omega)⟩

theorem drop {cyc reason rank} (h : c.Same d) : c.Same (d.drop cyc reason rank) := by
  have hPut : c.Same { (d.setFld 196 23 3 2).setFld 196 26 6 reason with dropBy := some (cyc, rank) } :=
    (show c.Same ((d.setFld 196 23 3 2).setFld 196 26 6 reason) from (h.setFld (by omega)).setFld (by omega)).trans
      ⟨rfl, rfl, rfl, rfl, rfl, rfl, rfl, rfl⟩
  unfold Coach.drop
  dsimp only
  split
  · exact h
  · split
    · exact hPut
    · split
      · split
        · exact hPut
        · exact h
      · exact h

theorem setVerb {cyc v} (h : c.Same d) : c.Same (d.setVerb cyc v) := by
  unfold Coach.setVerb
  split
  · exact h
  · split
    · exact h.drop
    · exact h.setFld (by omega)

theorem setMask {m} (h : c.Same d) : c.Same (d.setMask m) := (h.setFld (by omega)).setFld (by omega)

theorem entryResult {cyc r} (h : c.Same d) : c.Same (d.entryResult cyc r) := by
  have hPut {e : Coach} {v : Nat} (h : c.Same e) : c.Same (if e.trapped then e else e.setVerb cyc v) := by
    split
    · exact h
    · exact h.setVerb
  unfold Coach.entryResult
  dsimp only
  split
  · exact hPut ((h.setFld (by omega)).setFld (by omega))
  · next a e =>
    have h3 : c.Same (((d.setFld 240 0 18 a).setFld 240 18 1 1).setFld 236 2 4 e.mirror) :=
      ((h.setFld (by omega)).setFld (by omega)).setFld (by omega)
    apply hPut
    split
    · exact h3.setFld (by omega)
    · exact h3

theorem streamAbsent {cyc} (h : c.Same d) : c.Same (d.streamAbsent cyc) := (h.setFld (by omega)).drop

end Coach.Same

/-- A coach that had no drop reason has the one it is dropped for. -/
theorem Coach.reason_drop {cyc reason rank : Nat} (hNone : c.reason = 0) (hSome : reason ≠ 0) (hSmall : reason < 64) :
    (c.drop cyc reason rank).reason = reason := by
  unfold Coach.drop
  dsimp only
  rw [if_neg hSome, if_pos hNone]
  exact (Coach.fld_setFld _ _ _ _ (by omega)).trans (Nat.mod_eq_of_lt hSmall)

/-- The entry search of the coach is issued, the search of number `n` (R182). -/
def Coach.ask (c : Coach) (n : Nat) : Coach := { c with entrySearched := true, searches := n }

theorem Coach.ask_drop {n cyc reason rank : Nat} : (c.ask n).drop cyc reason rank = (c.drop cyc reason rank).ask n := by
  have hReason : (c.ask n).reason = c.reason := rfl
  have hBy : (c.ask n).dropBy = c.dropBy := rfl
  unfold Coach.drop
  dsimp only
  rw [hReason, hBy]
  split
  · rfl
  · split
    · rfl
    · split
      · split
        · rfl
        · rfl
      · rfl

theorem Coach.ask_setVerb {n cyc v : Nat} : (c.ask n).setVerb cyc v = (c.setVerb cyc v).ask n := by
  have hReason : (c.ask n).reason = c.reason := rfl
  unfold Coach.setVerb
  rw [hReason]
  split
  · rfl
  · split
    · exact Coach.ask_drop
    · rfl

/-- An entry search's result is the same for the coach that has asked. -/
theorem Coach.ask_entryResult {n cyc : Nat} {r : Option (Nat × Clause)} : (c.ask n).entryResult cyc r = (c.entryResult cyc r).ask n := by
  have hPut (e : Coach) (v : Nat) : (if (e.ask n).trapped then e.ask n else (e.ask n).setVerb cyc v) = (if e.trapped then e else e.setVerb cyc v).ask n := by
    have hTrapped : (e.ask n).trapped = e.trapped := rfl
    rw [hTrapped, Coach.ask_setVerb]
    split
    · rfl
    · rfl
  unfold Coach.entryResult
  dsimp only
  split
  · exact hPut ((c.setFld 240 0 18 0).setFld 240 18 1 0) 0
  · next a e =>
    have hClass : (if e.classEn then ((((c.ask n).setFld 240 0 18 a).setFld 240 18 1 1).setFld 236 2 4 e.mirror).setFld 192 24 3 e.cls
        else (((c.ask n).setFld 240 0 18 a).setFld 240 18 1 1).setFld 236 2 4 e.mirror) =
        (if e.classEn then (((c.setFld 240 0 18 a).setFld 240 18 1 1).setFld 236 2 4 e.mirror).setFld 192 24 3 e.cls
          else ((c.setFld 240 0 18 a).setFld 240 18 1 1).setFld 236 2 4 e.mirror).ask n := by
      split
      · rfl
      · rfl
    rw [hClass]
    exact hPut _ _

end Sys2Proof.Machine
end

section
/-!
The ingress searches of a coach (O21, R182, R207): asked, refused for want of budget or engine, and made in a slot of station 0.
-/
namespace Sys2Proof.Machine

variable {o s : State} {c d : Coach} {k : Nat}

/-! ### Where the searches write -/

/-- `s` comes from `o` by ingress searches of coach k: it stands there still, and the path and the parser's records are as before. -/
structure Searched (k : Nat) (o s : State) : Prop where
  path : s.path = o.path
  cls : s.cls = o.cls
  time : s.time = o.time
  coach : ∀ c, o.coach k = some c → ∃ d, s.coach k = some d ∧ c.Same d

namespace Searched

theorem refl : Searched k o o := ⟨rfl, rfl, rfl, fun c h => ⟨c, h, .refl⟩⟩

theorem trans {t : State} (h : Searched k o s) (g : Searched k s t) : Searched k o t :=
  ⟨g.path.trans h.path, g.cls.trans h.cls, g.time.trans h.time, fun c hc => by
    obtain ⟨d, hd, hSame⟩ := h.coach c hc
    obtain ⟨e, he, hSame'⟩ := g.coach d hd
    exact ⟨e, he, hSame.trans hSame'⟩⟩

theorem setCoach (h : Searched k o s) (hc : s.coach k = some c) (hSame : c.Same d) : Searched k o (s.setCoach k d) :=
  h.trans ⟨rfl, rfl, rfl, fun e he => ⟨d, by simp, by rw [hc] at he; exact Option.some.inj he ▸ hSame⟩⟩

/-- An update of registers, raises, threads and pools. -/
theorem upd {r f p q} (h : Searched k o s) : Searched k o { s with ctl := r, flt := f, cpu := p, pool := q } := h.trans ⟨rfl, rfl, rfl, fun c hc => ⟨c, hc, .refl⟩⟩

theorem count {a lo len n} (h : Searched k o s) : Searched k o (s.count a lo len n) := h.upd

theorem raise {src ctx} (h : Searched k o s) : Searched k o (s.raise src ctx) := h.upd

theorem takeReserve (h : Searched k o s) : Searched k o (s.takeReserve k) := by
  unfold State.takeReserve
  split
  · exact h
  · next c hc =>
    split
    · have h1 : Searched k o { s with pool := { s.pool with heldRes := s.pool.heldRes + (1 + c.cells.length) } } := h.upd
      exact h1.setCoach (d := { c with resCells := 1 + c.cells.length }) hc ⟨rfl, rfl, rfl, rfl, rfl, rfl, rfl, rfl⟩
    · exact h

theorem entryWrite {r} (h : Searched k o s) (hc : s.coach k = some c) (hSame : c.Same d) : Searched k o (s.entryWrite k d r) :=
  (h.setCoach hc hSame.entryResult).takeReserve

theorem askEntry (h : Searched k o s) : Searched k o (s.askEntry k) := by
  unfold State.askEntry
  split
  · exact h
  · next c hc =>
    extract_lets g c1 q s1
    have hSame : c.Same c1 := ⟨rfl, rfl, rfl, rfl, rfl, rfl, rfl, rfl⟩
    split
    · exact h
    · split
      · exact h.entryWrite hc hSame
      · split
        · exact (h.entryWrite hc hSame).count.raise
        · split
          · exact h.setCoach hc hSame.drop
          · exact (show Searched k o s1 from h.setCoach hc hSame).upd

theorem askStream (h : Searched k o s) : Searched k o (s.askStream k) := by
  unfold State.askStream
  split
  · exact h
  · next c hc =>
    extract_lets kind c1 q s1
    have hSame : c.Same c1 := ⟨rfl, rfl, rfl, rfl, rfl, rfl, rfl, rfl⟩
    split
    · exact h
    · split
      · exact (h.setCoach hc (hSame.setFld (by omega))).count.raise
      · split
        · exact h.setCoach hc hSame.streamAbsent
        · exact (show Searched k o s1 from h.setCoach hc hSame).upd

theorem askIngress (h : Searched k o s) : Searched k o (s.askIngress k) := h.askEntry.askStream

end Searched

/-! ### The lens (R173) -/

theorem lensScan_scanned (hCoach : s.coach k = some c) (hOpen : c.lensDone = false) (hDepth : c.verdict.isSome = true ∨ s.lensDepth ≤ c.got)
    (hParser : c.loc = .parser) :
    (s.lensScan k).cls.lensHeld = s.cls.lensHeld - c.lensSize ∧ ∃ d, (s.lensScan k).coach k = some d ∧ d.lensDone = true ∧ d.loc = .parser := by
  have hGoes : (c.lensDone || (c.verdict.isNone && decide (c.got < s.lensDepth))) = false := by
    rcases hDepth with h | h
    · simp [hOpen, Option.isNone_eq_false_iff.mpr h]
    · simp [hOpen, Nat.not_lt.mpr h]
  unfold State.lensScan
  rw [hCoach]
  simp -zeta only [hGoes, Bool.false_eq_true, if_false]
  extract_lets r hit w c1 c2 _ s1
  have hHeld : s1.cls.lensHeld = s.cls.lensHeld - c.lensSize := rfl
  have hAsk : Searched k (s1.setCoach k c2) ((s1.setCoach k c2).askIngress k) := Searched.refl.askIngress
  obtain ⟨d, hd, hSame⟩ := hAsk.coach c2 (by simp)
  exact ⟨by rw [hAsk.cls]; exact hHeld, d, hd, hSame.lensDone, hSame.loc.trans hParser⟩

theorem lensScan_unscanned (hCoach : s.coach k = some c) (h : ¬ (c.lensDone = false ∧ (c.verdict.isSome = true ∨ s.lensDepth ≤ c.got))) :
    s.lensScan k = s := by
  unfold State.lensScan
  rw [hCoach]
  refine if_pos ?_
  cases hl : c.lensDone <;> cases hv : c.verdict <;> simp_all

/-! ### A search that joins (R182, R207) -/

/-- Coach k, now `c`, asks for `q`. -/
def State.asked (s : State) (k : Nat) (c : Coach) (q : Srq) : State :=
  let t := s.setCoach k c
  { t with cpu := { t.cpu with reqs := t.cpu.reqs ++ [q] } }

/-- The entry search of coach k in group g. -/
def entryReq (k g : Nat) (key : List Byte) : Srq :=
  { eng := 0, thread := entryThread, port := entryPort, coach := k, a := 0, b := BitVec.ofNat 64 g, key := key }

/-- The stream search of coach k. -/
def streamReq (k : Nat) (key : List Byte) : Srq :=
  { eng := 3, thread := entryThread, port := entryPort, coach := k, a := 0, b := 0, key := key }

/-- The stream search of the coach is issued and counts (R207). -/
def Coach.askStream (c : Coach) : Coach := { c with streamSearched := true, searches := c.searches + 1 }

/-- The conditions under which the parser asks for an entry search in form. -/
structure AsksEntry (s : State) (k : Nat) (c : Coach) : Prop where
  coach : s.coach k = some c
  parser : c.loc = .parser
  new : c.entrySearched = false
  on : s.bit (parseR c.inPort) 5 = true
  valid : s.grpValid (s.fld (parseR c.inPort) 0 5) = true

/-- The conditions under which the parser asks for a stream search. -/
structure AsksStream (s : State) (k : Nat) (c : Coach) : Prop where
  coach : s.coach k = some c
  parser : c.loc = .parser
  new : c.streamSearched = false
  on : skindOf (s.fld (fwdPort c.inPort) 2 3) ≠ 0
  kind : c.kind = 0

/-- What the parser does with an entry search in form. -/
theorem AsksEntry.askEntry (h : AsksEntry s k c) :
    let g := s.fld (parseR c.inPort) 0 5
    let e := c.ask (c.searches + 1)
    s.askEntry k = if s.searchCap 0 < c.searches + 1 then ((s.entryWrite k e none).count (stnR 0 0x1C) 0 32).raise (Src.stnBudget 0)
      else if s.clauseAbsent g then s.setCoach k (e.drop s.coreNow 12 3) else s.asked k e (entryReq k g (s.vectorKey g c.vector)) := by
  unfold State.askEntry
  rw [h.coach]
  simp -zeta only
  rw [if_neg (by simp [h.parser, h.new, h.on])]
  extract_lets g e c1 q s1
  have hc1 : c1 = e := by unfold c1; rw [if_pos h.valid]; rfl
  have hq : q = entryReq k g (s.vectorKey g c.vector) := rfl
  have hs1 : s1 = s.setCoach k e := congrArg (s.setCoach k) hc1
  rw [if_neg (by simp [g, h.valid])]
  clear_value q s1 c1
  subst hs1 hq hc1
  rfl

/-- What the parser does with a stream search. -/
theorem AsksStream.askStream (h : AsksStream s k c) :
    s.askStream k = if s.searchCap 0 < c.searches + 1 then
        ((s.setCoach k (c.askStream.setFld 240 23 2 2)).count (stnR 0 0x1C) 0 32).raise (Src.stnBudget 0)
      else if s.absent (unitId 5 3) then s.setCoach k (c.askStream.streamAbsent s.coreNow)
      else s.asked k c.askStream (streamReq k (c.streamKey (skindOf (s.fld (fwdPort c.inPort) 2 3)))) := by
  unfold State.askStream
  rw [h.coach]
  simp -zeta only
  rw [if_neg (by simp [h.parser, h.new, h.on, h.kind])]
  rfl

/-! ### Its slot (R181) -/

/-- What an ingress search reads of the state, apart from its coach. -/
structure SameBoard (o s : State) : Prop where
  clauseSearch : s.clauseSearch = o.clauseSearch
  clauseAbsent : s.clauseAbsent = o.clauseAbsent
  absent : s.absent = o.absent
  tenseAt : s.tenseAt = o.tenseAt
  entryEdge : s.entryEdge = o.entryEdge
  tableBad : s.tableBad = o.tableBad
  strFind : s.strFind = o.strFind

theorem SameBoard.trans {t : State} (h : SameBoard o s) (g : SameBoard s t) : SameBoard o t :=
  ⟨g.1.trans h.1, g.2.trans h.2, g.3.trans h.3, g.4.trans h.4, g.5.trans h.5, g.6.trans h.6, g.7.trans h.7⟩

theorem asked_board (c : Coach) (q : Srq) : SameBoard s (s.asked k c q) := ⟨rfl, rfl, rfl, rfl, rfl, rfl, rfl⟩

theorem advance_board (at_ : Nat) : SameBoard s (s.advance at_) := ⟨rfl, rfl, rfl, rfl, rfl, rfl, rfl⟩

theorem takeSlot_board (eng m : Nat) : SameBoard s (s.takeSlot eng m) := by
  have h : SameBoard s (s.advance (s.path.start + m * srchU)) := advance_board _
  unfold State.takeSlot
  generalize s.advance (s.path.start + m * srchU) = t at h ⊢
  exact h.trans ⟨rfl, rfl, rfl, rfl, rfl, rfl, rfl⟩

theorem takeSlot_coach (eng m : Nat) : (s.takeSlot eng m).coach = s.coach := by
  have h : (s.advance (s.path.start + m * srchU)).coach = s.coach := rfl
  unfold State.takeSlot
  generalize s.advance (s.path.start + m * srchU) = t at h ⊢
  exact h

theorem fitting_entry (q : Srq) : s.fitting 0 [q] 0 [] = 1 := by
  simp [State.fitting, aget]

theorem fitting_stream (q : Srq) : s.fitting 3 [q] 0 [] = 1 := by
  simp [State.fitting]

/-- An ingress search alone on a wheel of one position that is its own is made in the next slot: `v` is what it does there. -/
theorem slotServe_alone {eng m : Nat} {q : Srq} {v : State} (hSlot : s.nextSlot eng = some (m, 0x80)) (hReqs : s.cpu.reqs = [q])
    (hEng : q.eng = eng) (hThread : q.thread = entryThread) (hPort : q.port = entryPort) (hReady : q.ready = none)
    (hFits : ∀ t : State, t.fitting eng [q] 0 [] = 1) (hServe : (s.takeSlot eng m).serveEntry q false = v) (hKept : v.cpu.reqs = [q]) :
    (s.slotServe eng .clean).cpu.reqs = [] ∧ (s.slotServe eng .clean).coach = v.coach ∧ (s.slotServe eng .clean).time = v.time := by
  have hReqs' : (s.takeSlot eng m).cpu.reqs = [q] := hReqs
  have hEntry : q.isEntry = true := by simp [Srq.isEntry, hPort]
  have hWaiting : (s.takeSlot eng m).waiting eng 0 = [(q, 0)] := by
    simp [State.waiting, hReqs', hEng, hReady, hThread, stnOf, entryThread]
  have hOne : (s.takeSlot eng m).serveOne m 0 q false = { v with cpu := { v.cpu with reqs := v.cpu.reqs.set 0 { q with ready := some 0 } } } := by
    rw [State.serveOne, if_pos hEntry, hServe]
  have hSlotServe : s.slotServe eng .clean = (s.takeSlot eng m).serveOwner eng 0 m false := by
    rw [State.slotServe, hSlot]
    exact if_pos ⟨by decide, by decide, by simp [hWaiting]⟩
  rw [hSlotServe, State.serveOwner, hWaiting]
  simp only [List.map_cons, List.map_nil, hFits, List.take_succ_cons, List.take_zero, List.foldl_cons, List.foldl_nil, Bool.false_and, hOne, hKept]
  refine ⟨?_, rfl, trivial⟩
  simp [Srq.isEntry, hPort]

/-- An ingress search alone on such a wheel is made, and the wait for it ends. -/
theorem slotsUntil_alone {eng k : Nat} {f : Nat} {q : Srq} {v : State} (hWheels : s.image.tt.wheels = [⟨1, eng, f, [0x80]⟩]) (hRun : s.pathRun = true)
    (hReqs : s.cpu.reqs = [q]) (hEng : q.eng = eng) (hThread : q.thread = entryThread) (hPort : q.port = entryPort) (hReady : q.ready = none)
    (hCoach : q.coach = k) (hFits : ∀ t : State, t.fitting eng [q] 0 [] = 1)
    (hServe : (s.takeSlot eng (max (aget (fun _ => 0) s.cpu.lastSlot eng) s.srchCycle)).serveEntry q false = v) (hKept : v.cpu.reqs = [q]) :
    let u := State.slotsUntil eng (fun s => !s.askedOf eng k) (s.slotFuel eng s.cpu.reqs.length) s
    u.cpu.reqs = [] ∧ u.coach = v.coach ∧ u.time = v.time := by
  have hSlot := nextSlot_single hWheels rfl rfl rfl hRun
  have hFuel : s.slotFuel eng s.cpu.reqs.length = 2 := by simp [State.slotFuel, State.wheel, hWheels, hReqs]
  obtain ⟨hGone, hCoaches, hTime⟩ := slotServe_alone hSlot hReqs hEng hThread hPort hReady hFits hServe hKept
  have hAsked : (!s.askedOf eng k) = false := by simp [State.askedOf, hReqs, Srq.isEntry, hPort, hEng, hCoach]
  have hDone : (!(s.slotServe eng .clean).askedOf eng k) = true := by simp [State.askedOf, hGone]
  rw [hFuel, State.slotsUntil, hAsked, if_neg Bool.false_ne_true, slotsUntil_stopped hDone]
  exact ⟨hGone, hCoaches, hTime⟩

/-! ### Counting a search beyond the bound (R32) -/

/-- A 32-bit counter grows by 1 and saturates. -/
theorem reg_count {a : Nat} : ((s.count a 0 32).reg a).toNat = min (2 ^ 32 - 1) ((s.reg a).toNat + 1) := by
  have hFld (t : State) : t.fld a 0 32 = (t.reg a).toNat := by
    simp [State.fld, getField]
  rw [← hFld, State.count, State.fld_setFld _ _ _ _ _ (by omega), hFld, satur, Nat.mod_eq_of_lt (by omega), Nat.min_comm]

theorem takeReserve_keeps (hCoach : s.coach k = some c) :
    (∃ n, (s.takeReserve k).coach k = some { c with resCells := n }) ∧ (s.takeReserve k).cpu = s.cpu ∧ (s.takeReserve k).ctl = s.ctl
      ∧ (s.takeReserve k).time = s.time := by
  unfold State.takeReserve
  rw [hCoach]
  dsimp only
  split
  · exact ⟨⟨_, (State.coach_setCoach _ _ _ _).trans (if_pos rfl)⟩, rfl, rfl, rfl⟩
  · exact ⟨⟨c.resCells, hCoach⟩, rfl, rfl, rfl⟩

/-- The result of an entry search stands in the coach. -/
theorem entryWrite_keeps {r : Option (Nat × Clause)} :
    (∃ n, (s.entryWrite k c r).coach k = some { c.entryResult s.coreNow r with resCells := n }) ∧ (s.entryWrite k c r).cpu = s.cpu
      ∧ (s.entryWrite k c r).ctl = s.ctl ∧ (s.entryWrite k c r).time = s.time := by
  obtain ⟨hCoach, hCpu, hCtl, hTime⟩ := takeReserve_keeps (s := s.setCoach k (c.entryResult s.coreNow r))
    ((State.coach_setCoach _ _ _ _).trans (if_pos rfl))
  exact ⟨hCoach, hCpu, hCtl, hTime⟩

/-- No ingress search is outstanding. -/
theorem askedOf_nil {eng : Nat} (h : s.cpu.reqs = []) : (!s.askedOf eng k) = true := by simp [State.askedOf, h]

/-- An ingress search that has just been asked is made on a board `t` that shows what `s` does. -/
theorem asked_made {eng f : Nat} {q : Srq} (hWheels : s.image.tt.wheels = [⟨1, eng, f, [0x80]⟩]) (hRun : s.pathRun = true)
    (hReqs : s.cpu.reqs = []) (hEng : q.eng = eng) (hThread : q.thread = entryThread) (hPort : q.port = entryPort) (hReady : q.ready = none)
    (hCoach : q.coach = k) (hFits : ∀ t : State, t.fitting eng [q] 0 [] = 1) :
    ∃ t, SameBoard s t ∧ t.coach k = some c ∧ t.cpu.reqs = [q] ∧ ∀ v, t.serveEntry q false = v → v.cpu.reqs = [q] →
      let a := s.asked k c q
      let u := State.slotsUntil eng (fun s => !s.askedOf eng k) (a.slotFuel eng a.cpu.reqs.length) a
      u.cpu.reqs = [] ∧ u.coach = v.coach ∧ u.time = v.time := by
  have hReqs1 : (s.asked k c q).cpu.reqs = [q] := congrArg (· ++ [q]) hReqs
  have hCoach1 : (s.asked k c q).coach k = some c := (State.coach_setCoach _ _ _ _).trans (if_pos rfl)
  exact ⟨_, (asked_board c q).trans (takeSlot_board eng _), by rw [takeSlot_coach]; exact hCoach1, hReqs1, fun v hServe hKept =>
    slotsUntil_alone hWheels hRun hReqs1 hEng hThread hPort hReady hCoach hFits hServe hKept⟩

/-! ### The entry search (R182) -/

theorem getField_ofNat_field {g lo len : Nat} (w : Word) (hg : g = getField w lo len) (hLen : len ≤ 5) :
    getField (BitVec.ofNat 64 g) 0 5 = g := by
  have hSmall : g < 2 ^ 5 := lt_of_lt_of_le (hg ▸ getField_lt w lo len) (Nat.pow_le_pow_right (by omega) hLen)
  simp only [getField, BitVec.extractLsb'_toNat, BitVec.toNat_ofNat, Nat.shiftRight_zero]
  omega

/-- The entry search of coach k in its slot. -/
theorem serveEntry_clause {g : Nat} {key : List Byte} (hCoach : s.coach k = some c) (hGroup : getField (BitVec.ofNat 64 g) 0 5 = g)
    (hAbsent : s.clauseAbsent g = false) :
    s.serveEntry (entryReq k g key) false = s.entryWrite k c (s.clauseSearch g (s.tenseAt (s.entryEdge c)) (fromLE key)) := by
  simp only [State.serveEntry, entryReq, hCoach, hGroup, hAbsent, if_true, Bool.false_eq_true, if_false, Bool.false_and]

/-- A search that the bound and the engine allow joins the requests. -/
theorem AsksEntry.joins (h : AsksEntry s k c) (hCap : c.searches + 1 ≤ s.searchCap 0)
    (hAbsent : s.clauseAbsent (s.fld (parseR c.inPort) 0 5) = false) :
    let g := s.fld (parseR c.inPort) 0 5
    s.askEntry k = s.asked k (c.ask (c.searches + 1)) (entryReq k g (s.vectorKey g c.vector)) := by
  rw [h.askEntry, if_neg (by omega), if_neg (by rw [hAbsent]; exact Bool.false_ne_true)]

theorem AsksEntry.made {f : Nat} (h : AsksEntry s k c) (hWheels : s.image.tt.wheels = [⟨1, 0, f, [0x80]⟩]) (hRun : s.pathRun = true)
    (hReqs : s.cpu.reqs = []) (hCap : c.searches + 1 ≤ s.searchCap 0) (hAbsent : s.clauseAbsent (s.fld (parseR c.inPort) 0 5) = false)
    {u : State} (hU : s.entrySearch k = u) :
    let g := s.fld (parseR c.inPort) 0 5
    u.cpu.reqs = [] ∧ ∃ d, u.coach k = some d ∧ d.entrySearched = true ∧ d.searches = c.searches + 1
      ∧ d.raw = (c.entryResult u.coreNow (s.clauseSearch g (s.tenseAt (s.entryEdge c)) (fromLE (s.vectorKey g c.vector)))).raw := by
  intro g
  have hAsk := h.joins hCap hAbsent
  obtain ⟨t, hBoard, hCoach, hReqs1, hMade⟩ := asked_made (k := k) (c := c.ask (c.searches + 1)) (q := entryReq k g (s.vectorKey g c.vector))
    hWheels hRun hReqs rfl rfl rfl rfl rfl fun _ => fitting_entry _
  have hGroup : getField (BitVec.ofNat 64 g) 0 5 = g := getField_ofNat_field (s.reg (parseR c.inPort)) rfl (by omega)
  have hServe := serveEntry_clause (key := s.vectorKey g c.vector) hCoach hGroup (hBoard.clauseAbsent ▸ hAbsent)
  obtain ⟨⟨n, hWrite⟩, hCpu, -, hTime⟩ := entryWrite_keeps (s := t) (k := k) (c := c.ask (c.searches + 1))
    (r := t.clauseSearch g (t.tenseAt (t.entryEdge (c.ask (c.searches + 1)))) (fromLE (s.vectorKey g c.vector)))
  obtain ⟨hGone, hCoaches, hNow⟩ := hMade _ hServe (by rw [hCpu]; exact hReqs1)
  rw [State.entrySearch, hAsk] at hU
  rw [hU] at hGone hCoaches hNow
  have hEdge : s.entryEdge (c.ask (c.searches + 1)) = s.entryEdge c := rfl
  have hCore : u.coreNow = t.coreNow := by rw [State.coreNow, State.coreNow, State.now, State.now, hNow, hTime]
  have hResult : (c.ask (c.searches + 1)).entryResult t.coreNow (t.clauseSearch g (t.tenseAt (t.entryEdge (c.ask (c.searches + 1))))
      (fromLE (s.vectorKey g c.vector))) =
      (c.entryResult u.coreNow (s.clauseSearch g (s.tenseAt (s.entryEdge c)) (fromLE (s.vectorKey g c.vector)))).ask (c.searches + 1) := by
    rw [Coach.ask_entryResult, hBoard.clauseSearch, hBoard.tenseAt, hBoard.entryEdge, hEdge, ← hCore]
  rw [hResult] at hWrite
  exact ⟨hGone, _, (congrFun hCoaches k).trans hWrite, rfl, rfl, rfl⟩

/-- Without a wheel the search waits for its slot. -/
theorem AsksEntry.waits (h : AsksEntry s k c) (hWheel : s.wheel 1 0 = none) (hCap : c.searches + 1 ≤ s.searchCap 0)
    (hAbsent : s.clauseAbsent (s.fld (parseR c.inPort) 0 5) = false) :
    (s.entrySearch k).askedOf 0 k = true ∧ (s.entrySearch k).now = s.now := by
  rw [State.entrySearch, h.joins hCap hAbsent]
  have hFuel (q : Srq) : (s.asked k (c.ask (c.searches + 1)) q).slotFuel 0 (s.asked k (c.ask (c.searches + 1)) q).cpu.reqs.length = 0 := by
    rw [State.slotFuel, show (s.asked k (c.ask (c.searches + 1)) q).wheel 1 0 = s.wheel 1 0 from rfl, hWheel]
  rw [hFuel, State.slotsUntil]
  exact ⟨by simp [State.askedOf, State.asked, entryReq, Srq.isEntry], rfl⟩

/-- Beyond the bound the search is counted as refused (R32). -/
theorem AsksEntry.overBudget (h : AsksEntry s k c) (hReqs : s.cpu.reqs = []) (hCap : s.searchCap 0 < c.searches + 1) {u : State}
    (hU : s.entrySearch k = u) :
    ((u.reg (stnR 0 0x1C)).toNat = min (2 ^ 32 - 1) ((s.reg (stnR 0 0x1C)).toNat + 1) ∧ Raises u (Src.stnBudget 0)) ∧ u.cpu.reqs = [] := by
  obtain ⟨-, hCpu, hCtl, -⟩ := entryWrite_keeps (s := s) (k := k) (c := c.ask (c.searches + 1)) (r := none)
  have hAsk : s.askEntry k = ((s.entryWrite k (c.ask (c.searches + 1)) none).count (stnR 0 0x1C) 0 32).raise (Src.stnBudget 0) := by
    rw [h.askEntry, if_pos hCap]
  have hReqs1 : (s.askEntry k).cpu.reqs = [] := by rw [hAsk]; exact (congrArg CpuSt.reqs hCpu).trans hReqs
  rw [State.entrySearch, slotsUntil_stopped (askedOf_nil hReqs1)] at hU
  subst hU
  refine ⟨?_, hReqs1⟩
  rw [hAsk]
  refine ⟨?_, ⟨_, List.mem_append_right _ (List.mem_singleton_self _), rfl⟩⟩
  have hReg : (s.entryWrite k (c.ask (c.searches + 1)) none).reg (stnR 0 0x1C) = s.reg (stnR 0 0x1C) := by rw [State.reg, State.reg, hCtl]
  rw [← hReg]
  exact reg_count (s := s.entryWrite k (c.ask (c.searches + 1)) none)

/-- An engine that is out of service drops the coach (R182). -/
theorem AsksEntry.absent (h : AsksEntry s k c) (hReqs : s.cpu.reqs = []) (hCap : c.searches + 1 ≤ s.searchCap 0)
    (hAbsent : s.clauseAbsent (s.fld (parseR c.inPort) 0 5) = true) (hReason : c.reason = 0) {u : State} (hU : s.entrySearch k = u) :
    u.cpu.reqs = [] ∧ ∃ d, u.coach k = some d ∧ d.reason = 12 := by
  have hAsk : s.askEntry k = s.setCoach k ((c.ask (c.searches + 1)).drop s.coreNow 12 3) := by
    rw [h.askEntry, if_neg (by omega), if_pos hAbsent]
  have hReqs1 : (s.askEntry k).cpu.reqs = [] := by rw [hAsk]; exact hReqs
  rw [State.entrySearch, slotsUntil_stopped (askedOf_nil hReqs1)] at hU
  subst hU
  refine ⟨hReqs1, (c.ask (c.searches + 1)).drop s.coreNow 12 3, ?_, ?_⟩
  · rw [hAsk, State.coach_setCoach, if_pos rfl]
  · exact Coach.reason_drop (c := c.ask (c.searches + 1)) hReason (by omega) (by omega)

/-! ### The stream search (R207) -/

/-- The stream search of coach k in its slot, where no entry is found. -/
theorem serveEntry_missed {key : List Byte} (hCoach : s.coach k = some c) (hAbsent : s.absent (unitId 5 3) = false)
    (hGood : ∀ i ∈ strSlots key, s.tableBad (strAddr i) 64 = false) (hMiss : s.strFind key (s.tenseAt (s.entryEdge c)) = none) :
    s.serveEntry (streamReq k key) false = s.setCoach k (c.setFld 240 23 2 2) := by
  have hAny : ((strSlots key).any fun i => s.tableBad (strAddr i) 64) = false := by simpa using hGood
  simp only [State.serveEntry, streamReq, hCoach, hAbsent, hAny, hMiss]
  rfl

theorem AsksStream.made {f : Nat} (h : AsksStream s k c) (hWheels : s.image.tt.wheels = [⟨1, 3, f, [0x80]⟩]) (hRun : s.pathRun = true)
    (hReqs : s.cpu.reqs = []) (hCap : c.searches + 1 ≤ s.searchCap 0) (hAbsent : s.absent (unitId 5 3) = false) {key : List Byte}
    (hKey : c.streamKey (skindOf (s.fld (fwdPort c.inPort) 2 3)) = key) (hGood : ∀ i ∈ strSlots key, s.tableBad (strAddr i) 64 = false)
    (hMiss : s.strFind key (s.tenseAt (s.entryEdge c)) = none) {u : State} (hU : s.streamSearch k = u) :
    u.cpu.reqs = [] ∧ ∃ d, u.coach k = some d ∧ d.streamSearched = true ∧ d.streamSt = 2 ∧ d.searches = c.searches + 1 := by
  have hAsk : s.askStream k = s.asked k c.askStream (streamReq k key) := by
    rw [h.askStream, if_neg (by omega), if_neg (by rw [hAbsent]; exact Bool.false_ne_true), hKey]
  obtain ⟨t, hBoard, hCoach, hReqs1, hMade⟩ := asked_made (k := k) (c := c.askStream)
    (q := streamReq k key) hWheels hRun hReqs rfl rfl rfl rfl rfl fun _ => fitting_stream _
  have hServe := serveEntry_missed hCoach (hBoard.absent ▸ hAbsent) (hBoard.tableBad ▸ hGood) (by
    rw [hBoard.strFind, hBoard.tenseAt, hBoard.entryEdge]; exact hMiss)
  obtain ⟨hGone, hCoaches, -⟩ := hMade _ hServe hReqs1
  rw [State.streamSearch, hAsk] at hU
  rw [hU] at hGone hCoaches
  exact ⟨hGone, c.askStream.setFld 240 23 2 2, by rw [hCoaches, State.coach_setCoach, if_pos rfl], rfl,
    Coach.fld_setFld _ _ _ _ (by omega), rfl⟩

/-- Beyond the bound the search is counted as refused, and ends as a miss (R207). -/
theorem AsksStream.overBudget (h : AsksStream s k c) (hReqs : s.cpu.reqs = []) (hCap : s.searchCap 0 < c.searches + 1) {u : State}
    (hU : s.streamSearch k = u) :
    ((u.reg (stnR 0 0x1C)).toNat = min (2 ^ 32 - 1) ((s.reg (stnR 0 0x1C)).toNat + 1) ∧ Raises u (Src.stnBudget 0))
      ∧ ∃ d, u.coach k = some d ∧ d.streamSt = 2 := by
  have hAsk : s.askStream k = ((s.setCoach k (c.askStream.setFld 240 23 2 2)).count
      (stnR 0 0x1C) 0 32).raise (Src.stnBudget 0) := by
    rw [h.askStream, if_pos hCap]
  have hReqs1 : (s.askStream k).cpu.reqs = [] := by rw [hAsk]; exact hReqs
  rw [State.streamSearch, slotsUntil_stopped (askedOf_nil hReqs1)] at hU
  subst hU
  rw [hAsk]
  refine ⟨⟨?_, ⟨_, List.mem_append_right _ (List.mem_singleton_self _), rfl⟩⟩,
    c.askStream.setFld 240 23 2 2, (State.coach_setCoach _ _ _ _).trans (if_pos rfl),
    Coach.fld_setFld _ _ _ _ (by omega)⟩
  exact reg_count (s := s.setCoach k (c.askStream.setFld 240 23 2 2))

end Sys2Proof.Machine
end

section
/-!
The entry of a coach into station S0, the latent check of recovery and the write of FWD_PORTp (O21, R43, R207, R211).
-/
namespace Sys2Proof.Machine

variable {o s : State} {c d : Coach} {k : Nat}

/-! ### Entry into a station (R43, R188) -/

theorem mem_insertOrder {before : Nat → Bool} {q : Nat} : ∀ l, q ∈ insertOrder before q l
  | [] => .head _
  | a :: t => by
    unfold insertOrder
    split
    · exact .tail _ (mem_insertOrder t)
    · exact .head _

@[simp] theorem State.stn_setStn (s : State) (n : Nat) (x : StnSt) (m : Nat) : (s.setStn n x).stn m = if m = n then x else s.stn m :=
  aget_aset (fun _ => ({} : StnSt)) s.stns n x m

/-- A coach enters a station that has room. -/
theorem enterStation_enters {n t : Nat} (hCoach : s.coach k = some c) (hRoom : (s.stn n).order.length < 256) :
    (s.enterStation n k t).time = s.time ∧ k ∈ ((s.enterStation n k t).stn n).order
      ∧ ∃ d, (s.enterStation n k t).coach k = some d ∧ d.loc = .station n ∧ d.tIn = t ∧ d.raw = c.raw ∧ d.server = none ∧ d.issued = 0 := by
  unfold State.enterStation
  rw [hCoach]
  simp -zeta only
  extract_lets x s1 c1 before
  rw [if_neg (by simp only [x]; omega)]
  refine ⟨rfl, ?_, c1, by simp, rfl, rfl, rfl, rfl, rfl⟩
  have hStn : ((s.setStn n { x with order := insertOrder before k x.order }).setCoach k c1).stn n =
      { x with order := insertOrder before k x.order } := (State.stn_setStn s n _ n).trans (if_pos rfl)
  rw [hStn]
  exact mem_insertOrder _

theorem advance_entry (t : Nat) : (s.advance t).coach = s.coach ∧ (s.advance t).stn = s.stn ∧ (s.advance t).now = max s.now t := ⟨rfl, rfl, rfl⟩

/-- COACH_ENTER_S0 of a coach that may enter. -/
theorem enterS0_enters (hCoach : s.coach k = some c) (hMay : s.mayEnter k c = true) (hRoom : (s.stn 0).order.length < 256) {u : State}
    (hU : s.enterS0 k = u) :
    u.now = max s.now (s.entryEdge c) ∧ k ∈ (u.stn 0).order
      ∧ ∃ d, u.coach k = some d ∧ d.loc = .station 0 ∧ d.tIn = s.entryEdge c ∧ d.tense = s.tenseAt (s.entryEdge c) % 16 ∧ d.server = none
        ∧ d.issued = 0 := by
  have hTense := (advance_board (s := s) (s.entryEdge c)).tenseAt
  obtain ⟨-, hStn, hNow⟩ := advance_entry (s := s) (s.entryEdge c)
  unfold State.enterS0 at hU
  rw [hCoach] at hU
  simp -zeta only [hMay, Bool.not_true, Bool.false_eq_true, if_false] at hU
  extract_lets t s1 at hU
  have hCoach1 : (s1.setCoach k (c.setFld 192 20 4 (s1.tenseAt t))).coach k = some (c.setFld 192 20 4 (s1.tenseAt t)) := by simp
  have hRoom1 : ((s1.setCoach k (c.setFld 192 20 4 (s1.tenseAt t))).stn 0).order.length < 256 := by
    rw [show (s1.setCoach k (c.setFld 192 20 4 (s1.tenseAt t))).stn 0 = s1.stn 0 from rfl, hStn]; exact hRoom
  obtain ⟨hTime, hIn, e, he, hLoc, hTIn, hRaw, hServer, hIssued⟩ := enterStation_enters (t := t) hCoach1 hRoom1
  rw [hU] at hTime hIn he
  refine ⟨?_, hIn, e, he, hLoc, hTIn, ?_, hServer, hIssued⟩
  · rw [State.now, hTime, ← hNow]; rfl
  · have hFld : e.tense = (c.setFld 192 20 4 (s1.tenseAt t)).tense := by rw [Coach.tense, Coach.tense, Coach.fld, Coach.fld, hRaw]
    rw [hFld, Coach.tense, Coach.fld_setFld _ _ _ _ (by omega), hTense]
    rfl

theorem enterS0_stays (hCoach : s.coach k = some c) (hMay : s.mayEnter k c = false) : s.enterS0 k = s := by
  simp [State.enterS0, hCoach, hMay]

/-- What COACH_ENTER_S0 waits for. -/
theorem mayEnter_iff (hParser : c.loc = .parser) :
    s.mayEnter k c = true ↔ c.lensDone = true ∧ s.pathRun = true ∧ s.askedOf 0 k = false ∧ s.askedOf 3 k = false
      ∧ (c.kind ≠ 0 ∨ 192 < c.total ∨ c.verdict.isSome = true) := by
  have hNone : c.verdict.isNone = !c.verdict.isSome := by cases c.verdict <;> rfl
  simp only [State.mayEnter, hParser, hNone, Bool.and_eq_true, decide_true, Bool.not_eq_eq_eq_not, Bool.not_true, Bool.or_eq_false_iff,
    Bool.and_eq_false_iff, beq_eq_false_iff_ne, decide_eq_false_iff_not, Nat.not_le, Bool.not_false, and_true]
  tauto

/-! ### The latent check (R211) -/

/-- Time and the schedule of the check are those of `o`. -/
structure Checks (o s : State) : Prop where
  time : s.time = o.time
  latAt : s.cls.latAt = o.cls.latAt

theorem Checks.foldl {α : Type} {f : State → α → State} {l : List α} (hf : ∀ s x, Checks o s → Checks o (f s x)) (h : Checks o s) :
    Checks o (l.foldl f s) := List.foldlRecOn (motive := Checks o) l f h fun s hs x _ => hf s x hs

theorem setLatAt (s : State) (n : Nat) :
    let t : State := { s with cls := { s.cls with latAt := n } }
    t.cls.latAt = n ∧ t.now = s.now := ⟨rfl, rfl⟩

theorem latentCheck_runs (h : s.fld (fwdB + 0x28) 0 16 ≠ 0) {u : State} (hU : s.latentCheck = u) :
    u.cls.latAt = s.cls.latAt + s.fld (fwdB + 0x28) 0 16 * msU ∧ u.now = max s.now u.cls.latAt := by
  unfold State.latentCheck at hU
  extract_lets ms s1 _ s2 at hU
  rw [if_neg h] at hU
  have hCls1 : s1.cls = s.cls := (advance_age _).1
  have hNow1 : s1.now = max s.now (s.cls.latAt + ms * msU) := (advance_entry _).2.2
  obtain ⟨hLat2, hNow2⟩ : s2.cls.latAt = s1.cls.latAt + ms * msU ∧ s2.now = s1.now := setLatAt s1 _
  have hFold : Checks s2 u := by
    rw [← hU]
    refine Checks.foldl (fun t e ht => ?_) ⟨rfl, rfl⟩
    dsimp only
    split
    · exact ⟨ht.time, ht.latAt⟩
    · exact ⟨ht.time, ht.latAt⟩
  have hLat : u.cls.latAt = s.cls.latAt + ms * msU := by rw [hFold.latAt, hLat2, hCls1]
  exact ⟨hLat, by rw [State.now, hFold.time, hLat]; exact hNow2.trans hNow1⟩

theorem latentCheck_off (h : s.fld (fwdB + 0x28) 0 16 = 0) : s.latentCheck = s := by
  unfold State.latentCheck
  exact if_pos h

/-! ### A write of FWD_PORTp (R207) -/

/-- A field within a field written from bit 0 on. -/
theorem getField_putField_within {w : Nat} (x : BitVec w) (v lo len n : Nat) (h : lo + len ≤ n) (hw : n ≤ w) :
    getField (putField x 0 n v) lo len = v / 2 ^ lo % 2 ^ len := by
  apply Nat.eq_of_testBit_eq
  intro i
  simp only [getField, BitVec.testBit_toNat, BitVec.getLsbD_extractLsb', getLsbD_putField, Nat.testBit_mod_two_pow, Nat.testBit_div_two_pow]
  by_cases hi : i < len
  · have : lo + i < n := by omega
    have : lo + i < w := by omega
    simp [*, Nat.add_comm]
  · simp [hi]

theorem fwdPortWrite_skind (p : Nat) (v : Word) :
    let old := s.fld (fwdPort p) 2 3
    let refused := skindOf old = 0 ∧ skindOf (getField v 2 3) ≠ 0 ∧ s.searchCap 0 < (if s.bit (parseR p) 5 then 2 else 1)
    (s.fwdPortWrite p v).fld (fwdPort p) 2 3 = if refused then old else getField v 2 3 := by
  intro old refused
  have hNew : (s.setFld (fwdPort p) 0 25 (getField v 0 25)).fld (fwdPort p) 2 3 = getField v 2 3 := by
    rw [State.fld, State.setFld, State.reg_setReg, if_pos rfl, getField_putField_within _ _ _ _ _ (by omega) (by omega)]
    apply Nat.eq_of_testBit_eq
    intro i
    simp only [getField, Nat.testBit_mod_two_pow, Nat.testBit_div_two_pow, BitVec.testBit_toNat, BitVec.getLsbD_extractLsb']
    by_cases hi : i < 3
    · have : i + 2 < 25 := by omega
      simp [*, Nat.add_comm]
    · simp [hi]
  have hBound : (if s.bit (parseR p) 5 then 1 else 0) + 1 = if s.bit (parseR p) 5 then 2 else 1 := by split <;> rfl
  have hRefused : (skindOf old == 0 && skindOf (getField v 2 3) != 0 && decide (s.searchCap 0 < (if s.bit (parseR p) 5 then 1 else 0) + 1)) = true
      ↔ refused := by
    rw [hBound]
    simp [refused, and_assoc]
  by_cases hR : refused
  · rw [if_pos hR]
    refine (congrArg (fun t : State => t.fld (fwdPort p) 2 3) (if_pos (hRefused.mpr hR))).trans ?_
    exact (State.fld_setFld _ _ _ _ _ (by omega)).trans (Nat.mod_eq_of_lt (getField_lt _ _ _))
  · rw [if_neg hR]
    exact (congrArg (fun t : State => t.fld (fwdPort p) 2 3) (if_neg (mt hRefused.mp hR))).trans hNew

end Sys2Proof.Machine
end

section
/-!
Frames at ingress (O21, R19, R38, R40, R240): the cell that a frame takes, its admission and its body.
-/
namespace Sys2Proof.Machine

variable {o s : State} {c d : Coach} {k : Nat}

/-! ### A cell of P0 (R240) -/

/-- `s` comes from `o` by taking cells: pools, raises, causes and the pools' counts aside, all is as before. -/
structure CellTaken (o s : State) : Prop where
  time : s.time = o.time
  mem : s.mem = o.mem
  cls : s.cls = o.cls
  path : s.path = o.path
  coaches : s.coaches = o.coaches
  reg : ∀ a, a ≠ poolR 0 0x0C → a ≠ poolR 0 0x18 → a ≠ poolB + 0x18C → s.reg a = o.reg a

namespace CellTaken

theorem refl : CellTaken o o := ⟨rfl, rfl, rfl, rfl, rfl, fun _ _ _ _ => rfl⟩

theorem trans {t : State} (h : CellTaken o s) (g : CellTaken s t) : CellTaken o t :=
  ⟨g.time.trans h.time, g.mem.trans h.mem, g.cls.trans h.cls, g.path.trans h.path, g.coaches.trans h.coaches,
    fun a h1 h2 h3 => (g.reg a h1 h2 h3).trans (h.reg a h1 h2 h3)⟩

/-- An update of pools and of the fault collector. -/
theorem upd {p f} (h : CellTaken o s) : CellTaken o { s with pool := p, flt := f } :=
  ⟨h.time, h.mem, h.cls, h.path, h.coaches, h.reg⟩

theorem setFld {a lo len v} (h : CellTaken o s) (ha : a = poolR 0 0x0C ∨ a = poolR 0 0x18 ∨ a = poolB + 0x18C) :
    CellTaken o (s.setFld a lo len v) :=
  h.trans ⟨rfl, rfl, rfl, rfl, rfl, fun b h1 h2 h3 => (State.reg_setReg _ _ _ _).trans (if_neg (by rintro rfl; tauto))⟩

theorem raise {src ctx} (h : CellTaken o s) : CellTaken o (s.raise src ctx) := h.upd

theorem setAudit {e x} (h : CellTaken o s) : CellTaken o (s.setAudit e x) := h.upd

theorem auditAdd {e k up} (h : CellTaken o s) : CellTaken o (s.auditAdd e k up) := by
  unfold State.auditAdd
  extract_lets x n counts
  split
  · exact h.setAudit.setFld (.inr (.inr rfl))
  · exact h.setAudit

theorem auditReceive {owner k} (h : CellTaken o s) : CellTaken o (s.auditReceive owner k).2 := by
  unfold State.auditReceive
  split
  · exact h.auditAdd
  · dsimp only
    split
    · exact (h.setAudit.setFld (.inr (.inr rfl))).auditAdd
    · exact (show CellTaken o (s.count (poolB + 0x18C) 12 20) from h.setFld (.inr (.inr rfl))).raise

theorem sidingCheck (h : CellTaken o s) : CellTaken o s.sidingCheck := by
  unfold State.sidingCheck
  dsimp only
  split
  · split
    · exact h
    · exact h.upd
  · exact h.upd

theorem takeHead {k i t} (h : CellTaken o s) (ht : s.takeHead k = some (i, t)) : CellTaken o t := by
  unfold State.takeHead at ht
  dsimp only at ht
  split at ht
  · cases ht; exact h.upd
  · split at ht
    · cases ht; exact h.upd
    · cases ht

theorem allocFrom {owner i t} (h : CellTaken o s) (ht : s.allocFrom 0 owner = some (i, t)) : CellTaken o t := by
  unfold State.allocFrom at ht
  split at ht
  · cases ht
  · split at ht
    · cases ht
    · next j s1 hHead =>
      have h1 : CellTaken o s1 := h.takeHead hHead
      extract_lets f s2 s3 at ht
      have h2 : CellTaken o s2 := h1.setFld (.inl rfl)
      have h3 : CellTaken o s3 := by
        unfold s3
        split
        · exact h2.setFld (.inr (.inl rfl))
        · exact h2
      have h4 : CellTaken o (s3.auditReceive owner 0).2 := h3.auditReceive
      generalize s3.auditReceive owner 0 = r at ht h4
      obtain ⟨tr, s4⟩ := r
      cases ht
      exact (show CellTaken o (s4.setHeld 0 i (some ⟨owner, s4.stampMs, tr⟩)) from CellTaken.upd h4).sidingCheck

theorem takeCell {p reserved} (h : CellTaken o s) : CellTaken o (s.takeCell p reserved).2 := by
  unfold State.takeCell
  extract_lets allowed
  split
  · next i t ht =>
    have h1 : CellTaken o t := by
      split at ht
      · exact h.allocFrom ht
      · cases ht
    have h2 : CellTaken o (t.cleanCell i) := h1.upd
    dsimp only
    split
    · exact h2.upd
    · exact h2
  · exact h.raise

end CellTaken

/-- The cell that comes next depends on the pool and its registers alone. -/
theorem takeHead_congr {t : State} (hPool : t.pool = s.pool) (hCtl : t.ctl = s.ctl) (k : Nat) :
    (t.takeHead k).map Prod.fst = (s.takeHead k).map Prod.fst := by
  have hPool1 : t.pool1 k = s.pool1 k := by rw [State.pool1, State.pool1, hPool]
  have hCount : t.poolCount k = s.poolCount k := by rw [State.poolCount, State.poolCount, State.fld, State.fld, State.reg, State.reg, hCtl]
  unfold State.takeHead
  rw [hPool1, hCount]
  dsimp only
  split
  · rfl
  · split
    · rfl
    · rfl

theorem allocFrom_index (k owner : Nat) :
    (s.allocFrom k owner).map Prod.fst = if s.poolFree k = 0 then none else (s.takeHead k).map Prod.fst := by
  unfold State.allocFrom
  split
  · rfl
  · split
    · next h => rw [h]
    · next i t h =>
      rw [h]
      extract_lets f s2 s3
      generalize s3.auditReceive owner k = r
      obtain ⟨tr, s4⟩ := r
      simp only [Option.map_some]

/-- Which cell a frame takes. -/
theorem takeCell_index (p : Nat) (reserved : Bool) :
    (s.takeCell p reserved).1 = if (reserved || decide (s.p0Reserve < s.poolFree 0)) = true then
        (if s.poolFree 0 = 0 then none else (s.takeHead 0).map Prod.fst) else none := by
  rw [← allocFrom_index 0 (0xE00 + p)]
  unfold State.takeCell
  extract_lets allowed
  rw [show (if (reserved || decide (s.p0Reserve < s.poolFree 0)) = true then (s.allocFrom 0 (0xE00 + p)).map Prod.fst else none) =
    (if allowed = true then s.allocFrom 0 (0xE00 + p) else none).map Prod.fst from by split <;> rfl]
  split
  · next h => rw [h]; rfl
  · next h => rw [h]; rfl

theorem takeCell_congr {t : State} (hPool : t.pool = s.pool) (hCtl : t.ctl = s.ctl) (p : Nat) (reserved : Bool) :
    (t.takeCell p reserved).1 = (s.takeCell p reserved).1 := by
  have hFld (a lo len : Nat) : t.fld a lo len = s.fld a lo len := by rw [State.fld, State.fld, State.reg, State.reg, hCtl]
  have hFree : t.poolFree 0 = s.poolFree 0 := hFld _ _ _
  have hReserve : t.p0Reserve = s.p0Reserve := by rw [State.p0Reserve, State.p0Reserve, hFld, hPool]
  rw [takeCell_index, takeCell_index, takeHead_congr hPool hCtl, hFree, hReserve]

/-! ### The body of a frame (R40) -/

/-- A cell's worth of bytes begins with the bytes themselves. -/
theorem slice_getElem {l : List Byte} (h : l.length ≤ 256) (j : Nat) (hj : j < l.length) : (slice l 0 256)[j]? = some (l.getD j 0) := by
  have hTake : (l.drop 0).take 256 = l := by rw [List.drop_zero, List.take_of_length_le h]
  unfold slice
  dsimp only
  rw [hTake, List.getElem?_append_left hj, List.getD_eq_getElem?_getD, List.getElem?_eq_getElem hj, Option.getD_some]

theorem length_slice_ge {l : List Byte} (h : l.length ≤ 256) : l.length ≤ (slice l 0 256).length := by
  simp only [slice, List.length_append, List.length_take, List.length_drop]
  omega

theorem setBytes_cls (l : List Byte) : ∀ {s : State} {a : Nat}, (s.setBytes a l).cls = s.cls := by
  induction l with
  | nil => exact rfl
  | cons b t ih => exact ih

/-- Body bytes that fit stand in the next cell of the chain. -/
theorem bodyCell_takes {p i : Nat} {bytes : List Byte} (hCoach : s.coach k = some c) (hOpen : c.verdict = none) (hKind : c.kind = 0)
    (hSome : 0 < bytes.length) (hFits : bytes.length ≤ 256) (hRoom : c.got + bytes.length ≤ 9212)
    (hCell : (s.takeCell p (c.resCells != 0)).1 = some i) {u : State} (hU : (s.bodyCell p k bytes).2 = u) :
    u.cls = s.cls ∧ (∀ j < bytes.length, u.byte (s.bufAddr 0 i + j) = bytes.getD j 0)
      ∧ ∃ d, u.coach k = some d ∧ d.got = c.got + bytes.length ∧ d.cells = c.cells ++ [i] := by
  have hTaken : CellTaken s (s.takeCell p (c.resCells != 0)).2 := CellTaken.refl.takeCell
  have hAll : bytes.take (min 256 (9212 + (if c.kind = 1 then 8000 else 0) - c.got)) = bytes := by
    rw [hKind]
    exact List.take_of_length_le (by simp; omega)
  have hNonempty : ¬ (bytes.isEmpty = true ∨ c.verdict.isSome = true) := by
    simp [hOpen, List.ne_nil_of_length_pos hSome]
  unfold State.bodyCell at hU
  rw [hCoach] at hU
  simp -zeta only at hU
  extract_lets l at hU
  have hl : l = bytes := hAll
  clear_value l
  subst hl
  rw [if_neg hNonempty] at hU
  generalize s.takeCell p (c.resCells != 0) = r at hTaken hCell hU
  obtain ⟨x, t⟩ := r
  obtain rfl : x = some i := hCell
  simp -zeta only at hU
  extract_lets s1 c1 cells _ c2 at hU
  have hAddr : t.bufAddr 0 i = s.bufAddr 0 i := by
    have hReg (a : Nat) (ha : a = poolR 0 0 ∨ a = poolR 0 4) : t.reg a = s.reg a :=
      hTaken.reg a (by rcases ha with rfl | rfl <;> decide) (by rcases ha with rfl | rfl <;> decide) (by rcases ha with rfl | rfl <;> decide)
    rw [State.bufAddr, State.bufAddr, State.poolBase, State.poolBase, State.reg2, State.reg2, hReg _ (.inl rfl), hReg _ (.inr rfl)]
  subst hU
  have hCls : s1.cls = s.cls := (setBytes_cls _).trans hTaken.cls
  have hC1 : c1.got = c.got ∧ c1.cells = c.cells := by
    unfold c1
    split
    · exact ⟨rfl, rfl⟩
    · exact ⟨rfl, rfl⟩
  refine ⟨hCls, fun j hj => ?_, c2, (State.coach_setCoach _ _ _ _).trans (if_pos rfl), congrArg (· + l.length) hC1.1,
    congrArg (· ++ [i]) hC1.2⟩
  have hByte := State.byte_setBytes (slice l 0 256) (s := t) (t.bufAddr 0 i) j (lt_of_lt_of_le hj (length_slice_ge hFits))
  have hGet := slice_getElem hFits j hj
  rw [List.getElem?_eq_getElem (lt_of_lt_of_le hj (length_slice_ge hFits))] at hGet
  rw [← hAddr, ← Option.some.inj hGet, ← hByte]
  rfl

/-- The frames of a port under way. -/
theorem rxList_setRxList (p : Nat) (l : List Rx) : (s.setRxList p l).rxList p = l :=
  (aget_aset (fun _ => []) s.cls.rx p l p).trans (if_pos rfl)

theorem bodyArrive_takes {p i : Nat} {bytes : List Byte} (hRx : s.rxOf p = some k) (hCoach : s.coach k = some c) (hOpen : c.verdict = none)
    (hKind : c.kind = 0) (hSome : 0 < bytes.length) (hFits : bytes.length ≤ 256) (hRoom : c.got + bytes.length ≤ 9212)
    (hCell : (s.takeCell p (c.resCells != 0)).1 = some i) {u : State} (hU : s.bodyArrive p bytes = u) :
    u.rxOf p = some k ∧ (∀ j < bytes.length, u.byte (s.bufAddr 0 i + j) = bytes.getD j 0)
      ∧ ∃ d, u.coach k = some d ∧ d.got = c.got + bytes.length ∧ d.cells = c.cells ++ [i] := by
  obtain ⟨x, rest, hList, hX⟩ : ∃ x rest, s.rxList p = x :: rest ∧ x.coach = some k := by
    unfold State.rxOf at hRx
    cases hl : s.rxList p with
    | nil => rw [hl] at hRx; cases hRx
    | cons x rest => rw [hl] at hRx; exact ⟨x, rest, rfl, hRx⟩
  simp only [State.bodyArrive, hList, hX] at hU
  obtain ⟨hCls, hBytes, hGot⟩ := bodyCell_takes (s := s.setRxList p (⟨some k, x.body ++ bytes⟩ :: rest)) (p := p) hCoach hOpen hKind hSome
    hFits hRoom ((takeCell_congr (s := s) (t := s.setRxList p _) rfl rfl p _).trans hCell) hU
  refine ⟨?_, hBytes, hGot⟩
  have hRxList : u.rxList p = ⟨some k, x.body ++ bytes⟩ :: rest := by
    rw [State.rxList, hCls]; exact rxList_setRxList p _
  rw [State.rxOf, hRxList]
  rfl

theorem bodyArrive_idle {p : Nat} {bytes : List Byte} (h : s.rxList p = []) : s.bodyArrive p bytes = s := by
  simp [State.bodyArrive, h]

end Sys2Proof.Machine
end

section
/-!
Admission of a frame at its port and the building of its coach (O21, R19, R38, R40, R169–R174).
-/
namespace Sys2Proof.Machine

variable {o s : State} {c d : Coach} {k : Nat}

/-! ### Building a coach -/

/-- The coach of a frame that has just been built, or is being built: what its record and its bookkeeping say of the frame. -/
structure Coach.Built (p ts seq got : Nat) (c : Coach) : Prop where
  loc : c.loc = .parser
  tsIn : c.tsIn = ts
  verdict : c.verdict = none
  got : c.got = got
  inPort : c.inPort = p
  kind : c.kind = 0
  seq : c.seq = seq

theorem Coach.Built.same {p ts seq got : Nat} (h : c.Built p ts seq got) (g : c.Same d) : d.Built p ts seq got :=
  ⟨g.loc.trans h.loc, g.tsIn.trans h.tsIn, g.verdict.trans h.verdict, g.got.trans h.got, g.inPort.trans h.inPort, g.kind.trans h.kind,
    g.seq.trans h.seq⟩

theorem coachOf_built {p ts cell seq : Nat} {draw : BitVec 26} {reserved : Bool} {body : List Byte} (hp : p < 64) :
    (coachOf p 0 ts cell seq draw reserved body).Built p ts (seq % 2 ^ 32) (min body.length 192) := by
  unfold coachOf
  extract_lets head c1 c2 c3
  have h2 : c2.Built p ts (seq % 2 ^ 32) (min body.length 192) := by
    refine ⟨rfl, rfl, rfl, rfl, ?_, ?_, Coach.fld_setFld _ _ _ _ (by omega)⟩
    · rw [Coach.inPort, Coach.fld_setFld_ne _ _ _ _ _ _ _ (by omega), Coach.fld_setFld_ne _ _ _ _ _ _ _ (by omega),
        Coach.fld_setFld_ne _ _ _ _ _ _ _ (by omega), Coach.fld_setFld _ _ _ _ (by omega)]
      exact Nat.mod_eq_of_lt hp
    · rw [Coach.kind, Coach.fld_setFld_ne _ _ _ _ _ _ _ (by omega), Coach.fld_setFld _ _ _ _ (by omega)]
      rfl
  have h3 : c2.Same c3 := ((Coach.Same.refl.setFld (by omega)).setFld (by omega)).setFld (by omega)
  exact (h2.same h3).same ((Coach.Same.refl.setFld (by omega)).setFld (by omega))

theorem Coach.Same.parse {e : Coach} {len : Nat} {body : List Byte} (h : e.Same c) : e.Same (c.parse len body) := by
  unfold Coach.parse
  dsimp only
  split
  · exact h.trans ⟨rfl, rfl, rfl, rfl, rfl, rfl, rfl, rfl⟩
  · exact (h.setFld (b := 236) (lo := 22) (len := 7) (by omega)).trans ⟨rfl, rfl, rfl, rfl, rfl, rfl, rfl, rfl⟩

/-- `s` comes from `o` by parsing: the path and the frames under way are as before. -/
structure Parses (o s : State) : Prop where
  path : s.path = o.path
  rx : s.cls.rx = o.cls.rx

namespace Parses

theorem refl : Parses o o := ⟨rfl, rfl⟩

theorem trans {t : State} (h : Parses o s) (g : Parses s t) : Parses o t := ⟨g.path.trans h.path, g.rx.trans h.rx⟩

theorem setCoach {q c} (h : Parses o s) : Parses o (s.setCoach q c) := h.trans ⟨rfl, rfl⟩

theorem searched (h : Parses o s) {t : State} (g : Searched k s t) : Parses o t := h.trans ⟨g.path, congrArg ClsSt.rx g.cls⟩

theorem parseError (h : Parses o s) : Parses o s.parseError := by
  unfold State.parseError
  extract_lets s1 w same n told lim now _ s2
  have h2 : Parses o s2 := h.trans ⟨rfl, rfl⟩
  clear_value s2 now
  split
  · exact h2.trans ⟨rfl, rfl⟩
  · exact h2

end Parses

theorem stampCoach_same : c.Same (s.stampCoach c).1 ∧ Parses s (s.stampCoach c).2 := by
  unfold State.stampCoach State.stampIn
  dsimp only
  split
  · exact ⟨(((Coach.Same.refl.setFld (by omega)).setFld (by omega)).setFld (by omega)).setFld (by omega), rfl, rfl⟩
  · exact ⟨(((Coach.Same.refl.setFld (by omega)).setFld (by omega)).setFld (by omega)).setFld (by omega), rfl, rfl⟩

theorem trapCounts_parses : Parses s s.trapCounts.2 := by
  unfold State.trapCounts
  extract_lets w n _ s1
  have h1 : Parses s s1 := ⟨rfl, rfl⟩
  clear_value s1
  split
  · exact h1
  · exact h1.trans ⟨rfl, rfl⟩

theorem ptpIngress_same {b : List Byte} : c.Same (s.ptpIngress c b).1 ∧ Parses s (s.ptpIngress c b).2 := by
  unfold State.ptpIngress
  split
  · exact ⟨.refl, .refl⟩
  · split
    · exact ⟨.refl, .refl⟩
    · exact ⟨Coach.Same.refl.drop (c := c) (cyc := s.coreNow) (reason := 2) (rank := 5), .refl⟩
    · have h : Parses s s.trapCounts.2 := trapCounts_parses
      generalize s.trapCounts = r at h
      obtain ⟨ok, t⟩ := r
      dsimp only at h ⊢
      split
      · exact ⟨((Coach.Same.refl.setVerb (cyc := t.coreNow) (v := 3)).setMask (m := 0)).trans ⟨rfl, rfl, rfl, rfl, rfl, rfl, rfl, rfl⟩, h⟩
      · exact ⟨Coach.Same.refl.drop (c := c) (cyc := t.coreNow) (reason := 3) (rank := 5), h⟩

theorem lensAdmit_built {p ts seq got len : Nat} (h : c.Built p ts seq got) :
    (s.lensAdmit c len).1.Built p ts seq got ∧ Parses s (s.lensAdmit c len).2 := by
  unfold State.lensAdmit
  split
  · exact ⟨h, .refl⟩
  · split
    · exact ⟨h.same ((Coach.Same.refl.setFld (c := c) (b := 236) (lo := 22) (len := 7) (by omega)).trans ⟨rfl, rfl, rfl, rfl, rfl, rfl, rfl, rfl⟩), rfl, rfl⟩
    · exact ⟨⟨h.loc, h.tsIn, h.verdict, h.got, h.inPort, h.kind, h.seq⟩, rfl, rfl⟩

/-- The parser gives a frame the coach of the next SEQ. -/
theorem buildCoach_builds {p ts cell len : Nat} {draw : BitVec 26} {reserved : Bool} {body : List Byte} (hp : p < 64) {q : Nat} {u : State}
    (hU : s.buildCoach p 0 ts cell draw reserved body len = (q, u)) :
    q = s.path.nextSeq ∧ u.path.nextSeq = (s.path.nextSeq + 1) % 2 ^ 32 ∧ u.cls.rx = s.cls.rx
      ∧ ∃ d, u.coach q = some d ∧ d.Built p ts (q % 2 ^ 32) (min body.length 192) := by
  unfold State.buildCoach at hU
  extract_lets q0 _ s1 c1 c2 at hU
  have h2 : c2.Built p ts (q0 % 2 ^ 32) (min body.length 192) :=
    ((coachOf_built hp).same (Coach.Same.refl.parse (len := len) (body := body))).same ⟨rfl, rfl, rfl, rfl, rfl, rfl, rfl, rfl⟩
  have hStamp := stampCoach_same (s := s1) (c := c2)
  generalize s1.stampCoach c2 = r3 at hU hStamp
  obtain ⟨c3, s3⟩ := r3
  obtain ⟨hSame3, hParses3⟩ := hStamp
  simp -zeta only at hU
  extract_lets s4 c4 at hU
  have hParses4 : Parses s1 s4 := by
    unfold s4
    split
    · exact hParses3.parseError
    · exact hParses3
  have h4 : c4.Built p ts (q0 % 2 ^ 32) (min body.length 192) := by
    unfold c4
    split
    · exact h2.same hSame3
    · exact (h2.same hSame3).same Coach.Same.refl.setVerb
  have hPtp := ptpIngress_same (s := s4) (c := c4) (b := body)
  generalize s4.ptpIngress c4 body = r5 at hU hPtp
  obtain ⟨c5, s5⟩ := r5
  obtain ⟨hSame5, hParses5⟩ := hPtp
  simp -zeta only at hU
  have hLens := lensAdmit_built (s := s5) (len := len) (h4.same hSame5)
  generalize s5.lensAdmit c5 len = r6 at hU hLens
  obtain ⟨c6, s6⟩ := r6
  obtain ⟨h6, hParses6⟩ := hLens
  simp -zeta only at hU
  obtain ⟨rfl, rfl⟩ := Prod.mk.inj hU
  have hParses : Parses s1 s6 := (hParses4.trans hParses5).trans hParses6
  have hCoach6 : (s6.setCoach q0 c6).coach q0 = some c6 := by simp
  obtain ⟨d, hd, hSame⟩ := (Searched.refl (k := q0) (o := s6.setCoach q0 c6)).askIngress.coach c6 hCoach6
  have hAsk : Parses s1 ((s6.setCoach q0 c6).askIngress q0) := hParses.setCoach.searched (k := q0) Searched.refl.askIngress
  refine ⟨rfl, ?_, ?_, ?_⟩
  · split
    · rw [hAsk.path]
    · rw [hParses.setCoach.path]
  · split
    · exact hAsk.rx
    · exact hParses.rx
  · split
    · exact ⟨d, hd, h6.same hSame⟩
    · exact ⟨c6, hCoach6, h6⟩

/-! ### Admission (R19) -/

theorem admits_open {p cls : Nat} (hWhole : s.path.degraded = false) (hRate : 0 < s.fld (admitR p 0) 0 20)
    (hCredit : (secU : Int) ≤ ((aget (fun _ => {}) s.meters p : Bucket).refill (s.fld (admitR p 0) 0 20 * 4096) (s.fld (admitR p 0) 20 12 * secU) s.now).credit) :
    ∃ m, s.admits p cls = (true, { s with meters := m }) := by
  unfold State.admits
  rw [if_neg (by simp [hWhole]), hWhole, if_neg Bool.false_ne_true]
  generalize secU = unit at hCredit
  extract_lets rate b
  rw [if_neg (by omega)]
  have hTake : ((b.refill (s.fld (admitR p 0) 0 20 * 4096) (s.fld (admitR p 0) 20 12 * unit) s.now).take unit).1 = true := by
    rw [Bucket.take, if_pos hCredit]
  generalize (b.refill (s.fld (admitR p 0) 0 20 * 4096) (s.fld (admitR p 0) 20 12 * unit) s.now).take unit = r at hTake ⊢
  obtain ⟨ok, b'⟩ := r
  obtain rfl : ok = true := hTake
  exact ⟨_, rfl⟩

theorem admits_shut {p cls : Nat} (hWhole : s.path.degraded = false) (hRate : s.fld (admitR p 0) 0 20 = 0) : s.admits p cls = (false, s) := by
  simp [State.admits, hWhole, hRate]

/-! ### Counters of a refused frame (R231) -/

/-- A drop is counted under its port and reason. -/
theorem countDrop_reg (p set reason : Nat) :
    ((s.countDrop p set reason).reg (dropR p set reason)).toNat = min (2 ^ 32 - 1) ((s.reg (dropR p set reason)).toNat + 1) := by
  have hCount : ((s.count (dropR p set reason) 0 32).reg (dropR p set reason)).toNat = min (2 ^ 32 - 1) ((s.reg (dropR p set reason)).toNat + 1) :=
    reg_count
  rw [← hCount]
  unfold State.countDrop
  extract_lets s1 key _ s2 w n _ s3 lim
  have h2 : s2.reg (dropR p set reason) = s1.reg (dropR p set reason) := rfl
  have h3 : s3.reg (dropR p set reason) = s1.reg (dropR p set reason) := rfl
  split
  · split
    · exact congrArg BitVec.toNat h3
    · exact congrArg BitVec.toNat h3
  · exact congrArg BitVec.toNat h2

/-! ### FRAME_RECEIVE -/

/-- What shuts a port for a frame (R38, R320). -/
theorem frameReceive_shut {p t len lane : Nat} {head : List Byte}
    (h : s.portOpen p = false ∨ s.rxFree p = false ∨ (s.jenAt p head).isSome = true) : s.frameReceive p t len lane head = s.advance t := by
  unfold State.frameReceive
  exact if_pos (by
    show (!s.portOpen p || !s.rxFree p || (s.jenAt p head).isSome) = true
    rcases h with h | h | h <;> simp [h])

/-- A frame that a port takes on goes to its admission. -/
theorem frameReceive_open {p t len lane : Nat} {head : List Byte} (hOpen : s.portOpen p = true) (hFree : s.rxList p = [])
    (hJen : s.jenAt p head = none) {x : Option Nat} {v u : State}
    (hAdmit : (s.advance t).admitFrame p 0 (s.tsInOf p t lane) (head.take 192) len = (x, v)) (hU : s.frameReceive p t len lane head = u) :
    u = v.setRxList p (⟨x, head.take 192⟩ :: v.rxList p) := by
  have hGoes : ¬ (!(s.advance t).portOpen p || !(s.advance t).rxFree p || ((s.advance t).jenAt p head).isSome) = true := by
    have h : (s.advance t).portOpen p = s.portOpen p ∧ (s.advance t).rxList p = s.rxList p ∧ (s.advance t).jenAt p head = s.jenAt p head :=
      ⟨rfl, rfl, rfl⟩
    simp [State.rxFree, h.1, h.2.1, h.2.2, hOpen, hFree, hJen]
  have hStamp : (s.advance t).tsInOf p t lane = s.tsInOf p t lane := rfl
  simp only [State.frameReceive, if_neg hGoes, hStamp, hAdmit] at hU
  exact hU.symm

/-- Admission of a frame that its port's meter and the pool allow. -/
theorem admitFrame_admits {p ts len : Nat} {body : List Byte} (hp : p < 64) (hWhole : s.path.degraded = false) (hRate : 0 < s.fld (admitR p 0) 0 20)
    (hCredit : (secU : Int) ≤ ((aget (fun _ => {}) s.meters p : Bucket).refill (s.fld (admitR p 0) 0 20 * 4096) (s.fld (admitR p 0) 20 12 * secU) s.now).credit)
    (hReserve : s.p0Reserve < s.poolFree 0) {cell : Nat}
    (hHead : (s.takeHead 0).map Prod.fst = some cell) :
    ∃ v, s.admitFrame p 0 ts body len = (some s.path.nextSeq, v) ∧ v.path.nextSeq = (s.path.nextSeq + 1) % 2 ^ 32 ∧ v.cls.rx = s.cls.rx
      ∧ ∃ d, v.coach s.path.nextSeq = some d ∧ d.Built p ts (s.path.nextSeq % 2 ^ 32) (min body.length 192) := by
  unfold State.admitFrame
  obtain ⟨draw, s1, hFresh, hSame⟩ : ∃ draw s1, s.fresh 26 = (draw, s1) ∧ s1 = { s with freeCtr := s.freeCtr + 1 } := ⟨_, _, rfl, rfl⟩
  obtain ⟨m, hAdmits⟩ := admits_open (s := s1) (p := p) (cls := getField draw 0 3) (by rw [hSame]; exact hWhole) (by rw [hSame]; exact hRate)
    (by rw [hSame]; exact hCredit)
  rw [hFresh]
  simp only [hAdmits]
  have hCell : (({ s1 with meters := m } : State).takeCell p (State.reservedNow { s1 with meters := m } p (getField draw 0 3))).1 = some cell := by
    rw [takeCell_congr (s := s) (by rw [hSame]) (by rw [hSame]), takeCell_index, if_pos (by simp [hReserve]), if_neg (by omega)]
    exact hHead
  have hTaken : CellTaken { s1 with meters := m } (({ s1 with meters := m } : State).takeCell p (State.reservedNow { s1 with meters := m } p (getField draw 0 3))).2 :=
    CellTaken.refl.takeCell
  generalize ({ s1 with meters := m } : State).takeCell p (State.reservedNow { s1 with meters := m } p (getField draw 0 3)) = r at hCell hTaken ⊢
  obtain ⟨x, s3⟩ := r
  obtain rfl : x = some cell := hCell
  have hPath : s3.path = s.path := hTaken.path.trans (by rw [hSame])
  have hCls : s3.cls = s.cls := hTaken.cls.trans (by rw [hSame])
  simp only
  generalize hB : s3.buildCoach p 0 ts cell draw (State.reservedNow { s1 with meters := m } p (getField draw 0 3)) body len = b
  obtain ⟨q, v⟩ := b
  obtain ⟨hSeq, hNext, hRx, d, hd, hBuilt⟩ := buildCoach_builds hp hB
  rw [hPath] at hSeq hNext
  subst hSeq
  exact ⟨v, rfl, hNext, hRx.trans (congrArg ClsSt.rx hCls), d, hd, hBuilt⟩

/-- Admission of a frame at a port without a rate. -/
theorem admitFrame_refuses {p ts len : Nat} {body : List Byte} (hWhole : s.path.degraded = false) (hRate : s.fld (admitR p 0) 0 20 = 0) :
    ∃ f, s.admitFrame p 0 ts body len = (none, (State.count { s with freeCtr := f } (admitR p 8) 0 32).countDrop p 8 3) := by
  refine ⟨s.freeCtr + 1, ?_⟩
  have hShut (cls : Nat) : State.admits { s with freeCtr := s.freeCtr + 1 } p cls = (false, { s with freeCtr := s.freeCtr + 1 }) :=
    admits_shut hWhole hRate
  simp only [State.admitFrame, State.fresh, hShut]

/-- A frame that its port admits becomes the coach of the next SEQ. -/
theorem frameReceive_admits {p t len lane : Nat} {head : List Byte} (hp : p < 64) (hOpen : s.portOpen p = true) (hFree : s.rxList p = [])
    (hJen : s.jenAt p head = none) (hWhole : s.path.degraded = false) (hRate : 0 < s.fld (admitR p 0) 0 20)
    (hCredit : (secU : Int) ≤ ((aget (fun _ => {}) s.meters p : Bucket).refill (s.fld (admitR p 0) 0 20 * 4096) (s.fld (admitR p 0) 20 12 * secU) (max s.now t)).credit)
    (hReserve : s.p0Reserve < s.poolFree 0) (hHead : (s.takeHead 0).isSome = true) {u : State} (hU : s.frameReceive p t len lane head = u) :
    u.rxOf p = some s.path.nextSeq ∧ u.path.nextSeq = (s.path.nextSeq + 1) % 2 ^ 32
      ∧ ∃ d, u.coach s.path.nextSeq = some d ∧ d.Built p (s.tsInOf p t lane) (s.path.nextSeq % 2 ^ 32) (min head.length 192) := by
  obtain ⟨⟨cell, v'⟩, hCell⟩ := Option.isSome_iff_exists.mp hHead
  have hHead' : ((s.advance t).takeHead 0).map Prod.fst = some cell := by rw [takeHead_congr (s := s) (t := s.advance t) rfl rfl, hCell]; rfl
  obtain ⟨v, hAdmit, hNext, -, d, hd, hBuilt⟩ := admitFrame_admits (s := s.advance t) (ts := s.tsInOf p t lane) (len := len)
    (body := head.take 192) hp hWhole hRate hCredit hReserve hHead'
  obtain rfl := frameReceive_open hOpen hFree hJen hAdmit hU
  rw [List.length_take, Nat.min_comm 192, Nat.min_assoc, Nat.min_self] at hBuilt
  exact ⟨by rw [State.rxOf, rxList_setRxList]; rfl, hNext, d, hd, hBuilt⟩

/-- A frame at a port whose meter has no rate is refused and counted. -/
theorem frameReceive_refuses {p t len lane : Nat} {head : List Byte} (hp : p < 64) (hOpen : s.portOpen p = true) (hFree : s.rxList p = [])
    (hJen : s.jenAt p head = none) (hWhole : s.path.degraded = false) (hRate : s.fld (admitR p 0) 0 20 = 0) {u : State}
    (hU : s.frameReceive p t len lane head = u) :
    u.rxOf p = none ∧ u.coaches = s.coaches ∧ u.path.nextSeq = s.path.nextSeq
      ∧ (u.reg (admitR p 8)).toNat = min (2 ^ 32 - 1) ((s.reg (admitR p 8)).toNat + 1)
      ∧ (u.reg (dropR p 8 3)).toNat = min (2 ^ 32 - 1) ((s.reg (dropR p 8 3)).toNat + 1) := by
  obtain ⟨f, hAdmit⟩ := admitFrame_refuses (s := s.advance t) (p := p) (ts := s.tsInOf p t lane) (len := len) (body := head.take 192) hWhole hRate
  obtain rfl := frameReceive_open hOpen hFree hJen hAdmit hU
  have hLow : admitR p 8 < egrB := by simp only [admitR, portB, egrB, block]; omega
  have hHigh : egrB ≤ dropR p 8 3 := by simp only [dropR]; omega
  have hNe : dropR p 8 3 ≠ admitR p 8 := Nat.ne_of_gt (Nat.lt_of_lt_of_le hLow hHigh)
  have hCount : ((State.count { s.advance t with freeCtr := f } (admitR p 8) 0 32).reg (admitR p 8)).toNat =
      min (2 ^ 32 - 1) ((s.reg (admitR p 8)).toNat + 1) := reg_count (s := { s.advance t with freeCtr := f })
  have hOther : (State.count { s.advance t with freeCtr := f } (admitR p 8) 0 32).reg (dropR p 8 3) = s.reg (dropR p 8 3) :=
    (State.reg_setReg _ _ _ _).trans (if_neg hNe)
  have hSame : (State.count { s.advance t with freeCtr := f } (admitR p 8) 0 32).coaches = s.coaches
      ∧ (State.count { s.advance t with freeCtr := f } (admitR p 8) 0 32).path = s.path := ⟨rfl, rfl⟩
  generalize State.count { s.advance t with freeCtr := f } (admitR p 8) 0 32 = v at hCount hOther hSame ⊢
  have hDrop : Quiet v (v.countDrop p 8 3) := Quiet.refl.countDrop
  have hReg := countDrop_reg (s := v) p 8 3
  generalize v.countDrop p 8 3 = w at hDrop hReg ⊢
  rw [hOther] at hReg
  refine ⟨by rw [State.rxOf, rxList_setRxList]; rfl, hDrop.coaches.trans hSame.1, congrArg PathSt.nextSeq (hDrop.path.trans hSame.2), ?_, hReg⟩
  exact (congrArg BitVec.toNat (hDrop.reg _ hLow)).trans hCount

end Sys2Proof.Machine
end

section
/-!
The verdict of a frame (O21, R48): a passing one makes LEN final, a failing one in the parser ends the coach.
-/
namespace Sys2Proof.Machine

variable {o s : State} {c d : Coach} {k : Nat}

/-! ### What freeing cells and counting a stream leave alone -/

/-- `s` comes from `o` by giving cells back and by counts of streams and availability: time, coaches, the parser's records, the start of
the path and the registers below the pools' are as before. -/
structure Frees (o s : State) : Prop where
  time : s.time = o.time
  start : s.path.start = o.path.start
  coaches : s.coaches = o.coaches
  cls : s.cls = o.cls
  reg : ∀ a < poolB, s.reg a = o.reg a

namespace Frees

theorem refl : Frees o o := ⟨rfl, rfl, rfl, rfl, fun _ _ => rfl⟩

theorem trans {t : State} (h : Frees o s) (g : Frees s t) : Frees o t :=
  ⟨g.time.trans h.time, g.start.trans h.start, g.coaches.trans h.coaches, g.cls.trans h.cls, fun a ha => (g.reg a ha).trans (h.reg a ha)⟩

theorem foldl {α : Type} {f : State → α → State} {l : List α} (h : Frees o s) (hf : ∀ s x, Frees o s → Frees o (f s x)) :
    Frees o (l.foldl f s) := List.foldlRecOn (motive := Frees o) l f h fun s hs x _ => hf s x hs

/-- An update of pools, of the instant of the availability count, of memory and of the fault collector. -/
theorem upd {p n m f} (h : Frees o s) : Frees o { s with pool := p, path := { s.path with availMs := n }, mem := m, flt := f } :=
  ⟨h.time, h.start, h.coaches, h.cls, h.reg⟩

theorem setFld {a lo len v} (h : Frees o s) (ha : poolB ≤ a) : Frees o (s.setFld a lo len v) :=
  h.trans ⟨rfl, rfl, rfl, rfl, fun b hb => (State.reg_setReg _ _ _ _).trans (if_neg (by omega))⟩

theorem raise {src ctx} (h : Frees o s) : Frees o (s.raise src ctx) := h.upd

theorem setBytes {l : List Byte} : ∀ {s a}, Frees o s → Frees o (s.setBytes a l) := by
  induction l with
  | nil => exact fun h => h
  | cons b t ih => exact fun h => ih h.upd

theorem auditAdd {e k up} (h : Frees o s) : Frees o (s.auditAdd e k up) := by
  have hSet {x} : Frees o (s.setAudit e x) := h.upd
  unfold State.auditAdd
  extract_lets x n counts
  split
  · exact hSet.setFld (by omega)
  · exact hSet

theorem sidingCheck (h : Frees o s) : Frees o s.sidingCheck := by
  unfold State.sidingCheck
  dsimp only
  split
  · split
    · exact h
    · exact h.upd
  · exact h.upd

theorem auditLose {h k} (hs : Frees o s) : Frees o (s.auditLose h k) := by
  unfold State.auditLose
  split
  · split
    · exact hs.auditAdd
    · exact hs
  · exact hs.setFld (by omega)

theorem refuseFree {i req owner foreign} (h : Frees o s) : Frees o (s.refuseFree 0 i req owner foreign) := by
  unfold State.refuseFree
  extract_lets a b s1 s2 s3
  have h2 : Frees o s2 := h.trans ⟨rfl, rfl, rfl, rfl, fun r hr => by
    rw [State.reg_setReg, if_neg (by omega), State.reg_setReg, if_neg (by omega)]⟩
  have h3 : Frees o s3 := by
    unfold s3
    split
    · exact h2.setFld (by omega)
    · exact h2.setFld (by omega)
  exact h3.raise

theorem release {i h} (hs : Frees o s) : Frees o (s.release 0 i h) := by
  unfold State.release
  extract_lets s1 s2 p s3
  have h1 : Frees o s1 := hs.auditLose
  have h2 : Frees o s2 := (show Frees o (s1.setHeld 0 i none) from h1.upd).upd
  have h3 : Frees o s3 := h2.upd
  split
  · exact h2
  · exact (h3.setFld (by simp only [poolR]; omega)).sidingCheck

theorem freeCell {p i} (h : Frees o s) : Frees o (s.freeCell p i) := by
  unfold State.freeCell
  split
  · exact h.release
  · exact h.refuseFree

theorem freeCells {p res l} (h : Frees o s) : Frees o (s.freeCells p res l) := Frees.upd (h.foldl fun _ _ h => h.freeCell)

theorem freeCopyCells {cp} (h : Frees o s) : Frees o (s.freeCopyCells cp) := h.foldl fun s i h => by
  cases hHeld : s.heldAt 0 i with
  | none => simpa only [hHeld] using h.refuseFree
  | some x => simpa only [hHeld] using h.release

theorem streamDrop {reason} (h : Frees o s) : Frees o (s.streamDrop c reason) := by
  unfold State.streamDrop
  split
  · exact h.setBytes.setBytes
  · exact h

theorem availDrop {reason reserved} (h : Frees o s) : Frees o (s.availDrop c reason reserved) := by
  unfold State.availDrop
  extract_lets cause ms _ s1
  have h1 : Frees o s1 := h.upd
  split
  · split
    · exact h
    · exact (h1.setFld (by decide)).setFld (by decide)
  · exact h

end Frees

/-! ### A coach that ends (R41, R231) -/

/-- A coach that leaves dropped is counted under its port and reason, and is gone. -/
theorem leaveDropped_ends (c : Coach) (hPort : c.inPort < 64) (hReason : c.reason < 64) {u : State} (hU : s.leaveDropped k c = u) :
    u.cls = s.cls ∧ u.coach k = none
      ∧ (u.reg (dropR c.inPort 8 c.reason)).toNat = min (2 ^ 32 - 1) ((s.reg (dropR c.inPort 8 c.reason)).toNat + 1) := by
  have hDrop : Quiet s (s.countDrop c.inPort 8 c.reason) := Quiet.refl.countDrop
  have hReg := countDrop_reg (s := s) c.inPort 8 c.reason
  have hLow : dropR c.inPort 8 c.reason < poolB := by simp only [dropR, egrB, poolB, block]; omega
  unfold State.leaveDropped State.freeCoach at hU
  generalize s.countDrop c.inPort 8 c.reason = s1 at hDrop hReg hU
  have hFrees : Frees s1 (((s1.streamDrop c c.reason).availDrop c c.reason false).freeCells c.inPort c.resCells (c.cell :: c.cells)) :=
    Frees.refl.streamDrop.availDrop.freeCells
  extract_lets at hU
  generalize ((s1.streamDrop c c.reason).availDrop c c.reason false).freeCells c.inPort c.resCells (c.cell :: c.cells) = t at hFrees hU
  subst hU
  refine ⟨hFrees.cls.trans hDrop.cls, (aget_aset (fun _ => none) t.coaches k none k).trans (if_pos rfl), ?_⟩
  exact (congrArg BitVec.toNat (hFrees.reg _ hLow)).trans hReg

/-! ### The verdict (R48) -/

theorem fld_lt (b lo len : Nat) : c.fld b lo len < 2 ^ len := getField_lt _ _ _

/-- `d` is the coach `c` after the verdict `reason` (R48). -/
structure Coach.Ruled (c : Coach) (reason : Nat) (d : Coach) : Prop where
  loc : d.loc = c.loc
  verdict : d.verdict = some reason
  len : d.len = c.got % 2 ^ 14
  reason : d.reason = c.reason
  inPort : d.inPort = c.inPort

/-- A verdict first stands in the coach; a pass then leaves the coach where it is, a fail ends it if it is in the parser. -/
theorem verdict_rules {reason : Nat} (hCoach : s.coach k = some c) (hKind : c.kind = 0) {u : State} (hU : s.verdict k reason = u) :
    ∃ d t, c.Ruled reason d ∧ t.time = s.time ∧ t.cls.rx = s.cls.rx ∧ t.ctl = s.ctl ∧ t.coach k = some d
      ∧ (reason = 0 → c.loc ≠ .egress → u = t)
      ∧ (reason ≠ 0 → c.loc = .parser → ∃ l : ClsSt, l.rx = t.cls.rx
          ∧ u = ({ t with cls := l } : State).leaveDropped k (d.drop t.coreNow reason 1)) := by
  unfold State.verdict at hU
  extract_lets s1 at hU
  have hCoach' : s1.coach k = some c := hCoach
  have hSame : s1.time = s.time ∧ s1.cls.rx = s.cls.rx ∧ s1.ctl = s.ctl := ⟨rfl, rfl, rfl⟩
  clear_value s1
  rw [hCoach'] at hU
  have hCoachKind : ¬ c.kind = 1 := by rw [hKind]; decide
  simp -zeta only [if_neg hCoachKind] at hU
  extract_lets body c1 c2 c3 s2 c4 board s3 at hU
  have hBelow : ∀ b lo len, 8 * b + lo + len ≤ 8 * 216 + 19 → c3.fld b lo len = (c.setFld 192 0 14 c.got).fld b lo len := fun b lo len h =>
    (Coach.fld_setFld_ne _ _ _ _ _ _ _ (by omega)).trans (Coach.fld_setFld_ne _ _ _ _ _ _ _ (by omega))
  have hRuled : c.Ruled reason c3 :=
    ⟨rfl, rfl, (hBelow 192 0 14 (by omega)).trans (Coach.fld_setFld _ _ _ _ (by omega)),
      (hBelow 196 26 6 (by omega)).trans (Coach.fld_setFld_ne _ _ _ _ _ _ _ (by omega)),
      (hBelow 192 14 6 (by omega)).trans (Coach.fld_setFld_ne _ _ _ _ _ _ _ (by omega))⟩
  obtain ⟨hTime, hRx, hCtl⟩ := hSame
  refine ⟨c3, s2, hRuled, hTime, hRx, hCtl, by simp [s2], fun hZero hLoc => ?_, fun hFail hLoc => ?_⟩
  · rw [hRuled.loc, if_pos hZero] at hU
    cases hl : c.loc with
    | parser => rw [hl] at hU; exact hU.symm
    | station n => rw [hl] at hU; simpa [hZero] using hU.symm
    | egress => exact absurd hl hLoc
  · rw [hRuled.loc, hLoc] at hU
    exact ⟨s3.cls, rfl, hU.symm.trans (if_neg hFail)⟩
/-- A passing verdict of a coach that is not at its egress makes LEN final. -/
theorem verdict_passes (hCoach : s.coach k = some c) (hKind : c.kind = 0) (hLoc : c.loc ≠ .egress) {u : State} (hU : s.verdict k 0 = u) :
    u.time = s.time ∧ u.cls.rx = s.cls.rx ∧ ∃ d, u.coach k = some d ∧ d.verdict = some 0 ∧ d.len = c.got % 2 ^ 14 ∧ d.loc = c.loc := by
  obtain ⟨d, t, hRuled, hTime, hRx, -, hNow, hPass, -⟩ := verdict_rules hCoach hKind hU
  rw [hPass rfl hLoc]
  exact ⟨hTime, hRx, d, hNow, hRuled.verdict, hRuled.len, hRuled.loc⟩

/-- A failing verdict ends a coach that is still in the parser and has no drop reason. -/
theorem verdict_ends {reason : Nat} (hCoach : s.coach k = some c) (hKind : c.kind = 0) (hLoc : c.loc = .parser) (hNone : c.reason = 0)
    (hSome : reason ≠ 0) (hSmall : reason < 64) {u : State} (hU : s.verdict k reason = u) :
    u.cls.rx = s.cls.rx ∧ u.coach k = none
      ∧ (u.reg (dropR c.inPort 8 reason)).toNat = min (2 ^ 32 - 1) ((s.reg (dropR c.inPort 8 reason)).toNat + 1) := by
  obtain ⟨d, t, hRuled, -, hRx, hCtl, -, -, hFail⟩ := verdict_rules hCoach hKind hU
  obtain ⟨l, hl, hEnd⟩ := hFail hSome hLoc
  have hReason : (d.drop t.coreNow reason 1).reason = reason := Coach.reason_drop (hRuled.reason.trans hNone) hSome hSmall
  have hPort : (d.drop t.coreNow reason 1).inPort = c.inPort := Coach.Same.refl.drop.inPort.trans hRuled.inPort
  have hReg : ∀ a, ({ t with cls := l } : State).reg a = s.reg a := fun a => congrArg (aget regReset · a) hCtl
  obtain ⟨hCls, hGone, hCount⟩ := leaveDropped_ends (d.drop t.coreNow reason 1) (fld_lt 192 14 6) (by rw [hReason]; exact hSmall) hEnd.symm
  rw [hReason, hPort, hReg] at hCount
  exact ⟨(congrArg ClsSt.rx hCls).trans (hl.trans hRx), hGone, hCount⟩

/-- The four reasons a verdict can name, in the order of R48. -/
theorem verdictReason_eq (p : Nat) (body : List Byte) (v : Verdict) : s.verdictReason p body v =
    if v.linkLost then 15
    else if 9212 < (if s.macsecOn p then Config.macsecProtect p body else body).length then 14
    else if v.icvBad = true ∧ s.macsecOn p = true then 16
    else if (if s.macsecOn p then Config.macsecProtect p body else body).length < 60 ∨ v.symbol = true ∨ v.fragment = true
        ∨ v.fcs ≠ BitVec.ofNat 32 (crc32 (if s.macsecOn p then Config.macsecProtect p body else body)) then 1 else 0 := by
  simp only [State.verdictReason, Bool.and_eq_true, Bool.or_eq_true, decide_eq_true_eq, bne_iff_ne, or_assoc]

theorem verdictReason_lt (p : Nat) (body : List Byte) (v : Verdict) : s.verdictReason p body v < 64 := by
  unfold State.verdictReason
  dsimp only
  repeat' split
  all_goals decide

/-- VERDICT_FINAL gives the oldest frame of the port its verdict. -/
theorem verdictFinal_gives {p t : Nat} {v : Verdict} {x : Rx} {rest : List Rx} (hRx : s.rxList p = x :: rest) (hX : x.coach = some k)
    (hCoach : s.coach k = some c) (hOpen : c.verdict = none) :
    s.verdictFinal p t v = ((s.advance (s.verdictInstant p t)).setRxList p rest).verdict k (s.verdictReason p x.body v) := by
  unfold State.verdictFinal
  generalize s.verdictInstant p t = m
  have hRx' : (s.advance m).rxList p = x :: rest := hRx
  have hCoach' : ((s.advance m).setRxList p rest).coach k = some c := hCoach
  have hReason : ((s.advance m).setRxList p rest).verdictReason p x.body v = s.verdictReason p x.body v := rfl
  simp only [hRx', hX, hCoach', hReason, Option.bind_some, hOpen, Option.isSome_none, Bool.false_eq_true, if_false]

theorem verdictFinal_idle {p t : Nat} {v : Verdict} (h : s.rxList p = []) : s.verdictFinal p t v = s.advance (s.verdictInstant p t) := by
  unfold State.verdictFinal
  generalize s.verdictInstant p t = m
  have hRx : (s.advance m).rxList p = [] := h
  simp only [hRx]

theorem verdictFinal_passes {p t : Nat} {v : Verdict} {x : Rx} {rest : List Rx} (hRx : s.rxList p = x :: rest) (hX : x.coach = some k)
    (hCoach : s.coach k = some c) (hOpen : c.verdict = none) (hKind : c.kind = 0) (hLoc : c.loc ≠ .egress)
    (hPass : s.verdictReason p x.body v = 0) {u : State} (hU : s.verdictFinal p t v = u) :
    u.rxList p = rest ∧ u.now = max s.now (s.verdictInstant p t)
      ∧ ∃ d, u.coach k = some d ∧ d.verdict = some 0 ∧ d.len = c.got % 2 ^ 14 ∧ d.loc = c.loc := by
  rw [verdictFinal_gives hRx hX hCoach hOpen, hPass] at hU
  generalize s.verdictInstant p t = m at hU ⊢
  obtain ⟨hTime, hList, d, hd⟩ := verdict_passes (show ((s.advance m).setRxList p rest).coach k = some c from hCoach) hKind hLoc hU
  exact ⟨(congrArg (aget (fun _ => []) · p) hList).trans (rxList_setRxList p rest), congrArg TimeSt.now hTime, d, hd⟩

theorem verdictFinal_ends {p t : Nat} {v : Verdict} {x : Rx} {rest : List Rx} (hRx : s.rxList p = x :: rest) (hX : x.coach = some k)
    (hCoach : s.coach k = some c) (hOpen : c.verdict = none) (hKind : c.kind = 0) (hNone : c.reason = 0) (hLoc : c.loc = .parser)
    (hFail : s.verdictReason p x.body v ≠ 0) {u : State} (hU : s.verdictFinal p t v = u) :
    u.rxList p = rest ∧ u.coach k = none ∧ (u.reg (dropR c.inPort 8 (s.verdictReason p x.body v))).toNat
      = min (2 ^ 32 - 1) ((s.reg (dropR c.inPort 8 (s.verdictReason p x.body v))).toNat + 1) := by
  rw [verdictFinal_gives hRx hX hCoach hOpen] at hU
  have hSmall := verdictReason_lt (s := s) p x.body v
  generalize s.verdictReason p x.body v = r at hFail hSmall hU ⊢
  generalize s.verdictInstant p t = m at hU
  obtain ⟨hList, hGone, hCount⟩ :=
    verdict_ends (show ((s.advance m).setRxList p rest).coach k = some c from hCoach) hKind hLoc hNone hFail hSmall hU
  exact ⟨(congrArg (aget (fun _ => []) · p) hList).trans (rxList_setRxList p rest), hGone, hCount⟩

end Sys2Proof.Machine
end

section
/-!
The commands of ingress (O21), put together from the frame's admission, its bytes and verdict, its searches and its entry into S0.
-/
namespace Sys2Proof.Machine

/-- Settles O21: each command is followed through the coach, the parser's records and the registers it writes. -/
theorem ingressResults : Obligations.IngressResults := by
  unfold Obligations.IngressResults
  refine ⟨fun p t len lane head bytes v s => ?_, fun q c s hCoach hParser => ?_, fun p v s => ?_⟩
  · intro next shut wire reason
    have hp : (p : Nat) < 64 := by omega
    have hReason (body : List Byte) : s.verdictReason p body v = reason body := verdictReason_eq p body v
    refine ⟨fun hOpen hFree hJen hWhole hRate hCredit hReserve hHead => ⟨_, rfl, ?_⟩,
      fun hOpen hFree hJen hWhole hRate => ⟨_, rfl, frameReceive_refuses hp hOpen hFree hJen hWhole hRate rfl⟩,
      fun hShut => congrArg Host.Outcome.next (frameReceive_shut hShut),
      fun k c i u' hRx hCoach hOpen hKind hSome hFits hRoom hCell =>
        ⟨_, rfl, bodyArrive_takes hRx hCoach hOpen hKind hSome hFits hRoom (congrArg Prod.fst hCell) rfl⟩,
      fun hIdle => congrArg Host.Outcome.next (bodyArrive_idle hIdle),
      fun x rest k c hRx hX hCoach hOpen hKind hLoc hPass =>
        ⟨_, rfl, verdictFinal_passes hRx hX hCoach hOpen hKind hLoc ((hReason _).trans hPass) rfl⟩,
      fun x rest k c hRx hX hCoach hOpen hKind hNone hLoc hFail => ⟨_, rfl, ?_⟩,
      fun hIdle => congrArg Host.Outcome.next (verdictFinal_idle hIdle)⟩
    · obtain ⟨hNext, hSeq, d, hd, hBuilt⟩ := frameReceive_admits hp hOpen hFree hJen hWhole hRate hCredit hReserve hHead rfl
      exact ⟨hNext, hSeq, d, hd, hBuilt.loc, hBuilt.tsIn, hBuilt.verdict, hBuilt.inPort, hBuilt.kind, hBuilt.seq, hBuilt.got⟩
    · rw [← hReason] at hFail ⊢
      exact verdictFinal_ends hRx hX hCoach hOpen hKind hNone hLoc hFail rfl
  · intro k g kind edge scanned mine budget asksEntry asksStream ready
    have entry (h : asksEntry) : AsksEntry s k c := ⟨hCoach, hParser, h.1, h.2.1, h.2.2⟩
    have stream (h : asksStream) : AsksStream s k c := ⟨hCoach, hParser, h.1, h.2.1, h.2.2⟩
    refine ⟨fun hScan => ⟨_, rfl, lensScan_scanned hCoach hScan.1 hScan.2 hParser⟩,
      fun hScan => congrArg Host.Outcome.next (lensScan_unscanned hCoach hScan),
      fun ⟨f, hWheels⟩ hRun hAsks hReqs hCap hAbsent => ⟨_, rfl, (entry hAsks).made hWheels hRun hReqs hCap hAbsent rfl⟩,
      fun hWheel hAsks hCap hAbsent => ⟨_, rfl, (entry hAsks).waits hWheel hCap hAbsent⟩,
      fun hReqs hAsks hCap => ⟨_, rfl, (entry hAsks).overBudget hReqs hCap rfl⟩,
      fun hReqs hAsks hCap hAbsent hReason => ⟨_, rfl, (entry hAsks).absent hReqs hCap hAbsent hReason rfl⟩,
      fun ⟨f, hWheels⟩ hRun hAsks hReqs hCap hAbsent hGood hMiss =>
        ⟨_, rfl, (stream hAsks).made hWheels hRun hReqs hCap hAbsent rfl hGood hMiss rfl⟩,
      fun hReqs hAsks hCap => ⟨_, rfl, (stream hAsks).overBudget hReqs hCap rfl⟩,
      fun hReady hRoom => ⟨_, rfl, enterS0_enters hCoach ((mayEnter_iff hParser).mpr hReady) hRoom rfl⟩,
      fun hReady => congrArg Host.Outcome.next (enterS0_stays hCoach ?_)⟩
    exact Bool.eq_false_iff.mpr fun hMay => hReady ((mayEnter_iff hParser).mp hMay)
  · exact ⟨fun h => ⟨_, rfl, latentCheck_runs h rfl⟩, fun h => congrArg Host.Outcome.next (latentCheck_off h),
      ⟨_, rfl, fwdPortWrite_skind p v⟩⟩

end Sys2Proof.Machine
end

section
/-!
The start sequence up to the load of an image (O23): BIST, the choice of a slot and the failures of a load.
-/
namespace Sys2Proof.Machine

variable {o s : State}

/-! ### The phase and the journal (R350) -/

theorem setPhase_phase {p : Nat} (hp : p < 16) : (s.setPhase p).fld bootB 0 4 = p :=
  (State.fld_setFld s bootB 0 4 p (by omega)).trans (Nat.mod_eq_of_lt hp)

/-- The start sequence's record and its phase register are those of `o`. -/
structure SameBoot (o s : State) : Prop where
  boot : s.boot = o.boot
  reg : s.reg bootB = o.reg bootB

namespace SameBoot

theorem refl : SameBoot o o := ⟨rfl, rfl⟩

theorem trans {t : State} (h : SameBoot o s) (g : SameBoot s t) : SameBoot o t := ⟨g.boot.trans h.boot, g.reg.trans h.reg⟩

theorem fld (h : SameBoot o s) (lo len : Nat) : s.fld bootB lo len = o.fld bootB lo len := by rw [State.fld, State.fld, h.reg]

theorem flt {f} (h : SameBoot o s) : SameBoot o { s with flt := f } := ⟨h.boot, h.reg⟩

theorem setReg {a w} (h : SameBoot o s) (ha : a ≠ bootB) : SameBoot o (s.setReg a w) :=
  ⟨h.boot, (State.reg_setReg s a w bootB).trans ((if_neg ha.symm).trans h.reg)⟩

theorem setFld {a lo len v} (h : SameBoot o s) (ha : a ≠ bootB) : SameBoot o (s.setFld a lo len v) := h.setReg ha

theorem queueRecord {r} (h : SameBoot o s) : SameBoot o (s.queueRecord r) := by
  unfold State.queueRecord
  split
  · exact h.setFld (by decide)
  · exact h.flt

theorem setCell {c} (h : SameBoot o s) : SameBoot o (s.setCell c) := by
  have hCells : SameBoot o ((List.range 16).foldl
      (fun s w => s.setReg (fltB + 0x40 + w * 4) (BitVec.ofNat 32 (le (c.getD (List.replicate 64 0)) (4 * w) 4))) s) :=
    List.foldlRecOn (motive := SameBoot o) _ _ h fun s hs w hw =>
      hs.setReg (by have := List.mem_range.mp hw; simp only [fltB, bootB, block]; omega)
  exact hCells.flt

theorem copyCell (h : SameBoot o s) : SameBoot o s.copyCell := by
  unfold State.copyCell
  split
  · exact h
  · exact h.queueRecord.setCell

theorem bootRecord (h : SameBoot o s) : SameBoot o s.bootRecord :=
  (show SameBoot o (s.specialRecord 0x103 _) from (h.setReg (by decide)).queueRecord).copyCell

theorem showSlot {slot st reason} (h : SameBoot o s) : SameBoot o (s.showSlot slot st reason) := by
  have hSlot : slotR slot ≠ bootB := by simp only [slotR]; omega
  exact (h.setFld hSlot).setFld hSlot

theorem readHeader {slot} (h : SameBoot o s) : SameBoot o (s.readHeader slot) := by
  have hSlot : slotR slot + 4 ≠ bootB := by simp only [slotR]; omega
  unfold State.readHeader
  extract_lets hd
  split
  extract_lets s1
  have h1 : SameBoot o s1 := by
    unfold s1
    split
    · exact h
    · exact h.setReg hSlot
  exact h1.showSlot

end SameBoot

/-! ### BIST and the choice of a slot (R340, R350) -/

theorem bist_done {r : Bist} (hPhase : s.fld bootB 0 4 = 1) (hReset : s.boot.resetHeld = false) : (s.bist r).fld bootB 0 4 = 2 := by
  unfold State.bist
  rw [if_neg (by simp [hPhase, hReset])]
  exact setPhase_phase (by decide)

theorem bist_idle {r : Bist} (h : s.fld bootB 0 4 ≠ 1 ∨ s.boot.resetHeld = true) : s.bist r = s := if_pos h

theorem selectImage_idle {fa fb : Bool} (h : s.fld bootB 0 4 ≠ 2) : s.selectImage fa fb = s := if_pos h

theorem selectImage_chosen {fa fb : Bool} {x : Nat} (hPhase : s.fld bootB 0 4 = 2)
    (hChoice : ((((s.norFails 0 fa).norFails 1 fb).readHeader 0).readHeader 1).choice = some x) {u : State} (hU : s.selectImage fa fb = u) :
    u.fld bootB 0 4 = 3 ∧ u.boot.loading = some x ∧ u.boot.triedOther = false := by
  unfold State.selectImage at hU
  rw [if_neg (by simp [hPhase])] at hU
  generalize (((s.norFails 0 fa).norFails 1 fb).readHeader 0).readHeader 1 = t at hChoice hU
  simp only [hChoice] at hU
  subst hU
  exact ⟨setPhase_phase (by decide), rfl, rfl⟩

/-- A module without an image runs the recovery of R348. -/
theorem recover_recovers {u : State} (hU : s.recover_ = u) : u.fld bootB 0 4 = 8 ∧ u.boot.loading = none := by
  unfold State.recover_ at hU
  extract_lets s1 _ _ s2 at hU
  have h2 : s2.boot.loading = none := rfl
  clear_value s2
  have hRecord : SameBoot (s2.setPhase 8) u := hU ▸ SameBoot.refl.bootRecord
  exact ⟨(hRecord.fld 0 4).trans (setPhase_phase (by decide)), (congrArg BootSt.loading hRecord.boot).trans h2⟩

theorem selectImage_none {fa fb : Bool} (hPhase : s.fld bootB 0 4 = 2)
    (hChoice : ((((s.norFails 0 fa).norFails 1 fb).readHeader 0).readHeader 1).choice = none) {u : State} (hU : s.selectImage fa fb = u) :
    u.fld bootB 0 4 = 8 ∧ u.boot.loading = none := by
  unfold State.selectImage at hU
  rw [if_neg (by simp [hPhase])] at hU
  generalize (((s.norFails 0 fa).norFails 1 fb).readHeader 0).readHeader 1 = t at hChoice hU
  simp only [hChoice] at hU
  exact recover_recovers hU

/-! ### A load that fails (R348) -/

theorem norFails_boot (slot : Nat) (b : Bool) : (s.norFails slot b).boot.triedOther = s.boot.triedOther := by
  unfold State.norFails
  split <;> rfl

/-- Writes of registers leave the record of the start sequence alone. -/
theorem foldl_boot {α : Type} {f : State → α → State} {l : List α} (hf : ∀ s x, (f s x).boot = s.boot) : (l.foldl f s).boot = s.boot :=
  List.foldlRecOn (motive := fun t => State.boot t = s.boot) l f rfl fun _ h _ _ => (hf _ _).trans h

theorem clearImage_boot : s.clearImage.boot = s.boot := by
  have hRegs : (s.ctl.foldl (fun s e => s.setReg e.1 (mixBits e.2 (imageMask e.1) (regReset e.1))) s).boot = s.boot :=
    foldl_boot fun _ _ => rfl
  exact hRegs

theorem freshPath_boot : s.freshPath.boot = s.boot := by
  unfold State.freshPath
  extract_lets up mine check s1 _ s2 lanes s3
  have h3 : s3.boot = s2.boot := foldl_boot fun _ _ => by split <;> rfl
  have h4 : (up.foldl (fun s p => s.setBit (egrPR p 4) 0 true) s3).boot = s3.boot := foldl_boot fun _ _ => rfl
  exact h4.trans h3

theorem loadFail_recovers {slot reason : Nat} (hTried : s.boot.triedOther = true) {u : State} (hU : s.loadFail slot reason = u) :
    u.fld bootB 0 4 = 8 ∧ u.boot.loading = none := by
  unfold State.loadFail at hU
  extract_lets s1 s2 _ s3 at hU
  have h1 : s1.boot.triedOther = true := (congrArg BootSt.triedOther (freshPath_boot.trans clearImage_boot)).trans hTried
  have h2 : s2 = s1 := if_pos h1
  rw [if_neg (by simp [h2, h1])] at hU
  exact recover_recovers hU

theorem loadImage_idle {nor : Bool} (h : s.fld bootB 0 4 ≠ 3 ∨ s.boot.loading = none) : s.loadImage nor = s := by
  unfold State.loadImage
  split
  · rfl
  · next slot hLoading => exact if_pos (h.resolve_right (by simp [hLoading]))

theorem loadImage_fails {nor : Bool} {slot : Nat} (hPhase : s.fld bootB 0 4 = 3) (hLoading : s.boot.loading = some slot)
    (hBad : ((s.norFails slot nor).readHeader slot).fld (slotR slot) 4 2 ≠ 1) (hTried : s.boot.triedOther = true) {u : State}
    (hU : s.loadImage nor = u) : u.fld bootB 0 4 = 8 ∧ u.boot.loading = none := by
  have hKept : ((s.norFails slot nor).readHeader slot).boot.triedOther = true :=
    (congrArg BootSt.triedOther (SameBoot.refl.readHeader).boot).trans ((norFails_boot slot nor).trans hTried)
  unfold State.loadImage at hU
  rw [hLoading] at hU
  simp -zeta only [hPhase, ne_eq, not_true, if_false] at hU
  extract_lets s1 at hU
  rw [if_pos hBad] at hU
  exact loadFail_recovers hKept hU

end Sys2Proof.Machine
end

section
/-!
PACKET_PATH_START (O23, R15, R24): what the preparation of cores and the links that come up leave alone.
-/
namespace Sys2Proof.Machine

variable {o s : State}

/-- Time, the start sequence and the path of `s` are those of `o`, and so are the registers of the blocks from PORT to STATION. -/
structure Started (o s : State) : Prop where
  time : s.time = o.time
  boot : s.boot = o.boot
  path : s.path = o.path
  reg : ∀ a, portB ≤ a → a < egrB → s.reg a = o.reg a

theorem Quiet.started (h : Quiet o s) : Started o s := ⟨h.time, h.boot, h.path, fun a _ ha => h.reg a ha⟩

namespace Started

theorem refl : Started o o := ⟨rfl, rfl, rfl, fun _ _ _ => rfl⟩

theorem trans {t : State} (h : Started o s) (g : Started s t) : Started o t :=
  ⟨g.time.trans h.time, g.boot.trans h.boot, g.path.trans h.path, fun a hp he => (g.reg a hp he).trans (h.reg a hp he)⟩

theorem quiet {t : State} (h : Started o s) (g : Quiet s t) : Started o t := h.trans g.started

theorem foldl {α : Type} {f : State → α → State} {l : List α} (h : Started o s) (hf : ∀ s x, x ∈ l → Started o s → Started o (f s x)) :
    Started o (l.foldl f s) := List.foldlRecOn (motive := Started o) l f h fun s hs x hx => hf s x hx hs

theorem ite {p : Prop} [Decidable p] {a b : State} (ha : Started o a) (hb : Started o b) : Started o (if p then a else b) := by
  split <;> assumption

/-- An update of memory, threads and links, egress, units, calibration and the fault collector. -/
theorem upd {m c e u f b} (h : Started o s) : Started o { s with mem := m, cpu := c, egr := e, units := u, flt := f, cbus := b } :=
  ⟨h.time, h.boot, h.path, h.reg⟩

theorem setFld {a lo len v} (h : Started o s) (ha : a < portB ∨ egrB ≤ a) : Started o (s.setFld a lo len v) :=
  h.trans ⟨rfl, rfl, rfl, fun b hp he => (State.reg_setReg _ _ _ _).trans (if_neg (by omega))⟩

theorem setReg {a w} (h : Started o s) (ha : a < portB ∨ egrB ≤ a) : Started o (s.setReg a w) :=
  h.trans ⟨rfl, rfl, rfl, fun b hp he => (State.reg_setReg _ _ _ _).trans (if_neg (by omega))⟩

theorem setBytes {l : List Byte} : ∀ {s a}, Started o s → Started o (s.setBytes a l) := by
  induction l with
  | nil => exact fun h => h
  | cons b t ih => exact fun h => ih h.upd

theorem endDown (h : Started o s) : Started o s.endDown := by
  unfold State.endDown
  split
  · have h1 : Started o { s with flt := { s.flt with downSince := none, downCarry := 0 } } := h.upd
    exact (h1.setFld (by decide)).setFld (by decide)
  · exact h

theorem modThread {i f} (h : Started o s) : Started o (s.modThread i f) := h.upd

theorem discardPending {i} (h : Started o s) : Started o (s.discardPending i) := by
  unfold State.discardPending
  extract_lets _ s1
  have h1 : Started o s1 := h.upd
  exact h1.upd

theorem prepCore {c} (h : Started o s) : Started o (s.prepCore c) := by
  unfold State.prepCore
  extract_lets n x half s1 s2 s3 s4 s5
  have h1 : Started o s1 := h.setBytes.setBytes
  have h2 : Started o s2 := by
    unfold s2
    split
    · exact h1.setBytes
    · exact h1
  have h3 : Started o s3 := h2.foldl fun _ _ _ h => h.discardPending.modThread
  have h5 : Started o s5 := (h3.foldl fun _ _ _ h => h.upd).foldl fun _ _ _ h => h.upd
  exact (show Started o (s5.setCh14 c {}) from h5.upd).upd

theorem be_one_lt (l : List Byte) (i : Nat) : be l i 1 < 256 := by
  have hLength : (slice l i 1).length = 1 := by simp [slice]
  obtain ⟨b, hb⟩ := List.length_eq_one_iff.mp hLength
  have h : fromBE [b] = b.toNat := by simp [fromBE, fromLE]
  rw [be, hb, h]
  exact b.isLt

/-- A lane's registers lie below the PORT block. -/
theorem lane_low {p l o : Nat} (h : l ∈ s.portLanes p) (ho : o < 0x10) : laneB + l * 0x10 + o < portB := by
  unfold State.portLanes at h
  split at h
  · obtain ⟨i, hi, rfl⟩ := List.mem_map.mp h
    have hLanes := be_one_lt (s.image.ports.getD p []) 1
    have := List.mem_range.mp hi
    simp only [laneB, portB, block]
    omega
  · cases h

theorem loadCal {l cls} (h : Started o s) (hl : l < 64) : Started o (s.loadCal l cls) := by
  unfold State.loadCal
  extract_lets e a s1 s2
  have ha : a + 8 < portB := by simp only [a, lcalR, tioB, portB, block]; omega
  have h2 : Started o s2 := (h.setReg (by omega)).setReg (by omega)
  split
  · exact ((h.setReg (by omega)).setReg (by omega)).setFld (by omega)
  · exact (h2.setFld (by omega)).upd

theorem loadSpares {p} (h : Started o s) : Started o (s.loadSpares p) := by
  unfold State.loadSpares
  extract_lets mine due _ s1
  have h1 : Started o s1 := h.upd
  refine h1.foldl fun t x hx ht => ht.loadCal ?_
  have hMine : x ∈ mine := by simpa using (List.mem_filter.mp hx).2
  obtain ⟨l, -, hl⟩ := List.mem_filterMap.mp hMine
  split at hl <;> simp at hl <;> omega

theorem linkUp {p inverted} (h : Started o s) : Started o (s.linkUp p inverted) := by
  unfold State.linkUp
  extract_lets lanes s1 s2 s3 s4 pre _ s5
  have hPort : ∀ o : Nat, egrB ≤ egrPR p o := fun o => by simp only [egrPR]; omega
  have h1 : Started o s1 := h.setFld (.inr (hPort 4))
  have h2 : Started o s2 := h1.foldl fun t l hl ht => by
    have hLow := lane_low hl (o := 4) (by omega)
    have hSet : Started o ((t.setBit (laneB + l * 0x10 + 4) 0 true).setBit (laneB + l * 0x10 + 4) 1
        (if t.bit (laneB + l * 0x10) 1 then inverted.contains l else t.bit (laneB + l * 0x10) 2)) :=
      (ht.setFld (.inl hLow)).setFld (.inl hLow)
    exact .ite (hSet.upd.quiet (.unitState .refl)) hSet.upd
  have h3 : Started o s3 := .ite h2.upd h2
  have h4 : Started o s4 := .ite (h3.quiet (.unitState .refl)) h3
  have h5 : Started o s5 := (h4.setFld (.inr (hPort 4))).upd
  exact .ite h (h5.loadSpares.quiet (.linkNotice .refl))

end Started

/-! ### The start (R15) -/

/-- A boundary is not before the instant it is looked for from. -/
theorem le_ceilTo (t : Nat) : t ≤ ceilTo epochU t := by
  have hPos : 0 < epochU := by decide
  have hDiv := Nat.div_add_mod (t + epochU - 1) epochU
  have hMod := Nat.mod_lt (t + epochU - 1) hPos
  rw [Nat.mul_comm] at hDiv
  simp only [ceilTo]
  omega


theorem fld_setCls {x : ClsSt} (a lo len : Nat) : ({ s with cls := x } : State).fld a lo len = s.fld a lo len := rfl

theorem tenseStart_fld (lo len : Nat) : s.tenseStart.fld clauseB lo len =
    ((((s.setFld clauseB 0 4 0).setFld clauseB 4 4 1).setFld clauseB 8 16 1).setBit clauseB 27 false).fld clauseB lo len := by
  unfold State.tenseStart
  rw [fld_setCls, State.setBit, State.fld_setFld_ne _ _ _ _ _ _ _ _ (by omega), State.fld_setFld_ne _ _ _ _ _ _ _ _ (by omega)]

theorem tenseStart_shows : s.tenseStart.current = 0 ∧ s.tenseStart.pendingTense = 1 ∧ s.tenseStart.live = 1 := by
  rw [State.current, State.pendingTense, State.live, tenseStart_fld, tenseStart_fld, tenseStart_fld]
  simp (disch := omega) only [State.setBit, State.fld_setFld_ne, State.fld_setFld]
  exact ⟨rfl, rfl, rfl⟩

theorem tenseStart_keeps : s.tenseStart.time = s.time ∧ s.tenseStart.path = s.path ∧ s.tenseStart.boot = s.boot := by
  simp [State.tenseStart]

theorem pathStart_idle (h : s.boot.ready = false ∨ s.pathRun = true) : s.pathStart = s := by
  unfold State.pathStart
  rw [if_pos (by simpa using h)]

theorem pathStart_starts (hReady : s.boot.ready = true) (hRun : s.pathRun = false) {u : State} (hU : s.pathStart = u) :
    u.path.start = ceilTo epochU s.now ∧ u.now = ceilTo epochU s.now ∧ u.pathRun = true ∧ u.boot.ready = false
      ∧ u.current = 0 ∧ u.pendingTense = 1 ∧ u.live = 1 := by
  unfold State.pathStart at hU
  rw [if_neg (by simp [hReady, hRun])] at hU
  extract_lets t s1 full meters _ s2 _ _ s3 s4 _ s5 k s6 s7 s8 s9 s10 s11 at hU
  have hNow1 : s1.now = max s.now t := (advance_entry t).2.2
  have hAfter : max s.now t = t := Nat.max_eq_right (le_ceilTo s.now)
  have hT : t = ceilTo epochU s.now := rfl
  clear_value meters s1 t
  have hTime2 : s2.time = s1.time := rfl
  clear_value s2
  have hTime3 : s3.time = s2.time := rfl
  have hReady3 : s3.boot.ready = false := rfl
  clear_value s3
  have hStart4 : s4.path.start = t := rfl
  have hSame4 : s4.time = s3.time ∧ s4.boot = s3.boot := ⟨rfl, rfl⟩
  clear_value s4
  have hSame7 : s7.time = s4.time ∧ s7.boot = s4.boot ∧ s7.path = s4.path := ⟨rfl, rfl, rfl⟩
  clear_value s7
  obtain ⟨hTime8, hPath8, hBoot8⟩ := tenseStart_keeps (s := s7)
  obtain ⟨hCurrent, hPending, hLive⟩ := tenseStart_shows (s := s7)
  have hDown : Started s8 s8.endDown := Started.refl.endDown
  have hRunning : (s8.endDown.setBit (stnB + 4) 1 true).pathRun = true := State.bit_setBit _ _ _ _ (by omega)
  have hTenses : ∀ lo len, (s8.endDown.setBit (stnB + 4) 1 true).fld clauseB lo len = s8.fld clauseB lo len := fun lo len =>
    (State.fld_setFld_ne _ _ _ _ _ _ _ _ (.inl (by decide))).trans
      (by rw [State.fld, State.fld, hDown.reg clauseB (by decide) (by decide)])
  have hMarked : (s8.endDown.setBit (stnB + 4) 1 true).time = s8.endDown.time ∧ (s8.endDown.setBit (stnB + 4) 1 true).path = s8.endDown.path
      ∧ (s8.endDown.setBit (stnB + 4) 1 true).boot = s8.endDown.boot := ⟨rfl, rfl, rfl⟩
  have hEnd : Started (s8.endDown.setBit (stnB + 4) 1 true) u := by
    have h9 : Started (s8.endDown.setBit (stnB + 4) 1 true) s9 := Started.refl.setFld (by decide)
    have h10 : Started (s8.endDown.setBit (stnB + 4) 1 true) s10 := h9.foldl fun _ _ _ h => .ite h.prepCore h
    have h11 : Started (s8.endDown.setBit (stnB + 4) 1 true) s11 := h10.foldl fun _ _ _ h => .ite h.linkUp h
    rw [← hU]
    exact .ite h11 (h11.setFld (by decide))
  generalize s8.endDown.setBit (stnB + 4) 1 true = r at hRunning hTenses hMarked hEnd
  obtain ⟨hTimeR, hPathR, hBootR⟩ := hMarked
  have hFld : ∀ a lo len, portB ≤ a → a < egrB → u.fld a lo len = r.fld a lo len := fun a lo len hp he => by
    rw [State.fld, State.fld, hEnd.reg a hp he]
  refine ⟨?_, ?_, ?_, ?_, ?_, ?_, ?_⟩
  · rw [hEnd.path, hPathR, hDown.path, hPath8, hSame7.2.2, hStart4, hT]
  · rw [State.now, hEnd.time, hTimeR, hDown.time, hTime8, hSame7.1, hSame4.1, hTime3, hTime2]
    exact (hNow1.trans hAfter).trans hT
  · rw [State.pathRun, State.bit, hEnd.reg (stnB + 4) (by decide) (by decide)]
    exact hRunning
  · rw [hEnd.boot, hBootR, hDown.boot, hBoot8, hSame7.2.1, hSame4.2, hReady3]
  · exact (hFld clauseB 0 4 (by decide) (by decide)).trans ((hTenses 0 4).trans hCurrent)
  · exact (hFld clauseB 4 4 (by decide) (by decide)).trans ((hTenses 4 4).trans hPending)
  · exact (hFld clauseB 8 16 (by decide) (by decide)).trans ((hTenses 8 16).trans hLive)

end Sys2Proof.Machine
end

section
/-!
EPOCH_BOUNDARY (O23, R24): what takes effect at a boundary leaves its count, its instant and the start of the path alone.
-/
namespace Sys2Proof.Machine

variable {o s : State}

/-- Time, the start of the path and the count of epochs of `s` are those of `o`. -/
structure Counts (o s : State) : Prop where
  time : s.time = o.time
  start : s.path.start = o.path.start
  lo : s.reg (stnB + 0x10) = o.reg (stnB + 0x10)
  hi : s.reg (stnB + 0x14) = o.reg (stnB + 0x14)

/-- Beyond that, without a migration the degradation of the path is that of `o` too. -/
structure Ticks (o s : State) : Prop extends Counts o s where
  calm : (∀ n : Fin 16, o.migOf n = none) → s.path.degraded = o.path.degraded ∧ ∀ n : Fin 16, s.migOf n = none

/-- An address that is not one of the epoch count's. -/
abbrev NotEpoch (a : Nat) : Prop := a ≠ stnB + 0x10 ∧ a ≠ stnB + 0x14

theorem notEpoch_of_ge {a : Nat} (h : egrB ≤ a) : NotEpoch a := by
  simp only [NotEpoch, egrB, stnB, block] at *
  omega

/-! ### A migration that switches (R25) -/

namespace Counts

theorem refl : Counts o o := ⟨rfl, rfl, rfl, rfl⟩

theorem trans {t : State} (h : Counts o s) (g : Counts s t) : Counts o t :=
  ⟨g.time.trans h.time, g.start.trans h.start, g.lo.trans h.lo, g.hi.trans h.hi⟩

theorem frees {t : State} (h : Counts o s) (g : Frees s t) : Counts o t :=
  h.trans ⟨g.time, g.start, g.reg _ (by decide), g.reg _ (by decide)⟩

theorem quiet {t : State} (h : Counts o s) (g : Quiet s t) : Counts o t :=
  h.trans ⟨g.time, congrArg PathSt.start g.path, g.reg _ (by decide), g.reg _ (by decide)⟩

theorem ite {p : Prop} [Decidable p] {a b : State} (ha : Counts o a) (hb : Counts o b) : Counts o (if p then a else b) := by
  split <;> assumption

/-- An update of stations, cores, threads, coaches, egress, rewind, the parser's records and the fault collector. -/
theorem upd {n c p q e r l f} (h : Counts o s) :
    Counts o { s with stns := n, cores := c, cpu := p, coaches := q, egr := e, rew := r, cls := l, flt := f } :=
  ⟨h.time, h.start, h.lo, h.hi⟩

theorem setFld {a lo len v} (h : Counts o s) (ha : NotEpoch a) : Counts o (s.setFld a lo len v) :=
  h.trans ⟨rfl, rfl, (State.reg_setReg _ _ _ _).trans (if_neg ha.1.symm), (State.reg_setReg _ _ _ _).trans (if_neg ha.2.symm)⟩

theorem pathStop (h : Counts o s) : Counts o s.pathStop := by
  have hFrees : Frees (s.setBit (stnB + 4) 1 false) (s.setBit (stnB + 4) 1 false).dropModuleFrames.freePortCells := by
    have hDrop : Frees (s.setBit (stnB + 4) 1 false) (s.setBit (stnB + 4) 1 false).dropModuleFrames :=
      Frees.refl.foldl fun _ _ h => h.foldl fun _ _ h => by
        split
        · exact h.freeCopyCells
        · exact h
    unfold State.freePortCells
    extract_lets l s1
    have h1 : Frees (s.setBit (stnB + 4) 1 false) s1 := hDrop.foldl fun _ _ h => h.release
    exact h1.upd
  have hStopped : Counts o (s.setBit (stnB + 4) 1 false) := h.setFld (by decide)
  unfold State.pathStop
  split
  · exact h
  · extract_lets s1 s2 _ s3 _ s4 _ s5 _ _ s6
    have h1 : Counts o s1 := hStopped.frees hFrees
    have h2 : Counts o s2 := h1.upd
    have h3 : Counts o s3 := h2.upd
    have h4 : Counts o s4 := h3.upd
    have h5 : Counts o s5 := h4.upd
    have h6 : Counts o s6 := ⟨h5.time, h5.start, h5.lo, h5.hi⟩
    exact h6.upd

theorem pathFail (h : Counts o s) : Counts o s.pathFail :=
  (show Counts o ((s.pathStop.setFld bootB 0 4 9).setCause _ true) from (h.pathStop.setFld (by decide)).upd).upd

theorem degradeStn {n} (h : Counts o s) : Counts o (s.degradeStn n) := by
  unfold State.degradeStn
  extract_lets k s1 s2
  have h1 : Counts o s1 := (show Counts o (s.setCause _ true) from h.upd).upd
  have h2 : Counts o s2 := h1.quiet (.unitState .refl)
  exact .ite h (.ite (.ite ⟨h2.time, h2.start, h2.lo, h2.hi⟩ h2) h.pathFail)

theorem showCores {n} (h : Counts o s) : Counts o (s.showCores n) := by
  have hStn : NotEpoch (stnR n 0x18) := by simp only [NotEpoch, stnR]; omega
  exact ((((h.setFld hStn).setFld hStn).setFld hStn).setFld hStn).setFld hStn

theorem migSwitch {n t} (h : Counts o s) : Counts o (s.migSwitch n t) := by
  unfold State.migSwitch
  split
  · exact h
  · extract_lets _ s1 s2
    have h1 : Counts o s1 := (show Counts o (s.setCore _ _) from h.upd).quiet (.unitState .refl)
    have h2 : Counts o s2 := .ite (show Counts o (s1.setRole _ _) from h1.upd) h1
    exact .ite h (show Counts o (s2.setMig n _) from h2.upd).degradeStn.showCores

end Counts

/-! ### What takes effect without a migration -/

theorem Quiet.ticks (h : Quiet o s) : Ticks o s where
  time := h.time
  start := congrArg PathSt.start h.path
  lo := h.reg _ (by decide)
  hi := h.reg _ (by decide)
  calm hNone := ⟨congrArg PathSt.degraded h.path, fun n => by rw [State.migOf, h.stns]; exact hNone n⟩

namespace Ticks

theorem refl : Ticks o o := ⟨.refl, fun h => ⟨rfl, h⟩⟩

theorem trans {t : State} (h : Ticks o s) (g : Ticks s t) : Ticks o t where
  toCounts := h.toCounts.trans g.toCounts
  calm hNone := ⟨(g.calm (h.calm hNone).2).1.trans (h.calm hNone).1, (g.calm (h.calm hNone).2).2⟩

theorem quiet {t : State} (h : Ticks o s) (g : Quiet s t) : Ticks o t := h.trans g.ticks

theorem foldl {α : Type} {f : State → α → State} {l : List α} (h : Ticks o s) (hf : ∀ s x, x ∈ l → Ticks o s → Ticks o (f s x)) :
    Ticks o (l.foldl f s) := List.foldlRecOn (motive := Ticks o) l f h fun s hs x hx => hf s x hx hs

theorem ite {p : Prop} [Decidable p] {a b : State} (ha : Ticks o a) (hb : Ticks o b) : Ticks o (if p then a else b) := by
  split <;> assumption

/-- An update of the parser's records, pools, the memory controllers, the image and the fault collector. -/
theorem upd {c p m i f j} (h : Ticks o s) : Ticks o { s with cls := c, pool := p, smc := m, image := i, flt := f, jen := j } :=
  ⟨⟨h.time, h.start, h.lo, h.hi⟩, h.calm⟩

theorem setReg {a w} (h : Ticks o s) (ha : NotEpoch a) : Ticks o (s.setReg a w) :=
  h.trans ⟨⟨rfl, rfl, (State.reg_setReg _ _ _ _).trans (if_neg ha.1.symm), (State.reg_setReg _ _ _ _).trans (if_neg ha.2.symm)⟩,
    fun h => ⟨rfl, h⟩⟩

theorem setFld {a lo len v} (h : Ticks o s) (ha : NotEpoch a) : Ticks o (s.setFld a lo len v) := h.setReg ha

/-! ### The legs of a compatible timetable (R35) -/

theorem showTimetable {t} (h : Ticks o s) : Ticks o (s.showTimetable t) := by
  have hStn : ∀ n o, NotEpoch (stnR n o) := fun n o => by simp only [NotEpoch, stnR]; omega
  have hStn2 : ∀ n o, NotEpoch (stn2R n o) := fun n o => by simp only [NotEpoch, stn2R]; omega
  have hHead : ∀ o, o < 0x10 → NotEpoch (stnB + o) := fun o ho => by simp only [NotEpoch]; omega
  have h1 : Ticks o (((s.setReg stnB (BitVec.ofNat 32 t.id)).setFld (stnB + 8) 0 21 t.rate).setFld (stnB + 0xC) 0 21 t.resRate) :=
    ((h.setReg (hHead 0 (by decide))).setFld (hHead 8 (by decide))).setFld (hHead 0xC (by decide))
  exact h1.foldl fun _ n _ hs =>
    (((((((((hs.setFld (hStn n 0)).setFld (hStn n 0)).setFld (hStn n 0)).setFld (hStn n 4)).setFld (hStn n 4)).setFld (hStn n 8)).setFld
      (hStn2 n 0))).setReg (hStn2 n 8)).setReg (hStn2 n 0xC)

theorem legSwitch {t} (h : Ticks o s) : Ticks o (s.legSwitch t) := by
  unfold State.legSwitch
  split
  · exact h
  · extract_lets hd old _ s1 _ s2 s3 s4 _ _ s5
    have h1 : Ticks o s1 := h.trans ⟨⟨rfl, rfl, rfl, rfl⟩, fun h => ⟨rfl, h⟩⟩
    have h2 : Ticks o s2 := h1.upd
    have h3 : Ticks o s3 := (h2.setFld (notEpoch_of_ge (by decide))).setReg (notEpoch_of_ge (by decide))
    have h4 : Ticks o s4 := (h3.setReg (notEpoch_of_ge (by decide))).setFld (notEpoch_of_ge (by decide))
    have h5 : Ticks o s5 := (show Ticks o (s4.showTimetable _) from h4.showTimetable).upd
    exact h5.quiet (Quiet.refl.bumpGen.eventNotice.answer)

/-! ### Blocks, banks and channels (R376, R377) -/

theorem showSpare (h : Ticks o s) : Ticks o s.showSpare := by
  unfold State.showSpare
  extract_lets k was s1
  have h1 : Ticks o s1 := ((h.setFld (by decide)).setFld (by decide)).setFld (by decide)
  exact .ite h1.upd h1

theorem blockNextMove (h : Ticks o s) : Ticks o s.blockNextMove := by
  unfold State.blockNextMove
  split
  · exact h
  · unfold State.blockMoveStart
    split
    · exact showSpare ((show Ticks o _ from h.upd).quiet (.unitState (.unitState .refl))).upd
    · exact h.upd

theorem blockSwitch (h : Ticks o s) : Ticks o s.blockSwitch := by
  unfold State.blockSwitch
  split
  · exact h
  · extract_lets old retire _ s1 s2 s3
    have h2 : Ticks o s2 := (show Ticks o s1 from h.upd).quiet (.unitState .refl)
    have h3 : Ticks o s3 := .ite (h2.quiet (.retirePart .refl)) (h2.quiet (.unitState .refl))
    exact .ite h (h3.quiet (Quiet.refl.raiseU.migrationNotice)).showSpare.blockNextMove

theorem showBanks (h : Ticks o s) : Ticks o s.showBanks := by
  unfold State.showBanks
  extract_lets k was s1
  have h1 : Ticks o s1 := (h.setFld (by decide)).setFld (by decide)
  exact .ite h1.upd h1

theorem bankNextMove (h : Ticks o s) : Ticks o s.bankNextMove := by
  unfold State.bankNextMove
  split
  · exact h
  · unfold State.bankMoveStart
    split
    · exact showBanks ((show Ticks o _ from h.upd).quiet (.unitState (.unitState .refl))).upd
    · exact h.upd

theorem bankSwitch (h : Ticks o s) : Ticks o s.bankSwitch := by
  unfold State.bankSwitch
  split
  · exact h
  · extract_lets old m _ s1 s2 s3
    have h2 : Ticks o s2 := (show Ticks o s1 from h.upd).quiet ((Quiet.refl.unitState).retirePart)
    have h3 : Ticks o s3 := h2.setFld (by decide)
    exact .ite h (h3.quiet (Quiet.refl.raiseU.migrationNotice)).showBanks.bankNextMove

theorem dramReq {cls write a} (h : Ticks o s) : Ticks o (s.dramReq cls write a) := .ite h (show Ticks o (s.setSmcQueue _ _) from h.upd).upd

theorem channelSwitch (h : Ticks o s) : Ticks o s.channelSwitch := by
  unfold State.channelSwitch
  split
  · exact h
  · extract_lets _ s1 a s2 l s3 s4
    have hCh : ∀ n, NotEpoch (smcCh n) := fun n => notEpoch_of_ge (by simp only [smcCh, smcB, egrB, block]; omega)
    have h1 : Ticks o s1 := h.upd
    have h2 : Ticks o s2 := (((h1.setFld (by decide)).setFld (by decide)).setFld (by decide)).setFld (by decide)
    have h3 : Ticks o s3 := (show Ticks o (s2.setSmcQueue _ []) from h2.upd).foldl fun _ _ _ h => h.dramReq
    have h4 : Ticks o s4 := (h3.setFld (hCh _)).quiet (Quiet.refl.retirePart.raiseU)
    exact .ite h (.ite h4 (show Ticks o (s4.setCause _ true) from h4.upd).upd)

theorem freqBegin {t} (h : Ticks o s) : Ticks o (s.freqBegin t) := by
  have hCh : ∀ n, NotEpoch (smcCh n) := fun n => notEpoch_of_ge (by simp only [smcCh, smcB, egrB, block]; omega)
  exact .ite (h.foldl fun t ch _ ht => .ite (.ite ht ((ht.setFld (hCh ch)).quiet (.bumpGen .refl))) ht) h

theorem migSwitch {n t} (h : Ticks o s) (hn : n < 16) : Ticks o (s.migSwitch n t) := by
  refine h.trans ⟨Counts.refl.migSwitch, fun hNone => ?_⟩
  have hIdle : s.migSwitch n t = s := by
    unfold State.migSwitch
    rw [hNone ⟨n, hn⟩]
  rw [hIdle]
  exact ⟨rfl, hNone⟩

end Ticks

/-! ### The boundary -/

theorem epochBoundary_idle (h : s.pathRun = false) : s.epochBoundary = s := by
  unfold State.epochBoundary
  rw [if_pos (by simpa using h)]

/-- What a path that degrades shows: its mark, and all else but the meters as it was. -/
theorem degradeMeters_shows (t : Nat) : (s.degradeMeters t).path = { s.path with degraded := true } ∧ (s.degradeMeters t).time = s.time
    ∧ (s.degradeMeters t).ctl = s.ctl ∧ (s.degradeMeters t).stns = s.stns := by
  unfold State.degradeMeters
  split
  · next h => exact ⟨by rw [← h], rfl, rfl, rfl⟩
  · exact ⟨rfl, rfl, rfl, rfl⟩

/-- The path that waits to degrade does so. -/
theorem degradeWaiting_shows (t : Nat) {u : State} (hU : (if s.path.degradePending then s.degradeMeters t else s) = u) :
    u.path.degraded = (s.path.degraded || s.path.degradePending) ∧ u.path.start = s.path.start ∧ u.time = s.time ∧ u.ctl = s.ctl
      ∧ u.stns = s.stns := by
  subst hU
  split
  · next h =>
    obtain ⟨hPath, hRest⟩ := degradeMeters_shows (s := s) t
    exact ⟨by rw [hPath, h, Bool.or_true], by rw [hPath], hRest⟩
  · next h => exact ⟨by rw [Bool.eq_false_iff.mpr h, Bool.or_false], rfl, rfl, rfl, rfl⟩

/-- The count of epochs, once written, reads back. -/
theorem reg2_epoch {k : Nat} (h : k < 2 ^ 64) {lo hi : Word} (hLo : lo = BitVec.ofNat 32 k) (hHi : hi = BitVec.ofNat 32 (k / 2 ^ 32)) :
    lo.toNat + hi.toNat * 2 ^ 32 = k := by
  subst hLo hHi
  simp only [BitVec.toNat_ofNat]
  omega

theorem advance_path {t : Nat} {u : State} (hU : s.advance t = u) : u.now = max s.now t ∧ u.path = s.path ∧ u.stns = s.stns := by
  subst hU
  exact ⟨rfl, rfl, rfl⟩

/-- The count written shows in its two registers, and nothing else does. -/
theorem setEpoch_shows (lo hi : Word) {u : State} (hU : (s.setReg (stnB + 0x10) lo).setReg (stnB + 0x14) hi = u) :
    u.reg (stnB + 0x10) = lo ∧ u.reg (stnB + 0x14) = hi ∧ u.time = s.time ∧ u.path = s.path ∧ u.stns = s.stns := by
  subst hU
  exact ⟨(State.reg_setReg _ _ _ _).trans ((if_neg (by decide)).trans ((State.reg_setReg _ _ _ _).trans (if_pos rfl))),
    (State.reg_setReg _ _ _ _).trans (if_pos rfl), rfl, rfl, rfl⟩

/-- The path that has had its chance to degrade waits no more. -/
theorem setPending_shows {u : State} (hU : { s with path := { s.path with degradePending := false } } = u) :
    u.path.degraded = s.path.degraded ∧ u.time = s.time ∧ u.ctl = s.ctl ∧ u.stns = s.stns := by
  subst hU
  exact ⟨rfl, rfl, rfl, rfl⟩

theorem epochBoundary_counts (hRun : s.pathRun = true) (hFits : s.reg2 (stnB + 0x10) (stnB + 0x14) + 1 < 2 ^ 64) {u : State}
    (hU : s.epochBoundary = u) :
    let epoch := s.reg2 (stnB + 0x10) (stnB + 0x14) + 1
    u.reg2 (stnB + 0x10) (stnB + 0x14) = epoch
      ∧ ((∀ n : Fin 16, s.migOf n = none) → u.path.degraded = (s.path.degraded || s.path.degradePending))
      ∧ s.path.start + epoch * epochU ≤ u.now := by
  unfold State.epochBoundary at hU
  rw [if_neg (by simp [hRun])] at hU
  intro epoch
  extract_lets t s1 s2 s3 _ s4 s5 s6 at hU
  have hT : t = s.path.start + epoch * epochU := rfl
  clear_value t
  obtain ⟨hNow1, hPath1, hStns1⟩ := advance_path (u := s1) (t := t) rfl
  obtain ⟨hLo2, hHi2, hTime2, hPath2, hStns2⟩ := setEpoch_shows (s := s1) (u := s2) (BitVec.ofNat 32 epoch) (BitVec.ofNat 32 (epoch / 2 ^ 32)) rfl
  clear_value s1 s2
  obtain ⟨hDegraded3, hStart3, hTime3, hCtl3, hStns3⟩ := degradeWaiting_shows (s := s2) (u := s3) t rfl
  clear_value s3
  obtain ⟨hDegraded4, hTime4, hCtl4, hStns4⟩ := setPending_shows (s := s3) (u := s4) rfl
  clear_value s4
  have hTicks : Ticks s4 u := by
    have h5 : Ticks s4 s5 := Ticks.refl.legSwitch
    have h6 : Ticks s4 s6 := h5.foldl fun _ n hn h => h.migSwitch (List.mem_range.mp hn)
    rw [← hU]
    exact h6.blockSwitch.bankSwitch.channelSwitch.freqBegin
  have hReg4 : ∀ a, s4.reg a = s2.reg a := fun a => congrArg (aget regReset · a) (hCtl4.trans hCtl3)
  have hNone4 : (∀ n : Fin 16, s.migOf n = none) → ∀ n : Fin 16, s4.migOf n = none := fun hNone n => by
    rw [State.migOf, hStns4, hStns3, hStns2, hStns1]
    exact hNone n
  refine ⟨reg2_epoch hFits ?_ ?_, fun hNone => ?_, ?_⟩
  · rw [hTicks.lo, hReg4, hLo2]
  · rw [hTicks.hi, hReg4, hHi2]
  · rw [(hTicks.calm (hNone4 hNone)).1, hDegraded4, hDegraded3, hPath2, hPath1]
  · rw [State.now, hTicks.time, hTime4, hTime3, hTime2, ← hT]
    exact (le_max_right _ _).trans_eq hNow1.symm

end Sys2Proof.Machine
end

section
/-!
What the application of an image leaves alone (O23): no clause or forwarding operation that TABLE_WRITE asked for is under way. A fence
that ends such an operation would answer its command, and an answer that closes a session writes the register of that session, whatever
its index; the phase of an image in force would not stand then. Every section, REGISTER_WRITES with all that a write of a register can
start among them, goes through the operations below; only those that start or end an operation, or clear the parser's records, do more than
carry the fact along.
-/
namespace Sys2Proof.Machine

/-- No operation under way was asked for by TABLE_WRITE. -/
def Unasked (s : State) : Prop := (∀ u ∈ s.cls.upd, u.jen = false) ∧ ∀ u ∈ s.cls.fwdUpd, u.jen = false

namespace Unasked
variable {s : State}

theorem ite {c : Prop} [Decidable c] {a b : State} (ha : Unasked a) (hb : Unasked b) : Unasked (if c then a else b) := by
  split <;> assumption

theorem ite2 {α : Type} {c : Prop} [Decidable c] {a b : α × State} (ha : Unasked a.2) (hb : Unasked b.2) :
    Unasked (if c then a else b).2 := by
  split <;> assumption

theorem pair {α : Type} {x : α} {t : State} (h : Unasked t) : Unasked (x, t).2 := h

theorem pair3 {α β : Type} {x : α} {y : β} {t : State} (h : Unasked t) : Unasked (x, y, t).2.2 := h

/-- Of a definition that takes the pair of an operation apart. -/
theorem of_snd {α : Type} {p : α × State} {x : α} {t : State} (e : p = (x, t)) (h : Unasked p.2) : Unasked t := by
  subst e; exact h

theorem foldl {α : Type} {f : State → α → State} {l : List α} (hf : ∀ s x, Unasked s → Unasked (f s x)) :
    ∀ {s}, Unasked s → Unasked (l.foldl f s) := fun h => List.foldlRecOn (motive := Unasked) l f h fun s hs x _ => hf s x hs

theorem foldl2 {α β : Type} {f : β × State → α → β × State} {l : List α} (hf : ∀ p x, Unasked p.2 → Unasked (f p x).2) :
    ∀ {p}, Unasked p.2 → Unasked (l.foldl f p).2 :=
  fun h => List.foldlRecOn (motive := fun p => Unasked p.2) l f h fun p hp x _ => hf p x hp

/-- An update of fields other than the parser's records. -/
theorem upd {a b c d e f g i j k l m n p q r t u v w x y z a1 b1 c1 d1 e1 f1} (h : Unasked s) :
    Unasked (State.mk a b c d e f g i j k l m n p q r t u v w x y z a1 b1 c1 d1 s.cls e1 f1) := h

/-- An update of the parser's records that leaves the operations under way alone. -/
theorem setCls {x : ClsSt} (h : Unasked s) (hU : x.upd = s.cls.upd) (hF : x.fwdUpd = s.cls.fwdUpd) : Unasked { s with cls := x } :=
  ⟨fun u hu => h.1 u (hU ▸ hu), fun u hu => h.2 u (hF ▸ hu)⟩

theorem quiet {t : State} (h : Unasked s) (g : Quiet s t) : Unasked t := by rw [Unasked, g.cls]; exact h

theorem frees {t : State} (h : Unasked s) (g : Frees s t) : Unasked t := by rw [Unasked, g.cls]; exact h

/-- No operation is under way at all. -/
theorem of_none (hU : s.cls.upd = none) (hF : s.cls.fwdUpd = none) : Unasked s := by simp [Unasked, hU, hF]

end Unasked

variable {s : State}

/-! ### Machine/Ops.lean -/

theorem Unasked.setReg {a w} (h : Unasked s) : Unasked (s.setReg a w) := h.upd

theorem Unasked.setFld {a lo len v} (h : Unasked s) : Unasked (s.setFld a lo len v) := h.setReg

theorem Unasked.setBit {a i b} (h : Unasked s) : Unasked (s.setBit a i b) := h.setFld

theorem Unasked.count {a lo len k} (h : Unasked s) : Unasked (s.count a lo len k) := h.setFld

theorem Unasked.setByte {a b} (h : Unasked s) : Unasked (s.setByte a b) := h.upd

theorem Unasked.setBytes {l : List Byte} : ∀ {s a}, Unasked s → Unasked (s.setBytes a l) := by
  induction l with
  | nil => exact fun h => h
  | cons b t ih => exact fun h => ih h.setByte

theorem Unasked.setNum {a n v} (h : Unasked s) : Unasked (s.setNum a n v) := h.setBytes

theorem Unasked.latch {a i} (h : Unasked s) : Unasked (s.latch a i) := h.setBit.upd

theorem Unasked.w1c {a mask v} (h : Unasked s) : Unasked (s.w1c a mask v) := .ite h h.setReg

theorem Unasked.raiseU {src ctx unit} (h : Unasked s) : Unasked (s.raiseU src ctx unit) := h.upd

theorem Unasked.raise {src ctx} (h : Unasked s) : Unasked (s.raise src ctx) := h.raiseU

theorem Unasked.setCause {src on} (h : Unasked s) : Unasked (s.setCause src on) := h.upd

theorem Unasked.levelSource {src on ctx} (h : Unasked s) : Unasked (s.levelSource src on ctx) := by
  unfold State.levelSource
  extract_lets s1
  have h1 : Unasked s1 := h.setCause
  exact .ite h1.raise h1

theorem Unasked.setUnit {u x} (h : Unasked s) : Unasked (s.setUnit u x) := h.upd

theorem Unasked.unitState {u c} (h : Unasked s) : Unasked (s.unitState u c) := .ite h h.setUnit

theorem Unasked.bumpGen {u} (h : Unasked s) : Unasked (s.bumpGen u) := h.setUnit

theorem Unasked.setInst {n i} (h : Unasked s) : Unasked (s.setInst n i) := h.upd

theorem Unasked.stampIn {n t0} (h : Unasked s) : Unasked (s.stampIn n t0).2.2 := by
  unfold State.stampIn
  split
  · exact .pair3 h.upd
  · exact h

/-! ### Machine/PoolOps.lean -/

theorem Unasked.setPool1 {k p} (h : Unasked s) : Unasked (s.setPool1 k p) := h.upd

theorem Unasked.setHeld {k i h1} (h : Unasked s) : Unasked (s.setHeld k i h1) := h.upd

theorem Unasked.setLastOwner {k i o1} (h : Unasked s) : Unasked (s.setLastOwner k i o1) := h.upd

theorem Unasked.setAudit {e x} (h : Unasked s) : Unasked (s.setAudit e x) := h.upd

theorem Unasked.auditAdd {e k up} (h : Unasked s) : Unasked (s.auditAdd e k up) := h.frees (.auditAdd .refl)

theorem Unasked.auditReceive {owner k} (h : Unasked s) : Unasked (s.auditReceive owner k).2 := by
  unfold State.auditReceive
  split
  · exact .pair h.auditAdd
  · extract_lets
    split
    · extract_lets s1 s2
      have h1 : Unasked s1 := h.setAudit
      have h2 : Unasked s2 := h1.setFld
      exact .pair h2.auditAdd
    · exact .pair h.count.raise

theorem Unasked.auditLose {h1 k} (h : Unasked s) : Unasked (s.auditLose h1 k) := h.frees (.auditLose .refl)

theorem Unasked.sidingCheck (h : Unasked s) : Unasked s.sidingCheck := h.frees (.sidingCheck .refl)

theorem Unasked.refuseFree {k i req owner foreign} (h : Unasked s) : Unasked (s.refuseFree k i req owner foreign) :=
  .raise (.ite h.setReg.setReg.count h.setReg.setReg.count)

theorem Unasked.release {k i h1} (h : Unasked s) : Unasked (s.release k i h1) := by
  unfold State.release
  extract_lets s1 s2 _ s3
  have h1 : Unasked s1 := h.auditLose
  have h2 : Unasked s2 := h1.setHeld.setLastOwner
  have h3 : Unasked s3 := h2.setPool1
  exact .ite h2 h3.setFld.sidingCheck

theorem Unasked.mayFree {k i owner} (h : Unasked s) : Unasked (s.mayFree k i owner).2 := by
  unfold State.mayFree
  split
  · exact .pair h.refuseFree
  · exact .ite2 h (.pair h.refuseFree)

theorem Unasked.poolPut {h1 owner} (h : Unasked s) : Unasked (s.poolPut h1 owner) := by
  unfold State.poolPut
  split
  · exact h.count
  · split
    · rename_i s1 e
      have h1 : Unasked s1 := .of_snd e h.mayFree
      exact h1.release
    · rename_i s1 e
      have h1 : Unasked s1 := .of_snd e h.mayFree
      exact h1

theorem Unasked.poolGive {h1 owner dst} (h : Unasked s) : Unasked (s.poolGive h1 owner dst) := by
  unfold State.poolGive
  split
  · exact h.count
  · split
    · rename_i s1 e
      have h1 : Unasked s1 := .of_snd e h.mayFree
      extract_lets s2 s3
      have h2 : Unasked s2 := h1.auditLose.setHeld
      have h3 : Unasked s3 := h2.setLastOwner
      exact h3.auditReceive.setHeld
    · rename_i s1 e
      have h1 : Unasked s1 := .of_snd e h.mayFree
      exact h1

theorem Unasked.freeCells {p res l} (h : Unasked s) : Unasked (s.freeCells p res l) := h.frees (.freeCells .refl)

/-! ### Machine/CoachOps.lean -/

theorem Unasked.setCoach {q c} (h : Unasked s) : Unasked (s.setCoach q c) := h.upd

theorem Unasked.dropCoachRec {q} (h : Unasked s) : Unasked (s.dropCoachRec q) := h.upd

theorem Unasked.modCoach {q f} (h : Unasked s) : Unasked (s.modCoach q f) := by
  unfold State.modCoach
  split
  · exact h.setCoach
  · exact h

theorem Unasked.dropCoach {q reason rank} (h : Unasked s) : Unasked (s.dropCoach q reason rank) := h.modCoach

theorem Unasked.countDrop {p set reason} (h : Unasked s) : Unasked (s.countDrop p set reason) := h.quiet (.countDrop .refl)

theorem Unasked.streamDrop {c reason} (h : Unasked s) : Unasked (s.streamDrop c reason) := h.frees (.streamDrop .refl)

theorem Unasked.availDrop {c reason reservedQueue} (h : Unasked s) : Unasked (s.availDrop c reason reservedQueue) := h.frees (.availDrop .refl)

theorem Unasked.freeCoach {q c} (h : Unasked s) : Unasked (s.freeCoach q c) := h.freeCells.dropCoachRec

theorem Unasked.leaveDropped {q c} (h : Unasked s) : Unasked (s.leaveDropped q c) := by
  unfold State.leaveDropped
  extract_lets s1 s2
  have h1 : Unasked s1 := h.countDrop
  have h2 : Unasked s2 := h1.streamDrop.availDrop
  exact h2.freeCoach

theorem Unasked.unref {q} (h : Unasked s) : Unasked (s.unref q) := by
  unfold State.unref
  split
  · exact h
  · exact .ite h.freeCoach h.setCoach

theorem Unasked.setQueue {q c l} (h : Unasked s) : Unasked (s.setQueue q c l) := h.upd

theorem Unasked.setEgrPort {q p} (h : Unasked s) : Unasked (s.setEgrPort q p) := h.upd

theorem Unasked.addFill {q c n} (h : Unasked s) : Unasked (s.addFill q c n) := h.setFld.setFld

theorem Unasked.countQuiet {cp reason} (h : Unasked s) : Unasked (s.countQuiet cp reason) := by
  unfold State.countQuiet
  extract_lets s1
  have h1 : Unasked s1 := h.countDrop
  split
  · exact h1.streamDrop.availDrop
  · exact h1

theorem Unasked.countQ {cp reason} (h : Unasked s) : Unasked (s.countQ cp reason) := by
  unfold State.countQ
  refine .countQuiet ?_
  split
  · exact h.raise
  · exact h

theorem Unasked.freeCopyCells {cp} (h : Unasked s) : Unasked (s.freeCopyCells cp) := h.frees (.freeCopyCells .refl)

theorem Unasked.discard {cp reason} (h : Unasked s) : Unasked (s.discard cp reason) := by
  unfold State.discard
  extract_lets s1
  have h1 : Unasked s1 := h.countQ.addFill
  split
  · exact h1.unref
  · exact h1.freeCopyCells

/-! ### Machine/Notice.lean -/

theorem Unasked.noticeStat (h : Unasked s) : Unasked s.noticeStat := h.quiet (.noticeStat .refl)

theorem Unasked.notice {kind body} (h : Unasked s) : Unasked (s.notice kind body) := h.quiet (.notice .refl)

theorem Unasked.linkNotice {p up} (h : Unasked s) : Unasked (s.linkNotice p up) := h.notice

theorem Unasked.closeSession {i} (h : Unasked s) : Unasked (s.closeSession i) := h.quiet (.closeSession .refl)

/-! ### Machine/Journal.lean -/

theorem Unasked.pinRecord {src ctx unit} (h : Unasked s) : Unasked (s.pinRecord src ctx unit).2 := h.quiet (.pinRecord .refl)

theorem Unasked.setCell {c} (h : Unasked s) : Unasked (s.setCell c) := .upd (.foldl (fun _ _ h => h.setReg) h)

theorem Unasked.writeMram {r} (h : Unasked s) : Unasked (s.writeMram r) := .ite h.upd h.upd.setFld

theorem Unasked.journalNotice {mode} (h : Unasked s) : Unasked (s.journalNotice mode) := h.notice

theorem Unasked.journalRecover (h : Unasked s) : Unasked s.journalRecover :=
  .ite h (.setFld (.setBit (.upd (.journalNotice (.foldl (fun _ _ h => h.writeMram) h)))))

/-! ### Machine/TimeOps.lean -/

theorem Unasked.reseg {n k f} (h : Unasked s) : Unasked (s.reseg n k f) := h.setInst

theorem Unasked.setInstState {n st} (h : Unasked s) : Unasked (s.setInstState n st) := by
  unfold State.setInstState
  extract_lets _ _ s1 s2
  have h1 : Unasked s1 := .ite h.upd h.setFld
  have h2 : Unasked s2 := h1.bumpGen
  exact .ite h h2.notice

theorem Unasked.showIncr {n} (h : Unasked s) : Unasked (s.showIncr n) := h.setReg.setReg

/-! ### Machine/TioOps.lean -/

theorem Unasked.unresume (h : Unasked s) : Unasked s.unresume := by
  unfold State.unresume
  split
  · exact .ite (.setCause (.bumpGen (.setFld (.setFld (.setNum (.foldl (fun _ _ h => h.unref) h.upd)))))) h
  · exact h

theorem Unasked.rewTrigger {kind detail} (h : Unasked s) : Unasked (s.rewTrigger kind detail) := by
  unfold State.rewTrigger
  extract_lets s1 _ _ s2 _ s3 _ s4
  have h1 : Unasked s1 := h.unresume
  have h2 : Unasked s2 := h1.upd
  have h3 : Unasked s3 := h2.upd
  have h4 : Unasked s4 := h2.count
  exact .ite h2 (.ite (.ite h3.setFld.bumpGen h3.upd) (.ite h4.upd h4))

theorem Unasked.setContact {c l} (h : Unasked s) : Unasked (s.setContact c l) := h.upd

theorem Unasked.driveFn {f l} (h : Unasked s) : Unasked (s.driveFn f l) := .ite h.setContact h

theorem Unasked.driveOut {i l} (h : Unasked s) : Unasked (s.driveOut i l) := .ite h h.driveFn

theorem Unasked.setTrig {n t} (h : Unasked s) : Unasked (s.setTrig n t) := h.upd

theorem Unasked.setPpso {k p} (h : Unasked s) : Unasked (s.setPpso k p) := h.upd

theorem Unasked.trigAdvance {n t} (h : Unasked s) : Unasked (s.trigAdvance n t) := h.setFld.setBit.setTrig

theorem Unasked.skipPulses {n t j} (h : Unasked s) : Unasked (s.skipPulses n t j) := by
  unfold State.skipPulses
  extract_lets s1
  have h1 : Unasked s1 := .ite h.count h
  exact .ite h1.trigAdvance h1.setTrig

theorem Unasked.outToSafe {i} (h : Unasked s) : Unasked (s.outToSafe i) := .ite h h.driveFn

theorem Unasked.forceOut {i} (h : Unasked s) : Unasked (s.forceOut i) := by
  unfold State.forceOut
  extract_lets _ s1 _ s2
  have h1 : Unasked s1 := h.setTrig
  have h2 : Unasked s2 := .ite (.ite h1.latch h1) h.setPpso
  exact h2.outToSafe

theorem Unasked.restOut {i pulse} (h : Unasked s) : Unasked (s.restOut i pulse) := .ite h h.driveOut

theorem Unasked.replaceTrig {ci k n} (h : Unasked s) : Unasked (s.replaceTrig ci k n) := by
  unfold State.replaceTrig
  extract_lets _ s1 s2
  have h1 : Unasked s1 := h.restOut
  have h2 : Unasked s2 := by
    unfold s2
    split
    · split
      · exact .ite h1 h1.setTrig
      · exact h1
    · exact h1
  exact .ite (.ite h.forceOut (.ite h2 h2.skipPulses)) h

theorem Unasked.replacePpso {ci k j} (h : Unasked s) : Unasked (s.replacePpso ci k j) := by
  unfold State.replacePpso
  extract_lets _ s1
  have h1 : Unasked s1 := .ite h.restOut h
  refine .ite h.forceOut ?_
  split
  · split
    · exact .ite h1 h1.setPpso
    · exact h1
  · exact h1

theorem Unasked.replaceEdges {ci k} (h : Unasked s) : Unasked (s.replaceEdges ci k) :=
  .foldl (fun _ _ h => h.replacePpso) (.foldl (fun _ _ h => h.replaceTrig) h)

theorem Unasked.resegOut {n k f} (h : Unasked s) : Unasked (s.resegOut n k f) := h.reseg.replaceEdges

theorem Unasked.enterInst {n st} (h : Unasked s) : Unasked (s.enterInst n st) := by
  unfold State.enterInst
  extract_lets s1
  have h1 : Unasked s1 := h.setInstState
  exact .ite h (.ite h1.replaceEdges h1.resegOut)

theorem Unasked.clkoStart {j} (h : Unasked s) : Unasked (s.clkoStart j) := h.upd.upd

theorem Unasked.clkoStop {j} (h : Unasked s) : Unasked (s.clkoStop j) := h.upd

theorem Unasked.resumeOutputs (h : Unasked s) : Unasked s.resumeOutputs := by
  unfold State.resumeOutputs
  extract_lets s1 s2 s3 s4 s5
  have h1 : Unasked s1 := h.setBit.setBit.setBit
  have h2 : Unasked s2 := .foldl (fun _ _ h => h.driveOut) h1
  have h3 : Unasked s3 := .foldl (fun _ _ h => .ite h.skipPulses h) h2
  have h4 : Unasked s4 := .foldl (fun _ _ h => h.setPpso) h3
  have h5 : Unasked s5 := .foldl (fun _ _ h => h.driveFn) h4
  exact .foldl (fun _ _ h => .ite h.clkoStart h) h5

/-! ### Machine/TimeBase.lean -/

theorem Unasked.answerWrite (h : Unasked s) : Unasked s.answerWrite := h.upd

theorem Unasked.incrLoWrite {n v} (h : Unasked s) : Unasked (s.incrLoWrite n v) := .ite h h.setInst.setReg

theorem Unasked.commitIncr {n v} (h : Unasked s) : Unasked (s.commitIncr n v) := .showIncr (.resegOut (.ite h.raise h))

theorem Unasked.incrHiWrite {n v} (h : Unasked s) : Unasked (s.incrHiWrite n v) := .ite h h.commitIncr

theorem Unasked.startSlew {n amount rate} (h : Unasked s) : Unasked (s.startSlew n amount rate) := by
  unfold State.startSlew
  extract_lets s1
  have h1 : Unasked s1 := h.resegOut
  exact h1.setBit

theorem Unasked.slewWrite {n v} (h : Unasked s) : Unasked (s.slewWrite n v) := by
  unfold State.slewWrite
  extract_lets s1
  have h1 : Unasked s1 := h.setFld
  exact .ite h (.ite h1.startSlew h1)

theorem Unasked.refuseStep {n} (h : Unasked s) : Unasked (s.refuseStep n) := h.latch.raise

theorem Unasked.armStep {n a atNs} (h : Unasked s) : Unasked (s.armStep n a atNs) := .ite h.refuseStep h.setInst.setBit

theorem Unasked.stepCtlWrite {n v} (h : Unasked s) : Unasked (s.stepCtlWrite n v) :=
  .ite h (.ite h.setFld.setFld.w1c.armStep h.setFld.setFld.w1c)

theorem Unasked.loadLatch {n} (h : Unasked s) : Unasked (s.loadLatch n) := h.setInst

theorem Unasked.snapWrite {v} (h : Unasked s) : Unasked (s.snapWrite v) :=
  .ite (.setBit (.foldl (fun _ _ h => h.loadLatch) h)) (.ite h.setBit h)

theorem Unasked.convWrite {v} (h : Unasked s) : Unasked (s.convWrite v) := by
  unfold State.convWrite
  extract_lets s1 s2
  have h1 : Unasked s1 := h.setFld
  have h2 : Unasked s2 := h1.setBit
  exact .ite h (.ite (.ite h2.setFld.setBit h2.upd) h1)

theorem Unasked.offsetUpdate {n ofs} (h : Unasked s) : Unasked (s.offsetUpdate n ofs) := by
  unfold State.offsetUpdate
  extract_lets _ _ s1 _ _ _ _ s2 _ _ s3 s4
  have h1 : Unasked s1 := h.setReg.setBit
  have h2 : Unasked s2 := h1.setInst
  have h3 : Unasked s3 := .ite h2.raise h2
  have h4 : Unasked s4 := h3.enterInst
  exact .ite h4.setInst h3

theorem Unasked.ofsWrite {n v} (h : Unasked s) : Unasked (s.ofsWrite n v) := .ite h h.offsetUpdate

theorem Unasked.refWrite {n v} (h : Unasked s) : Unasked (s.refWrite n v) := by
  unfold State.refWrite
  extract_lets s1 s2
  have h1 : Unasked s1 := h.setReg
  have h2 : Unasked s2 := h1.enterInst
  exact .ite h (.ite h2.setInst h1)

/-! ### Machine/Triggers.lean -/

theorem Unasked.trigCfgWrite {n v} (h : Unasked s) : Unasked (s.trigCfgWrite n v) := by
  unfold State.trigCfgWrite
  extract_lets _ s1 _ _ s2 _ _ s3 s4
  have h1 : Unasked s1 := h.setReg
  have h2 : Unasked s2 := h1.setFld.setBit
  have h3 : Unasked s3 := h2.setTrig
  have h4 : Unasked s4 := h1.setBit
  exact .ite (.ite h3 h3.driveOut) (.ite (.ite h4.setTrig h4.setTrig.driveOut) h1)

theorem Unasked.schedWrite {n e w v} (h : Unasked s) : Unasked (s.schedWrite n e w v) := .ite h.latch h.setReg

theorem Unasked.diagClear {i v} (h : Unasked s) : Unasked (s.diagClear i v) := .ite h.w1c.setBit.driveOut h.w1c

theorem Unasked.tioResume (h : Unasked s) : Unasked s.tioResume := .ite h.resumeOutputs h

/-! ### Machine/EventIn.lean -/

theorem Unasked.setEvIn {i x} (h : Unasked s) : Unasked (s.setEvIn i x) := h.upd

/-! ### Machine/Egress.lean -/

theorem Unasked.discardCopies {k reason p} (h : Unasked s) : Unasked (s.discardCopies k reason p) :=
  .foldl (fun _ _ h => .ite h (.foldl (fun _ _ h' => h'.discard) h.setQueue)) h

theorem Unasked.modSending {k f} (h : Unasked s) : Unasked (s.modSending k f) := .foldl (fun _ _ h => .ite h.setEgrPort h) h

theorem Unasked.resize {k q c o1} (h : Unasked s) : Unasked (s.resize k q c o1).2 := by
  unfold State.resize
  split
  · exact .ite2 (.pair h.addFill) h
  · exact h

theorem Unasked.recharge {k c} (h : Unasked s) : Unasked (s.recharge k c) := by
  unfold State.recharge
  extract_lets s1
  have h1 : Unasked s1 := .foldl (fun _ _ h => .ite h.setQueue.addFill h) h
  exact .foldl (fun _ _ h => h.resize.resize.setEgrPort) h1

theorem Unasked.settleCopies {k} (h : Unasked s) : Unasked (s.settleCopies k) := by
  unfold State.settleCopies
  split
  · exact h
  · exact h.recharge.discardCopies

theorem Unasked.failCopies {k reason} (h : Unasked s) : Unasked (s.failCopies k reason) := by
  unfold State.failCopies
  extract_lets s1 s2
  have h1 : Unasked s1 := by
    unfold s1
    split
    · exact h.recharge
    · exact h
  have h2 : Unasked s2 := h1.modSending
  exact h2.discardCopies

theorem Unasked.qcfgWrite {q c v} (h : Unasked s) : Unasked (s.qcfgWrite q c v) := .ite h.setBit h.setBit.setFld

theorem Unasked.qshapeWrite {q c v} (h : Unasked s) : Unasked (s.qshapeWrite q c v) := h.upd.setReg

theorem Unasked.pshapeWrite {q v} (h : Unasked s) : Unasked (s.pshapeWrite q v) := h.setEgrPort.setReg

theorem Unasked.flushQueue {q c} (h : Unasked s) : Unasked (s.flushQueue q c) := .foldl (fun _ _ h => h.discard) h.setQueue

theorem Unasked.gateWrite {q bank e w v} (h : Unasked s) : Unasked (s.gateWrite q bank e w v) := .ite h.latch h.setReg

theorem Unasked.gclWrite {q v} (h : Unasked s) : Unasked (s.gclWrite q v) :=
  .ite h.setFld.setFld.w1c (.ite h.setFld.setFld.w1c.latch.setBit (.setBit
      (.setBit (.setEgrPort (.ite h.setFld.setFld.w1c.stampIn.raise h.setFld.setFld.w1c.stampIn)))))

theorem Unasked.portLoss {q} (h : Unasked s) : Unasked (s.portLoss q) := by
  unfold State.portLoss
  extract_lets s1 _ s2
  have h1 : Unasked s1 := .foldl (fun _ _ h => .foldl (fun _ _ h' => h'.discard) h.setQueue) h
  have h2 : Unasked s2 := h1.setEgrPort
  refine .foldl (fun s3 _ h3 => ?_) h2
  split
  · exact h3.discard
  · exact h3

theorem Unasked.loadCal {l cls} (h : Unasked s) : Unasked (s.loadCal l cls) := by
  unfold State.loadCal
  extract_lets _ _ s1 s2
  have h1 : Unasked s1 := h.setReg
  have h2 : Unasked s2 := h1.setReg
  exact .ite h.setReg.setReg.setBit h2.setBit.raise

theorem Unasked.laneLoss {l partner} (h : Unasked s) : Unasked (s.laneLoss l partner) := h.upd.setFld.setCause.raiseU

theorem Unasked.linkDown {p lanes partner} (h : Unasked s) : Unasked (s.linkDown p lanes partner) := by
  unfold State.linkDown
  extract_lets s1 _ s2 _ _ s3
  have h1 : Unasked s1 := h.setBit.setFld.setBit
  have h2 : Unasked s2 := .foldl (fun _ _ h => h.setBit) h1
  have h3 : Unasked s3 := .ite h2.levelSource (.foldl (fun _ _ h => h.laneLoss) h2)
  exact .ite h h3.portLoss.linkNotice

/-! ### Machine/SmcOps.lean -/

theorem Unasked.cutGo (h : Unasked s) : Unasked s.cutGo := by
  unfold State.cutGo
  split
  · exact .ite (.upd (.setFld (.setBit (.foldl (fun _ _ h => h.setReg) h)))) h
  · exact h

theorem Unasked.noStore (h : Unasked s) : Unasked s.noStore :=
  .ite (.setCause (.setFld (.setBit (.foldl (fun _ _ h => h.unref) h.upd))))
      (.bumpGen (.setCause (.setFld (.setBit (.foldl (fun _ _ h => h.unref) h.upd)))))

theorem Unasked.shrinkRewind (h : Unasked s) : Unasked s.shrinkRewind := by
  unfold State.shrinkRewind
  extract_lets _ _ _ _ s1 s2 _ _ s3 s4
  have h1 : Unasked s1 := .foldl (fun _ _ h => h.setNum) h
  have h2 : Unasked s2 := h1.setFld
  have h3 : Unasked s3 := h2.upd
  have h4 : Unasked s4 := h3.setFld.setNum
  exact .ite h3.noStore (.ite (.ite h4.upd h3.setFld) h3)

theorem Unasked.retireChannel {ch} (h : Unasked s) : Unasked (s.retireChannel ch).2 := by
  unfold State.retireChannel
  extract_lets s1 s2 s3
  have h1 : Unasked s1 := h.cutGo
  have h2 : Unasked s2 := h1.shrinkRewind
  have h3 : Unasked s3 := h2.setBit.setFld.unitState
  exact .ite2 (.pair h1.raise) (.ite2 (.pair h1.pinRecord.upd.setFld.bumpGen.raise) (.pair h3.upd))

/-! ### Machine/Rewind.lean -/

theorem Unasked.setRewState {st} (h : Unasked s) : Unasked (s.setRewState st) := .ite h h.setFld.bumpGen

theorem Unasked.openNext (h : Unasked s) : Unasked s.openNext := h.setFld.upd.setNum

theorem Unasked.clearIndex (h : Unasked s) : Unasked s.clearIndex := .foldl (fun _ _ h => h.setNum) h

theorem Unasked.rewEnable (h : Unasked s) : Unasked s.rewEnable := by
  unfold State.rewEnable
  extract_lets s1 s2
  have h1 : Unasked s1 := h.setBit
  have h2 : Unasked s2 := h1.clearIndex.setRewState
  exact .ite h (.ite h2.upd h1)

theorem Unasked.rewDisable (h : Unasked s) : Unasked s.rewDisable :=
  .ite h (.setCause (.setRewState (.setBit (.foldl (fun _ _ h => h.unref) h.upd))))

theorem Unasked.rewResume (h : Unasked s) : Unasked s.rewResume.2 := .ite2 (.pair h.upd.setRewState.openNext.setCause) h

theorem Unasked.drainStart {lo hi} (h : Unasked s) : Unasked (s.drainStart lo hi).2 := .ite2 (.pair h.setRewState.setReg.upd) h

theorem Unasked.drainAbort (h : Unasked s) : Unasked s.drainAbort.2 := by
  unfold State.drainAbort
  split
  · exact .ite2 (.pair h.upd) h
  · exact h

/-! ### Machine/PathStop.lean -/

theorem Unasked.freePortCells (h : Unasked s) : Unasked s.freePortCells := .upd (.foldl (fun _ _ h => h.release) h)

theorem Unasked.dropModuleFrames (h : Unasked s) : Unasked s.dropModuleFrames :=
  .foldl (fun _ _ h => .foldl (fun _ _ h' => .ite h'.freeCopyCells h') h) h

theorem Unasked.pathStop (h : Unasked s) : Unasked s.pathStop := by
  unfold State.pathStop
  extract_lets s1 s2 _ s3 _ s4 _ s5 _ _ s6
  have h1 : Unasked s1 := h.setBit.dropModuleFrames.freePortCells
  have h2 : Unasked s2 := h1.upd
  have h3 : Unasked s3 := h2.upd
  have h4 : Unasked s4 := h3.upd
  have h5 : Unasked s5 := h4.upd
  have h6 : Unasked s6 := h5.upd
  exact .ite h h6.upd

theorem Unasked.pathFail (h : Unasked s) : Unasked s.pathFail := h.pathStop.setFld.setCause.raise

/-! ### Machine/Threads.lean -/

theorem Unasked.setCore {c x} (h : Unasked s) : Unasked (s.setCore c x) := h.upd

theorem Unasked.showCores {n} (h : Unasked s) : Unasked (s.showCores n) := h.setFld.setBit.setBit.setBit.setFld

theorem Unasked.degradeStn {n} (h : Unasked s) : Unasked (s.degradeStn n) := by
  unfold State.degradeStn
  extract_lets _ s1 s2
  have h1 : Unasked s1 := h.setCause.raiseU
  have h2 : Unasked s2 := h1.unitState
  exact .ite h (.ite (.ite h2.upd h2) h.pathFail)

/-! ### Machine/MemMap.lean -/

theorem Unasked.setCtlc {c x} (h : Unasked s) : Unasked (s.setCtlc c x) := h.upd

theorem Unasked.recall {ln} (h : Unasked s) : Unasked (s.recall ln) := by
  unfold State.recall
  split
  · exact h
  · extract_lets s1
    have h1 : Unasked s1 := h.setBytes
    exact .foldl (fun _ _ h => h.setCtlc) h1

theorem Unasked.heal {a n} (h : Unasked s) : Unasked (s.heal a n) := h.upd

theorem Unasked.storeBytes {a l} (h : Unasked s) : Unasked (s.storeBytes a l) := h.setBytes.heal

theorem Unasked.writeBytes {a l} (h : Unasked s) : Unasked (s.writeBytes a l) := by
  unfold State.writeBytes
  extract_lets s1
  have h1 : Unasked s1 := .foldl (fun _ _ h => .ite h.recall h) h
  exact h1.storeBytes

theorem Unasked.writeNum {a n v} (h : Unasked s) : Unasked (s.writeNum a n v) := h.writeBytes

/-! ### Machine/Ctl.lean -/

theorem Unasked.modCtlc {c f} (h : Unasked s) : Unasked (s.modCtlc c f) := h.setCtlc

/-! ### Machine/EgressCmds.lean -/

theorem Unasked.drainRegs (h : Unasked s) : Unasked s.drainRegs := h.drainStart

/-! ### Machine/Clauses.lean -/

theorem Unasked.setClause {g a c} (h : Unasked s) : Unasked (s.setClause g a c) := h.upd

theorem Unasked.addLog {r} (h : Unasked s) : Unasked (s.addLog r) := by
  unfold State.addLog
  extract_lets _ s1
  have h1 : Unasked s1 := h.upd
  exact h1.setFld

theorem Unasked.dropLog {p} (h : Unasked s) : Unasked (s.dropLog p) := by
  unfold State.dropLog
  extract_lets _ s1
  have h1 : Unasked s1 := h.upd
  exact h1.setFld

theorem Unasked.clauseStart {op g a r} (h : Unasked s) : Unasked (s.clauseStart op g a r false) :=
  ⟨fun u hu => by cases hu; rfl, h.2⟩

theorem Unasked.clauseCtl {v} (h : Unasked s) : Unasked (s.clauseCtl v) :=
  .ite h.setFld.setFld (.ite h.setFld.setFld.setFld h.setFld.setFld.clauseStart)

/-! ### Machine/Tables.lean -/

theorem Unasked.fdbCount {a d} (h : Unasked s) : Unasked (s.fdbCount a d) := .ite h.setFld h.setFld.setFld

theorem Unasked.fdbPut {a l} (h : Unasked s) : Unasked (s.fdbPut a l) := by
  unfold State.fdbPut
  extract_lets s1 s2
  have h1 : Unasked s1 := .ite h.fdbCount h
  have h2 : Unasked s2 := h1.setBytes
  exact .ite h2.fdbCount h2

theorem Unasked.fdbClear {a} (h : Unasked s) : Unasked (s.fdbClear a) := .ite h.fdbPut h

theorem Unasked.showLpm (h : Unasked s) : Unasked s.showLpm := h.setFld

theorem Unasked.setStrControl {i w} (h : Unasked s) : Unasked (s.setStrControl i w) := h.setNum

theorem Unasked.strCount {d} (h : Unasked s) : Unasked (s.strCount d) := h.setFld

theorem Unasked.setLogWord {r w} (h : Unasked s) : Unasked (s.setLogWord r w) := by
  unfold State.setLogWord
  split
  · exact h.setCls rfl rfl
  · exact .setStrControl (.ite h h.strCount)
  · exact h.setCls rfl rfl

theorem Unasked.sweepPrefixes (h : Unasked s) : Unasked s.sweepPrefixes := by
  unfold State.sweepPrefixes
  extract_lets l keep follow _ s1
  have h1 : Unasked s1 := h.setCls rfl rfl
  exact h1.setFld.showLpm

/-! ### Machine/Tenses.lean -/

theorem Unasked.scheduleCommit (h : Unasked s) : Unasked s.scheduleCommit := .ite h.upd h

theorem Unasked.commitReq (h : Unasked s) : Unasked s.commitReq.2 := .ite2 h (.ite2 h (.ite2 (.pair h.raise) (.pair h.setBit.scheduleCommit)))

theorem Unasked.abortReq (h : Unasked s) : Unasked s.abortReq.2 := .ite2 h (.pair h.upd)

theorem Unasked.voidReq (h : Unasked s) : Unasked s.voidReq.2 := by
  unfold State.voidReq
  extract_lets _ _ s1
  have h1 : Unasked s1 := h.setCls rfl rfl
  exact .ite2 h (.pair (.foldl (fun _ _ h => h.dropCoach) h1))

theorem Unasked.tenseWrite {v} (h : Unasked s) : Unasked (s.tenseWrite v) := by
  unfold State.tenseWrite
  split
  · exact h.commitReq
  · exact h.abortReq
  · exact h.voidReq
  · exact h

theorem Unasked.setRcvy {r x} (h : Unasked s) : Unasked (s.setRcvy r x) := h.upd

theorem Unasked.paramWrite {o1 ix l} (h : Unasked s) : Unasked (s.paramWrite o1 ix l) := by
  unfold State.paramWrite
  extract_lets _ s1
  have h1 : Unasked s1 := h.setBytes
  split
  · exact h1.setCls rfl rfl
  · exact h1.setRcvy
  · exact h1.setCls rfl rfl
  · exact h1

theorem Unasked.fdbFlush {port flags vid} (h : Unasked s) : Unasked (s.fdbFlush port flags vid) := .foldl (fun _ _ h => .ite h.fdbClear h) h

theorem Unasked.fwdApply {op r} (h : Unasked s) : Unasked (s.fwdApply op r) := by
  unfold State.fwdApply
  extract_lets
  split
  · split
    · exact h.fdbPut
    · exact h
  · split
    · exact h.fdbClear
    · exact h
  · exact h.fdbFlush
  · split
    extract_lets _ s1
    have h1 : Unasked s1 := h.setCls rfl rfl
    exact h1.addLog.showLpm
  · split
    · exact .ite h.setLogWord.sweepPrefixes h.setLogWord.addLog
    · exact h
  · split
    · extract_lets s1
      have h1 : Unasked s1 := h.setBytes.setStrControl
      exact h1.setBytes.strCount.addLog
    · exact h
  · split
    · exact .ite h.setLogWord h.setLogWord.addLog
    · exact h
  · exact h.paramWrite
  · exact h.setRcvy
  · exact h

theorem Unasked.fwdStart {op r} (h : Unasked s) : Unasked (s.fwdStart op r false) := ⟨h.1, fun u hu => by cases hu; rfl⟩

theorem Unasked.fwdCtlWrite {v} (h : Unasked s) : Unasked (s.fwdCtlWrite v) := .ite h.setFld (.ite h.setFld.setFld h.setFld.fwdStart)

/-! ### Machine/Search.lean -/

theorem Unasked.showSpare (h : Unasked s) : Unasked s.showSpare := .ite h.setFld.setFld.setBit.raise h.setFld.setFld.setBit

theorem Unasked.ageWrite {v} (h : Unasked s) : Unasked (s.ageWrite v) := by
  unfold State.ageWrite
  extract_lets s1
  have h1 : Unasked s1 := h.setFld
  exact h1.upd

/-! ### Machine/Streams.lean -/

theorem Unasked.fwdPortWrite {p v} (h : Unasked s) : Unasked (s.fwdPortWrite p v) := .ite h.setFld.setFld h.setFld

/-! ### Machine/Frame.lean -/

theorem Unasked.setMiss {isParse b} (h : Unasked s) : Unasked (s.setMiss isParse b) := .ite h.upd h.upd

theorem Unasked.learnVerdict {q reason} (h : Unasked s) : Unasked (s.learnVerdict q reason) := h.upd

theorem Unasked.verdict {q reason} (h : Unasked s) : Unasked (s.verdict q reason) := by
  unfold State.verdict
  extract_lets s1
  have h1 : Unasked s1 := h.learnVerdict
  split
  · exact h1
  · extract_lets body c1 c2 c3 s2 c4 _ s3
    have h2 : Unasked s2 := h1.setCoach
    have h3 : Unasked s3 := h2.setCls rfl rfl
    split
    · exact .ite h2 h3.leaveDropped
    · exact .ite h2 h2.dropCoach
    · exact .ite h2.settleCopies h2.failCopies

/-! ### Machine/Stations.lean -/

theorem Unasked.setStn {n x} (h : Unasked s) : Unasked (s.setStn n x) := h.upd

theorem Unasked.monWrite {n v} (h : Unasked s) : Unasked (s.monWrite n v) := by
  unfold State.monWrite
  extract_lets s1
  have h1 : Unasked s1 := .ite h h.setFld
  exact .ite h1.setStn.setFld h1

/-! ### Machine/Raw.lean -/

theorem Unasked.setRaw {j u} (h : Unasked s) : Unasked (s.setRaw j u) := h.upd

theorem Unasked.rawShow {j st count} (h : Unasked s) : Unasked (s.rawShow j st count) := h.setFld.setFld

theorem Unasked.rawCfgWrite {j v} (h : Unasked s) : Unasked (s.rawCfgWrite j v) := by
  unfold State.rawCfgWrite
  extract_lets _ s1 _ s2
  have h1 : Unasked s1 := h.setFld
  have h2 : Unasked s2 := by
    unfold s2
    split
    · exact .ite h1 h1.verdict
    · exact h1
  exact .ite (.ite h1 h1.setRaw.rawShow) (.ite h2.setRaw.rawShow.setCause h1)

/-! ### Machine/Yard.lean -/

theorem Unasked.showBanks (h : Unasked s) : Unasked s.showBanks := .ite h.setFld.setBit.raise h.setFld.setBit

theorem Unasked.withdrawBuf {k i} (h : Unasked s) : Unasked (s.withdrawBuf k i) :=
  .ite h (.ite (.ite h.setPool1.count.setFld.setFld h.setPool1.count.setFld) h.setPool1.count)

theorem Unasked.withdrawBank {b} (h : Unasked s) : Unasked (s.withdrawBank b) := by
  unfold State.withdrawBank
  extract_lets s1
  have h1 : Unasked s1 := .foldl (fun _ _ h => .foldl (fun _ _ h' => h'.withdrawBuf) h) h
  exact h1.count.levelSource

theorem Unasked.poolPutWrite {r v} (h : Unasked s) : Unasked (s.poolPutWrite r v) := by
  unfold State.poolPutWrite
  split
  · exact h
  · exact h.poolPut

theorem Unasked.poolGiveWrite {r c v} (h : Unasked s) : Unasked (s.poolGiveWrite r c v) := by
  unfold State.poolGiveWrite
  split
  · exact h
  · exact h.poolGive

theorem Unasked.poolMinWrite {k v} (h : Unasked s) : Unasked (s.poolMinWrite k v) := .ite h.setFld h

theorem Unasked.auditSel {v} (h : Unasked s) : Unasked (s.auditSel v) := by
  unfold State.auditSel
  extract_lets _ _ s1
  have h1 : Unasked s1 := h.setFld
  exact .foldl (fun _ _ h => h.setReg) h1.setReg.setReg

/-! ### Machine/Locks.lean -/

theorem Unasked.setLocks {l} (h : Unasked s) : Unasked (s.setLocks l) := h.upd.setFld

theorem Unasked.unlock {e} (h : Unasked s) : Unasked (s.unlock e) := .setLocks (.ite h.writeNum h)

theorem Unasked.breakLock {a} (h : Unasked s) : Unasked (s.breakLock a).2 := by
  unfold State.breakLock
  refine .ite2 h ?_
  split
  · exact .pair h.unlock
  · exact h

theorem Unasked.lockBreakWrite {v} (h : Unasked s) : Unasked (s.lockBreakWrite v) := by
  unfold State.lockBreakWrite
  split
  · exact h
  · split
    rename_i e
    exact (Unasked.of_snd e h.breakLock).setFld

/-! ### Machine/Smc.lean -/

theorem Unasked.setChState {ch st} (h : Unasked s) : Unasked (s.setChState ch st) := .ite h h.setFld.bumpGen

theorem Unasked.loadSet {i f} (h : Unasked s) : Unasked (s.loadSet i f) :=
  .foldl (fun _ _ h => h.upd.setReg) h.upd.upd.setReg.setReg.setReg.setReg.setReg

theorem Unasked.freqWrite {v} (h : Unasked s) : Unasked (s.freqWrite v) := .ite h.setFld (.ite h.setFld.setFld h.setFld.loadSet.setBit.upd)

theorem Unasked.retireWrite {v} (h : Unasked s) : Unasked (s.retireWrite v) := by
  unfold State.retireWrite
  extract_lets _ s1 s2
  have h1 : Unasked s1 := h.setFld.setFld
  have h2 : Unasked s2 := h1.cutGo
  exact .ite h1 (.ite h2.setFld h2.retireChannel.setFld)

/-! ### Machine/Tasks.lean -/

theorem Unasked.setSlot {t st} (h : Unasked s) : Unasked (s.setSlot t st) :=
  .setFld (.ite (.setFld (.ite h.setFld (.ite h.setFld h))) (.ite (.setFld (.ite h.setFld (.ite h.setFld h)))
      (.ite h.setFld (.ite h.setFld h))))

theorem Unasked.setReady {p l} (h : Unasked s) : Unasked (s.setReady p l) := h.upd

theorem Unasked.toReady {t head} (h : Unasked s) : Unasked (s.toReady t head) := h.setReady.setSlot

theorem Unasked.taskRefuse (h : Unasked s) : Unasked s.taskRefuse := h.count

theorem Unasked.taskPost {t} (h : Unasked s) : Unasked (s.taskPost t) := by
  unfold State.taskPost
  split
  · exact h.taskRefuse
  · exact h.toReady
  · exact h.count
  · exact h.setBit

theorem Unasked.taskReturn {r t head} (h : Unasked s) : Unasked (s.taskReturn r t head) := by
  unfold State.taskReturn
  split
  · exact h
  · exact .ite h.setBit.toReady h.taskRefuse

theorem Unasked.taskDone {r t} (h : Unasked s) : Unasked (s.taskDone r t) := by
  unfold State.taskDone
  split
  · exact h
  · exact .ite h.taskRefuse (.ite h.setBit.toReady h.setSlot)

theorem Unasked.taskFree {t} (h : Unasked s) : Unasked (s.taskFree t) := .ite h.setSlot h.taskRefuse

theorem Unasked.slotCfgWrite {t v} (h : Unasked s) : Unasked (s.slotCfgWrite t v) := .ite h.setReg h

theorem Unasked.wdogWrite {c v} (h : Unasked s) : Unasked (s.wdogWrite c v) := .ite h.setFld.modCtlc h.setFld

theorem Unasked.iotlbWrite {v} (h : Unasked s) : Unasked (s.iotlbWrite v) := .ite h.setFld.setFld h.setFld.setFld.setBit.upd

/-! ### Machine/Units.lean -/

theorem Unasked.txDrop {x} (h : Unasked s) : Unasked (s.txDrop x) := by
  unfold State.txDrop
  refine .ite h ?_
  split
  · exact h.verdict
  · exact h.freeCells.countDrop
  · exact h

/-! ### Machine/Faults.lean -/

theorem Unasked.showPending (h : Unasked s) : Unasked s.showPending := h.setFld

theorem Unasked.setPend {x b} (h : Unasked s) : Unasked (s.setPend x b) := by
  unfold State.setPend
  extract_lets s1
  have h1 : Unasked s1 := .ite h.latch h.setBit
  exact h1.setBit.showPending

theorem Unasked.clearPend {x} (h : Unasked s) : Unasked (s.clearPend x).2 := by
  unfold State.clearPend
  extract_lets s1
  have h1 : Unasked s1 := .ite h.journalRecover (.ite (.foldl (fun _ _ h => h.setBit) h) h)
  exact .ite2 h (.ite2 h (.pair h1.setPend))

theorem Unasked.pendWrite {w v} (h : Unasked s) : Unasked (s.pendWrite w v) := .foldl (fun _ _ h => h.clearPend) h

theorem Unasked.rearm (h : Unasked s) : Unasked s.rearm := h.setFld

theorem Unasked.fltCtlWrite {v} (h : Unasked s) : Unasked (s.fltCtlWrite v) := by
  unfold State.fltCtlWrite
  extract_lets s1
  have h1 : Unasked s1 := h.setFld
  exact .ite h1.rearm h1

/-! ### Machine/Cores.lean -/

theorem Unasked.laneReplace {l} (h : Unasked s) : Unasked (s.laneReplace l).2 := by
  unfold State.laneReplace
  split
  · exact .pair h.upd
  · exact h
  · exact .pair h.raise

/-! ### Machine/Pins.lean -/

theorem Unasked.pinLeave {f} (h : Unasked s) : Unasked (s.pinLeave f) := .ite h.forceOut h.driveFn

theorem Unasked.pinCommit (h : Unasked s) : Unasked s.pinCommit := by
  unfold State.pinCommit
  refine .ite h ?_
  split
  · exact h.latch.setFld.raise
  · extract_lets new newAt changed s1 s2
    have h1 : Unasked s1 := by
      refine .foldl (fun s c h => ?_) h
      split
      · exact h.pinLeave
      · exact h
    have h2 : Unasked s2 := .foldl (fun _ _ h => h.setFld) h1
    exact h2.upd.setBit

theorem Unasked.pinCommitWrite {v} (h : Unasked s) : Unasked (s.pinCommitWrite v) := by
  unfold State.pinCommitWrite
  extract_lets s1
  have h1 : Unasked s1 := h.w1c
  exact .ite h1.pinCommit h1

theorem Unasked.gpoWrite {v} (h : Unasked s) : Unasked (s.gpoWrite v) := .ite h.setReg (.foldl (fun _ _ h => .ite h h.driveFn) h.setReg)

theorem Unasked.cbusWrite {v} (h : Unasked s) : Unasked (s.cbusWrite v) := by
  unfold State.cbusWrite
  extract_lets _ s1 s2
  have h1 : Unasked s1 := h.setReg
  have h2 : Unasked s2 := h1.setBit
  exact .ite h2.upd h1

theorem Unasked.mdioWrite {m v} (h : Unasked s) : Unasked (s.mdioWrite m v) := by
  unfold State.mdioWrite
  extract_lets _ _ s1 s2 _ _ _ s3
  have h1 : Unasked s1 := h.setReg
  have h2 : Unasked s2 := h1.setBit
  have h3 : Unasked s3 := h2.upd
  exact .ite h1 (.ite h3.upd h3)

/-! ### Machine/Power.lean -/

theorem Unasked.cleared : Unasked s.cleared := .of_none rfl rfl

theorem Unasked.setSysCause {c} (h : Unasked s) : Unasked (s.setSysCause c) := h.setFld

theorem Unasked.setPhase {p} (h : Unasked s) : Unasked (s.setPhase p) := h.setFld

theorem Unasked.moduleReset {cause} : Unasked (s.moduleReset cause) := by
  unfold State.moduleReset
  extract_lets t t1 t2 t3 t4 t5
  have ht : Unasked t := .cleared
  have ht1 : Unasked t1 := ht.setReg.setFld
  have ht2 : Unasked t2 := ht1.setReg.setReg
  have ht3 : Unasked t3 := ht2.setReg.setCell
  have ht4 : Unasked t4 := ht3.setReg.setReg
  have ht5 : Unasked t5 := ht4.setSysCause
  exact .ite ht5.setPhase.setBit ht5.setPhase

theorem Unasked.powerGone {pwrAlive} : Unasked (s.powerGone pwrAlive) := by
  unfold State.powerGone
  extract_lets t f t1 t2
  have h1 : Unasked t1 := .of_none rfl rfl
  have h2 : Unasked t2 := h1.setReg
  exact .ite h2.setReg.setCell.upd h2

theorem Unasked.clearImage (h : Unasked s) : Unasked s.clearImage := by
  unfold State.clearImage
  extract_lets s1 _ _ s2 _ s3
  have h1 : Unasked s1 := .foldl (fun _ _ h => h.setReg) h
  have h2 : Unasked s2 := h1.upd
  have h3 : Unasked s3 := h2.upd
  exact h3.upd

theorem Unasked.outputsSafe (h : Unasked s) : Unasked s.outputsSafe := by
  unfold State.outputsSafe
  extract_lets s1
  have h1 : Unasked s1 := .foldl (fun _ _ h => h.forceOut) h
  exact .foldl (fun _ _ h => h.driveFn) h1

theorem Unasked.restartLoad {slot kept} (h : Unasked s) : Unasked (s.restartLoad slot kept) := by
  unfold State.restartLoad
  extract_lets s1 s2 _ s3 s4 s5 _ _ s6
  have h1 : Unasked s1 := h.pathStop.outputsSafe
  have h2 : Unasked s2 := .foldl (fun _ _ h => h.closeSession) h1
  have h3 : Unasked s3 := h2.upd
  have h4 : Unasked s4 := h3.noticeStat
  have h5 : Unasked s5 := h4.clearImage
  have h6 : Unasked s6 := h5.upd
  exact h6.setBit.setBit.setPhase

theorem Unasked.watch {src hot cool} (h : Unasked s) : Unasked (s.watch src hot cool) := .ite (.ite h h.levelSource) (.ite h.setCause h)

theorem Unasked.holdupTest {energy} (h : Unasked s) : Unasked (s.holdupTest energy) := h.setFld.watch

theorem Unasked.holdupStart {v} (h : Unasked s) : Unasked (s.holdupStart v) := .ite h.upd.holdupTest h

theorem Unasked.enterLow (h : Unasked s) : Unasked s.enterLow := by
  unfold State.enterLow
  extract_lets _ s1 s2 _ s3 s4 s5 _ s6
  have h1 : Unasked s1 := h.upd
  have h2 : Unasked s2 := .powerGone
  have h3 : Unasked s3 := h1.pathStop.outputsSafe
  have h4 : Unasked s4 := .foldl (fun _ _ h => h.linkDown) h3
  have h5 : Unasked s5 := .foldl (fun _ _ h => .ite h.setFld.setChState h) h4
  have h6 : Unasked s6 := h5.upd
  exact .ite h1 (.ite h2.upd h6.setFld)

theorem Unasked.exitLow (h : Unasked s) : Unasked s.exitLow := by
  unfold State.exitLow
  extract_lets _ _ s1
  have h1 : Unasked s1 := h.upd
  exact .ite h1.latch.setSysCause.setPhase (.ite h.setFld.restartLoad h)

theorem Unasked.pwrCtlWrite {v} (h : Unasked s) : Unasked (s.pwrCtlWrite v) := by
  unfold State.pwrCtlWrite
  extract_lets _ _ s1 _ s2 s3
  have h1 : Unasked s1 := h.setBit
  have h2 : Unasked s2 := h1.upd
  have h3 : Unasked s3 := .ite (.ite h2.exitLow h2) h1
  exact .ite h3.enterLow h3

/-! ### Machine/DmaOps.lean -/

theorem Unasked.setDch {k x} (h : Unasked s) : Unasked (s.setDch k x) := h.upd

theorem Unasked.modDch {k f} (h : Unasked s) : Unasked (s.modDch k f) := h.setDch

theorem Unasked.setDmaState {k st} (h : Unasked s) : Unasked (s.setDmaState k st) := .ite h h.setFld.bumpGen

theorem Unasked.dmaIrq {k} (h : Unasked s) : Unasked (s.dmaIrq k) := h.latch

theorem Unasked.descDone {k i done code stamp} (h : Unasked s) : Unasked (s.descDone k i done code stamp) := h.writeNum.writeNum

theorem Unasked.descHalt {k i done code} (h : Unasked s) : Unasked (s.descHalt k i done code) := by
  unfold State.descHalt
  extract_lets s1 s2 s3
  have h1 : Unasked s1 := h.writeNum
  have h2 : Unasked s2 := h1.setDmaState.setFld.setFld
  have h3 : Unasked s3 := h2.modDch
  exact h3.dmaIrq.raiseU

theorem Unasked.headRead {k} (h : Unasked s) : Unasked (s.headRead k) := .ite h.modDch.descHalt h.modDch

theorem Unasked.headNext {k} (h : Unasked s) : Unasked (s.headNext k) := .setFld (.ite h.modDch h)

theorem Unasked.descClose {k i done code stamp bits d} (h : Unasked s) : Unasked (s.descClose k i done code stamp bits d) := by
  unfold State.descClose
  extract_lets s1 _ _ _ s2 s3 s4
  have h1 : Unasked s1 := h.descDone
  have h2 : Unasked s2 := h1.writeNum
  have h3 : Unasked s3 := h2.setFld
  have h4 : Unasked s4 := .ite h3.dmaIrq h3
  exact h4.headNext

theorem Unasked.txFail {k} (h : Unasked s) : Unasked (s.txFail k) := h.setDch.txDrop

theorem Unasked.dmaOff {k} (h : Unasked s) : Unasked (s.dmaOff k) := by
  unfold State.dmaOff
  extract_lets s1
  have h1 : Unasked s1 := .ite h.txFail h
  exact h1.setBit.modDch

theorem Unasked.dmaCfgWrite {k v} (h : Unasked s) : Unasked (s.dmaCfgWrite k v) := by
  unfold State.dmaCfgWrite
  extract_lets _ _ s1 s2 s3
  have h1 : Unasked s1 := h.setFld
  have h2 : Unasked s2 := .ite h1 h1.setFld
  have h3 : Unasked s3 := h2.dmaOff
  exact .ite (.ite h2.modDch (.ite h2.setFld h2.setBit.setFld.setDch.setDmaState)) (.ite h2 (.ite h2.modDch (.ite h3.setDmaState h3)))

theorem Unasked.dmaBaseWrite {k o1 v} (h : Unasked s) : Unasked (s.dmaBaseWrite k o1 v) := .ite h (.ite h.setFld h.setReg)

theorem Unasked.dmaKick {k} (h : Unasked s) : Unasked (s.dmaKick k) := .ite h.headRead h

theorem Unasked.skipFrame {k n} : ∀ {s}, Unasked s → Unasked (s.skipFrame k n) := by
  induction n with
  | zero => exact fun h => h
  | succ n ih => exact fun h => .ite h (.ite h.descClose (ih h.descClose))

theorem Unasked.dmaCtlWrite {k v} (h : Unasked s) : Unasked (s.dmaCtlWrite k v) := by
  unfold State.dmaCtlWrite
  extract_lets _ s1 _ s2 s3 _ _ s4 s5 s6
  have h1 : Unasked s1 := h.setDmaState
  have h2 : Unasked s2 := h1.setFld
  have h3 : Unasked s3 := .ite (.ite h2.setDch (.ite h1.setDch h1.setDch.headRead)) h
  have h4 : Unasked s4 := h3.writeNum
  have h5 : Unasked s5 := h4.headNext.setDmaState.modDch
  have h6 : Unasked s6 := .ite (.ite h5.skipFrame h5) h3
  exact .ite h6.modDch h6

theorem Unasked.dmaSeen {k v} (h : Unasked s) : Unasked (s.dmaSeen k v) := h.setFld

/-! ### Machine/Bus.lean -/

theorem Unasked.plain {a v} (h : Unasked s) : Unasked (s.plain a v) := h.setReg

theorem Unasked.wrTime {o1 v} (h : Unasked s) : Unasked (s.wrTime o1 v) := by
  unfold State.wrTime
  refine .ite h.snapWrite ?_
  refine .ite h.convWrite ?_
  refine .ite h ?_
  refine .ite h.plain ?_
  refine .ite ?_ h.plain
  extract_lets
  split
  · exact h.incrLoWrite
  · exact h.incrHiWrite
  · exact h.slewWrite
  · exact h.stepCtlWrite
  · exact h.refWrite
  · exact h.ofsWrite
  · exact h.plain

theorem Unasked.ppsoCfgWrite {k v} (h : Unasked s) : Unasked (s.ppsoCfgWrite k v) := .ite h.plain (.ite h.plain h.plain.driveOut)

theorem Unasked.ppsiCfgWrite {k v} (h : Unasked s) : Unasked (s.ppsiCfgWrite k v) := .ite h.plain.setBit h.plain.setBit.setEvIn

theorem Unasked.clkoCfgWrite {j v} (h : Unasked s) : Unasked (s.clkoCfgWrite j v) := .ite (.ite h.plain h.plain.clkoStart) h.plain.clkoStop

theorem Unasked.lcalMonWrite {l v} (h : Unasked s) : Unasked (s.lcalMonWrite l v) := .ite h.w1c.setPend h.w1c

theorem Unasked.wrTio {o1 v} (h : Unasked s) : Unasked (s.wrTio o1 v) := by
  unfold State.wrTio
  refine .ite (.ite h.tioResume h) ?_
  refine .ite ?_ ?_
  · extract_lets
    split
    · exact h.trigCfgWrite
    · exact h.w1c
    · exact h.diagClear
    · exact h.plain
  · refine .ite ?_ ?_
    · split
      · exact h.ppsoCfgWrite
      · exact h.diagClear
      · exact h.plain
    · refine .ite h.clkoCfgWrite ?_
      refine .ite ?_ ?_
      · split
        · exact h.ppsiCfgWrite
        · exact h.w1c
        · exact h.plain
      · refine .ite ?_ (.ite (.ite h.lcalMonWrite h) (.ite h.schedWrite h.plain))
        split
        · exact h.plain.setBit
        · exact h.w1c
        · exact h.plain

theorem Unasked.wrEgr {o1 v} (h : Unasked s) : Unasked (s.wrEgr o1 v) := by
  unfold State.wrEgr
  refine .ite ?_ ?_
  · extract_lets
    split
    · exact h.pshapeWrite
    · exact h.gclWrite
    · exact h.plain
  · refine .ite ?_ (.ite h.gateWrite h.plain)
    extract_lets
    split
    · exact h.qcfgWrite
    · exact h.qshapeWrite
    · exact .ite h.flushQueue h
    · exact h.plain

theorem Unasked.wrPool {r o1 v} (h : Unasked s) : Unasked (s.wrPool r o1 v) :=
  .ite h.poolMinWrite (.ite h.poolPutWrite (.ite h.poolGiveWrite (.ite h.auditSel h.plain)))

theorem Unasked.rewCtlWrite {r v} (h : Unasked s) : Unasked (s.rewCtlWrite r v) :=
  .ite (.drainAbort (.ite (.drainRegs (.ite (.rewResume (.ite (.rewTrigger (.ite h.rewEnable (.ite h.rewDisable h)))
      (.ite h.rewEnable (.ite h.rewDisable h)))) (.ite (.rewTrigger (.ite h.rewEnable (.ite h.rewDisable h)))
          (.ite h.rewEnable (.ite h.rewDisable h))))) (.ite (.rewResume
              (.ite (.rewTrigger (.ite h.rewEnable (.ite h.rewDisable h))) (.ite h.rewEnable (.ite h.rewDisable h))))
                  (.ite (.rewTrigger (.ite h.rewEnable (.ite h.rewDisable h))) (.ite h.rewEnable (.ite h.rewDisable h))))))
                      (.ite (.drainRegs (.ite (.rewResume (.ite (.rewTrigger (.ite h.rewEnable (.ite h.rewDisable h)))
                          (.ite h.rewEnable (.ite h.rewDisable h)))) (.ite (.rewTrigger (.ite h.rewEnable (.ite h.rewDisable h)))
                              (.ite h.rewEnable (.ite h.rewDisable h)))))
                                  (.ite (.rewResume (.ite (.rewTrigger (.ite h.rewEnable (.ite h.rewDisable h)))
                                      (.ite h.rewEnable (.ite h.rewDisable h))))
                                          (.ite (.rewTrigger (.ite h.rewEnable (.ite h.rewDisable h)))
                                              (.ite h.rewEnable (.ite h.rewDisable h)))))

theorem Unasked.wrRew {r o1 v} (h : Unasked s) : Unasked (s.wrRew r o1 v) := .ite h.rewCtlWrite (.ite h h.plain)

theorem Unasked.wrTask {r o1 v} (h : Unasked s) : Unasked (s.wrTask r o1 v) := by
  unfold State.wrTask
  extract_lets
  split
  · exact h.taskPost
  · exact h.taskReturn
  · exact h.taskReturn
  · exact h.taskDone
  · exact h.taskFree
  · exact .ite h.slotCfgWrite h.plain

theorem Unasked.wrDma {o1 v} (h : Unasked s) : Unasked (s.wrDma o1 v) := by
  unfold State.wrDma
  refine .ite ?_ h.plain
  extract_lets
  split
  · exact h.dmaCfgWrite
  · exact h.dmaCtlWrite
  · exact h.dmaBaseWrite
  · exact h.dmaBaseWrite
  · exact h.dmaKick
  · exact h.dmaSeen
  · exact h.plain

theorem Unasked.missWrite {isParse v} (h : Unasked s) : Unasked (s.missWrite isParse v) := h.setMiss.plain

theorem Unasked.regWrite {r a v} (h : Unasked s) : Unasked (s.regWrite r a v) := by
  unfold State.regWrite
  extract_lets
  split
  · exact .ite .moduleReset h
  · exact .ite h.pwrCtlWrite (.ite h.holdupStart h.plain)
  · exact .ite h.pinCommitWrite (.ite h.gpoWrite h.plain)
  · exact h.wrTime
  · exact h.wrTio
  · exact .ite h.rawCfgWrite (.ite h.missWrite h.plain)
  · exact .ite h.tenseWrite (.ite h.clauseCtl h.plain)
  · exact .ite h.ageWrite (.ite h.fwdCtlWrite (.ite h.fwdPortWrite h.plain))
  · exact .ite h.monWrite h.plain
  · exact h.wrEgr
  · exact h.wrPool
  · exact .ite h.freqWrite (.ite h.retireWrite h.plain)
  · exact h.wrRew
  · exact .ite h.wdogWrite h.plain
  · exact .ite h.iotlbWrite h.plain
  · exact h.wrTask
  · exact .ite h.lockBreakWrite h.plain
  · exact h.wrDma
  · exact .ite h.fltCtlWrite (.ite h.pendWrite h.plain)
  · exact .ite h.cbusWrite (.ite h.mdioWrite h.plain)
  · exact h.plain

theorem Unasked.busWrite {r a v} (h : Unasked s) : Unasked (s.busWrite r a v) := .ite h.upd h.regWrite.answerWrite

/-! ### Machine/Image.lean -/

theorem Unasked.setting {e} (h : Unasked s) : Unasked (s.setting e) := h.setReg

theorem Unasked.settings {l} (h : Unasked s) : Unasked (s.settings l) := by
  unfold State.settings
  refine .foldl (fun s1 _ h1 => ?_) h
  exact h1.setting

/-! ### Machine/Boot.lean -/

theorem Unasked.formatBad (h : Unasked s) : Unasked (formatBad s).2 := h

theorem Unasked.defaultMux (h : Unasked s) : Unasked s.defaultMux := .foldl (fun _ _ h => h.setFld.setFld) h

theorem Unasked.faultDefaults (h : Unasked s) : Unasked s.faultDefaults := .foldl (fun _ _ h => h.setReg) h

theorem Unasked.beforeSection {t} (h : Unasked s) : Unasked (s.beforeSection t) := by
  unfold State.beforeSection
  split
  · exact h.defaultMux
  · exact h.faultDefaults
  · exact h

theorem Unasked.sectionCal {b} (h : Unasked s) : Unasked (s.sectionCal b).2 := .ite2 h (.ite2 h.formatBad (.pair h.upd))

theorem Unasked.sectionPins (h : Unasked s) : Unasked s.sectionPins.2 := by
  unfold State.sectionPins
  extract_lets s1
  have h1 : Unasked s1 := h.pinCommit
  exact .pair (.foldl (fun _ _ h => h.driveFn) h1)

theorem Unasked.sectionFaults {l} (h : Unasked s) : Unasked (s.sectionFaults l).2 := .pair h.upd

theorem Unasked.configPort {p r} (h : Unasked s) : Unasked (s.configPort p r) := by
  unfold State.configPort
  extract_lets s1 s2 s3 s4
  have h1 : Unasked s1 := h.setReg.setReg
  have h2 : Unasked s2 := .ite h1.setFld h1
  have h3 : Unasked s3 := .ite h2.setReg.setReg h2
  have h4 : Unasked s4 := h3.setFld
  exact .ite (.ite h4.setFld.setFld.loadCal h4.setFld.setFld) h4

theorem Unasked.sectionPorts {b} (h : Unasked s) : Unasked (s.sectionPorts b).2 := by
  unfold State.sectionPorts
  extract_lets _ _ s1 s2
  have h1 : Unasked s1 := h.upd
  have h2 : Unasked s2 := by
    unfold s2
    exact .foldl (fun _ _ h => .configPort (.ite (.foldl (fun _ _ h' => h'.setFld) h.setBit) h)) h1
  exact .ite2 h.formatBad (.pair (.ite h2.levelSource h2.setCause))

theorem Unasked.sectionTio (h : Unasked s) : Unasked s.sectionTio.2 := by
  unfold State.sectionTio
  extract_lets s1 _ s2 s3
  have h1 : Unasked s1 := .foldl (fun _ _ h => h.driveFn) h
  have h2 : Unasked s2 := .foldl (fun _ _ h => .ite h.setBit.trigCfgWrite h) h1
  have h3 : Unasked s3 := .foldl (fun _ _ h => .ite h.setBit.ppsoCfgWrite h) h2
  exact .pair (.foldl (fun _ _ h => .ite h.setBit.clkoCfgWrite h) h3)

theorem Unasked.sectionPools {b} (h : Unasked s) : Unasked (s.sectionPools b).2 :=
  .ite2 h.formatBad (.pair (.ite (.rewEnable (.setBit (.setFld (.setReg
      (.setReg (.foldl (fun _ _ h => h.setFld) (.setReg (.setReg (.foldl (fun _ _ h => h.setFld) h.setReg.setReg)))))))))
          (.setFld (.setReg (.setReg (.foldl (fun _ _ h => h.setFld) (.setReg
              (.setReg (.foldl (fun _ _ h => h.setFld) h.setReg.setReg)))))))))

theorem Unasked.markParts {cls n good used} (h : Unasked s) : Unasked (s.markParts cls n good used) := .foldl (fun _ _ h => h.unitState) h

theorem Unasked.placeStation {good n} (h : Unasked s) : Unasked (s.placeStation good n) :=
  .showCores (.degradeStn (.setStn (.foldl (fun _ _ h => h.setCore) h)))

theorem Unasked.setBlocks {b c} (h : Unasked s) : Unasked { s with cls := { s.cls with blocks := b, blockBad := c } } := h.setCls rfl rfl

theorem Unasked.place_ {b} (h : Unasked s) : Unasked (s.place_ b) := by
  unfold State.place_
  extract_lets ex cores inUse s1 s2 blocks s3 _ s4 banks s5 _ s6 s7 s8 lanes s9 s10
  have h2 : Unasked s2 := .foldl (fun _ _ h => h.placeStation) h.markParts
  have h3 : Unasked s3 := h2.markParts
  have h4 : Unasked s4 := h3.setBlocks
  have h6 : Unasked s6 := (show Unasked s5 from h4.markParts).upd
  have h8 : Unasked s8 := (show Unasked s7 from .foldl (fun _ _ h => h.withdrawBank) h6).showSpare.showBanks
  have h10 : Unasked s10 := .foldl (fun _ _ h => h.laneReplace) (.foldl (fun _ _ h => h.unitState) h8)
  exact .ite h10.raise h10

theorem Unasked.sectionPlace {b} (h : Unasked s) : Unasked (s.sectionPlace b).2 := .ite2 (.pair h.setCause.raise) (.pair h.setCause.place_)

theorem Unasked.showTimetable {t} (h : Unasked s) : Unasked (s.showTimetable t) := by
  unfold State.showTimetable
  extract_lets s1
  have h1 : Unasked s1 := h.setReg.setFld.setFld
  exact .foldl (fun _ _ h => h.setFld.setFld.setFld.setFld.setFld.setFld.setFld.setReg.setReg) h1

theorem Unasked.sectionTimetable {img b} (h : Unasked s) : Unasked (s.sectionTimetable img b).2 := by
  unfold State.sectionTimetable
  extract_lets t r s1
  have h1 : Unasked s1 := h.setFld.setFld
  clear_value r
  split
  · exact .pair h1.upd.showTimetable
  · exact h1
  · exact .pair h1.upd.setBit.showTimetable

theorem Unasked.sectionClauses {b} (h : Unasked s) : Unasked (s.sectionClauses b).2 := by
  unfold State.sectionClauses
  extract_lets groups fixedBad
  refine .ite2 h (.foldl2 (fun p i hp => ?_) (.pair h))
  split
  · exact .ite2 hp (.pair (Unasked.setClause hp))
  · exact hp

theorem Unasked.tableItem {op r} (h : Unasked s) : Unasked (s.tableItem op r).2 := by
  unfold State.tableItem
  extract_lets s1 _ s2
  have h1 : Unasked s1 := h.fwdApply
  have h2 : Unasked s2 := .foldl (fun _ _ h => h.setLogWord) h1
  exact .ite2 h.formatBad (.pair h2.dropLog)

theorem Unasked.tableItems {n} : ∀ {l s}, Unasked s → Unasked (State.tableItems n l s).2 := by
  induction n with
  | zero => exact fun h => h
  | succ n ih =>
    intro l s h
    unfold State.tableItems
    refine .ite2 h (.ite2 h.formatBad ?_)
    split
    · rename_i e
      exact ih (.of_snd e h.tableItem)
    · exact h.tableItem

theorem Unasked.sectionKeys {b} (h : Unasked s) : Unasked (s.sectionKeys b).2 :=
  .ite2 h.formatBad (.pair (.foldl (fun _ _ h => .ite h.setBit.setFld.upd h) h))

theorem Unasked.sectionFirmware {b} (h : Unasked s) : Unasked (s.sectionFirmware b).2 := by
  unfold State.sectionFirmware
  extract_lets _ _ s1
  have h1 : Unasked s1 := h.upd
  split
  · exact h.formatBad
  · extract_lets s2
    have h2 : Unasked s2 := .foldl (fun _ _ h => h.storeBytes) h1
    exact .ite2 h.formatBad (.pair (.foldl (fun _ _ h => h.setCtlc) h2))

theorem Unasked.sectionWrites {b} (h : Unasked s) : Unasked (s.sectionWrites b).2 := by
  unfold State.sectionWrites
  split
  · exact h.formatBad
  · exact .pair (.foldl (fun _ _ h => h.busWrite) h)

theorem Unasked.sectionBody {img t l b} (h : Unasked s) : Unasked (s.sectionBody img t l b).2 := by
  unfold State.sectionBody
  split
  · exact h.sectionTimetable
  · exact h.sectionPlace
  · exact h.sectionPorts
  · exact h.sectionTio
  · exact h.sectionClauses
  · exact h.tableItems
  · exact h.sectionPools
  · exact h.sectionFaults
  · exact h.sectionKeys
  · exact h.sectionPins
  · exact h.sectionCal
  · exact h

theorem Unasked.applySection {img t} (h : Unasked s) : Unasked (s.applySection img t).2 := by
  unfold State.applySection
  extract_lets _ s1
  have h1 : Unasked s1 := h.beforeSection
  refine .ite2 h.sectionFirmware ?_
  refine .ite2 (.ite2 h h.sectionWrites) ?_
  refine .ite2 h1.sectionBody ?_
  split
  · exact h1.formatBad
  · exact .ite2 h1.formatBad h1.settings.sectionBody

theorem Unasked.applyAll {img} (h : Unasked s) : Unasked (s.applyAll img).2 := by
  refine .foldl2 (fun p t hp => ?_) (.pair h)
  split
  · split
    · rename_i e
      exact .of_snd e hp.applySection
    · rename_i e
      exact .of_snd e hp.applySection
  · exact hp

end Sys2Proof.Machine
end

section
/-!
IMAGE_LOAD_DONE of an image that holds (O23, R350): the groups without a part are fenced, and the phase follows.
-/
namespace Sys2Proof.Machine

variable {o s : State}

/-- `s` comes from `o` by fences of clause groups: the start sequence and the causes are those of `o`, and no operation under way in `s` was
asked for by TABLE_WRITE. -/
structure Fences (o s : State) : Prop extends SameBoot o s where
  causes : s.flt.causes = o.flt.causes
  unasked : Unasked s

namespace Fences

theorem foldl {α : Type} {f : State → α → State} {l : List α} (h : Fences o s) (hf : ∀ s x, x ∈ l → Fences o s → Fences o (f s x)) :
    Fences o (l.foldl f s) := List.foldlRecOn (motive := Fences o) l f h fun s hs x hx => hf s x hx hs

/-- An update of coaches, pools, threads and units, and of the raises. -/
theorem upd {c p t u r} (h : Fences o s) :
    Fences o { s with coaches := c, pool := p, cpu := t, units := u, flt := { s.flt with raises := r } } :=
  ⟨⟨h.boot, h.reg⟩, h.causes, h.unasked⟩

theorem setCls {x : ClsSt} (h : Fences o s) (hx : Unasked { s with cls := x }) : Fences o { s with cls := x } := ⟨⟨h.boot, h.reg⟩, h.causes, hx⟩

theorem setFld {a lo len v} (h : Fences o s) (ha : a ≠ bootB) : Fences o (s.setFld a lo len v) :=
  ⟨h.toSameBoot.setFld ha, h.causes, h.unasked.setFld⟩

theorem endClause (h : Fences o s) : Fences o { s with cls := { s.cls with upd := none } } :=
  h.setCls ⟨fun _ hu => (nomatch hu), h.unasked.2⟩

theorem endForwarding (h : Fences o s) : Fences o { s with cls := { s.cls with fwdUpd := none } } :=
  h.setCls ⟨h.unasked.1, fun _ hu => nomatch hu⟩

theorem scheduleCommit (h : Fences o s) : Fences o s.scheduleCommit := by
  unfold State.scheduleCommit
  split
  · exact h.setCls (h.unasked.setCls rfl rfl)
  · exact h

theorem clauseCut {g} (h : Fences o s) : Fences o (s.clauseCut g) := by
  unfold State.clauseCut
  split
  · next u hu =>
    split
    · exact h.setCls ⟨fun v hv => by cases hv; exact h.unasked.1 u hu, h.unasked.2⟩
    · exact h
  · exact h

/-- A clause operation that was cut short ends without effect, and nobody waits for its answer. -/
theorem clauseFinish {u : Update} (h : Fences o s) (hUpd : s.cls.upd = some u) (hCut : u.status = 6) : Fences o s.clauseFinish := by
  have hAsked : u.jen = false := h.unasked.1 u hUpd
  unfold State.clauseFinish
  rw [hUpd]
  simp -zeta only [hCut, hAsked, Bool.false_eq_true, if_false]
  extract_lets c s1 _ _ s2
  have h1 : Fences o s1 := by rw [show s1 = s from if_neg (by decide)]; exact h
  have h2 : Fences o ((s1.setFld c 12 3 6).setBit c 8 false) := (h1.setFld (by decide)).setFld (by decide)
  exact h2.endClause.scheduleCommit

/-- A forwarding operation that was cut short ends without effect, and nobody waits for its answer. -/
theorem fwdFinish {u : Update} (h : Fences o s) (hUpd : s.cls.fwdUpd = some u) (hCut : u.status = 6) : Fences o s.fwdFinish := by
  have hAsked : u.jen = false := h.unasked.2 u hUpd
  unfold State.fwdFinish
  rw [hUpd]
  simp -zeta only [hCut, hAsked, Bool.false_eq_true, if_false]
  extract_lets st out s1 _ _ s2
  have hStatus : st ≠ 0 := by simp [st]
  have h1 : Fences o s1 := by rw [show s1 = s from if_pos hStatus]; exact h
  have h2 : Fences o ((s1.setFld fwdCtl 12 3 st).setBit fwdCtl 8 false) := (h1.setFld (by decide)).setFld (by decide)
  exact h2.endForwarding.scheduleCommit

/-- The operation under way, where `updEnd` finds one that was cut short. -/
theorem cut_some {x : Option Update} (h : x.any (fun u => u.status == 6) = true) : ∃ u, x = some u ∧ u.status = 6 := by
  cases x with
  | none => cases h
  | some u => exact ⟨u, rfl, by simpa using h⟩

theorem updEnd (h : Fences o s) : Fences o s.updEnd := by
  unfold State.updEnd
  extract_lets cut s1
  have h1 : Fences o s1 := by
    unfold s1
    split
    · next hAny =>
      obtain ⟨u, hUpd, hStatus⟩ := cut_some hAny
      simp only [State.clauseDone, hUpd, hStatus]
      exact h.clauseFinish hUpd hStatus
    · exact h
  clear_value s1
  split
  · next hAny =>
    obtain ⟨u, hUpd, hStatus⟩ := cut_some hAny
    simp only [State.fwdDone, hUpd, hStatus]
    exact h1.fwdFinish hUpd hStatus
  · exact h1

theorem entryWrite {k c r} (h : Fences o s) : Fences o (s.entryWrite k c r) := by
  unfold State.entryWrite
  have h1 : Fences o (s.setCoach k (c.entryResult s.coreNow r)) := h.upd
  generalize s.setCoach k (c.entryResult s.coreNow r) = t at h1 ⊢
  unfold State.takeReserve
  split
  · exact h1
  · split
    · exact h1.upd
    · exact h1

/-- An entry search of the clauses is answered in its coach. -/
theorem serveEntry {q : Srq} (h : Fences o s) (hEng : q.eng = 0) : Fences o (s.serveEntry q false) := by
  unfold State.serveEntry
  split
  · exact h
  · simp only [hEng, if_true, Bool.false_and, Bool.false_eq_true, if_false]
    split
    · exact h.upd
    · exact h.entryWrite

theorem absentReqs {p : Srq → Bool} (h : Fences o s) (hp : ∀ q, p q = true → q.eng = 0) : Fences o (s.absentReqs p) := by
  unfold State.absentReqs
  extract_lets s1
  have h1 : Fences o s1 := h.foldl fun s q hq hs => hs.serveEntry (hp q (Bool.and_eq_true_iff.mp (List.mem_filter.mp hq).2).2)
  exact h1.upd

theorem fenceUnit {g} (h : Fences o s) (hg : g < 32) : Fences o (s.fenceUnit (unitId 3 g) none) := by
  unfold State.fenceUnit
  extract_lets x
  split
  · exact h
  · have hFence : Fences o (s.fence (unitId 3 g) none) := by
      unfold State.fence
      extract_lets y e
      split
      · exact h
      · exact (show Fences o (s.setUnit _ _) from h.upd).upd
    generalize s.fence (unitId 3 g) none = t at hFence ⊢
    have hClass : unitId 3 g / 256 = 3 := by simp only [unitId]; omega
    have hIndex : unitId 3 g % 256 = g := by simp only [unitId]; omega
    unfold State.fenceEffect
    rw [hClass, hIndex]
    exact hFence.clauseCut.updEnd.absentReqs fun q hq => eq_of_beq (Bool.and_eq_true_iff.mp hq).1

theorem fenceShort (h : Fences o s) : Fences o s.fenceShort := by
  unfold State.fenceShort
  refine h.foldl fun t b _ ht => ?_
  split
  · next g hGroup => exact ht.fenceUnit (List.mem_range.mp (List.mem_of_find?_eq_some hGroup))
  · exact ht

theorem rawStart (h : Fences o s) : Fences o s.rawStart := by
  unfold State.rawStart
  refine h.foldl fun t j hj ht => ?_
  have hRaw : rawR j 4 ≠ bootB := by have := List.mem_range.mp hj; simp only [rawR, parseB, bootB, block]; omega
  split
  · exact ((show Fences o (t.setRaw j {}) from ht.setCls (ht.unasked.setCls rfl rfl)).setFld hRaw).setFld hRaw
  · exact ht

end Fences

/-! ### What an image is applied to (R350) -/

theorem Unasked.dramOut {x st} (h : Unasked s) : Unasked (s.dramOut x st) := h.setFld.setFld.setBit.setFld.upd.unitState

theorem Unasked.excludeChannel {img} (h : Unasked s) : Unasked (s.excludeChannel img) := by
  unfold State.excludeChannel
  split
  · exact .ite h h.dramOut
  · exact h

/-- A packet path that has not run has no operation under way. -/
theorem Unasked.freshPath : Unasked s.freshPath := by
  unfold State.freshPath
  extract_lets up mine check s1 _ s2 lanes s3
  have h2 : Unasked s2 := .of_none rfl rfl
  have h3 : Unasked s3 := .foldl (fun _ _ h => .ite h h.setFld) h2
  exact .foldl (fun _ _ h => h.setBit) h3

/-- The registers of the image that has been applied: its slot in BOOT_STATUS, and what the load check left. -/
theorem showImage_shows {slot : Nat} {a b : Word} {key : Nat} {u : State}
    (hU : ((((((s.setFld bootB 4 1 slot).setReg (bootB + 4) a).setReg (bootB + 8) b).setFld (bootB + 0x1C) 4 2 key).showSlot slot 1 0)) = u) :
    u.fld bootB 4 1 = slot % 2 ∧ u.fld (stnB + 4) 8 4 = s.fld (stnB + 4) 8 4 ∧ u.flt = s.flt ∧ u.cls = s.cls := by
  have hBoot : SameBoot (s.setFld bootB 4 1 slot) u :=
    hU ▸ ((((SameBoot.refl).setReg (by decide)).setReg (by decide)).setFld (by decide)).showSlot
  have hSlot : stnB + 4 ≠ slotR slot := by simp only [slotR, stnB, bootB, block]; omega
  refine ⟨(hBoot.fld 4 1).trans (State.fld_setFld _ _ _ _ _ (by omega)), ?_, ?_, ?_⟩
  · have hReg : u.reg (stnB + 4) = s.reg (stnB + 4) := by
      subst hU
      rw [State.showSlot, State.setFld, State.reg_setReg, if_neg hSlot, State.setFld, State.reg_setReg, if_neg hSlot, State.setFld,
        State.reg_setReg, if_neg (by decide), State.reg_setReg, if_neg (by decide), State.reg_setReg, if_neg (by decide), State.setFld,
        State.reg_setReg, if_neg (by decide)]
    rw [State.fld, State.fld, hReg]
  · subst hU; simp [State.showSlot]
  · subst hU; simp [State.showSlot]

/-- An image that has been applied whole goes into force. -/
theorem loadGood_shows {slot : Nat} {img : List Byte} (h : Unasked s) {u : State} (hU : s.loadGood slot img = u) :
    u.boot.loading = none ∧ u.fld bootB 4 1 = slot % 2
      ∧ u.fld bootB 0 4 = if s.fld (stnB + 4) 8 4 = 13 ∨ aget (fun _ => false) s.flt.causes Src.carrierId = true then 9 else 5 := by
  unfold State.loadGood at hU
  extract_lets s1 s2 s3 degraded _ s4 s5 s6 at hU
  obtain ⟨hSlot, hCheck, hFlt, hCls⟩ := showImage_shows (s := s) (u := s3) rfl
  have hUnasked : Unasked s3 := by rw [Unasked, hCls]; exact h
  have hDegraded : degraded = true ↔ s.fld (stnB + 4) 8 4 = 13 := by rw [← hCheck]; exact beq_iff_eq
  have hReady : s4.boot.loading = none ∧ s4.fld bootB 4 1 = s3.fld bootB 4 1 ∧ s4.flt = s3.flt := ⟨rfl, rfl, rfl⟩
  have hUnasked4 : Unasked s4 := hUnasked.upd
  clear_value s3 s4 degraded
  obtain ⟨hLoading, hSlot4, hFlt4⟩ := hReady
  have hFences : Fences s4 s5 := Fences.fenceShort (Fences.rawStart ⟨.refl, rfl, hUnasked4⟩)
  clear_value s5
  have hMarked : s6.boot = s5.boot ∧ s6.fld bootB 4 1 = s5.fld bootB 4 1 ∧ s6.flt.causes = s5.flt.causes := by
    unfold s6
    split
    · exact ⟨rfl, State.fld_setFld_ne _ _ _ _ _ _ _ _ (by omega), rfl⟩
    · exact ⟨rfl, rfl, rfl⟩
  clear_value s6
  obtain ⟨hBoot6, hSlot6, hCauses6⟩ := hMarked
  have hCauses : s6.flt.causes = s.flt.causes := by rw [hCauses6, hFences.causes, hFlt4, hFlt]
  have hEnd := hU ▸ SameBoot.refl.bootRecord
  refine ⟨?_, ?_, ?_⟩
  · rw [hEnd.boot, ← hLoading, ← hFences.boot, ← hBoot6]
    rfl
  · rw [hEnd.fld 4 1, State.setPhase, State.fld_setFld_ne _ _ _ _ _ _ _ _ (by omega), hSlot6, hFences.fld 4 1, hSlot4, hSlot]
  · rw [hEnd.fld 0 4, setPhase_phase (by split <;> decide), hCauses]
    simp only [Bool.or_eq_true, hDegraded]

/-- Where the image's signature holds and every section is applied, what is left to do is `loadGood`. -/
theorem loadImage_applied {nor : Bool} {slot : Nat} {h w : State} {img : List Byte} (hPhase : s.fld bootB 0 4 = 3)
    (hLoading : s.boot.loading = some slot) (hHeader : (s.norFails slot nor).readHeader slot = h) (hGood : h.fld (slotR slot) 4 2 = 1)
    (hImg : h.norBytes slot 0 (imageLen (h.norBytes slot 0 256)) = img) (hFault : h.imageFault slot img = none)
    (hApply : ((((h.storeBytes (h.dramEnd - img.length) img).freshPath.takeImage slot img).excludeChannel img).setPhase 4).applyAll img = (none, w)) :
    s.loadImage nor = w.loadGood slot img := by
  unfold State.loadImage
  rw [hLoading]
  simp only [hPhase, ne_eq, not_true, if_false, hHeader, hGood, hImg, hFault, hApply]

end Sys2Proof.Machine
end

section
/-!
The start sequence (O23), put together from its commands.
-/
namespace Sys2Proof.Machine

/-- Settles O23: each command of the start sequence is followed through the phase, the record of the start and the registers it writes; that
an image in force has its phase rests on no operation of TABLE_WRITE being under way while sections are applied. -/
theorem startSequenceResults : Obligations.StartSequenceResults := by
  unfold Obligations.StartSequenceResults
  intro r fa fb nor slot s read h img staged epoch
  refine ⟨fun hPhase hReset => ⟨_, rfl, bist_done hPhase hReset⟩,
    fun hIdle => congrArg Host.Outcome.next (bist_idle hIdle),
    fun hIdle => congrArg Host.Outcome.next (selectImage_idle hIdle),
    fun hIdle => congrArg Host.Outcome.next (loadImage_idle hIdle),
    fun hIdle => congrArg Host.Outcome.next (pathStart_idle hIdle),
    fun hIdle => congrArg Host.Outcome.next (epochBoundary_idle hIdle),
    fun x hPhase hChoice => ⟨_, rfl, selectImage_chosen hPhase hChoice rfl⟩,
    fun hPhase hChoice => ⟨_, rfl, selectImage_none hPhase hChoice rfl⟩,
    fun hPhase hLoading hBad hTried => ⟨_, rfl, loadImage_fails hPhase hLoading hBad hTried rfl⟩,
    fun w hPhase hLoading hGood hFault hApply => ⟨_, rfl, ?_⟩,
    fun hReady hRun => ⟨_, rfl, pathStart_starts hReady hRun rfl⟩,
    fun hRun hFits => ⟨_, rfl, epochBoundary_counts hRun hFits rfl⟩⟩
  have hStaged : Unasked staged :=
    (Unasked.excludeChannel (Unasked.freshPath.upd : Unasked ((h.storeBytes (h.dramEnd - img.length) img).freshPath.takeImage slot img))).setPhase
  have hApplied : Unasked w := .of_snd hApply hStaged.applyAll
  exact loadGood_shows hApplied (loadImage_applied hPhase hLoading rfl hGood rfl hFault hApply).symm

end Sys2Proof.Machine
end

section
/-!
A step, and the cycle that passes on an empty queue (O52).
-/
namespace Sys2Proof.Machine

variable {s : State}

theorem idle_now : s.idle.now = if s.bit timeB 0 = true then s.now + tickU else s.now := by
  unfold State.idle
  split
  · exact Nat.max_eq_right (Nat.le_add_right s.now tickU)
  · rfl

/-- What a step on an empty queue changes is the time alone. -/
theorem idle_rest : ∃ t, s.idle = { s with time := t } := by
  unfold State.idle
  split
  · exact ⟨_, rfl⟩
  · exact ⟨s.time, rfl⟩

/-- Settles O52: a step is read off its definition, and every command answers a next state by the case split of O55. -/
theorem stepAndIdle : Obligations.StepAndIdle := by
  unfold Obligations.StepAndIdle
  refine ⟨fun c rest s hFront => ?front, fun c s => ?answers, fun s hEmpty => ?idle⟩
  case front => rw [step, hFront]
  case answers =>
    obtain ⟨t, hNext, -⟩ := Keeps.refl.exec (s := s) c
    exact ⟨t, hNext⟩
  case idle =>
    refine ⟨s.idle, by rw [step, hEmpty], idle_now, ?_⟩
    obtain ⟨t, hRest⟩ := idle_rest (s := s)
    rw [hRest]
    exact ⟨rfl, rfl, rfl, rfl, rfl, rfl, rfl, rfl, hEmpty⟩

end Sys2Proof.Machine
end

section
/-!
What placing the edges of the timing outputs again leaves alone (R99), and what a change of a clock's count rule does (R62, R63, R68).
-/
namespace Sys2Proof.Machine

variable {o s : State} {n k : Nat}

/-- A bit that hardware sets is a bit set. -/
theorem latch_reg (a i b : Nat) : (s.latch a i).reg b = (s.setBit a i true).reg b := by
  rw [State.reg, State.reg, show (s.latch a i).ctl = (s.setBit a i true).ctl from rfl]

/-! ### Placing edges again (R99) -/

/-- `s` comes from `o` by changes of the timing outputs alone: their records, contacts and the registers of the TIO block. -/
structure Placed (o s : State) : Prop where
  rest : ∃ c t l, s = { o with ctl := c, tio := t, latched := l }
  reg : ∀ a, a < tioB ∨ laneB ≤ a → s.reg a = o.reg a

namespace Placed

theorem refl : Placed o o := ⟨⟨_, _, _, rfl⟩, fun _ _ => rfl⟩

theorem trans {t : State} (h : Placed o s) (g : Placed s t) : Placed o t := by
  refine ⟨?_, fun a ha => (g.reg a ha).trans (h.reg a ha)⟩
  obtain ⟨_, _, _, rfl⟩ := h.rest
  obtain ⟨_, _, _, rfl⟩ := g.rest
  exact ⟨_, _, _, rfl⟩

theorem ite {c : Prop} [Decidable c] {a b : State} (ha : Placed o a) (hb : Placed o b) : Placed o (if c then a else b) := by
  split <;> assumption

theorem foldl {α : Type} {f : State → α → State} {l : List α} (h : Placed o s) (hf : ∀ s, ∀ x ∈ l, Placed o s → Placed o (f s x)) :
    Placed o (l.foldl f s) := List.foldlRecOn (motive := Placed o) l f h fun s hs x hx => hf s x hx hs

theorem time (h : Placed o s) : s.time = o.time := by obtain ⟨_, _, _, rfl⟩ := h.rest; rfl
theorem flt (h : Placed o s) : s.flt = o.flt := by obtain ⟨_, _, _, rfl⟩ := h.rest; rfl
theorem jen (h : Placed o s) : s.jen = o.jen := by obtain ⟨_, _, _, rfl⟩ := h.rest; rfl

theorem now (h : Placed o s) : s.now = o.now := congrArg TimeSt.now h.time

theorem inst (h : Placed o s) (m : Nat) : s.inst m = o.inst m := by rw [State.inst, State.inst, h.time]

theorem upd {t : TioSt} (h : Placed o s) : Placed o { s with tio := t } := h.trans ⟨⟨_, _, _, rfl⟩, fun _ _ => rfl⟩

theorem setReg {a w} (h : Placed o s) (ha : tioB ≤ a ∧ a < laneB) : Placed o (s.setReg a w) :=
  h.trans ⟨⟨_, _, _, rfl⟩, fun b hb => (State.reg_setReg s a w b).trans (if_neg (by omega))⟩

theorem setFld {a lo len v} (h : Placed o s) (ha : tioB ≤ a ∧ a < laneB) : Placed o (s.setFld a lo len v) := h.setReg ha

theorem setBit {a i b} (h : Placed o s) (ha : tioB ≤ a ∧ a < laneB) : Placed o (s.setBit a i b) := h.setFld ha

theorem latch {a i} (h : Placed o s) (ha : tioB ≤ a ∧ a < laneB) : Placed o (s.latch a i) :=
  (h.setBit (i := i) (b := true) ha).trans ⟨⟨_, _, _, rfl⟩, fun b _ => latch_reg a i b⟩

/-- The registers of the 24 trigger outputs lie in the TIO block. -/
theorem trigR_within {i r : Nat} (hi : i < 24) (hr : r < 0x10) : tioB ≤ trigR i r ∧ trigR i r < laneB := by
  simp only [trigR, tioB, laneB, block]
  omega

theorem driveFn {f l} (h : Placed o s) : Placed o (s.driveFn f l) := .ite h.upd h

theorem driveOut {i l} (h : Placed o s) : Placed o (s.driveOut i l) := .ite h h.driveFn

theorem outToSafe {i} (h : Placed o s) : Placed o (s.outToSafe i) := .ite h h.driveFn

theorem restOut {i pulse} (h : Placed o s) : Placed o (s.restOut i pulse) := .ite h h.driveOut

theorem setTrig {i t} (h : Placed o s) : Placed o (s.setTrig i t) := h.upd

theorem setPpso {j p} (h : Placed o s) : Placed o (s.setPpso j p) := h.upd

theorem trigAdvance {i t} (h : Placed o s) (hi : i < 24) : Placed o (s.trigAdvance i t) :=
  ((h.setFld (trigR_within hi (by decide))).setBit (trigR_within hi (by decide))).setTrig

theorem skipPulses {i t j} (h : Placed o s) (hi : i < 24) : Placed o (s.skipPulses i t j) := by
  unfold State.skipPulses
  extract_lets s1 t1
  have h1 : Placed o s1 := .ite (h.setFld (trigR_within hi (by decide))) h
  exact .ite (h1.trigAdvance hi) h1.setTrig

theorem forceOut {i} (h : Placed o s) : Placed o (s.forceOut i) := by
  unfold State.forceOut
  split
  · next hi =>
    extract_lets t s1
    have h1 : Placed o s1 := h.setTrig
    exact outToSafe (.ite (h1.latch (trigR_within hi (by decide))) h1)
  · exact h.setPpso.outToSafe

theorem replaceTrig {ci i} (h : Placed o s) (hi : i < 24) : Placed o (s.replaceTrig ci k i) := by
  unfold State.replaceTrig
  extract_lets t s1 s2
  have h1 : Placed o s1 := h.restOut
  have h2 : Placed o s2 := by
    unfold s2
    split
    · split
      · exact .ite h1 h1.setTrig
      · exact h1
    · exact h1
  exact .ite (.ite h.forceOut (.ite h2 (h2.skipPulses hi))) h

theorem replacePpso {ci j} (h : Placed o s) : Placed o (s.replacePpso ci k j) := by
  unfold State.replacePpso
  extract_lets mine s1
  have h1 : Placed o s1 := .ite h.restOut h
  refine .ite h.forceOut ?_
  split
  · split
    · exact .ite h1 h1.setPpso
    · exact h1
  · exact h1

theorem replaceEdges {ci} (h : Placed o s) : Placed o (s.replaceEdges ci k) :=
  (h.foldl fun _ _ hi h => h.replaceTrig (List.mem_range.mp hi)).foldl fun _ _ _ h => h.replacePpso

end Placed

/-! ### A segment opens (R68) -/

theorem settleSlew_of_none {i : Inst} (h : i.slew = none) : i.settleSlew k = i := by
  rw [Inst.settleSlew, h]

/-- Settling a slew changes what is left of it, and no other field. -/
theorem settleSlew_rest (i : Inst) (k : Nat) : ∃ w, i.settleSlew k = { i with slew := w } := by
  unfold Inst.settleSlew
  split
  · exact ⟨_, rfl⟩
  · exact ⟨i.slew, rfl⟩

/-- The newest segment of a clock that opens one. -/
theorem openSeg_head (i : Inst) (k v : Nat) :
    ∃ g, (i.openSeg k v).segs.head? = some g ∧ g.k = k ∧ g.v = v ∧ (i.slew = none → g.incr = i.incr) := by
  refine ⟨_, rfl, rfl, rfl, fun hNone => ?_⟩
  simp [hNone]

theorem openSeg_slew_none {i : Inst} {v : Nat} (h : i.slew = none) : (i.openSeg k v).slew = none := by
  simp [Inst.openSeg, h]

/-- The slew of a clock that opens a segment takes its part, and keeps what is left of it and its size. -/
theorem openSeg_slew_some {i : Inst} {v : Nat} {w : Slew} (h : i.slew = some w) :
    ∃ x, (i.openSeg k v).slew = some x ∧ x.left = w.left ∧ x.size = w.size := by
  simp [Inst.openSeg, h]

theorem resegOut_placed (s : State) (n k : Nat) (f : Inst → Inst) : Placed (s.reseg n k f) (s.resegOut n k f) := Placed.refl.replaceEdges

/-- The clock whose count rule changes. -/
theorem resegOut_inst (s : State) (n k : Nat) (f : Inst → Inst) :
    (s.resegOut n k f).inst n = (f ((s.inst n).settleSlew k)).openSeg k (s.instAt n k) := by
  rw [(resegOut_placed s n k f).inst, State.reseg, State.inst_setInst, if_pos rfl]

theorem resegOut_flt (s : State) (n k : Nat) (f : Inst → Inst) : (s.resegOut n k f).flt = s.flt := (resegOut_placed s n k f).flt

theorem resegOut_jen (s : State) (n k : Nat) (f : Inst → Inst) : (s.resegOut n k f).jen = s.jen := (resegOut_placed s n k f).jen

theorem resegOut_now (s : State) (n k : Nat) (f : Inst → Inst) : (s.resegOut n k f).now = s.now := (resegOut_placed s n k f).now

theorem resegOut_reg (s : State) (n k : Nat) (f : Inst → Inst) {a : Nat} (ha : a < tioB) : (s.resegOut n k f).reg a = s.reg a :=
  (resegOut_placed s n k f).reg a (.inl ha)

/-! ### Registers of the clocks -/

theorem ciR_ne {r q : Nat} (h : r ≠ q) : ciR n r ≠ ciR n q := by
  simp only [ciR]
  omega

/-- The registers of the nine clocks lie in the TIME block. -/
theorem ciR_lt {r : Nat} (hn : n < 9) (hr : r < 0x40) : ciR n r < tioB := by
  simp only [ciR, timeB, tioB, block]
  omega

/-! ### The increment (R62) -/

/-- The increment that a commit of `x` takes: within 500 ppm of INCR_nom. -/
def takenIncr (x : Nat) : Nat := max 351667799027876 (min 352019642748764 x)

theorem takenIncr_lt (x : Nat) : takenIncr x < 2 ^ 64 := by
  unfold takenIncr
  omega

theorem clampIncr_eq (x : Nat) : clampIncr x = (takenIncr x, decide (x ≠ takenIncr x)) := by
  unfold clampIncr incrMin incrMax takenIncr
  split
  · simp; omega
  · split
    · simp; omega
    · simp; omega

theorem showIncr_flt (s : State) (n : Nat) : (s.showIncr n).flt = s.flt := rfl

theorem showIncr_jen (s : State) (n : Nat) : (s.showIncr n).jen = s.jen := rfl

theorem showIncr_inst (s : State) (n m : Nat) : (s.showIncr n).inst m = s.inst m := rfl

theorem reg2_showIncr (hFree : (s.inst n).heldLo = none) (hFits : (s.inst n).incr < 2 ^ 64) :
    (s.showIncr n).reg2 (ciR n 0x10) (ciR n 0x14) = (s.inst n).incr := by
  unfold State.showIncr State.reg2
  simp only [State.reg_setReg, if_neg (ciR_ne (n := n) (r := 0x10) (q := 0x14) (by decide)), if_true, hFree, Option.getD_none,
    BitVec.toNat_ofNat]
  omega

/-- What a commit of `x` leaves (R62). -/
structure Committed (n x : Nat) (s u : State) : Prop where
  incr : (u.inst n).incr = takenIncr x
  held : (u.inst n).heldLo = none
  shown : u.reg2 (ciR n 0x10) (ciR n 0x14) = takenIncr x
  alarm : x ≠ takenIncr x → Raises u (Src.ciAlarm n)
  opened : ∃ g, (u.inst n).segs.head? = some g ∧ g.k = s.tick + 1 ∧ g.v = s.instAt n (s.tick + 1)
    ∧ ((s.inst n).slew = none → g.incr = takenIncr x)
  jen : u.jen = s.jen

theorem inst_congr {r : State} (h : r.time = s.time) (m : Nat) : r.inst m = s.inst m := by rw [State.inst, State.inst, h]

theorem tick_congr {r : State} (h : r.time = s.time) : r.tick = s.tick := by rw [State.tick, State.tick, State.now, State.now, h]

theorem instAt_congr {r : State} (h : r.time = s.time) (m j : Nat) : r.instAt m j = s.instAt m j := by
  rw [State.instAt, State.instAt, inst_congr h]

/-- A clock takes the increment `x` and shows it, after the alarm where there is one. -/
theorem resegOut_commits {r : State} {x : Nat} (hTime : r.time = s.time) (hJen : r.jen = s.jen)
    (hAlarm : x ≠ takenIncr x → Raises r (Src.ciAlarm n)) :
    Committed n x s ((r.resegOut n (r.tick + 1) (fun i => { i with incr := takenIncr x, heldLo := none, hwHold := false })).showIncr n) := by
  rw [tick_congr hTime]
  generalize hf : (fun i : Inst => { i with incr := takenIncr x, heldLo := none, hwHold := false }) = f
  have hInst : (r.resegOut n (s.tick + 1) f).inst n = (f ((s.inst n).settleSlew (s.tick + 1))).openSeg (s.tick + 1) (s.instAt n (s.tick + 1)) := by
    rw [resegOut_inst, inst_congr hTime, instAt_congr hTime]
  have hIncr : ((r.resegOut n (s.tick + 1) f).inst n).incr = takenIncr x := by rw [hInst, ← hf]; rfl
  have hHeld : ((r.resegOut n (s.tick + 1) f).inst n).heldLo = none := by rw [hInst, ← hf]; rfl
  have hFits : ((r.resegOut n (s.tick + 1) f).inst n).incr < 2 ^ 64 := by rw [hIncr]; exact takenIncr_lt x
  have hFlt : ((r.resegOut n (s.tick + 1) f).showIncr n).flt = r.flt := (showIncr_flt _ n).trans (resegOut_flt r n (s.tick + 1) f)
  refine ⟨(congrArg Inst.incr (showIncr_inst _ n n)).trans hIncr, (congrArg Inst.heldLo (showIncr_inst _ n n)).trans hHeld,
    (reg2_showIncr hHeld hFits).trans hIncr, fun hOut => ?_, ?_, ((showIncr_jen _ n).trans (resegOut_jen r n (s.tick + 1) f)).trans hJen⟩
  · rw [Raises, hFlt]
    exact hAlarm hOut
  · obtain ⟨g, hHead, hK, hV, hSlew⟩ := openSeg_head (f ((s.inst n).settleSlew (s.tick + 1))) (s.tick + 1) (s.instAt n (s.tick + 1))
    refine ⟨g, (congrArg (fun i => i.segs.head?) ((showIncr_inst _ n n).trans hInst)).trans hHead, hK, hV, fun hNone => ?_⟩
    rw [settleSlew_of_none hNone, ← hf] at hSlew
    exact hSlew hNone

theorem commitIncr_commits (s : State) (n x : Nat) : Committed n x s (s.commitIncr n x) := by
  unfold State.commitIncr
  rw [clampIncr_eq]
  dsimp only
  split
  · exact resegOut_commits rfl rfl fun _ => raises_raise _ _ _
  · next hIn => exact resegOut_commits rfl rfl fun hOut => absurd (decide_eq_true hOut) hIn

end Sys2Proof.Machine
end

section
/-!
Increments, slews and steps of the clocks (O16).
-/
namespace Sys2Proof.Machine

variable {s : State} {n k : Nat}

/-! ### Bits that a command sets in the word it writes -/

theorem getField_or_of_zero {w : Nat} (v m : BitVec w) {lo len : Nat} (h : m.extractLsb' lo len = 0#len) :
    getField (v ||| m) lo len = getField v lo len := by
  rw [getField, getField, BitVec.extractLsb'_or, h, BitVec.or_zero]

theorem getField_or_of_one {w : Nat} (v m : BitVec w) {lo : Nat} (h : m.extractLsb' lo 1 = 1#1) : getField (v ||| m) lo 1 = 1 := by
  have hOne : ∀ b : BitVec 1, (b ||| 1#1).toNat = 1 := by decide
  rw [getField, BitVec.extractLsb'_or, h, hOne]

theorem setFld_reg_ne {a b : Nat} (h : b ≠ a) (lo len v : Nat) : (s.setFld a lo len v).reg b = s.reg b :=
  (State.reg_setReg s a _ b).trans (if_neg h)

/-! ### States of a clock -/

/-- The state of a clock is a matter of CI0's mark and of its own TIME_CInHOLD. -/
theorem instState_congr {r : State} {m : Nat} (hTime : r.time.ci0Invalid = s.time.ci0Invalid) (hReg : r.reg (ciR m 0x3C) = s.reg (ciR m 0x3C)) :
    r.instState m = s.instState m := by
  rw [State.instState, State.instState, State.fld, State.fld, hTime, hReg]

/-- What a change of state of a clock other than CI0 leaves: the state in TIME_CInHOLD, and notices. -/
theorem setInstState_quiet (hn : n ≠ 0) (st : Nat) : s.setInstState n st = s ∨ Quiet (s.setFld (ciR n 0x3C) 0 2 st) (s.setInstState n st) := by
  unfold State.setInstState
  dsimp only
  split
  · exact .inl rfl
  · exact .inr (Quiet.bumpGen .refl).notice

theorem setInstState_time (hn : n ≠ 0) (st : Nat) : (s.setInstState n st).time = s.time := by
  rcases setInstState_quiet (s := s) hn st with h | h
  · rw [h]
  · exact h.time

/-! ### Slews (R63) -/

theorem startSlew_starts (s : State) (n : Nat) (amount : Int) (rate : Nat) : (s.startSlew n amount rate).bit (ciR n 0x1C) 10 = true
    ∧ ∃ w, ((s.startSlew n amount rate).inst n).slew = some w ∧ w.left = amount * 2 ^ 40 ∧ w.size = slewSize rate := by
  unfold State.startSlew
  refine ⟨State.bit_setBit _ _ _ _ (by decide), ?_⟩
  dsimp only
  rw [State.setBit_inst, resegOut_inst]
  exact openSeg_slew_some (w := ⟨amount * 2 ^ 40, slewSize rate, 0⟩) rfl

theorem startSlew_jen (s : State) (n : Nat) (amount : Int) (rate : Nat) : (s.startSlew n amount rate).jen = s.jen := by
  unfold State.startSlew
  exact (State.setBit_jen _ _ _ _).trans (resegOut_jen _ _ _ _)

/-- A write of TIME_CInSLEW with START starts the slew of its rate. -/
theorem slewWrite_start {v : Word} (hn : n ≠ 0) (hStart : getField v 9 1 = 1) :
    s.slewWrite n v = (s.setFld (ciR n 0x1C) 0 9 (getField v 0 9)).startSlew n (s.reg (ciR n 0x18)).toInt (getField v 0 9) := by
  have hAmount : (s.setFld (ciR n 0x1C) 0 9 (getField v 0 9)).sfld (ciR n 0x18) 0 32 = (s.reg (ciR n 0x18)).toInt := by
    rw [State.sfld, State.setFld, State.reg_setReg, if_neg (ciR_ne (by decide)), getSigned, BitVec.extractLsb'_eq_self]
  unfold State.slewWrite
  rw [if_neg hn]
  dsimp only
  rw [if_pos hStart, hAmount]

theorem endSlew_ends {w : Slew} {g : Segment} {r : List Segment} (hSlew : (s.inst n).slew = some w) (hSegs : (s.inst n).segs = g :: r)
    (hPart : w.part ≠ 0) : ((s.endSlew n).inst n).slew = none ∧ (s.endSlew n).bit (ciR n 0x1C) 10 = false := by
  have hCleared (u : State) (t : Nat) (hu : (u.inst n).slew = none) :
      ((((u.setBit (ciR n 0x1C) 10 false).advance t).inst n).slew = none
        ∧ ((u.setBit (ciR n 0x1C) 10 false).advance t).bit (ciR n 0x1C) 10 = false) :=
    ⟨hu, (State.advance_bit _ _ _ _).trans (State.bit_setBit _ _ _ _ (by decide))⟩
  unfold State.endSlew
  rw [hSlew, hSegs]
  dsimp only
  rw [if_neg (by simp [hPart])]
  refine hCleared _ _ ?_
  split
  · rw [resegOut_inst]
    exact openSeg_slew_none rfl
  · rw [resegOut_inst]
    exact openSeg_slew_none rfl

theorem endSlew_idle (h : (s.inst n).slew = none) : s.endSlew n = s := by
  unfold State.endSlew
  rw [h]

/-! ### Arming a step (R64, R65) -/

/-- The step that a write of `v` to TIME_CInSTEP_CTL arms. -/
def State.armed (s : State) (n : Nat) (v : Word) : ArmedStep :=
  { instant := ((secOf s.now / 2 ^ 32 * 2 ^ 32 + (s.reg (ciR n 0x20)).toNat) * 1000000000 + (s.reg (ciR n 0x24)).toNat) * nsU,
    absolute := getField v 1 1 = 1,
    sec := if getField v 1 1 = 1 then BitVec.ofNat 48 (getField v 16 16 * 2 ^ 32 + (s.reg (ciR n 0x28)).toNat)
      else (s.reg (ciR n 0x28)).signExtend 48,
    ns := s.reg (ciR n 0x2C) }

theorem armed_sec_absolute {v : Word} (h : getField v 1 1 = 1) :
    (s.armed n v).sec.toNat = getField v 16 16 * 2 ^ 32 + (s.reg (ciR n 0x28)).toNat := by
  have hHigh := getField_lt v 16 16
  rw [State.armed, if_pos h, BitVec.toNat_ofNat]
  omega

theorem armed_sec_relative {v : Word} (h : getField v 1 1 ≠ 1) : (s.armed n v).sec = (s.reg (ciR n 0x28)).signExtend 48 := if_neg h

theorem w1c_time (a mask : Nat) (v : Word) : (s.w1c a mask v).time = s.time := by
  unfold State.w1c
  dsimp only
  split <;> rfl

theorem w1c_reg_ne {a b : Nat} (h : b ≠ a) (mask : Nat) (v : Word) : (s.w1c a mask v).reg b = s.reg b := by
  unfold State.w1c
  dsimp only
  split
  · rfl
  · rw [State.reg_setReg, if_neg h]

/-- A write of TIME_CInSTEP_CTL with ARM arms the step that stands in the registers. -/
theorem stepCtlWrite_arms {v : Word} (hn : n ≠ 0) (hArm : getField v 0 1 = 1) :
    ∃ r : State, r.time = s.time ∧ (∀ b, b ≠ ciR n 0x30 → r.reg b = s.reg b)
      ∧ s.stepCtlWrite n v = r.armStep n (s.armed n v) (s.reg (ciR n 0x24)).toNat := by
  unfold State.stepCtlWrite
  rw [if_neg hn]
  extract_lets a r0 r atNs sec abs lo
  have hReg : ∀ b, b ≠ ciR n 0x30 → r.reg b = s.reg b := fun b hb =>
    (w1c_reg_ne hb _ _).trans ((setFld_reg_ne hb _ _ _).trans (setFld_reg_ne hb _ _ _))
  have hTime : r.time = s.time := w1c_time _ _ _
  refine ⟨r, hTime, hReg, ?_⟩
  have hNow : r.now = s.now := congrArg TimeSt.now hTime
  rw [if_pos hArm]
  simp only [atNs, sec, abs, lo, State.armed, hNow, hReg _ (ciR_ne (n := n) (r := 0x20) (q := 0x30) (by decide)),
    hReg _ (ciR_ne (n := n) (r := 0x24) (q := 0x30) (by decide)), hReg _ (ciR_ne (n := n) (r := 0x28) (q := 0x30) (by decide)),
    hReg _ (ciR_ne (n := n) (r := 0x2C) (q := 0x30) (by decide))]

variable {a : ArmedStep} {atNs : Nat}

theorem stepRefused_absolute (hAbs : a.absolute = true) (hAt : atNs ≤ 999999999) (hNs : a.ns.toNat ≤ 999999999)
    (hAhead : s.now + usU ≤ a.instant) : s.stepRefused n a atNs = false := by
  unfold State.stepRefused
  simp [hAbs, hAt, hNs, hAhead]

theorem stepRefused_relative (hRel : a.absolute = false) (hAt : atNs ≤ 999999999) (hNs : a.ns.toInt.natAbs ≤ 999999999)
    (hState : s.instState n ≠ 3) (hAhead : s.now + usU ≤ a.instant) : s.stepRefused n a atNs = false := by
  unfold State.stepRefused
  simp [hRel, hAt, hNs, hAhead, hState]

theorem stepRefused_of_bad (h : a.instant < s.now + usU ∨ 999999999 < atNs) : s.stepRefused n a atNs = true := by
  unfold State.stepRefused
  rcases h with h | h <;> simp [h]

theorem armStep_arms (h : s.stepRefused n a atNs = false) :
    (s.armStep n a atNs).bit (ciR n 0x30) 0 = true ∧ ((s.armStep n a atNs).inst n).step = some a := by
  unfold State.armStep
  rw [if_neg (by simp [h])]
  refine ⟨State.bit_setBit _ _ _ _ (by decide), ?_⟩
  rw [State.setBit_inst, State.inst_setInst, if_pos rfl]

theorem armStep_refuses (h : s.stepRefused n a atNs = true) : ((s.armStep n a atNs).inst n).step = (s.inst n).step
    ∧ (s.armStep n a atNs).bit (ciR n 0x30) 2 = true ∧ Raises (s.armStep n a atNs) (Src.ciAlarm n) := by
  unfold State.armStep State.refuseStep
  rw [if_pos h]
  refine ⟨rfl, ?_, raises_raise _ _ _⟩
  rw [State.raise_bit, State.bit, latch_reg]
  exact State.bit_setBit _ _ _ _ (by decide)

/-! ### The step takes effect (R64) -/

theorem stepSeg_step (i : Inst) (k v : Nat) : (i.stepSeg k v).step = i.step := by
  have hOpen (k v : Nat) : ((i.settleSlew k).openSeg k v).step = i.step := by
    obtain ⟨w, hw⟩ := settleSlew_rest i k
    rw [hw]
    rfl
  unfold Inst.stepSeg
  split
  · split
    · rfl
    · exact hOpen k v
  · rfl

/-- The clock has a segment that opens at the step, at the value set. -/
theorem stepSeg_opens (i : Inst) (k v : Nat) : ∃ g ∈ (i.stepSeg k v).segs, g.k = k ∧ g.v = v := by
  have hHead (j : Inst) : ∃ g ∈ (j.openSeg k v).segs, g.k = k ∧ g.v = v := by
    obtain ⟨g, hg, hK, hV, -⟩ := openSeg_head j k v
    exact ⟨g, List.mem_of_head? hg, hK, hV⟩
  unfold Inst.stepSeg
  split
  · split
    · exact ⟨_, List.mem_cons_of_mem _ (List.mem_cons_self ..), rfl, rfl⟩
    · exact hHead _
  · exact hHead _

theorem applyStep_idle (h : (s.inst n).step = none) : s.applyStep n = s := by
  unfold State.applyStep
  rw [h]

theorem stepValue_absolute (hAbs : a.absolute = true) (v : Nat) : stepValue a v = some ((a.sec.toNat * 1000000000 + a.ns.toNat) * nsU) := by
  rw [stepValue, if_pos hAbs, join16, nsU, Nat.add_zero, Nat.mul_assoc, ← Nat.pow_add]

theorem applyStep_applies (hn : n ≠ 0) (hStep : (s.inst n).step = some a) (hAbs : a.absolute = true) :
    ((s.applyStep n).inst n).step = none ∧ Raises (s.applyStep n) Src.timeStep
      ∧ ∃ g ∈ ((s.applyStep n).inst n).segs, g.k = max s.tick ((a.instant + tickU - 1) / tickU)
        ∧ g.v = (a.sec.toNat * 1000000000 + a.ns.toNat) * nsU := by
  generalize hU : s.applyStep n = u
  unfold State.applyStep at hU
  rw [hStep] at hU
  dsimp -zeta only at hU
  extract_lets k s1 i1 s2 waits i2 s3 answer at hU
  have h3 : (s3.inst n).step = none := by
    simp only [s3, i2, s2, State.inst_setInst, State.setBit_inst, if_true]
  rw [if_neg (by simp [hAbs]), stepValue_absolute hAbs] at hU
  generalize (a.sec.toNat * 1000000000 + a.ns.toNat) * nsU = v at hU ⊢
  dsimp -zeta only at hU
  extract_lets s4 s5 s6 at hU
  have h4 : s4.inst n = (s3.inst n).stepSeg k v := by
    rw [show s4.inst n = (s3.stepTo n k v).inst n from (Placed.refl.replaceEdges (ci := n)).inst n, State.stepTo, State.inst_setInst, if_pos rfl]
  have h5 : s5.time = s4.time := by
    unfold s5
    split
    · exact setInstState_time hn 0
    · rfl
  have h6 : s6.time = s5.time ∧ Raises s6 Src.timeStep := ⟨rfl, raises_raise _ _ _⟩
  have hQuiet : Quiet s6 u := by
    rw [← hU]
    exact .ite Quiet.refl.eventNotice.answer Quiet.refl.eventNotice
  have hInst : u.inst n = (s3.inst n).stepSeg k v := by
    rw [inst_congr (hQuiet.time.trans (h6.1.trans h5)), h4]
  rw [hInst]
  exact ⟨(stepSeg_step _ _ _).trans h3, h6.2.imp fun r hr => ⟨hQuiet.raises r hr.1, hr.2⟩, stepSeg_opens _ _ _⟩

/-! ### The obligation -/

/-- Settles O16: increments and slews are followed through the segment that they open, steps through the registers that arm them. -/
theorem instanceResults : Obligations.InstanceResults := by
  unfold Obligations.InstanceResults
  refine ⟨fun n v s => ?increment, fun n v s => ?slewAndStep⟩
  case increment =>
    intro x taken
    refine ⟨fun hn => ?low, fun hn => ?commit, rfl, rfl, rfl, rfl⟩
    case low =>
      have hn : (n : Nat) ≠ 0 := fun h => hn (Fin.ext h)
      refine ⟨_, congrArg Host.Outcome.next (if_neg hn), ?_⟩
      simp
    case commit =>
      have hn : (n : Nat) ≠ 0 := fun h => hn (Fin.ext h)
      have h := commitIncr_commits s n x
      exact ⟨_, congrArg Host.Outcome.next (if_neg hn), h.incr, h.held, h.shown, h.alarm, h.opened⟩
  case slewAndStep =>
    intro rate atNs sec instant ns
    have hArm : getField (v ||| 1) 0 1 = 1 := getField_or_of_one _ _ (by decide)
    have hMode : getField (v ||| 1) 1 1 = getField v 1 1 := getField_or_of_zero _ _ (by decide)
    have hHigh : getField (v ||| 1) 16 16 = getField v 16 16 := getField_or_of_zero _ _ (by decide)
    have hUs : usU = 1000 * nsU := rfl
    refine ⟨fun hn => ?slew, fun w g r hSlew hSegs hPart => ⟨_, rfl, endSlew_ends hSlew hSegs hPart⟩,
      fun hNone => congrArg Host.Outcome.next (endSlew_idle hNone), fun hn hAbs hAt hNs hAhead => ?absolute,
      fun hn hRel hAt hNs hState hAhead => ?relative, fun hn hBad => ?refused,
      fun a hn hStep hAbs => ⟨_, rfl, ?applied⟩, fun hNone => congrArg Host.Outcome.next (applyStep_idle hNone)⟩
    case slew =>
      have hn : (n : Nat) ≠ 0 := fun h => hn (Fin.ext h)
      have hStart : getField (v ||| 0x200) 9 1 = 1 := getField_or_of_one _ _ (by decide)
      have hRate : getField (v ||| 0x200) 0 9 = rate := getField_or_of_zero _ _ (by decide)
      refine ⟨_, congrArg Host.Outcome.next (slewWrite_start hn hStart), ?_⟩
      rw [hRate]
      exact startSlew_starts _ _ _ _
    case applied =>
      have hn : (n : Nat) ≠ 0 := fun h => hn (Fin.ext h)
      exact applyStep_applies hn hStep hAbs
    all_goals
      have hn : (n : Nat) ≠ 0 := fun h => hn (Fin.ext h)
      obtain ⟨r, hTime, hReg, hNext⟩ := stepCtlWrite_arms (s := s) hn hArm
      have hNow : r.now = s.now := congrArg TimeSt.now hTime
      refine ⟨_, congrArg Host.Outcome.next hNext, ?_⟩
    case absolute =>
      have hArmed : (s.armed n (v ||| 1)).absolute = true := decide_eq_true (hMode.trans hAbs)
      obtain ⟨hBit, hStep⟩ := armStep_arms (stepRefused_absolute (s := r) (n := n) hArmed hAt hNs (by rw [hNow, hUs]; exact hAhead))
      exact ⟨hBit, _, hStep, rfl, hArmed, hHigh ▸ armed_sec_absolute (hMode.trans hAbs), rfl⟩
    case relative =>
      have hNot : getField (v ||| 1) 1 1 ≠ 1 := by rw [hMode, hRel]; decide
      have hArmed : (s.armed n (v ||| 1)).absolute = false := decide_eq_false hNot
      have hSame : r.instState n = s.instState n := instState_congr (by rw [hTime]) (hReg _ (ciR_ne (by decide)))
      obtain ⟨hBit, hStep⟩ := armStep_arms (stepRefused_relative (s := r) (n := n) hArmed hAt hNs (by rw [hSame]; exact hState)
        (by rw [hNow, hUs]; exact hAhead))
      exact ⟨hBit, _, hStep, rfl, hArmed, armed_sec_relative hNot, rfl⟩
    case refused =>
      have hRefused : r.stepRefused n (s.armed n (v ||| 1)) atNs = true := stepRefused_of_bad (by rw [hNow, hUs]; exact hBad)
      obtain ⟨hStep, hBit, hRaised⟩ := armStep_refuses hRefused
      exact ⟨hStep.trans (by rw [inst_congr hTime]), hBit, hRaised⟩

end Sys2Proof.Machine
end

section
/-!
Consistent reads of time, conversions and the stamp queue (O17).
-/
namespace Sys2Proof.Machine

variable {s : State} {n : Nat}

/-! ### Fields after a write of a bit -/

theorem fld_setBit_ne (a i : Nat) (b : Bool) (a' lo len : Nat) (h : a' ≠ a ∨ lo + len ≤ i ∨ i + 1 ≤ lo) :
    (s.setBit a i b).fld a' lo len = s.fld a' lo len := State.fld_setFld_ne _ _ _ _ _ _ _ _ h

theorem bit_setFld_ne (a lo len v a' i : Nat) (h : a' ≠ a ∨ i + 1 ≤ lo ∨ lo + len ≤ i) : (s.setFld a lo len v).bit a' i = s.bit a' i :=
  congrArg (· == 1) (State.fld_setFld_ne s a lo len v a' i 1 h)

theorem setReg_reg_ne {a b : Nat} (h : b ≠ a) (w : Word) : (s.setReg a w).reg b = s.reg b := (State.reg_setReg s a w b).trans (if_neg h)

theorem setBit_reg_ne {a b : Nat} (h : b ≠ a) (i : Nat) (v : Bool) : (s.setBit a i v).reg b = s.reg b := setFld_reg_ne h _ _ _

/-! ### The read latch (R67) -/

theorem loadLatch_instAt (m k : Nat) : (s.loadLatch n).instAt m k = s.instAt m k := by
  have hSegs : ((s.loadLatch n).inst m).segs = (s.inst m).segs := by
    rw [State.loadLatch, State.inst_setInst]
    split
    · next h => rw [h]
    · rfl
  rw [State.instAt, State.instAt, hSegs]

theorem loadLatch_latch (m : Nat) :
    ((s.loadLatch n).inst m).latch = if m = n then s.instAt n s.tick / 2 ^ 32 else (s.inst m).latch := by
  rw [State.loadLatch, State.inst_setInst]
  split <;> rfl

theorem foldl_loadLatch_latch (l : List Nat) : ∀ (s : State) (m : Nat), ((l.foldl (fun s n => s.loadLatch n) s).inst m).latch =
    if m ∈ l then s.instAt m s.tick / 2 ^ 32 else (s.inst m).latch := by
  induction l with
  | nil => exact fun _ _ => rfl
  | cons x t ih =>
    intro s m
    rw [List.foldl_cons, ih, loadLatch_instAt, loadLatch_latch, show (s.loadLatch x).tick = s.tick from rfl]
    by_cases hx : m = x
    · subst hx
      simp
    · simp [hx]

/-- A read of SEC_HI answers the latch, loaded first where it is not held. -/
theorem secHiRead_reads {cur : Nat} (hCur : cur = if s.bit timeB 2 then (s.inst n).latch else s.instAt n s.tick / 2 ^ 32) :
    ((s.secHiRead n).inst n).latch = cur ∧ (s.secHiRead n).resp = .ok (sec16 cur / 2 ^ 32) := by
  obtain ⟨r, hr⟩ : ∃ r, r = (if s.bit timeB 2 then s else s.loadLatch n) := ⟨_, rfl⟩
  have hLatch : (r.inst n).latch = cur := by
    rw [hr, hCur]
    split
    · rfl
    · rw [loadLatch_latch, if_pos rfl]
  have hRead : s.secHiRead n = r.answerRead (r.latchWord n 0) := by rw [hr]; rfl
  have hWord : r.latchWord n 0 = sec16 cur / 2 ^ 32 := by rw [State.latchWord, hLatch]
  have hFits : sec16 cur / 2 ^ 32 < 2 ^ 32 := by unfold sec16; omega
  rw [hRead, hWord]
  exact ⟨hLatch, congrArg Resp.ok (Nat.mod_eq_of_lt hFits)⟩

theorem snapWrite_take : (s.snapWrite 1).bit timeB 2 = true ∧ ∀ m < 9, ((s.snapWrite 1).inst m).latch = s.instAt m s.tick / 2 ^ 32 := by
  rw [State.snapWrite, if_pos (by decide)]
  refine ⟨State.bit_setBit _ _ _ _ (by decide), fun m hm => ?_⟩
  rw [State.setBit_inst, foldl_loadLatch_latch, if_pos (List.mem_range.mpr hm)]

theorem snapWrite_release : (s.snapWrite 2).bit timeB 2 = false ∧ ∀ m, ((s.snapWrite 2).inst m).latch = (s.inst m).latch := by
  rw [State.snapWrite, if_neg (by decide), if_pos (by decide)]
  exact ⟨State.bit_setBit _ _ _ _ (by decide), fun _ => rfl⟩

/-! ### Conversions (R69) -/

theorem convWrite_busy (v : Word) (h : s.time.convBusy = true) : s.convWrite v = s := if_pos h

/-- A write of TIME_CONV_CTL with GO starts a conversion, or ends one of clocks that are not there at once. -/
theorem convWrite_go {v : Word} (hIdle : s.time.convBusy = false) (hGo : getField v 8 1 = 1) :
    (s.convWrite v).fld (timeB + 0x80) 0 8 = getField v 0 8
      ∧ if getField v 0 4 ≤ 8 ∧ getField v 4 4 ≤ 8 then (s.convWrite v).time.convBusy = true ∧ (s.convWrite v).bit (timeB + 0x80) 8 = true
        else (s.convWrite v).time.convBusy = false ∧ (s.convWrite v).bit (timeB + 0x80) 8 = false
          ∧ (s.convWrite v).fld (timeB + 0x80) 10 2 = 3 := by
  have hWritten : (s.setFld (timeB + 0x80) 0 8 (getField v 0 8)).fld (timeB + 0x80) 0 8 = getField v 0 8 :=
    (State.fld_setFld _ _ _ _ _ (by decide)).trans (Nat.mod_eq_of_lt (getField_lt v 0 8))
  unfold State.convWrite
  rw [if_neg (by simp [hIdle])]
  dsimp only
  rw [if_pos hGo]
  by_cases hThere : getField v 0 4 ≤ 8 ∧ getField v 4 4 ≤ 8
  · rw [if_neg (by omega), if_pos hThere]
    exact ⟨(fld_setBit_ne _ _ _ _ _ _ (by omega)).trans hWritten, rfl, State.bit_setBit _ _ _ _ (by decide)⟩
  · rw [if_pos (by omega), if_neg hThere]
    refine ⟨?_, hIdle, State.bit_setBit _ _ _ _ (by decide), ?_⟩
    · rw [fld_setBit_ne _ _ _ _ _ _ (by omega), State.fld_setFld_ne _ _ _ _ _ _ _ _ (by omega), fld_setBit_ne _ _ _ _ _ _ (by omega), hWritten]
    · exact (fld_setBit_ne _ _ _ _ _ _ (by omega)).trans (State.fld_setFld _ _ _ _ _ (by decide))

theorem convert_of_some {m x t y : Nat} {c : Conv} (hm : s.instState m ≠ 3) (hn : s.instState n ≠ 3) (hTo : s.toCi0 m x = some (t, c))
    (hFrom : s.fromCi0 n t = some y) : s.convert m n x = (y, c, s) := by
  rw [State.convert, if_neg (by simp [hm, hn])]
  simp only [hTo, hFrom]

theorem Conv.code_lt (c : Conv) : c.code < 4 := by cases c <;> decide

/-- The result of a conversion over its operands. -/
theorem convDone_shows {x y : Nat} {c : Conv} (hBusy : s.time.convBusy = true)
    (hx : x = join16 ((s.reg (timeB + 0x84)).toNat % 2 ^ 16 * 2 ^ 32 + (s.reg (timeB + 0x88)).toNat) (s.reg (timeB + 0x8C)).toNat
      ((s.reg (timeB + 0x90)).toNat % 2 ^ 16))
    (hConv : s.convert (s.fld (timeB + 0x80) 0 4) (s.fld (timeB + 0x80) 4 4) x = (y, c, s)) {u : State} (hU : s.convDone = u) :
    u.time.convBusy = false ∧ u.bit (timeB + 0x80) 8 = false ∧ u.fld (timeB + 0x80) 10 2 = c.code
      ∧ u.fld (timeB + 0x84) 0 16 = sec16 y / 2 ^ 32 ∧ (u.reg (timeB + 0x88)).toNat = sec16 y % 2 ^ 32
      ∧ (u.reg (timeB + 0x8C)).toNat = ns16 y ∧ u.fld (timeB + 0x90) 0 16 = frac16 y := by
  have hSec : sec16 y / 2 ^ 32 < 2 ^ 16 := by unfold sec16; omega
  have hNs : ns16 y < 2 ^ 32 := by unfold ns16; omega
  have hFrac : frac16 y < 2 ^ 16 := by unfold frac16; omega
  unfold State.convDone at hU
  rw [if_pos hBusy] at hU
  extract_lets r x' at hU
  rw [show x' = x from hx.symm, hConv] at hU
  dsimp -zeta only at hU
  extract_lets s1 s2 s3 s4 s5 at hU
  have hReg (a : Nat) : u.reg a = s5.reg a := by rw [← hU]; rfl
  have hFld (a lo len : Nat) : u.fld a lo len = s5.fld a lo len := by rw [State.fld, State.fld, hReg]
  refine ⟨by rw [← hU], ?_, ?_, ?_, ?_, ?_, ?_⟩
  · rw [State.bit, hReg]
    exact State.bit_setBit _ _ _ _ (by decide)
  · rw [hFld]
    exact (fld_setBit_ne _ _ _ _ _ _ (by omega)).trans ((State.fld_setFld _ _ _ _ _ (by decide)).trans (Nat.mod_eq_of_lt c.code_lt))
  · rw [hFld, State.fld]
    simp (disch := decide) only [s5, s4, s3, s2, setBit_reg_ne, setFld_reg_ne, setReg_reg_ne]
    exact (State.fld_setFld _ _ _ _ _ (by decide)).trans (Nat.mod_eq_of_lt hSec)
  · rw [hReg]
    simp (disch := decide) only [s5, s4, s3, s2, setBit_reg_ne, setFld_reg_ne, setReg_reg_ne, State.reg_setReg, if_true, BitVec.toNat_ofNat]
  · rw [hReg]
    simp (disch := decide) only [s5, s4, s3, setBit_reg_ne, setFld_reg_ne, State.reg_setReg, if_true, BitVec.toNat_ofNat]
    exact Nat.mod_eq_of_lt hNs
  · rw [hFld, State.fld]
    simp (disch := decide) only [s5, setBit_reg_ne, setFld_reg_ne]
    exact (State.fld_setFld _ _ _ _ _ (by decide)).trans (Nat.mod_eq_of_lt hFrac)

/-! ### The transmit stamp queue (R85) -/

theorem foldl_setReg_time {s : State} (l : List Nat) (f : Nat → Nat) (g : Nat → Word) :
    (l.foldl (fun s i => s.setReg (f i) (g i)) s).time = s.time :=
  List.foldlRecOn (motive := fun t => State.time t = s.time) l _ rfl fun _ h _ _ => h

theorem answerRead_time (v : Nat) : (s.answerRead v).time = s.time := rfl

theorem answerRead_fld (v a lo len : Nat) : (s.answerRead v).fld a lo len = s.fld a lo len := rfl

theorem answerRead_resp (v : Nat) : (s.answerRead v).resp = .ok (v % 2 ^ 32) := rfl

/-- A pop shortens the queue and answers the first word of the entry. -/
theorem popTxts_cons {e : TxStamp} {rest : List TxStamp} (h : s.time.txts = e :: rest) :
    ∃ r : State, r.time = { s.time with txts := rest }
      ∧ s.popTxts = (r.setFld (timeB + 0xA0) 0 9 rest.length).answerRead ((txWords e).getD 0 0) := by
  unfold State.popTxts
  rw [h]
  exact ⟨_, foldl_setReg_time _ _ _, rfl⟩

theorem popTxts_pops {e : TxStamp} {rest : List TxStamp} (h : s.time.txts = e :: rest) (hFits : rest.length < 256) :
    s.popTxts.time.txts = rest ∧ s.popTxts.fld (timeB + 0xA0) 0 9 = rest.length
      ∧ s.popTxts.resp = .ok ((e.seqId + e.port * 2 ^ 16 + e.ci * 2 ^ 22 + e.msg * 2 ^ 26 + 2 ^ 31) % 2 ^ 32) := by
  obtain ⟨r, hTime, hPop⟩ := popTxts_cons h
  rw [hPop, answerRead_time, answerRead_fld, answerRead_resp, State.setFld_time, hTime, State.fld_setFld _ _ _ _ _ (by decide),
    Nat.mod_eq_of_lt (by omega), txWords, List.getD_cons_zero]
  exact ⟨rfl, rfl, rfl⟩

theorem popTxts_empty (h : s.time.txts = []) :
    s.popTxts.time.txts = [] ∧ s.popTxts.resp = .ok ((s.reg (timeB + 0xA4)).toNat % 2 ^ 31) := by
  have hMask : (s.reg (timeB + 0xA4) &&& 0x7FFFFFFF#32).toNat = (s.reg (timeB + 0xA4)).toNat % 2 ^ 31 :=
    (BitVec.toNat_and ..).trans (Nat.and_two_pow_sub_one_eq_mod _ 31)
  unfold State.popTxts
  rw [h]
  refine ⟨h, ?_⟩
  have hFits : (s.reg (timeB + 0xA4)).toNat % 2 ^ 31 < 2 ^ 32 := by omega
  exact congrArg Resp.ok ((congrArg (· % 2 ^ 32) hMask).trans (Nat.mod_eq_of_lt hFits))

/-! ### The obligation -/

/-- Settles O17: the latch, the conversion registers and the queue are read after the writes of each command. -/
theorem timeReadingResults : Obligations.TimeReadingResults := by
  unfold Obligations.TimeReadingResults
  intro n v s cur r x
  have hGo : getField (v ||| 0x100) 8 1 = 1 := getField_or_of_one _ _ (by decide)
  have hBoth : getField (v ||| 0x100) 0 8 = getField v 0 8 := getField_or_of_zero _ _ (by decide)
  have hSrc : getField (v ||| 0x100) 0 4 = getField v 0 4 := getField_or_of_zero _ _ (by decide)
  have hDst : getField (v ||| 0x100) 4 4 = getField v 4 4 := getField_or_of_zero _ _ (by decide)
  refine ⟨⟨_, rfl, secHiRead_reads rfl⟩, ⟨_, rfl, snapWrite_take.1, fun m => snapWrite_take.2 m m.isLt⟩,
    ⟨_, rfl, snapWrite_release.1, fun m => snapWrite_release.2 m⟩, fun hIdle => ⟨_, rfl, ?go⟩,
    fun hBusy => ⟨_, rfl, convWrite_busy _ hBusy⟩,
    fun t c y hBusy hm hn hTo hFrom => ⟨_, rfl, convDone_shows hBusy rfl (convert_of_some hm hn hTo hFrom) rfl⟩,
    fun e rest hQueue hFits => ⟨_, rfl, popTxts_pops hQueue hFits⟩, fun hEmpty => ⟨_, rfl, popTxts_empty hEmpty⟩⟩
  case go =>
    have h := convWrite_go hIdle hGo
    rw [hBoth, hSrc, hDst] at h
    exact h

end Sys2Proof.Machine
end

section
/-!
Reference, holdover and integrity of the clocks (O18).
-/
namespace Sys2Proof.Machine

variable {o s : State} {n m st : Nat}

/-! ### States of the clocks (R71, R77) -/

/-- `s` comes from `o` by changes of states of clocks: the instant is the same, the raises of `o` stand, and below the TIO block only
the TIME_CInHOLD registers have changed. -/
structure Restated (o s : State) : Prop where
  now : s.now = o.now
  raises : ∀ r ∈ o.flt.raises, r ∈ s.flt.raises
  reg : ∀ a < tioB, (∀ m < 9, a ≠ ciR m 0x3C) → s.reg a = o.reg a

namespace Restated

theorem refl : Restated o o := ⟨rfl, fun _ h => h, fun _ _ _ => rfl⟩

theorem trans {t : State} (h : Restated o s) (g : Restated s t) : Restated o t :=
  ⟨g.now.trans h.now, fun r hr => g.raises r (h.raises r hr), fun a ha hm => (g.reg a ha hm).trans (h.reg a ha hm)⟩

theorem quiet {t : State} (h : Restated o s) (g : Quiet s t) : Restated o t :=
  h.trans ⟨congrArg TimeSt.now g.time, g.raises, fun a ha _ => g.reg a (ha.trans (by decide))⟩

theorem placed {t : State} (h : Restated o s) (g : Placed s t) : Restated o t :=
  h.trans ⟨g.now, fun r hr => by rw [g.flt]; exact hr, fun a ha _ => g.reg a (.inl ha)⟩

theorem hold {b lo len v : Nat} (h : Restated o s) (hn : n < 9) (hb : b = ciR n 0x3C) : Restated o (s.setFld b lo len v) :=
  h.trans ⟨rfl, fun _ hr => hr, fun _ _ hm => setFld_reg_ne (by rw [hb]; exact hm n hn) _ _ _⟩

theorem resegOut {k : Nat} {f : Inst → Inst} (h : Restated o s) : Restated o (s.resegOut n k f) :=
  (h.trans (t := s.reseg n k f) ⟨rfl, fun _ hr => hr, fun _ _ _ => rfl⟩).placed (resegOut_placed s n k f)

theorem setInstState (h : Restated o s) (hn : n < 9) : Restated o (s.setInstState n st) := by
  unfold State.setInstState
  extract_lets old x s1 s2
  have h1 : Restated o s1 := by
    unfold s1
    split
    · exact h.trans ⟨rfl, fun _ hr => hr, fun _ _ _ => rfl⟩
    · exact h.hold hn rfl
  split
  · exact h
  · exact h1.quiet (Quiet.bumpGen .refl).notice

theorem enterInst (h : Restated o s) (hn : n < 9) : Restated o (s.enterInst n st) := by
  unfold State.enterInst
  extract_lets s1
  have h1 : Restated o s1 := h.setInstState hn
  split
  · exact h
  · split
    · exact h1.placed Placed.refl.replaceEdges
    · exact h1.resegOut

end Restated

theorem instState_of_ne (hn : n ≠ 0) : s.instState n = s.fld (ciR n 0x3C) 0 2 := if_neg hn

/-- The new state of a clock; CI0 is FREE or INVALID alone. -/
theorem setInstState_instState (hn : n < 9) (hm : m < 9) (hst : st < 4) (hCi0 : n = 0 → st = 3) :
    (s.setInstState n st).instState m = if m = n then st else s.instState m := by
  unfold State.setInstState
  extract_lets old x s1 s2
  split
  · next hSame =>
    split
    · next h => rw [h]; exact hSame
    · rfl
  · have hQuiet : Quiet s1 (s2.notice 5 (bytesBE 1 n ++ bytesBE 1 old ++ bytesBE 1 st ++ [0#8])) := (Quiet.bumpGen .refl).notice
    rw [instState_congr (congrArg TimeSt.ci0Invalid hQuiet.time) (hQuiet.reg _ ((ciR_lt hm (by decide)).trans (by decide)))]
    unfold s1
    by_cases hn0 : n = 0
    · subst hn0
      rw [if_pos rfl, hCi0 rfl]
      split
      · next h => subst h; rfl
      · next h => rw [instState_of_ne h, instState_of_ne h]; rfl
    · rw [if_neg hn0]
      split
      · next h => rw [h, instState_of_ne hn0]; exact (State.fld_setFld _ _ _ _ _ (by decide)).trans (Nat.mod_eq_of_lt hst)
      · next h => exact instState_congr rfl (setFld_reg_ne (by simp only [ciR]; omega) _ _ _)

theorem Placed.instState (h : Placed o s) (hm : m < 9) : s.instState m = o.instState m :=
  instState_congr (congrArg TimeSt.ci0Invalid h.time) (h.reg _ (.inl (ciR_lt hm (by decide))))

theorem resegOut_instState (s : State) (n k : Nat) (f : Inst → Inst) (hm : m < 9) : (s.resegOut n k f).instState m = s.instState m :=
  (resegOut_placed s n k f).instState hm

theorem enterInst_instState (hn : n < 9) (hm : m < 9) (hst : st < 4) (hCi0 : n = 0 → st = 3) :
    (s.enterInst n st).instState m = if m = n then st else s.instState m := by
  unfold State.enterInst
  split
  · next hSame =>
    split
    · next h => rw [h]; exact hSame
    · rfl
  · rw [← setInstState_instState hn hm hst hCi0]
    dsimp only
    split
    · exact (Placed.refl.replaceEdges).instState hm
    · exact resegOut_instState _ _ _ _ hm

theorem foldl_enterInst (l : List Nat) : ∀ s : State, (∀ x ∈ l, x < 9) → Restated s (l.foldl (fun s n => s.enterInst n 3) s)
    ∧ ∀ m < 9, (l.foldl (fun s n => s.enterInst n 3) s).instState m = if m ∈ l then 3 else s.instState m := by
  induction l with
  | nil => exact fun s _ => ⟨.refl, fun _ _ => rfl⟩
  | cons x t ih =>
    intro s hl
    have hx : x < 9 := hl x List.mem_cons_self
    obtain ⟨hRest, hState⟩ := ih (s.enterInst x 3) fun y hy => hl y (List.mem_cons_of_mem _ hy)
    refine ⟨(Restated.refl.enterInst hx).trans hRest, fun m hm => ?_⟩
    rw [List.foldl_cons, hState m hm, enterInst_instState hx hm (by decide) fun _ => rfl]
    by_cases h : m = x <;> simp [h]

/-- All nine clocks are INVALID, and TIME_SAFE_STATE is raised (R77). -/
theorem allInvalid_enters (s : State) :
    Restated s s.allInvalid ∧ Raises s.allInvalid Src.timeSafeState ∧ ∀ m < 9, s.allInvalid.instState m = 3 := by
  obtain ⟨hRest, hState⟩ := foldl_enterInst (List.range 9) s fun _ => List.mem_range.mp
  unfold State.allInvalid State.levelSource
  generalize (List.range 9).foldl (fun s n => s.enterInst n 3) s = t at hRest hState
  rw [if_pos rfl]
  refine ⟨hRest.trans ⟨rfl, fun r hr => List.mem_append_left _ hr, fun _ _ _ => rfl⟩, raises_raise _ _ _, fun m hm => ?_⟩
  exact (hState m hm).trans (if_pos (List.mem_range.mpr hm))

theorem Restated.raised {src : Nat} (h : Restated o s) (hRaised : Raises o src) : Raises s src :=
  hRaised.imp fun r hr => ⟨h.raises r hr.1, hr.2⟩

/-! ### Offset updates (R70, R71) -/

theorem toInt_within (v : Word) : ¬ (v.toInt < -(2 ^ 31) ∨ 2 ^ 31 ≤ v.toInt) := by
  have h1 := BitVec.le_toInt v
  have h2 := BitVec.toInt_lt (x := v)
  omega

/-- What an offset update of a word counts, before the state follows it. -/
structure Offset (n : Nat) (v : Word) (run : Nat) (s r : State) : Prop where
  shown : r.reg (ciR n 0x38) = v
  exact : r.bit (ciR n 0x3C) 3 = false
  state : r.instState n = s.instState n
  inst : r.inst n = { s.inst n with run := run, lastUpdate := s.now }

theorem offsetUpdate_counts (hn0 : n ≠ 0) (v : Word) {bound run : Nat} (hBound : bound = max 1 (s.fld (ciR n 0x34) 16 8) * 256)
    (hRun : run = if v.toInt.natAbs ≤ bound then (s.inst n).run + 1 else 0) {u : State} (hU : s.offsetUpdate n v.toInt = u) :
    ∃ r, Offset n v run s r ∧ u = if (s.instState n = 0 ∨ s.instState n = 2) ∧ 8 ≤ run then
      (r.enterInst n 1).setInst n { (r.enterInst n 1).inst n with hwHold := false, run := 0 } else r := by
  have hIn := toInt_within v
  have hClip : max (-(2 ^ 31) : Int) (min (2 ^ 31 - 1) v.toInt) = v.toInt := by omega
  unfold State.offsetUpdate at hU
  rw [hClip, decide_eq_false hIn] at hU
  extract_lets sat w s1 bound' within i run' s2 st' ab s3 at hU
  have hBound' : bound' = bound := by
    rw [hBound]
    simp only [bound', s1, State.fld, setBit_reg_ne (ciR_ne (n := n) (r := 0x34) (q := 0x3C) (by decide)),
      setReg_reg_ne (ciR_ne (n := n) (r := 0x34) (q := 0x38) (by decide))]
  have hRun' : run' = run := by
    simp only [run', within, sat, w, hRun, hBound', Bool.not_false, Bool.true_and, decide_eq_true_eq]
    rfl
  have hState : st' = s.instState n := by
    rw [instState_of_ne hn0, ← show s1.fld (ciR n 0x3C) 0 2 = s.fld (ciR n 0x3C) 0 2 from
      (fld_setBit_ne _ _ _ _ _ _ (by omega)).trans (by rw [State.fld, State.fld, setReg_reg_ne (ciR_ne (by decide))])]
    exact instState_of_ne hn0
  have h3 : s3.time = s2.time ∧ s3.ctl = s1.ctl := by
    unfold s3
    split <;> exact ⟨rfl, rfl⟩
  obtain ⟨hTime3, hCtl3⟩ := h3
  have hReg3 (a : Nat) : s3.reg a = s1.reg a := by rw [State.reg, State.reg, hCtl3]
  refine ⟨s3, ⟨?_, ?_, ?_, ?_⟩, ?_⟩
  · rw [hReg3]
    simp only [s1, setBit_reg_ne (ciR_ne (n := n) (r := 0x38) (q := 0x3C) (by decide)), State.reg_setReg, if_true, w, BitVec.ofInt_toInt]
  · rw [State.bit, hReg3]
    exact State.bit_setBit _ _ _ _ (by decide)
  · rw [← hState]
    exact instState_congr (by rw [hTime3]) (hReg3 _)
  · rw [inst_congr hTime3, ← hRun']
    exact (State.inst_setInst _ _ _ _).trans (if_pos rfl)
  · rw [← hState, ← hRun', ← hU]

/-! ### Loss of the reference (R72, R75) -/

/-- A clock that loses its reference is in HOLDOVER, on the increment of HOLD_INCR unless firmware holds it. -/
theorem loseReference_holds (hn : n < 9) (hn0 : n ≠ 0) (hLocked : s.instState n = 1) {u : State} (hU : s.loseReference n = u) :
    u.instState n = 2 ∧ Raises u Src.holdoverEnter ∧ u.fld (ciR n 0x3C) 20 12 = 0 ∧ u.now = s.now
      ∧ (s.fld (ciR n 0x34) 2 1 = 0 → (u.inst n).incr = (s.inst n).holdIncr) := by
  unfold State.loseReference at hU
  rw [if_pos hLocked] at hU
  extract_lets s1 s2 z7 auto s3 at hU
  have hEntered : (s.setInstState n 2).fld (ciR n 0x3C) 0 2 = 2 :=
    (instState_of_ne hn0).symm.trans ((setInstState_instState hn hn (by decide) fun h => absurd h hn0).trans (if_pos rfl))
  have hRest : Restated s (s.setInstState n 2) := Restated.refl.setInstState hn
  have hTime : s2.time = s.time := setInstState_time hn0 2
  have hState2 : s2.fld (ciR n 0x3C) 0 2 = 2 :=
    ((State.fld_setFld_ne _ _ _ _ _ _ _ _ (by omega)).trans (fld_setBit_ne _ _ _ _ _ _ (by omega))).trans hEntered
  have hElapsed2 : s2.fld (ciR n 0x3C) 20 12 = 0 := State.fld_setFld _ _ _ _ _ (by decide)
  have hAuto : auto ↔ s.fld (ciR n 0x34) 2 1 = 0 := by
    have hReg : s2.reg (ciR n 0x34) = s.reg (ciR n 0x34) :=
      ((setFld_reg_ne (ciR_ne (by decide)) _ _ _).trans (setBit_reg_ne (ciR_ne (by decide)) _ _)).trans
        (hRest.reg _ (ciR_lt hn (by decide)) fun m _ => by simp only [ciR]; omega)
    simp only [auto, State.fld, hReg]
  have hRaised : Raises s2 Src.holdoverEnter := raises_raise (s.setInstState n 2) _ _
  have hNow2 : s2.now = s.now := congrArg TimeSt.now hTime
  have hInst2 : s2.inst n = s.inst n := inst_congr hTime n
  clear_value s2
  have hInst3 := resegOut_inst s2 n (s2.tick + 1) (fun x =>
      let x := { x with holdSince := s2.now, limitRaised := false, run := 0, tempEntry := z7 }
      if auto then { x with incr := x.holdIncr, slew := none, hwHold := true } else x)
  have hHeld3 : s3.reg (ciR n 0x3C) = s2.reg (ciR n 0x3C) := resegOut_reg _ _ _ _ (ciR_lt hn (by decide))
  have hFlt3 : s3.flt = s2.flt := resegOut_flt _ _ _ _
  have hNow3 : s3.now = s2.now := resegOut_now _ _ _ _
  have hIncr3 : auto → (s3.inst n).incr = (s.inst n).holdIncr := fun h => by
    obtain ⟨w, hw⟩ := settleSlew_rest (s.inst n) (s2.tick + 1)
    rw [show s3.inst n = _ from hInst3, hInst2, hw]
    simp only [h, if_true]
    rfl
  clear_value s3
  have hEnd : u.reg (ciR n 0x3C) = s3.reg (ciR n 0x3C) ∧ u.flt = s3.flt ∧ u.time = s3.time := by
    rw [← hU]
    split
    · refine ⟨?_, rfl, rfl⟩
      simp only [State.showIncr, setReg_reg_ne (ciR_ne (n := n) (r := 0x3C) (q := 0x14) (by decide)),
        setReg_reg_ne (ciR_ne (n := n) (r := 0x3C) (q := 0x10) (by decide)), setBit_reg_ne (ciR_ne (n := n) (r := 0x3C) (q := 0x1C) (by decide))]
    · exact ⟨rfl, rfl, rfl⟩
  obtain ⟨hReg, hFlt, hTimeEnd⟩ := hEnd
  have hFld (lo len : Nat) : u.fld (ciR n 0x3C) lo len = s2.fld (ciR n 0x3C) lo len := by rw [State.fld, State.fld, hReg, hHeld3]
  refine ⟨?_, ?_, (hFld 20 12).trans hElapsed2, ?_, fun h => ?_⟩
  · rw [instState_of_ne hn0, hFld, hState2]
  · rw [Raises, hFlt, hFlt3]
    exact hRaised
  · rw [State.now, hTimeEnd]
    exact hNow3.trans hNow2
  · rw [inst_congr hTimeEnd, hIncr3 (hAuto.mpr h)]

/-- An update that is missing for the timeout's time ends the reference (R70). -/
theorem refTimeout_holds (hn : n < 9) (hn0 : n ≠ 0) (hSrc : s.fld (ciR n 0x34) 0 2 = 3) (hLocked : s.instState n = 1) :
    (s.refTimeout n).instState n = 2 ∧ Raises (s.refTimeout n) Src.holdoverEnter ∧ (s.refTimeout n).fld (ciR n 0x3C) 20 12 = 0
      ∧ (s.refTimeout n).now = max s.now ((s.inst n).lastUpdate + max 1 (s.fld (ciR n 0x34) 8 8) * 100 * msU)
      ∧ (s.fld (ciR n 0x34) 2 1 = 0 → ((s.refTimeout n).inst n).incr = (s.inst n).holdIncr) := by
  rw [State.refTimeout, if_pos ⟨hn0, hSrc⟩]
  dsimp only
  generalize (s.inst n).lastUpdate + max 1 (s.fld (ciR n 0x34) 8 8) * 100 * msU = t
  have hState : (s.advance t).instState n = s.instState n := rfl
  obtain ⟨hHold, hRaised, hElapsed, hNow, hIncr⟩ := loseReference_holds (s := s.advance t) hn hn0 (hState.trans hLocked) rfl
  exact ⟨hHold, hRaised, hElapsed, hNow, hIncr⟩

/-! ### FREE by a write of SRC (R71) -/

theorem getField_and_of_zero {w : Nat} (v m : BitVec w) {lo len : Nat} (h : m.extractLsb' lo len = 0#len) : getField (v &&& m) lo len = 0 := by
  rw [getField, BitVec.extractLsb'_and, h, BitVec.and_zero]
  rfl

theorem getField_and_low (v : Word) {k : Nat} (h : getField v 0 2 = k) : getField (v &&& 0xFFFFFFF7) 0 2 = k := by
  rw [← h, getField, getField, BitVec.extractLsb'_and, show BitVec.extractLsb' 0 2 (0xFFFFFFF7 : Word) = BitVec.allOnes 2 by decide,
    BitVec.and_allOnes]

theorem refWrite_frees (hn : n < 9) (hn0 : n ≠ 0) (hState : s.instState n ≠ 3) {v : Word} (hSrc : getField v 0 2 = 0) :
    (s.refWrite n v).instState n = 0 ∧ (s.refWrite n v).fld (ciR n 0x34) 0 2 = 0 := by
  unfold State.refWrite
  rw [if_neg hn0]
  dsimp only
  have hKeep : getField (v &&& 0xFFFFFFF7) 0 2 = 0 := getField_and_low v hSrc
  have hWritten : (s.setReg (ciR n 0x34) (v &&& 0xFFFFFFF7)).reg (ciR n 0x34) = v &&& 0xFFFFFFF7 :=
    (State.reg_setReg _ _ _ _).trans (if_pos rfl)
  have hSame : (s.setReg (ciR n 0x34) (v &&& 0xFFFFFFF7)).instState n = s.instState n :=
    instState_congr rfl (setReg_reg_ne (ciR_ne (by decide)) _)
  generalize s.setReg (ciR n 0x34) (v &&& 0xFFFFFFF7) = t at hWritten hSame ⊢
  rw [if_pos ⟨hSrc, by rw [hSame]; exact hState⟩]
  have hEnter := enterInst_instState (s := t) hn hn (st := 0) (by decide) fun h => absurd h hn0
  have hHeld := (Restated.refl.enterInst (o := t) (st := 0) hn).reg (ciR n 0x34) (ciR_lt hn (by decide)) fun m _ => by simp only [ciR]; omega
  generalize t.enterInst n 0 = u at hEnter hHeld ⊢
  refine ⟨(instState_congr rfl rfl).trans (hEnter.trans (if_pos rfl)), ?_⟩
  rw [State.setInst_fld, State.fld, hHeld, hWritten, hKeep]

/-! ### Holdover (R72, R73) -/

theorem holdIncrUpdate_averages (hn0 : n ≠ 0) (hLocked : s.instState n = 1) : ((s.holdIncrUpdate n).inst n).holdIncr =
    (((s.inst n).holdIncr : Int) + (((s.inst n).incr : Int) - (s.inst n).holdIncr) / 2 ^ s.fld (ciR n 0x34) 4 4).toNat := by
  rw [State.holdIncrUpdate, if_pos ⟨hn0, hLocked⟩]
  dsimp only
  rw [State.inst_setInst, if_pos rfl]

theorem tcomp_compensates (hn0 : n ≠ 0) (hHold : s.instState n = 2) (hHw : (s.inst n).hwHold = true) :
    let t := s.sfld (pwrB + 0x5C) 0 8 - (s.inst n).tempEntry
    let ppb := s.sfld (timeB + 0x14) 0 16 * t * 16 + s.sfld (timeB + 0x14) 16 16 * t * t
    ((s.tcomp n).inst n).incr = (((s.inst n).holdIncr : Int) - ((s.inst n).holdIncr : Int) * ppb / (2 ^ 12 * 1000000000)).toNat := by
  intro t ppb
  rw [State.tcomp]
  dsimp only
  rw [if_pos ⟨hn0, hHold, hHw⟩, showIncr_inst, resegOut_inst]
  rfl

theorem holdLimit_keeps : (s.holdLimit n).ctl = s.ctl ∧ (s.holdLimit n).now = s.now := by
  unfold State.holdLimit
  dsimp only
  split <;> exact ⟨rfl, rfl⟩

theorem elapsedTick_counts (hn0 : n ≠ 0) (hHold : s.instState n = 2) :
    (s.elapsedTick n).fld (ciR n 0x3C) 20 12 = min 4095 (s.fld (ciR n 0x3C) 20 12 + 1)
      ∧ (s.elapsedTick n).now = max s.now ((s.inst n).holdSince + (s.fld (ciR n 0x3C) 20 12 + 1) * 10 * secU) := by
  rw [State.elapsedTick, if_pos ⟨hn0, hHold⟩]
  dsimp only
  obtain ⟨hCtl, hNow⟩ := holdLimit_keeps (n := n)
    (s := (s.advance ((s.inst n).holdSince + (s.fld (ciR n 0x3C) 20 12 + 1) * 10 * secU)).count (ciR n 0x3C) 20 12)
  refine ⟨?_, hNow⟩
  rw [State.fld, State.reg, hCtl]
  refine (State.fld_setFld _ (ciR n 0x3C) 20 12 _ (by decide)).trans ?_
  rw [State.advance_fld, satur]
  omega

/-! ### The oscillator (R75, R76) -/

theorem oscMeasure_shows (hm : n < 9) (hn0 : n ≠ 0) (hInst : s.fld (timeB + 8) 0 4 = n) (hLocked : s.instState n = 1) :
    s.oscMeasure.reg (timeB + 0xC) =
      BitVec.ofInt 32 ((351843720888320 - ((s.inst n).holdIncr : Int)) * (1000000000 * 256) / (s.inst n).holdIncr) := by
  unfold State.oscMeasure
  rw [hInst]
  dsimp only
  rw [if_pos ⟨by omega, by omega, hLocked⟩]
  split
  · exact (State.reg_setReg _ _ _ _).trans (if_pos rfl)
  · exact (State.reg_setReg _ _ _ _).trans (if_pos rfl)

/-! ### The obligation -/

/-- Settles O18: each command is followed through the state, the segment and the registers of its clock. -/
theorem referenceResults : Obligations.ReferenceResults := by
  unfold Obligations.ReferenceResults
  intro n v s src hold bound i z7
  have hLt : (n : Nat) < 9 := n.isLt
  have hVal {m : Fin 9} (h : m ≠ 0) : (m : Nat) ≠ 0 := fun e => h (Fin.ext e)
  refine ⟨fun hOff => congrArg Host.Outcome.next (if_pos (hOff.imp (congrArg Fin.val) id)), fun hn hSrc hLocked => ?locked,
    fun hn hSrc hOpen hWithin hRun => ?locks, fun hn hState => ⟨_, rfl, refWrite_frees hLt (hVal hn) hState ?source⟩, rfl,
    fun hn hSrc hLocked => ⟨_, rfl, refTimeout_holds hLt (hVal hn) hSrc hLocked⟩,
    fun hn hLocked => ⟨_, rfl, holdIncrUpdate_averages (hVal hn) hLocked⟩,
    fun hn hHold hHw => ⟨_, rfl, tcomp_compensates (hVal hn) hHold hHw⟩,
    fun hn hHold => ⟨_, rfl, elapsedTick_counts (hVal hn) hHold⟩,
    fun hRef => ⟨_, congrArg Host.Outcome.next (if_pos hRef), State.bit_setBit _ _ _ _ (by decide), rfl⟩,
    fun hRef => congrArg Host.Outcome.next (if_neg (by simp [hRef])),
    fun hn hInst hLocked => ⟨_, rfl, oscMeasure_shows hLt (hVal hn) hInst hLocked⟩, fun hn => ⟨_, rfl, ?parity⟩, ⟨_, rfl, ?ci0⟩⟩
  case locked =>
    have hGo : ¬ ((n : Nat) = 0 ∨ s.fld (ciR n 0x34) 0 2 ≠ 3) := not_or.mpr ⟨hVal hn, not_not.mpr hSrc⟩
    obtain ⟨r, hCounts, hEnd⟩ := offsetUpdate_counts (s := s) (hVal hn) v rfl rfl rfl
    rw [if_neg (by simp [hLocked])] at hEnd
    refine ⟨_, congrArg Host.Outcome.next ((if_neg hGo).trans hEnd), hCounts.shown, hCounts.exact, ?_, ?_, hCounts.state.trans hLocked⟩
    · rw [hCounts.inst]
    · rw [hCounts.inst]
  case locks =>
    have hGo : ¬ ((n : Nat) = 0 ∨ s.fld (ciR n 0x34) 0 2 ≠ 3) := not_or.mpr ⟨hVal hn, not_not.mpr hSrc⟩
    obtain ⟨r, -, hEnd⟩ := offsetUpdate_counts (s := s) (hVal hn) v rfl rfl rfl
    have hRuns : 7 ≤ (s.inst n).run := hRun
    rw [if_pos ⟨hOpen, by rw [if_pos hWithin]; omega⟩] at hEnd
    refine ⟨_, congrArg Host.Outcome.next ((if_neg hGo).trans hEnd), (instState_congr rfl rfl).trans ?_⟩
    exact (enterInst_instState hLt hLt (by decide) fun h => absurd h (hVal hn)).trans (if_pos rfl)
  case source => exact getField_and_of_zero _ _ (by decide)
  case parity =>
    rw [State.timeParity, if_neg (hVal hn)]
    exact ⟨(enterInst_instState hLt hLt (by decide) fun _ => rfl).trans (if_pos rfl),
      (Restated.refl.enterInst hLt).raised (raises_raise _ _ _)⟩
  case ci0 =>
    obtain ⟨hRest, hSafe, hInvalid⟩ := allInvalid_enters (s.raise Src.timeParity)
    exact ⟨fun m => hInvalid m m.isLt, hRest.raised (raises_raise _ _ _), hSafe⟩

end Sys2Proof.Machine
end

section
/-!
The start of power and clocks, and the resets of the module (O46).
-/
namespace Sys2Proof.Machine

variable {s : State}

/-! ### The last-gasp cell's registers (R371) -/

theorem foldl_setReg_rest (s : State) (a : Nat → Nat) (f : Nat → Word) (l : List Nat) :
    ∃ c, l.foldl (fun s w => s.setReg (a w) (f w)) s = { s with ctl := c } := by
  induction l generalizing s with
  | nil => exact ⟨s.ctl, rfl⟩
  | cons w l ih =>
    obtain ⟨c, hc⟩ := ih (s.setReg (a w) (f w))
    exact ⟨c, hc⟩

theorem foldl_setReg_reg_ne (s : State) {a : Nat → Nat} (f : Nat → Word) {b : Nat} (l : List Nat) (h : ∀ w ∈ l, b ≠ a w) :
    (l.foldl (fun s w => s.setReg (a w) (f w)) s).reg b = s.reg b := by
  induction l generalizing s with
  | nil => rfl
  | cons w l ih =>
    obtain ⟨hw, hRest⟩ := List.forall_mem_cons.mp h
    exact (ih (s.setReg (a w) (f w)) hRest).trans (setReg_reg_ne hw _)

theorem setCell_rest (s : State) (c : Option (List Byte)) : ∃ l, s.setCell c = { s with ctl := l, flt := { s.flt with cell := c } } := by
  obtain ⟨l, hl⟩ := foldl_setReg_rest s (fun w => fltB + 0x40 + w * 4)
    (fun w => BitVec.ofNat 32 (le (c.getD (List.replicate 64 0)) (4 * w) 4)) (List.range 16)
  unfold State.setCell
  dsimp only
  rw [hl]
  exact ⟨l, rfl⟩

theorem setCell_reg (s : State) (c : Option (List Byte)) {b : Nat} (hb : b < fltB + 0x40 ∨ fltB + 0x80 ≤ b) : (s.setCell c).reg b = s.reg b := by
  have hWords := foldl_setReg_reg_ne s (a := fun w => fltB + 0x40 + w * 4)
    (fun w => BitVec.ofNat 32 (le (c.getD (List.replicate 64 0)) (4 * w) 4)) (b := b) (List.range 16)
    fun w hw => by have := List.mem_range.mp hw; omega
  unfold State.setCell
  dsimp only
  generalize (List.range 16).foldl _ s = t at hWords ⊢
  exact hWords

/-! ### Resets of the module (R355, R361, R394) -/

/-- `t` is `s` after a reset: cleared but for the registers of the PWR domain and of the reset itself. -/
structure ResetOf (s : State) (cause : Nat) (t : State) : Prop where
  rest : ∃ l, t = { s.cleared with ctl := l }
  cause : t.fld (sysB + 4) 0 3 = cause % 8
  pll : t.bit (clkB + 4) 0 = s.bit (clkB + 4) 0
  phase : t.fld bootB 0 4 = if s.bit (clkB + 4) 0 then 1 else 0
  recNo : t.reg (jour + 4) = s.reg (jour + 4)
  stations : ∀ a, stnB ≤ a → a < egrB → t.reg a = regReset a

theorem bit_and (v m : Word) (i : Nat) (h : m.extractLsb' i 1 = 1) : (getField (v &&& m) i 1 == 1) = (getField v i 1 == 1) := by
  rw [getField, getField, BitVec.extractLsb'_and, h, show (1 : BitVec 1) = BitVec.allOnes 1 by decide, BitVec.and_allOnes]

theorem moduleReset_resets (s : State) (cause : Nat) : ResetOf s cause (s.moduleReset cause) := by
  unfold State.moduleReset
  extract_lets t0 t1 t2 t3 t4 t5
  obtain ⟨l, hCell⟩ := setCell_rest (t2.setReg (jour + 4) (s.reg (jour + 4))) s.flt.cell
  have hRest : ∃ l, t5 = { s.cleared with ctl := l } := by
    simp only [t5, t4, t3, hCell]
    exact ⟨_, rfl⟩
  have hCause : t5.fld (sysB + 4) 0 3 = cause % 8 := State.fld_setFld _ _ _ _ _ (by decide)
  have hKeep {a : Nat} (h1 : a ≠ sysB + 4) (h2 : a ≠ fltB + 0x94) (h3 : a ≠ fltB + 0x98) (h4 : a < fltB + 0x40 ∨ fltB + 0x80 ≤ a) :
      t5.reg a = (t2.setReg (jour + 4) (s.reg (jour + 4))).reg a := by
    simp only [t5, t4, t3, State.setSysCause, setFld_reg_ne h1, setReg_reg_ne h2, setReg_reg_ne h3, setCell_reg _ _ h4]
  have hPll : t5.bit (clkB + 4) 0 = s.bit (clkB + 4) 0 := by
    rw [State.bit, hKeep (by decide) (by decide) (by decide) (by decide), setReg_reg_ne (by decide)]
    simp only [t2, State.reg_setReg, if_true]
    exact bit_and _ _ _ (by decide)
  have hRecNo : t5.reg (jour + 4) = s.reg (jour + 4) := by
    rw [hKeep (by decide) (by decide) (by decide) (by decide), State.reg_setReg, if_pos rfl]
  have hStations (a : Nat) (hLo : stnB ≤ a) (hHi : a < egrB) : t5.reg a = regReset a := by
    simp only [stnB, egrB, block] at hLo hHi
    have hNe (b : Nat) (hb : b < 0x40B00000 ∨ 0x40C00000 ≤ b) : a ≠ b := by omega
    rw [hKeep (hNe _ (by decide)) (hNe _ (by decide)) (hNe _ (by decide)) (.inl (by simp only [fltB, block]; omega))]
    simp only [t2, t1, setReg_reg_ne (hNe (jour + 4) (by decide)), setReg_reg_ne (hNe (clkB + 4) (by decide)),
      setReg_reg_ne (hNe (pwrB + 4) (by decide)), setReg_reg_ne (hNe pwrB (by decide)), setFld_reg_ne (hNe pwrB (by decide))]
    rfl
  have hEnd (u : State) (hOwn : ∃ c, u = { t5 with ctl := c }) (hSame : ∀ a, a ≠ bootB → a ≠ timeB → u.reg a = t5.reg a)
      (hPhase : u.fld bootB 0 4 = if s.bit (clkB + 4) 0 then 1 else 0) : ResetOf s cause u := by
    obtain ⟨l, hl⟩ := hRest
    obtain ⟨c, hc⟩ := hOwn
    refine ⟨⟨c, by rw [hc, hl]⟩, ?_, ?_, hPhase, ?_, fun a hLo hHi => ?_⟩
    · rw [← hCause, State.fld, State.fld, hSame _ (by decide) (by decide)]
    · rw [← hPll, State.bit, State.bit, hSame _ (by decide) (by decide)]
    · rw [← hRecNo, hSame _ (by decide) (by decide)]
    · simp only [stnB, egrB, block] at hLo hHi
      rw [hSame a (by simp only [bootB, block]; omega) (by simp only [timeB, block]; omega)]
      exact hStations a hLo hHi
  rw [hPll]
  clear_value t5
  by_cases hOn : s.bit (clkB + 4) 0 = true
  · rw [if_pos hOn]
    refine hEnd _ ⟨_, rfl⟩ (fun a hBoot hTime => (setBit_reg_ne hTime _ _).trans (setFld_reg_ne hBoot _ _ _)) ?_
    rw [if_pos hOn, fld_setBit_ne _ _ _ _ _ _ (by decide)]
    exact setPhase_phase (by decide)
  · rw [if_neg hOn]
    refine hEnd _ ⟨_, rfl⟩ (fun a hBoot _ => setFld_reg_ne hBoot _ _ _) ?_
    rw [if_neg hOn]
    exact setPhase_phase (by decide)

/-- What starts and what stays after a reset of the module. -/
theorem ResetOf.starts {cause : Nat} {t : State} (h : ResetOf s cause t) : t.time.now = 0 ∧ t.mem = s.mem ∧ t.store = s.store ∧ t.jen = {}
    ∧ t.coaches = [] ∧ (∀ i : Fin 16, t.fld (stnR i 0x18) 0 10 = 0) ∧ t.flt = s.keptFlt := by
  have hResets : ∀ i : Fin 16, getField (regReset (stnR i 0x18)) 0 10 = 0 := by decide
  have hAlloc (i : Fin 16) : t.fld (stnR i 0x18) 0 10 = 0 := by
    rw [State.fld, h.stations _ (by simp only [stnR]; omega) (by simp only [stnR, stnB, egrB, block]; omega)]
    exact hResets i
  obtain ⟨l, hl⟩ := h.rest
  exact ⟨by rw [hl]; rfl, by rw [hl]; rfl, by rw [hl]; rfl, by rw [hl]; rfl, by rw [hl]; rfl, hAlloc, by rw [hl]; rfl⟩

/-! ### The start of power and clocks (R60, R350, R390) -/

theorem setCause_cause (s : State) (n : Nat) (b : Bool) (m : Nat) :
    aget (fun _ => false) (s.setCause n b).flt.causes m = if m = n then b else aget (fun _ => false) s.flt.causes m := aget_aset _ _ _ _ _

theorem rootLock_starts {lead : Nat} (hRails : s.pwr.rails = true) (hRef : s.bit (clkB + 4) 1 = true) (hPll : s.bit (clkB + 4) 0 = false)
    (hPhase : s.fld bootB 0 4 = 0) : (s.rootLock lead).bit (clkB + 4) 0 = true ∧ (s.rootLock lead).fld bootB 0 4 = 1
      ∧ (s.rootLock lead).bit timeB 0 = true ∧ (s.rootLock lead).now = 0 ∧ (s.rootLock lead).boot.pwrLead = s.boot.pwrLead + lead := by
  have hSame : ((s.setBit (clkB + 4) 0 true).setCause Src.rootUnlock false).fld bootB 0 4 = 0 :=
    (fld_setBit_ne _ _ _ _ _ _ (by decide)).trans hPhase
  unfold State.rootLock
  rw [if_neg (by simp [hRails, hRef, hPll])]
  dsimp only
  rw [if_pos hSame]
  refine ⟨?_, ?_, State.bit_setBit _ _ _ _ (by decide), rfl, rfl⟩
  · rw [State.bit_setBit_ne _ _ _ _ _ _ (by decide), State.setPhase, bit_setFld_ne _ _ _ _ _ _ (by decide)]
    exact State.bit_setBit s _ _ _ (by decide)
  · rw [fld_setBit_ne _ _ _ _ _ _ (by decide)]
    exact setPhase_phase (by decide)

theorem rootLock_relocks {lead : Nat} (hRails : s.pwr.rails = true) (hRef : s.bit (clkB + 4) 1 = true) (hPll : s.bit (clkB + 4) 0 = false)
    (hPhase : s.fld bootB 0 4 ≠ 0) : (s.rootLock lead).bit (clkB + 4) 0 = true ∧ (s.rootLock lead).fld bootB 0 4 = s.fld bootB 0 4
      ∧ (s.rootLock lead).now = s.now ∧ aget (fun _ => false) (s.rootLock lead).flt.causes Src.rootUnlock = false := by
  have hSame : ((s.setBit (clkB + 4) 0 true).setCause Src.rootUnlock false).fld bootB 0 4 = s.fld bootB 0 4 :=
    fld_setBit_ne _ _ _ _ _ _ (by decide)
  unfold State.rootLock
  rw [if_neg (by simp [hRails, hRef, hPll])]
  dsimp only
  rw [if_neg (hSame ▸ hPhase)]
  refine ⟨?_, hSame, rfl, (setCause_cause _ _ _ _).trans (if_pos rfl)⟩
  rw [State.setCause_bit]
  exact State.bit_setBit _ _ _ _ (by decide)

theorem rootLock_idle {lead : Nat} (h : s.pwr.rails = false ∨ s.bit (clkB + 4) 1 = false ∨ s.bit (clkB + 4) 0 = true) : s.rootLock lead = s := by
  rw [State.rootLock, if_pos (by simpa using h)]

theorem refSteady_steady (s : State) : s.refSteady.bit (clkB + 4) 1 = true := by
  unfold State.refSteady
  split
  · assumption
  · exact State.bit_setBit _ _ _ _ (by decide)

theorem railsUp_sequences (hPower : s.pwr.powered = true) (hOff : s.pwr.rails = false) (hAwake : s.pwr.asleep = false)
    (hFree : s.pwr.railsHeld = false) : s.railsUp = { s with pwr := { s.pwr with rails := true, railsHeld := false } } := by
  rw [State.railsUp]
  exact if_neg (by simp [hPower, hOff, hAwake, hFree])

theorem railsUp_stays (h : s.pwr.powered = false ∨ s.pwr.rails = true ∨ s.pwr.asleep = true) : s.railsUp = s := by
  rw [State.railsUp]
  exact if_pos (by rcases h with h | h | h <;> simp [h])

theorem railsUp_held (hHeld : s.pwr.railsHeld = true)
    (hCause : (∃ r < 5, s.causePersists (Src.conv r) = true) ∨ s.causePersists Src.thermalTrip = true) : s.railsUp = s := by
  have hAny : ((List.range 5).any (fun r => s.causePersists (Src.conv r)) || s.causePersists Src.thermalTrip) = true := by
    rw [Bool.or_eq_true, List.any_eq_true]
    exact hCause.imp_left fun ⟨r, hr, hp⟩ => ⟨r, List.mem_range.mpr hr, hp⟩
  rw [State.railsUp]
  dsimp only
  rw [if_pos (by rw [hAny, hHeld]; exact .inr (.inr (.inr rfl)))]

/-- After a halt by a converter or the temperature the rails are down, and the root PLL and the phase with them (R361). -/
theorem railsDown_off (s : State) :
    let u := (({ s with pwr := { s.pwr with rails := false, railsHeld := true } } : State).setReg (clkB + 4) 0).setPhase 0
    u.pwr.rails = false ∧ u.bit (clkB + 4) 0 = false ∧ u.fld bootB 0 4 = 0 ∧ u.fld (sysB + 4) 0 3 = s.fld (sysB + 4) 0 3 := by
  refine ⟨rfl, ?_, setPhase_phase (by decide), ?_⟩
  · rw [State.setPhase, bit_setFld_ne _ _ _ _ _ _ (by decide), State.bit, State.reg_setReg, if_pos rfl]
    rfl
  · rw [State.fld, State.setPhase, setFld_reg_ne (by decide), setReg_reg_ne (by decide)]
    rfl

/-! ### The obligation -/

/-- Settles O46: starts by their branches, resets by what `ResetOf` says of `moduleReset`. -/
theorem startAndResetResults : Obligations.StartAndResetResults := by
  unfold Obligations.StartAndResetResults
  intro lead v s phase pll starts
  refine ⟨fun hOff => ⟨_, congrArg Host.Outcome.next (if_neg (by simp [hOff])), rfl, setPhase_phase (by decide), ?power⟩,
    fun hOn => congrArg Host.Outcome.next (if_pos hOn),
    fun hPower hOff hAwake hFree => ⟨_, congrArg Host.Outcome.next (railsUp_sequences hPower hOff hAwake hFree), rfl, rfl⟩,
    fun hOff => congrArg Host.Outcome.next (railsUp_stays (.inl hOff)),
    fun hRails => ⟨_, congrArg Host.Outcome.next (if_pos hRails), refSteady_steady s⟩,
    fun hRails hRef hPll hPhase => ⟨_, rfl, rootLock_starts hRails hRef hPll hPhase⟩,
    fun hRails hRef hPll hPhase => ⟨_, rfl, rootLock_relocks hRails hRef hPll hPhase⟩,
    fun h => congrArg Host.Outcome.next (rootLock_idle h), fun h => congrArg Host.Outcome.next (railsUp_stays (.inr h)),
    fun hOff => congrArg Host.Outcome.next (if_neg (by simp [hOff])), fun hHeld hCause => congrArg Host.Outcome.next (railsUp_held hHeld hCause),
    ⟨_, congrArg Host.Outcome.next (if_pos rfl), ?reset⟩, fun hKey => congrArg Host.Outcome.next (if_neg hKey),
    ⟨_, rfl, ?assert⟩, ⟨_, rfl, rfl, rfl, rfl⟩, fun hNone => ?quiet,
    fun x due hHalt => ?halt⟩
  case power =>
    rw [State.setPhase, State.fld, setFld_reg_ne (by decide)]
    exact State.fld_setFld _ _ _ _ _ (by decide)
  case reset =>
    have hReset := moduleReset_resets s 2
    obtain ⟨hNow, hMem, hStore, hJen, hCoaches, hAlloc, hFlt⟩ := hReset.starts
    exact ⟨hReset.cause, hReset.pll, hReset.phase, hNow, hMem, hStore, hJen, hCoaches, hAlloc, by rw [hFlt]; rfl, hReset.recNo⟩
  case assert =>
    have hReset := moduleReset_resets s 1
    obtain ⟨-, hMem, -, hJen, -⟩ := hReset.starts
    exact ⟨hReset.cause, rfl, hMem, hJen⟩
  case quiet =>
    show execHaltReset s = _
    rw [execHaltReset, hNone]
  case halt =>
    have hReset := moduleReset_resets (s.advance due) 3
    obtain ⟨-, hMem, -, -, -, -, hFlt⟩ := hReset.starts
    have hEnded : ((s.advance due).moduleReset 3).flt.halt = none := by rw [hFlt]; rfl
    have hCause := hReset.cause
    generalize hT : (s.advance due).moduleReset 3 = t at hMem hEnded hCause
    refine ⟨if (6 ≤ x ∧ x ≤ 10) ∨ x = Src.thermalTrip then
      (({ t with pwr := { t.pwr with rails := false, railsHeld := true } } : State).setReg (clkB + 4) 0).setPhase 0 else t, ?_, ?_⟩
    · show execHaltReset s = _
      rw [execHaltReset, hHalt]
      dsimp only
      rw [hT]
    · split
      · obtain ⟨hRails, hPll, hPhase, hSame⟩ := railsDown_off t
        exact ⟨hSame.trans hCause, hEnded, hMem, fun _ => ⟨hRails, hPll, hPhase⟩⟩
      · next hOther => exact ⟨hCause, hEnded, hMem, fun h => absurd h hOther⟩

end Sys2Proof.Machine
end

section
/-!
What messages of the Jenitor leave alone, beyond `Quiet`: the supply, the rewind store and the first registers of the blocks.
-/
namespace Sys2Proof.Machine

variable {o s : State}

/-- `s` comes from `o` by messages put into queues and by notices: besides what `Quiet` says, the supply, the rewind store and the first two
registers of every 256-byte group are as before. -/
structure Sends (o s : State) : Prop extends Quiet o s where
  pwr : s.pwr = o.pwr
  rew : s.rew = o.rew
  heads : ∀ a, a % 0x100 < 8 → s.reg a = o.reg a

namespace Sends

theorem refl : Sends o o := ⟨.refl, rfl, rfl, fun _ _ => rfl⟩

theorem trans {t : State} (h : Sends o s) (g : Sends s t) : Sends o t :=
  ⟨h.toQuiet.trans g.toQuiet, g.pwr.trans h.pwr, g.rew.trans h.rew, fun a ha => (g.heads a ha).trans (h.heads a ha)⟩

theorem ite {c : Prop} [Decidable c] {a b : State} (ha : Sends o a) (hb : Sends o b) : Sends o (if c then a else b) := by
  split <;> assumption

theorem ite2 {α : Type} {c : Prop} [Decidable c] {a b : α × State} (ha : Sends o a.2) (hb : Sends o b.2) :
    Sends o (if c then a else b).2 := by
  split <;> assumption

theorem pair {α : Type} {x : α} {t : State} (h : Sends o t) : Sends o (x, t).2 := h

/-- An update of units, Jenitor, the egress queues and the free counter. -/
theorem upd {u j e f} (h : Sends o s) : Sends o { s with units := u, jen := j, egr := e, freeCtr := f } :=
  ⟨h.toQuiet.upd, h.pwr, h.rew, h.heads⟩

theorem raise {src ctx} (h : Sends o s) : Sends o (s.raise src ctx) := ⟨h.toQuiet.raise, h.pwr, h.rew, h.heads⟩

theorem setReg {a w} (h : Sends o s) (ha : egrB ≤ a) (hLow : 8 ≤ a % 0x100) : Sends o (s.setReg a w) :=
  ⟨h.toQuiet.setReg ha, h.pwr, h.rew, fun b hb => (setReg_reg_ne (by rintro rfl; omega) w).trans (h.heads b hb)⟩

theorem setFld {a lo len v} (h : Sends o s) (ha : egrB ≤ a) (hLow : 8 ≤ a % 0x100) : Sends o (s.setFld a lo len v) := h.setReg ha hLow

/-! ### Egress queues -/

theorem countDrop {p set reason} (h : Sends o s) (hReason : 2 ≤ reason ∧ reason < 64) : Sends o (s.countDrop p set reason) := by
  unfold State.countDrop
  extract_lets s1 _ _ s2 _ _ _ s3
  have h1 : Sends o s1 := h.setFld (by simp only [dropR]; omega) (by simp only [dropR, egrB, block]; omega)
  have h2 : Sends o s2 := h1.upd
  have h3 : Sends o s3 := h2.upd
  exact .ite (.ite h3.raise h3) h2

/-- A copy of a frame of the module is refused. -/
theorem countQ {cp reason} (h : Sends o s) (hModule : cp.coach = none) (hReason : 2 ≤ reason ∧ reason < 64) : Sends o (s.countQ cp reason) := by
  unfold State.countQ State.countQuiet
  simp only [hModule, Option.bind_none]
  refine Sends.countDrop ?_ hReason
  split
  · exact h.raise
  · exact h

theorem addFill {q c n} (h : Sends o s) : Sends o (s.addFill q c n) :=
  (h.setFld (by simp only [egrQR]; omega) (by simp only [egrQR, egrB, block]; omega)).setFld (by decide) (by decide)

theorem pushCopy {q c cp} (h : Sends o s) : Sends o (s.pushCopy q c cp) := (show Sends o (s.setQueue _ _ _) from h.upd).addFill

theorem enqueueFrame {q c frame cells owner} (h : Sends o s) : Sends o (s.enqueueFrame q c frame cells owner).2 :=
  .ite2 (.pair (h.countQ rfl (by decide))) (.ite2 (.pair (h.countQ rfl (by decide)))
    (.ite2 (.pair (h.countQ rfl (by decide))) (.ite2 (.pair (h.countQ rfl (by decide))) (.pair h.pushCopy))))

theorem jenSend {port vlan dst msg} (h : Sends o s) : Sends o (s.jenSend port vlan dst msg) := .ite h.pushCopy h.enqueueFrame

/-! ### Notices -/

theorem foldl2 {α β : Type} {f : β × State → α → β × State} {l : List α} (hf : ∀ p x, Sends o p.2 → Sends o (f p x).2) :
    ∀ {p}, Sends o p.2 → Sends o (l.foldl f p).2 := by
  induction l with
  | nil => exact fun h => h
  | cons x t ih => exact fun h => ih (hf _ x h)

theorem noticeStat (h : Sends o s) : Sends o s.noticeStat := (h.setFld (by decide) (by decide)).setFld (by decide) (by decide)

theorem sendCopies {p} {l : List Notice} : ∀ {done s}, Sends o s → Sends o (s.sendCopies p done l) := by
  induction l with
  | nil => exact fun h => h.upd
  | cons n rest ih =>
    intro done s h
    refine ih (Sends.upd (foldl2 (fun acc c hc => ?_) (show Sends o ([], s).2 from h)))
    split
    · exact hc.jenSend
    · exact hc

theorem pumpNotices (h : Sends o s) : Sends o s.pumpNotices := h.sendCopies.noticeStat

theorem notice {kind body} (h : Sends o s) : Sends o (s.notice kind body) := by
  unfold State.notice
  extract_lets subs full parked s1 _ s2 n s3
  have h1 : Sends o s1 := .ite (Sends.raise (h.setFld (by decide) (by decide))) h
  have h2 : Sends o s2 := by
    unfold s2
    clear_value full parked
    split
    · exact h1.upd
    · exact h1
  have h3 : Sends o s3 := List.foldlRecOn (motive := Sends o) _ _ h2 fun _ h _ _ => h.upd
  exact .ite h (.ite h2 h3.upd.pumpNotices)

theorem linkNotice {p up} (h : Sends o s) : Sends o (s.linkNotice p up) := h.notice

end Sends
end Sys2Proof.Machine
end

section
/-!
The loss of input (O47): what leaves with the packet path and the links (R388, Table 17.5).
-/
namespace Sys2Proof.Machine

variable {o s : State}

/-- `s` comes from `o` by frames and links that go: time and supply are the same, the raises of `o` stand, and below the EGR block only
registers of the LANE block have changed. -/
structure Sheds (o s : State) : Prop where
  time : s.time = o.time
  pwr : s.pwr = o.pwr
  raises : ∀ r ∈ o.flt.raises, r ∈ s.flt.raises
  reg : ∀ a < egrB, (a < laneB ∨ portB ≤ a) → s.reg a = o.reg a

namespace Sheds

theorem refl : Sheds o o := ⟨rfl, rfl, fun _ h => h, fun _ _ _ => rfl⟩

theorem trans {t : State} (h : Sheds o s) (g : Sheds s t) : Sheds o t :=
  ⟨g.time.trans h.time, g.pwr.trans h.pwr, fun r hr => g.raises r (h.raises r hr), fun a ha hl => (g.reg a ha hl).trans (h.reg a ha hl)⟩

theorem sends {t : State} (h : Sheds o s) (g : Sends s t) : Sheds o t := h.trans ⟨g.time, g.pwr, g.raises, fun a ha _ => g.reg a ha⟩

theorem foldl {α : Type} {f : State → α → State} {l : List α} (h : Sheds o s) (hf : ∀ s x, x ∈ l → Sheds o s → Sheds o (f s x)) :
    Sheds o (l.foldl f s) := List.foldlRecOn (motive := Sheds o) l f h fun s hs x hx => hf s x hx hs

theorem ite {p : Prop} [Decidable p] {a b : State} (ha : Sheds o a) (hb : Sheds o b) : Sheds o (if p then a else b) := by
  split <;> assumption

/-- An update of memory, path, stations, coaches, threads, the parser's records, egress, pools and rewind. -/
theorem upd {m p n c t l e q r} (h : Sheds o s) :
    Sheds o { s with mem := m, path := p, stns := n, coaches := c, cpu := t, cls := l, egr := e, pool := q, rew := r } :=
  ⟨h.time, h.pwr, h.raises, h.reg⟩

/-- An update of the fault collector that drops no raise. -/
theorem flt {f : FltSt} (h : Sheds o s) (hRaises : ∀ r ∈ s.flt.raises, r ∈ f.raises) : Sheds o { s with flt := f } :=
  h.trans ⟨rfl, rfl, hRaises, fun _ _ _ => rfl⟩

theorem raiseU {src ctx u} (h : Sheds o s) : Sheds o (s.raiseU src ctx u) := h.flt fun _ hr => List.mem_append_left _ hr

theorem raise {src ctx} (h : Sheds o s) : Sheds o (s.raise src ctx) := h.raiseU

theorem setCause {src on} (h : Sheds o s) : Sheds o (s.setCause src on) := h.flt fun _ hr => hr

theorem levelSource {src on} (h : Sheds o s) : Sheds o (s.levelSource src on) := .ite h.setCause.raise h.setCause

theorem setReg {a w} (h : Sheds o s) (ha : egrB ≤ a ∨ (laneB ≤ a ∧ a < portB)) : Sheds o (s.setReg a w) :=
  h.trans ⟨rfl, rfl, fun _ hr => hr, fun b hb hl => setReg_reg_ne (by omega) w⟩

theorem setFld {a lo len v} (h : Sheds o s) (ha : egrB ≤ a ∨ (laneB ≤ a ∧ a < portB)) : Sheds o (s.setFld a lo len v) := h.setReg ha

theorem setBytes {l : List Byte} : ∀ {s a}, Sheds o s → Sheds o (s.setBytes a l) := by
  induction l with
  | nil => exact fun h => h
  | cons b t ih => exact fun h => ih h.upd

/-! ### Cells that are freed (R239–R242) -/

theorem auditAdd {e k up} (h : Sheds o s) : Sheds o (s.auditAdd e k up) :=
  .ite (Sheds.setFld (show Sheds o (s.setAudit e {}) from h.upd) (.inl (by decide))) h.upd

theorem sidingCheck (h : Sheds o s) : Sheds o s.sidingCheck :=
  .ite (.ite h (Sheds.levelSource h.upd)) (Sheds.setCause h.upd)

theorem auditLose {x k} (h : Sheds o s) : Sheds o (s.auditLose x k) := by
  unfold State.auditLose
  split
  · split
    · exact h.auditAdd
    · exact h
  · exact h.setFld (.inl (by decide))

theorem refuseFree {i req owner foreign} (h : Sheds o s) : Sheds o (s.refuseFree 0 i req owner foreign) := by
  unfold State.refuseFree
  extract_lets a b s1 s2 s3
  have h2 : Sheds o s2 := (h.setReg (.inl (by decide))).setReg (.inl (by decide))
  have h3 : Sheds o s3 := .ite (h2.setFld (.inl (by decide))) (h2.setFld (.inl (by decide)))
  exact h3.raise

theorem release {i x} (h : Sheds o s) : Sheds o (s.release 0 i x) := by
  unfold State.release
  extract_lets s1 s2 p s3
  have h2 : Sheds o s2 := (show Sheds o (s1.setHeld 0 i none) from h.auditLose.upd).upd
  have h3 : Sheds o s3 := h2.upd
  exact .ite h2 (h3.setFld (.inl (by decide))).sidingCheck

theorem freeCell {p i} (h : Sheds o s) : Sheds o (s.freeCell p i) := by
  unfold State.freeCell
  split
  · exact h.release
  · exact h.refuseFree

theorem freeCells {p res l} (h : Sheds o s) : Sheds o (s.freeCells p res l) := Sheds.upd (h.foldl fun _ _ _ h => h.freeCell)

theorem freeCopyCells {cp} (h : Sheds o s) : Sheds o (s.freeCopyCells cp) := h.foldl fun s i _ h => by
  cases hHeld : s.heldAt 0 i with
  | none => simpa only [hHeld] using h.refuseFree
  | some x => simpa only [hHeld] using h.release

theorem freePortCells (h : Sheds o s) : Sheds o s.freePortCells := Sheds.upd (h.foldl fun _ _ _ h => h.release)

theorem dropModuleFrames (h : Sheds o s) : Sheds o s.dropModuleFrames :=
  h.foldl fun _ _ _ h => h.foldl fun _ _ _ h => .ite h.freeCopyCells h

/-! ### Copies that are discarded (R229, R231) -/

theorem streamDrop {c reason} (h : Sheds o s) : Sheds o (s.streamDrop c reason) := .ite h.setBytes.setBytes h

theorem availDrop {c reason reserved} (h : Sheds o s) : Sheds o (s.availDrop c reason reserved) := by
  unfold State.availDrop
  extract_lets cause ms _ s1
  have h1 : Sheds o s1 := h.upd
  exact .ite (.ite h ((h1.setFld (.inl (by decide))).setFld (.inl (by decide)))) h

theorem unref {q} (h : Sheds o s) : Sheds o (s.unref q) := by
  unfold State.unref
  split
  · exact h
  · exact .ite (Sheds.upd h.freeCells) h.upd

/-- A copy is discarded under LINK_DOWN. -/
theorem countQ {cp} (h : Sheds o s) : Sheds o (s.countQ cp 15) := by
  have hDrop : Sheds o (s.countDrop cp.port cp.cls 15) := h.sends (.countDrop .refl (by decide))
  show Sheds o (s.countQuiet cp 15)
  unfold State.countQuiet
  dsimp only
  split
  · exact hDrop.streamDrop.availDrop
  · exact hDrop

theorem discard {cp} (h : Sheds o s) : Sheds o (s.discard cp 15) := by
  unfold State.discard
  extract_lets s1
  have h1 : Sheds o s1 := h.countQ.sends (.addFill .refl)
  split
  · exact h1.unref
  · exact h1.freeCopyCells

/-! ### Links that go down (R229, R400) -/

theorem portLoss {q} (h : Sheds o s) : Sheds o (s.portLoss q) := by
  unfold State.portLoss
  extract_lets s1 _ s2
  have h1 : Sheds o s1 := h.foldl fun t c _ ht => (show Sheds o (t.setQueue q c []) from ht.upd).foldl fun _ _ _ h => h.discard
  have h2 : Sheds o s2 := h1.upd
  refine h2.foldl fun s3 x _ h3 => ?_
  split
  · exact h3.discard
  · exact h3

theorem laneLoss {l partner} (h : Sheds o s) (hl : laneB + l * 0x10 + 4 < portB) : Sheds o (s.laneLoss l partner) := by
  unfold State.laneLoss
  extract_lets new f s1 s2 s3
  have h1 : Sheds o s1 := h.flt fun _ hr => hr
  have h2 : Sheds o s2 := h1.setFld (.inr ⟨by omega, hl⟩)
  have h3 : Sheds o s3 := h2.setCause
  exact h3.raiseU

theorem linkDown {p lanes partner} (h : Sheds o s) : Sheds o (s.linkDown p lanes partner) := by
  unfold State.linkDown
  extract_lets s1 all s2 own1 own s3
  have hPort : egrB ≤ egrPR p 4 := by simp only [egrPR]; omega
  have h1 : Sheds o s1 := ((h.setFld (.inl hPort)).setFld (.inl hPort)).setFld (.inl hPort)
  have hLane (l : Nat) (hl : l ∈ all) : laneB + l * 0x10 + 4 < portB := Started.lane_low hl (by decide)
  have h2 : Sheds o s2 := h1.foldl fun t l hl ht => ht.setFld (.inr ⟨by omega, hLane l hl⟩)
  have hOwn (l : Nat) (hl : l ∈ own) : l ∈ all := by
    unfold own own1 at hl
    split at hl
    · exact List.mem_of_mem_take hl
    · exact List.mem_of_mem_filter hl
  have h3 : Sheds o s3 := .ite h2.levelSource (h2.foldl fun t l hl ht => ht.laneLoss (hLane l (hOwn l hl)))
  exact .ite h (h3.portLoss.sends (.linkNotice .refl))

end Sheds

/-! ### The packet path stops (R22, R36) -/

/-- A path that runs stops: but for its RUN bit, what leaves is what `Sheds` says. -/
theorem pathStop_sheds (s : State) : Sheds (if s.bit (stnB + 4) 1 then s.setBit (stnB + 4) 1 false else s) s.pathStop := by
  unfold State.pathStop
  by_cases hRun : s.bit (stnB + 4) 1 = true
  · rw [if_pos hRun, if_neg (by simp [hRun])]
    generalize s.setBit (stnB + 4) 1 false = t
    extract_lets s1 s2 _ s3 _ s4 _ s5 _ _ s6
    have h1 : Sheds t s1 := Sheds.refl.dropModuleFrames.freePortCells
    have h2 : Sheds t s2 := h1.upd
    have h3 : Sheds t s3 := h2.upd
    have h4 : Sheds t s4 := h3.upd
    have h5 : Sheds t s5 := h4.upd
    have h6 : Sheds t s6 := h5.upd
    exact h6.flt fun _ hr => hr
  · rw [if_neg hRun, if_pos (by simp [hRun])]
    exact .refl

end Sys2Proof.Machine
end

section
/-!
The clock monitors, the supply monitors and the loss of input (O47).
-/
namespace Sys2Proof.Machine

variable {s : State}

/-! ### Level sources and monitors -/

/-- A source's condition is reported: the cause stands where it begins, with a raise, and ends without one. -/
theorem levelSource_reports {t : State} (src : Nat) (on : Bool) (hFlt : t.flt = s.flt) :
    aget (fun _ => false) (t.levelSource src on).flt.causes src = on ∧ (on = true → Raises (t.levelSource src on) src)
      ∧ (on = false → (t.levelSource src on).flt.raises = s.flt.raises) := by
  have hCause : aget (fun _ => false) (t.setCause src on).flt.causes src = on := (setCause_cause _ _ _ _).trans (if_pos rfl)
  unfold State.levelSource
  cases on with
  | false => exact ⟨hCause, fun h => absurd h (by decide), fun _ => by rw [if_neg (by decide), ← hFlt]; rfl⟩
  | true => exact ⟨hCause, fun _ => raises_raise _ _ _, fun h => absurd h (by decide)⟩

theorem levelSource_ctl (src : Nat) (on : Bool) : (s.levelSource src on).ctl = s.ctl := by
  unfold State.levelSource
  cases on <;> rfl

theorem watch_ctl (src : Nat) (hot cool : Bool) : (s.watch src hot cool).ctl = s.ctl := by
  unfold State.watch
  split
  · split
    · rfl
    · exact levelSource_ctl src true
  · split <;> rfl

theorem setVin_shows (s : State) (vin : BitVec 16) : (s.setVin vin).fld (pwrB + 4) 0 16 = vin.toNat :=
  (State.fld_setFld _ _ _ _ _ (by decide)).trans (Nat.mod_eq_of_lt vin.isLt)

theorem setVin_bit (s : State) (vin : BitVec 16) (i : Nat) : (s.setVin vin).bit pwrB i = s.bit pwrB i :=
  bit_setFld_ne _ _ _ _ _ _ (.inl (by decide))

section Monitor
variable (vin : BitVec 16) {src : Nat} {hot cool : Bool}

theorem monitor_shows : ((s.setVin vin).watch src hot cool).fld (pwrB + 4) 0 16 = vin.toNat := by
  rw [State.fld, State.reg, watch_ctl]
  exact setVin_shows s vin

theorem monitor_begins (hHot : hot = true) (hCause : aget (fun _ => false) s.flt.causes src = false) :
    ((s.setVin vin).watch src hot cool).fld (pwrB + 4) 0 16 = vin.toNat
      ∧ aget (fun _ => false) ((s.setVin vin).watch src hot cool).flt.causes src = true ∧ Raises ((s.setVin vin).watch src hot cool) src := by
  have hQuiet : aget (fun _ => false) (s.setVin vin).flt.causes src = false := hCause
  refine ⟨monitor_shows vin, ?_⟩
  rw [State.watch, if_pos hHot, if_neg (by simp [hQuiet])]
  obtain ⟨hOn, hRaised, -⟩ := levelSource_reports (s := s.setVin vin) src true rfl
  exact ⟨hOn, hRaised rfl⟩

theorem monitor_ends (hHot : hot = false) (hCool : cool = true) :
    ((s.setVin vin).watch src hot cool).fld (pwrB + 4) 0 16 = vin.toNat
      ∧ aget (fun _ => false) ((s.setVin vin).watch src hot cool).flt.causes src = false
      ∧ ((s.setVin vin).watch src hot cool).flt.raises = s.flt.raises := by
  refine ⟨monitor_shows vin, ?_⟩
  rw [State.watch, if_neg (by simp [hHot]), if_pos hCool]
  exact ⟨(setCause_cause _ _ _ _).trans (if_pos rfl), rfl⟩

/-- Where the condition lasts, and between the two thresholds, nothing but PWR_VIN changes. -/
theorem monitor_stays (h : if hot then aget (fun _ => false) s.flt.causes src = true else cool = false) :
    ((s.setVin vin).watch src hot cool).fld (pwrB + 4) 0 16 = vin.toNat
      ∧ ((s.setVin vin).watch src hot cool).flt.causes = s.flt.causes ∧ ((s.setVin vin).watch src hot cool).flt.raises = s.flt.raises := by
  refine ⟨monitor_shows vin, ?_⟩
  unfold State.watch
  cases hot with
  | true =>
    have hLasts : aget (fun _ => false) (s.setVin vin).flt.causes src = true := h
    rw [if_pos rfl, if_pos hLasts]
    exact ⟨rfl, rfl⟩
  | false =>
    rw [if_neg (by decide), if_neg (by simpa using h)]
    exact ⟨rfl, rfl⟩

end Monitor

/-! ### Clocks (R384, R385, R77) -/

theorem cdcMerge_counts (s : State) (x : BitVec 8) : Raises (s.cdcMerge x.toNat) Src.cdcOverrun
    ∧ (s.cdcMerge x.toNat).fld (clkB + 8) 0 16 = min 65535 (s.fld (clkB + 8) 0 16 + 1) ∧ (s.cdcMerge x.toNat).fld (clkB + 8) 16 8 = x.toNat := by
  refine ⟨raises_raise _ _ _, ?_, ?_⟩
  · rw [State.cdcMerge, State.raise_fld, State.fld_setFld_ne _ _ _ _ _ _ _ _ (by decide), State.count, State.fld_setFld _ _ _ _ _ (by decide), satur]
    omega
  · rw [State.cdcMerge, State.raise_fld, State.fld_setFld _ _ _ _ _ (by decide)]
    exact Nat.mod_eq_of_lt x.isLt

theorem refSteady_flt (s : State) : s.refSteady.flt = s.flt := by
  unfold State.refSteady
  split <;> rfl

theorem refLost_shows (s : State) (on : Bool) : (s.refLost on).bit (clkB + 4) 1 = !on := by
  rw [State.refLost, State.bit, State.reg, levelSource_ctl]
  cases on with
  | false => exact refSteady_steady s
  | true => exact State.bit_setBit s _ _ _ (by decide)

theorem refLost_reports (s : State) (on : Bool) : aget (fun _ => false) (s.refLost on).flt.causes Src.refLost = on
    ∧ (on = true → Raises (s.refLost on) Src.refLost) ∧ (on = false → (s.refLost on).flt.raises = s.flt.raises) := by
  refine levelSource_reports _ _ ?_
  cases on with
  | false => exact refSteady_flt s
  | true => rfl

theorem rootUnlock_unlocks (hLocked : s.bit (clkB + 4) 0 = true) : s.rootUnlock.bit (clkB + 4) 0 = false ∧ Raises s.rootUnlock Src.rootUnlock
    ∧ Raises s.rootUnlock Src.timeSafeState ∧ ∀ n : Fin 9, s.rootUnlock.instState n = 3 := by
  rw [State.rootUnlock, if_neg (by simp [hLocked])]
  obtain ⟨-, hRaised, -⟩ := levelSource_reports (s := s.setBit (clkB + 4) 0 false) Src.rootUnlock true rfl
  have hOff : ((s.setBit (clkB + 4) 0 false).levelSource Src.rootUnlock true).bit (clkB + 4) 0 = false := by
    rw [State.bit, State.reg, levelSource_ctl]
    exact State.bit_setBit s _ _ _ (by decide)
  generalize (s.setBit (clkB + 4) 0 false).levelSource Src.rootUnlock true = t at hRaised hOff
  obtain ⟨hRest, hSafe, hInvalid⟩ := allInvalid_enters t
  refine ⟨?_, hRest.raised (hRaised rfl), hSafe, fun n => hInvalid n n.isLt⟩
  rw [State.bit, hRest.reg _ (by decide) fun m _ => by simp only [ciR, timeB, clkB, block]; omega]
  exact hOff

/-! ### Loss of input (R388, Tables 17.3 and 17.5) -/

theorem inputLost_idle {t : Nat} (h : ¬ (s.pwr.powered = true ∧ s.pwr.lossAt = none)) : s.inputLost t = s := by
  rw [State.inputLost, if_pos]
  by_cases hPower : s.pwr.powered = true
  · exact .inr (Option.isSome_iff_ne_none.mpr fun hNone => h ⟨hPower, hNone⟩)
  · exact .inl (by simpa using hPower)

theorem inputLost_begins {t : Nat} (hPower : s.pwr.powered = true) (hNone : s.pwr.lossAt = none) :
    s.inputLost t = { s.advance t with pwr := { s.pwr with lossAt := some (max s.now t) } } := by
  rw [State.inputLost, if_neg (by simp [hPower, hNone])]
  rfl

theorem lossEnds_none {t : Nat} (hNone : s.pwr.lossAt = none) : s.lossEnds t = s := by rw [State.lossEnds, hNone]

theorem lossEnds_late {t t0 : Nat} (hAt : s.pwr.lossAt = some t0) (hLate : t0 + 50 * usU ≤ max s.now t) : s.lossEnds t = s := by
  rw [State.lossEnds, hAt]
  exact if_pos (.inr hLate)

theorem lossEnds_rides {t t0 : Nat} (hAt : s.pwr.lossAt = some t0) (hLost : s.pwr.lost = false) (hEarly : max s.now t < t0 + 50 * usU) :
    s.lossEnds t = { s.advance t with pwr := { s.pwr with lossAt := none } } := by
  rw [State.lossEnds, hAt]
  exact if_neg (by rw [hLost]; rintro (h | h); exacts [absurd h (by decide), absurd h (by omega)])

theorem lossConfirm_sheds {t0 : Nat} (hAt : s.pwr.lossAt = some t0) (hLost : s.pwr.lost = false) :
    s.lossConfirm.pwr.lost = true ∧ s.lossConfirm.fld pwrB 0 2 = 2 ∧ Raises s.lossConfirm Src.vinLost ∧ s.lossConfirm.pathRun = false
      ∧ s.lossConfirm.now = max s.now (t0 + 50 * usU) := by
  generalize hU : s.lossConfirm = u
  unfold State.lossConfirm at hU
  rw [hAt] at hU
  dsimp -zeta only at hU
  rw [if_neg (by simp [hLost])] at hU
  extract_lets s1 p2 s2 s3 s4 c5 at hU
  obtain ⟨-, hRaised, -⟩ := levelSource_reports (s := s.advance (t0 + 50 * usU)) Src.vinLost true rfl
  have hNow1 : s1.now = max s.now (t0 + 50 * usU) := rfl
  have hRaised1 : Raises s1 Src.vinLost := hRaised rfl
  clear_value s1
  have hLost2 : s2.pwr.lost = true := rfl
  have hTime2 : s2.time = s1.time := rfl
  have hFlt2 : s2.flt = s1.flt := rfl
  clear_value s2
  have hStop : Sheds (if (s2.setFld pwrB 0 2 2).bit (stnB + 4) 1 then (s2.setFld pwrB 0 2 2).setBit (stnB + 4) 1 false
      else s2.setFld pwrB 0 2 2) s4 :=
    (pathStop_sheds _).foldl fun _ _ _ h => h.linkDown
  clear_value s4
  have hBegins : ∃ r, Sheds r s4 ∧ r.time = s2.time ∧ r.pwr = s2.pwr ∧ r.flt = s2.flt ∧ r.fld pwrB 0 2 = 2
      ∧ r.bit (stnB + 4) 1 = false := by
    refine ⟨_, hStop, ?_⟩
    have hMode : (s2.setFld pwrB 0 2 2).fld pwrB 0 2 = 2 := State.fld_setFld _ _ _ _ _ (by decide)
    split
    · exact ⟨rfl, rfl, rfl, (fld_setBit_ne _ _ _ _ _ _ (.inl (by decide))).trans hMode, State.bit_setBit _ _ _ _ (by decide)⟩
    · next hRun => exact ⟨rfl, rfl, rfl, hMode, by simpa using hRun⟩
  obtain ⟨r, hShed, hTime, hPwr, hFlt, hMode, hRun⟩ := hBegins
  have hRaisedR : Raises r Src.vinLost := by
    rw [Raises, hFlt, hFlt2]
    exact hRaised1
  have hPwrU : u.pwr = s4.pwr := by rw [← hU]
  have hCtlU : u.ctl = s4.ctl := by rw [← hU]
  have hFltU : u.flt = s4.flt := by rw [← hU]
  have hTimeU : u.time = s4.time := by rw [← hU]
  clear hU
  refine ⟨?_, ?_, ?_, ?_, ?_⟩
  · rw [hPwrU, hShed.pwr, hPwr, hLost2]
  · rw [State.fld, State.reg, hCtlU, ← State.reg, hShed.reg _ (by decide) (by decide)]
    exact hMode
  · rw [Raises, hFltU]
    exact hRaisedR.imp fun x hx => ⟨hShed.raises x hx.1, hx.2⟩
  · rw [State.pathRun, State.bit, State.reg, hCtlU, ← State.reg, hShed.reg _ (by decide) (by decide)]
    exact hRun
  · rw [State.now, hTimeU, hShed.time, hTime, hTime2]
    exact hNow1

/-! ### The rails go off (R371, R388) -/

theorem setBytes_store (l : List Byte) : ∀ (s : State) (a : Nat), (s.setBytes a l).store = s.store := by
  induction l with
  | nil => exact fun _ _ => rfl
  | cons b l ih => exact fun s a => ih (s.setByte a b) (a + 1)

theorem journalWrite_store (s : State) : s.journalWrite.store = s.store := by
  unfold State.journalWrite
  split
  · rfl
  · dsimp only
    split
    · exact setBytes_store _ _ _
    · split
      · unfold State.writeMram
        dsimp only
        split <;> rfl
      · rfl

theorem drainJournal_store (s : State) : s.drainJournal.store = s.store :=
  List.foldlRecOn (motive := fun t : State => t.store = s.store) (List.range 66) (fun s _ => s.journalWrite) rfl
    fun t ht _ _ => (journalWrite_store t).trans ht

theorem queueRecord_store (s : State) (r : List Byte) : (s.queueRecord r).store = s.store := by
  unfold State.queueRecord
  split <;> rfl

theorem copyCell_store (s : State) : s.copyCell.store = s.store := by
  unfold State.copyCell
  split
  · rfl
  · next r _ =>
    dsimp only
    generalize (patch r 6 [BitVec.ofNat 8 (le r 6 1 % 32 + 32)]).take 60 = b
    obtain ⟨l, hl⟩ := setCell_rest (s.queueRecord (b ++ bytesLE 4 (crc32c b))) none
    rw [hl]
    exact queueRecord_store s _

theorem availRecord_store (s : State) : s.availRecord.store = s.store := queueRecord_store _ _

theorem lastGasp_store (s : State) : s.lastGasp.store = s.store := by
  unfold State.lastGasp
  split
  · rfl
  · dsimp only
    rw [drainJournal_store, availRecord_store, copyCell_store, drainJournal_store]

/-- Without power only what is non-volatile stands (R388). -/
theorem powerGone_clears (s : State) : (s.powerGone false).mem = [] ∧ (s.powerGone false).pwr.powered = false
    ∧ (s.powerGone false).flt.cell = none ∧ (s.powerGone false).flt.jqueue = [] ∧ (s.powerGone false).store = s.store
    ∧ (s.powerGone false).jen = {} ∧ (s.powerGone false).coaches = [] := ⟨rfl, rfl, rfl, rfl, rfl, rfl, rfl⟩

theorem railsOff_clears {t t0 : Nat} (hAt : s.pwr.lossAt = some t0) (hLost : s.pwr.lost = true) :
    (s.railsOff t).mem = [] ∧ (s.railsOff t).pwr.powered = false ∧ (s.railsOff t).flt.cell = none ∧ (s.railsOff t).flt.jqueue = []
      ∧ (s.railsOff t).store = s.store ∧ (s.railsOff t).jen = {} ∧ (s.railsOff t).coaches = [] := by
  have hStore := lastGasp_store (s.advance (max t (t0 + 40 * msU)))
  rw [State.railsOff, hAt]
  dsimp only
  rw [if_pos hLost]
  generalize (s.advance (max t (t0 + 40 * msU))).lastGasp = r at hStore
  obtain ⟨hMem, hPower, hCell, hQueue, hKept, hJen, hCoaches⟩ := powerGone_clears r
  exact ⟨hMem, hPower, hCell, hQueue, hKept.trans hStore, hJen, hCoaches⟩

/-! ### The obligation -/

/-- Settles O47: the monitors by where their thresholds lie, the loss of input by what leaves with the path and the links. -/
theorem clockAndSupplyResults : Obligations.ClockAndSupplyResults := by
  unfold Obligations.ClockAndSupplyResults
  intro x on p r t vin s V shown cause loud
  refine ⟨⟨_, rfl, cdcMerge_counts s x⟩, ⟨_, rfl, refLost_reports s on⟩, ⟨_, rfl, refLost_shows s on⟩,
    ⟨_, rfl, levelSource_reports _ on rfl⟩, ⟨_, rfl, levelSource_reports _ on rfl⟩, ⟨_, rfl, levelSource_reports _ on rfl⟩,
    ⟨_, rfl, ?lanePll⟩, ⟨_, rfl, levelSource_reports _ on rfl⟩,
    fun hLocked => ⟨_, rfl, rootUnlock_unlocks hLocked⟩, fun hOff => congrArg Host.Outcome.next (if_pos (by simp [hOff])),
    fun hV hCause => ⟨_, rfl, monitor_begins vin (decide_eq_true hV) hCause⟩,
    fun hV => ⟨_, rfl, monitor_ends vin (decide_eq_false (by omega)) (decide_eq_true hV)⟩,
    fun hLo hHi => ⟨_, rfl, monitor_stays vin ?overBetween⟩, fun hV hCause => ⟨_, rfl, monitor_stays vin ?overLasts⟩,
    fun hLo hHi => ⟨_, rfl, monitor_stays vin ?underBetween⟩, fun hV hCause => ⟨_, rfl, monitor_stays vin ?underLasts⟩,
    fun h hV => ⟨_, rfl, monitor_stays vin ?reversed⟩, fun h => ⟨⟨_, rfl, ?lossIdle⟩, ⟨_, rfl, ?disconnectIdle⟩⟩,
    fun hNone => ⟨⟨_, rfl, ?dipIdle⟩, ⟨_, rfl, ?reconnectIdle⟩⟩, fun hLost => ?railsStay, fun hLost => ?confirmed,
    fun hV hCause => ⟨_, rfl, monitor_begins vin (decide_eq_true hV) hCause⟩,
    fun hV => ⟨_, rfl, monitor_ends vin (decide_eq_false (by omega)) (decide_eq_true hV)⟩,
    fun hV hAt hCause => ⟨_, rfl, monitor_begins vin (by rw [hAt, Bool.and_true]; exact decide_eq_true hV) hCause⟩,
    fun hV => ⟨_, rfl, monitor_ends vin (by rw [decide_eq_false (by omega)]; rfl) (decide_eq_true hV)⟩,
    ⟨_, rfl, raises_raise _ _ _, rfl⟩, fun hPower hNone => ⟨⟨_, rfl, ?disconnects⟩, ⟨_, rfl, ?loses⟩⟩,
    fun t0 hAt hLost hEarly => ⟨⟨_, rfl, ?rides⟩, fun hBit => ⟨_, rfl, ?reconnects⟩⟩, fun t0 hAt hLate => ⟨_, rfl, ?late⟩,
    fun hNone => ⟨?noLoss, ?noRails⟩, fun t0 hAt hLost => ⟨_, rfl, lossConfirm_sheds hAt hLost⟩,
    fun t0 hAt hLost => ⟨_, rfl, railsOff_clears hAt hLost⟩⟩
  case lanePll =>
    show ((s.setBit (clkB + 4) (2 + p) (!on)).levelSource (Src.lanePll p) on).bit (clkB + 4) (2 + p) = !on
    rw [State.bit, State.reg, levelSource_ctl]
    exact State.bit_setBit s _ _ _ (by omega)
  case overBetween =>
    rw [if_neg (by simp; omega)]
    exact decide_eq_false (by omega)
  case overLasts =>
    rw [if_pos (decide_eq_true hV)]
    exact hCause
  case underBetween =>
    rw [if_neg (by simp; omega)]
    exact decide_eq_false (by omega)
  case underLasts =>
    rw [if_pos (decide_eq_true hV)]
    exact hCause
  case reversed =>
    split
    · next hHot =>
      obtain ⟨hLow, hAt⟩ := Bool.and_eq_true_iff.mp hHot
      have hLow := of_decide_eq_true hLow
      rcases h with h | h | h
      · omega
      · simp [h] at hAt
      · exact h
    · exact decide_eq_false (by omega)
  case lossIdle =>
    rw [inputLost_idle h]
    exact ⟨setVin_shows s vin, rfl, rfl⟩
  case disconnectIdle =>
    rw [inputLost_idle (s := s.setBit pwrB 4 true) h]
    exact ⟨setVin_shows _ vin, (setVin_bit _ vin 4).trans (State.bit_setBit _ _ _ _ (by decide)), rfl, rfl⟩
  case dipIdle =>
    rw [lossEnds_none hNone]
    exact ⟨setVin_shows s vin, rfl, rfl⟩
  case reconnectIdle =>
    split
    · rw [lossEnds_none (s := s.setBit pwrB 4 false) hNone]
      exact ⟨setVin_shows _ vin, (setVin_bit _ vin 4).trans (State.bit_setBit _ _ _ _ (by decide)), rfl, rfl⟩
    · next hBit => exact ⟨setVin_shows s vin, (setVin_bit s vin 4).trans (by simpa using hBit), rfl, rfl⟩
  case railsStay =>
    show Host.Outcome.next (s.railsOff t) = .next s
    rw [State.railsOff]
    split
    · rw [if_neg (by simp [hLost])]
    · rfl
  case confirmed =>
    show Host.Outcome.next s.lossConfirm = .next s
    rw [State.lossConfirm]
    split
    · rw [if_pos hLost]
    · rfl
  case disconnects =>
    rw [inputLost_begins (s := s.setBit pwrB 4 true) hPower hNone]
    exact ⟨setVin_shows _ vin, (setVin_bit _ vin 4).trans (State.bit_setBit s _ _ _ (by decide)), rfl, rfl⟩
  case loses =>
    rw [inputLost_begins hPower hNone]
    exact ⟨setVin_shows _ vin, rfl, rfl⟩
  case rides =>
    rw [lossEnds_rides hAt hLost hEarly]
    exact ⟨setVin_shows _ vin, rfl, rfl⟩
  case reconnects =>
    rw [if_pos hBit, lossEnds_rides (s := s.setBit pwrB 4 false) hAt hLost hEarly]
    exact ⟨setVin_shows _ vin, (setVin_bit _ vin 4).trans (State.bit_setBit s _ _ _ (by decide)), rfl⟩
  case late =>
    rw [lossEnds_late hAt hLate]
    exact ⟨setVin_shows s vin, rfl⟩
  case noLoss =>
    show Host.Outcome.next s.lossConfirm = .next s
    rw [State.lossConfirm, hNone]
  case noRails =>
    show Host.Outcome.next (s.railsOff t) = .next s
    rw [State.railsOff, hNone]

end Sys2Proof.Machine
end

section
/-!
How an item at the Jenitor is performed and answered (R326, R327, R330): what the answer is, and what stands besides.
-/
namespace Sys2Proof.Machine

variable {o s t u : State} {c : JenCmd} {op st role size : Nat} {b body : List Byte} {rest : List (Nat × List Byte)}

/-! ### A frame of the module changes no command and no session -/

theorem countDrop_jen (s : State) (p set reason : Nat) : (s.countDrop p set reason).jen = s.jen := by
  unfold State.countDrop
  extract_lets s1 _ _ s2 _ _ _ s3
  have h2 : s2.jen = s.jen := rfl
  have h3 : s3.jen = s.jen := rfl
  split
  · split
    · exact h3
    · exact h3
  · exact h2

theorem countQ_jen (s : State) {cp : Copy} (hModule : cp.coach = none) (reason : Nat) : (s.countQ cp reason).jen = s.jen := by
  unfold State.countQ State.countQuiet
  simp only [hModule, Option.bind_none, countDrop_jen]
  split <;> rfl

theorem ite_snd_jen {p : Prop} [Decidable p] {x y : Bool × State} {j : JenSt} (hx : x.2.jen = j) (hy : y.2.jen = j) :
    (if p then x else y).2.jen = j := by
  split <;> assumption

theorem enqueueFrame_jen (s : State) (q k : Nat) (frame : List Byte) (cells : List Nat) (owner : Nat) :
    (s.enqueueFrame q k frame cells owner).2.jen = s.jen := by
  have hRefused (reason : Nat) : ((false, s.countQ (s.frameCopy q k frame cells owner) reason) : Bool × State).2.jen = s.jen :=
    countQ_jen s rfl reason
  exact ite_snd_jen (hRefused 15) (ite_snd_jen (hRefused 13) (ite_snd_jen (hRefused 14) (ite_snd_jen (hRefused 6) rfl)))

theorem jenSend_jen (s : State) (port : Nat) (vlan : Option Nat) (dst msg : List Byte) : (s.jenSend port vlan dst msg).jen = s.jen := by
  unfold State.jenSend
  dsimp only
  split
  · rfl
  · exact enqueueFrame_jen _ _ _ _ _ _

/-! ### Responses -/

/-- `s` comes from `o` by the answer to an item: besides what `Sends` says, the Jenitor's commands and sessions alone have changed. -/
structure Replies (o s : State) : Prop extends Sends o s where
  jen : ∃ k m, s.jen = { o.jen with cmds := k, sessions := m }

namespace Replies

theorem refl : Replies o o := ⟨.refl, _, _, rfl⟩

theorem trans (h : Replies o s) (g : Replies s t) : Replies o t := by
  obtain ⟨k, m, hs⟩ := h.jen
  obtain ⟨k', m', ht⟩ := g.jen
  exact ⟨h.toSends.trans g.toSends, k', m', by rw [ht, hs]⟩

theorem cmds {k : List JenCmd} : Replies s { s with jen := { s.jen with cmds := k } } := ⟨Sends.refl.upd, _, _, rfl⟩

end Replies

theorem payload_suffix (hdr payload key : List Byte) : payload <:+ jenSeal hdr payload (some key) := List.suffix_append _ _

theorem respond_replies (hOrigin : c.origin = none) (hClosing : c.closing = false) :
    Replies s (s.respond c) ∧ (s.respond c).jen.cmds = s.jen.cmds
      ∧ (s.cmdLive c = true → (s.session c.session).stored.any (fun r => r.seq == c.seq && r.tag == c.tag) = true →
        ∃ r ∈ ((s.respond c).session c.session).stored, r.seq = c.seq ∧ r.tag = c.tag ∧ ∃ m, r.response = some m ∧ c.payload <:+ m) := by
  generalize hU : s.respond c = u
  unfold State.respond at hU
  simp -zeta only [hOrigin, hClosing, Option.isSome_none, Bool.false_eq_true, if_false] at hU
  extract_lets x payload msg s1 s2 at hU
  by_cases hLive : s.cmdLive c = true
  · rw [if_pos hLive] at hU
    have hSuffix : c.payload <:+ msg := payload_suffix _ _ _
    have hJen2 : s2.jen = s1.jen := jenSend_jen _ _ _ _ _
    have hSend : Replies s s2 := ⟨(show Sends s s1 from Sends.refl.upd).jenSend, _, _, hJen2⟩
    subst hU
    refine ⟨hSend, by rw [hJen2]; rfl, fun _ hAny => ?_⟩
    obtain ⟨r, hr, hMatch⟩ := List.any_eq_true.mp hAny
    obtain ⟨hSeq, hTag⟩ := Bool.and_eq_true_iff.mp hMatch
    have hStored : (s2.session c.session).stored = x.stored.map (fun r =>
        if r.seq == c.seq && r.tag == c.tag then { r with response := some msg } else r) := by
      rw [State.session, hJen2]
      exact congrArg Session.stored ((aget_aset _ _ _ _ _).trans (if_pos rfl))
    refine ⟨{ r with response := some msg }, ?_, eq_of_beq hSeq, eq_of_beq hTag, msg, rfl, hSuffix⟩
    rw [hStored]
    exact List.mem_map.mpr ⟨r, hr, if_pos hMatch⟩
  · rw [if_neg hLive] at hU
    subst hU
    exact ⟨.refl, rfl, fun h => absurd h hLive⟩

/-! ### The item in front -/

theorem front_of_cmds {d : JenCmd} {it : Nat × List Byte} {r : List (Nat × List Byte)} (hAlone : t.jen.cmds = [d]) (hItems : d.items = it :: r)
    (hReady : d.waiting = false) : t.front = some (0, d, it.1, it.2) := by
  simp [State.front, hAlone, JenCmd.holds, hItems, hReady]

theorem front_none_of_waiting {d : JenCmd} (hAlone : t.jen.cmds = [d]) (hWaiting : d.waiting = true) : t.front = none := by
  simp [State.front, hAlone, hWaiting]

/-- Where the item in front is known, or there is none, no item is answered unasked. -/
theorem settleItems_stays (h : ∀ x, t.front = some x → itemKnown x.2.1 x.2.2.1 x.2.2.2 = true) : t.settleItems = t := by
  unfold State.settleItems
  generalize t.itemCount = n
  cases n with
  | zero => rfl
  | succ n =>
    unfold State.drainBad
    split
    · next i d op b hFront => rw [if_pos (h _ hFront)]
    · rfl

theorem itemKnown_congr {d : JenCmd} (hOrigin : d.origin = c.origin) (op : Nat) (b : List Byte) : itemKnown d op b = itemKnown c op b := by
  unfold itemKnown
  rw [hOrigin]

/-- The command after the answer to its item in front. -/
def JenCmd.answered (c : JenCmd) (rest : List (Nat × List Byte)) (op st : Nat) (body : List Byte) : JenCmd :=
  { c with items := rest, answers := c.answers ++ [(op, st, body)], waiting := false }

theorem finishItem_eq (hAlone : t.jen.cmds = [c]) (hItems : c.items = (op, b) :: rest) (last : Bool) :
    t.finishItem 0 st body last = if rest = [] ∨ (c.stop = true ∧ st ≠ 0) ∨ last = true
      then ({ t with jen := { t.jen with cmds := [] } } : State).respond (c.answered rest op st body)
      else { t with jen := { t.jen with cmds := [c.answered rest op st body] } } := by
  unfold State.finishItem
  simp only [hAlone, List.getElem?_cons_zero, hItems, List.eraseIdx_cons_zero, List.set_cons_zero, JenCmd.answered, Bool.or_eq_true,
    List.isEmpty_iff, Bool.and_eq_true, bne_iff_ne, or_assoc]

theorem cmdLive_congr {d : JenCmd} (hSessions : t.jen.sessions = s.jen.sessions) (hSession : d.session = c.session) (hId : d.id = c.id) :
    t.cmdLive d = s.cmdLive c := by
  rw [State.cmdLive, State.cmdLive, State.session, State.session, hSessions, hSession, hId]

/-- The item in front of a command of a session is answered. -/
theorem finishItem_answers (h : Fronts s c op b rest) (hCmds : t.jen.cmds = s.jen.cmds) (hSessions : t.jen.sessions = s.jen.sessions) :
    Answered c rest op st body s (t.finishItem 0 st body).settleItems ∧ Replies t (t.finishItem 0 st body).settleItems := by
  rw [finishItem_eq (hCmds.trans h.alone) h.items]
  by_cases hDone : rest = [] ∨ (c.stop = true ∧ st ≠ 0)
  · have hLast : rest = [] ∨ (c.stop = true ∧ st ≠ 0) ∨ false = true := hDone.imp id .inl
    rw [if_pos hLast]
    have hEmptied : Replies t { t with jen := { t.jen with cmds := [] } } := .cmds
    have hLeft : ({ t with jen := { t.jen with cmds := [] } } : State).jen.sessions = s.jen.sessions := hSessions
    have hGone : ({ t with jen := { t.jen with cmds := [] } } : State).jen.cmds = [] := rfl
    generalize ({ t with jen := { t.jen with cmds := [] } } : State) = e at hEmptied hLeft hGone ⊢
    obtain ⟨hReplies, hNone, hKept⟩ := respond_replies (s := e) (c := c.answered rest op st body) h.origin h.closing
    have hSession : e.session (c.answered rest op st body).session = s.session c.session := by
      rw [State.session, State.session, hLeft]
      rfl
    rw [hSession, cmdLive_congr (s := s) (c := c) (d := c.answered rest op st body) hLeft rfl rfl] at hKept
    rw [hGone] at hNone
    generalize e.respond (c.answered rest op st body) = u at hReplies hNone hKept
    rw [settleItems_stays fun x hx => by simp [State.front, hNone] at hx]
    refine ⟨?_, hEmptied.trans hReplies⟩
    unfold Answered
    rw [if_pos hDone]
    exact ⟨hNone, hKept⟩
  · have hMore : ¬ (rest = [] ∨ (c.stop = true ∧ st ≠ 0) ∨ false = true) := fun h => hDone (h.imp id fun h => h.resolve_right (by decide))
    rw [if_neg hMore]
    obtain ⟨it, r, hRest⟩ := List.exists_cons_of_ne_nil fun e => hDone (.inl e)
    rw [settleItems_stays fun x hx => ?_]
    · refine ⟨?_, .cmds⟩
      unfold Answered
      rw [if_neg hDone]
      rfl
    · rw [front_of_cmds (it := it) (r := r) rfl (by rw [JenCmd.answered, hRest]) rfl] at hx
      cases hx
      exact (itemKnown_congr rfl _ _).trans (h.next it (by rw [hRest]; rfl))

/-! ### Performing an item (R327, R328, R349) -/

section Perform
variable {p : List Byte → Bool} {sz : List Byte → Nat} {f : JenCmd → List Byte → State → Answer × State}

theorem perform_eq (h : Asks s c op b rest role size) (hp : p b = true) (hSize : sz b = size) :
    s.perform op role p sz f = match f c b s with
      | (.done st body, t) => (t.finishItem 0 st body).settleItems
      | (.wait, t) => ({ t with jen := { t.jen with cmds := t.jen.cmds.set 0 { c with waiting := true } } } : State).settleItems := by
  unfold State.perform
  rw [front_of_cmds h.alone h.items h.ready]
  have hKnown := h.known
  have hAllowed := h.allowed
  have hFits := h.fits
  dsimp only
  rw [if_neg (by simp [hKnown, hp]), if_neg (by simp only [h.phase, false_and, false_or]; omega), if_neg (by omega)] <;> rfl

theorem perform_answers (h : Asks s c op b rest role size) (hp : p b = true) (hSize : sz b = size) (hf : f c b s = (.done st body, t))
    (hCmds : t.jen.cmds = s.jen.cmds) (hSessions : t.jen.sessions = s.jen.sessions) {u : State} (hU : s.perform op role p sz f = u) :
    Answered c rest op st body s u ∧ Replies t u := by
  rw [perform_eq h hp hSize, hf] at hU
  rw [← hU]
  exact finishItem_answers h.toFronts hCmds hSessions

theorem perform_waits (h : Asks s c op b rest role size) (hp : p b = true) (hSize : sz b = size) (hf : f c b s = (.wait, t))
    (hCmds : t.jen.cmds = s.jen.cmds) : s.perform op role p sz f = { t with jen := { t.jen with cmds := [{ c with waiting := true }] } } := by
  rw [perform_eq h hp hSize, hf]
  dsimp only
  rw [hCmds, h.alone, List.set_cons_zero]
  refine settleItems_stays fun x hx => ?_
  rw [front_none_of_waiting (d := { c with waiting := true }) rfl rfl] at hx
  cases hx

end Perform

/-- A waiting command's item is answered (R330). -/
theorem answer_answers {q : Nat → List Byte → Bool} (h : Fronts s c op b rest) (hWaiting : c.waiting = true) (hq : q op b = true)
    (hCmds : t.jen.cmds = s.jen.cmds) (hSessions : t.jen.sessions = s.jen.sessions) :
    Answered c rest op st body s (t.answer q st body) ∧ Replies t (t.answer q st body) := by
  unfold State.answer
  rw [hCmds, h.alone]
  simp only [List.findIdx?_cons, hWaiting, h.items, hq, Bool.and_self, if_true]
  exact finishItem_answers h hCmds hSessions

theorem answer_none {q : Nat → List Byte → Bool} (hCmds : t.jen.cmds = []) : t.answer q st body = t := by
  unfold State.answer
  rw [hCmds]
  rfl

/-- No command waits while the one in front is ready. -/
theorem awaits_of_ready {q : Nat → List Byte → Bool} (h : Fronts s c op b rest) (hReady : c.waiting = false) : s.awaits q = false := by
  simp [State.awaits, h.alone, hReady]

/-! ### The numbers of a body -/

theorem fromLE_lt (l : List Byte) : fromLE l < 256 ^ l.length := by
  induction l with
  | nil => decide
  | cons x l ih =>
    have hx := x.isLt
    rw [fromLE, List.length_cons, Nat.pow_succ]
    omega

theorem be_lt (l : List Byte) (i n : Nat) : be l i n < 256 ^ n := by
  have hLength : (slice l i n).reverse.length = n := by simp [slice]
  have h := fromLE_lt (slice l i n).reverse
  rwa [hLength] at h

end Sys2Proof.Machine
end

section
/-!
Items that change the time, the rewind store and the images, each by itself (R62–R65, R251–R253, R330, R353).
-/
namespace Sys2Proof.Machine

variable {s : State} {c : JenCmd} {b : List Byte}

/-! ### Time (R62–R65) -/


theorem toNat_be (b : List Byte) (i n w : Nat) (h : 8 * n = w) : (BitVec.ofNat w (be b i n)).toNat = be b i n := by
  have hPow : 256 ^ n = 2 ^ w := by rw [← h, pow_mul]; norm_num
  rw [BitVec.toNat_ofNat, ← hPow]
  exact Nat.mod_eq_of_lt (be_lt b i n)

/-- The step that a TIME_SET of body `b` asks for (R64). -/
def stepOf (b : List Byte) : ArmedStep :=
  ⟨(be b 1 6 * 1000000000 + be b 7 4) * nsU, be b 11 1 = 1, BitVec.ofNat 48 (be b 12 6), BitVec.ofNat 32 (be b 18 4)⟩

theorem stepOf_ns (b : List Byte) : (stepOf b).ns.toNat = be b 18 4 := by
  have hNs : (stepOf b).ns = BitVec.ofNat 32 (be b 18 4) := rfl
  rw [hNs]
  exact toNat_be b 18 4 32 rfl

theorem stepOf_sec (b : List Byte) : (stepOf b).sec.toNat = be b 12 6 := by
  have hSec : (stepOf b).sec = BitVec.ofNat 48 (be b 12 6) := rfl
  rw [hSec]
  exact toNat_be b 12 6 48 rfl

/-- What TIME_SET refuses before it writes a register: a clock, an instant or a value out of range. -/
def StepBad (b : List Byte) (s : State) : Prop :=
  be b 0 1 = 0 ∨ 8 < be b 0 1 ∨ 999999999 < be b 7 4 ∨ (stepOf b).instant < s.now + usU ∨ s.now + 10 * secU < (stepOf b).instant
    ∨ (if be b 11 1 = 1 then decide (999999999 < (stepOf b).ns.toNat) else decide (999999999 < (stepOf b).ns.toInt.natAbs)) = true
    ∨ (¬ be b 11 1 = 1 ∧ ((stepOf b).sec.toInt < -(2 ^ 31) ∨ 2 ^ 31 ≤ (stepOf b).sec.toInt))

theorem timeSet_bad (h : StepBad b s) : State.timeSet c b s = (.done 2 [], s) := if_pos h

/-- The registers of the step that TIME_SET arms (R64). -/
def State.stepWritten (s : State) (b : List Byte) : State :=
  let n := be b 0 1
  let s := (s.setReg (ciR n 0x20) (BitVec.ofNat 32 (be b 1 6))).setReg (ciR n 0x24) (BitVec.ofNat 32 (be b 7 4))
  let s := (s.setReg (ciR n 0x28) ((stepOf b).sec.truncate 32)).setReg (ciR n 0x2C) (stepOf b).ns
  (s.setBit (ciR n 0x30) 1 (be b 11 1 = 1)).setFld (ciR n 0x30) 16 16 ((stepOf b).sec.toNat / 2 ^ 32)

theorem stepWritten_jen : (s.stepWritten b).jen = s.jen := by
  simp only [State.stepWritten, State.setFld_jen, State.setBit_jen, State.setReg_jen]

theorem stepWritten_now : (s.stepWritten b).now = s.now := by
  simp only [State.stepWritten, State.setFld_now, State.setBit_now, State.setReg_now]

/-- A TIME_SET in range writes the registers of its step, and arms it unless it is refused. -/
theorem timeSet_good (h : ¬ StepBad b s) (hFree : s.awaits (fun op _ => op == 0x0F) = false) :
    ∃ r : State, r.jen = s.jen ∧ r.now = s.now ∧ State.timeSet c b s = if r.stepRefused (be b 0 1) (stepOf b) (be b 7 4)
      then (.done 3 [], r.refuseStep (be b 0 1)) else (.wait, (r.armStep (be b 0 1) (stepOf b) (be b 7 4)).setInst (be b 0 1)
        { (r.armStep (be b 0 1) (stepOf b) (be b 7 4)).inst (be b 0 1) with jenWaits := true }) :=
  ⟨s.stepWritten b, stepWritten_jen, stepWritten_now, (if_neg h).trans (if_neg (by rw [hFree]; decide))⟩

theorem setInst_waits (u : State) (n : Nat) : ((u.setInst n { u.inst n with jenWaits := true }).inst n).step = (u.inst n).step := by
  rw [State.inst_setInst, if_pos rfl]

/-- The state in which a TIME_SET waits for the step that it has armed. -/
theorem armStep_waits {r : State} {n atNs : Nat} {a : ArmedStep} (hAllowed : r.stepRefused n a atNs = false) :
    ∃ t, (r.armStep n a atNs).setInst n { (r.armStep n a atNs).inst n with jenWaits := true } = t ∧ t.jen = r.jen
      ∧ t.bit (ciR n 0x30) 0 = true ∧ (t.inst n).step = some a := by
  have hJen : (r.armStep n a atNs).jen = r.jen := by
    rw [State.armStep, if_neg (by simp [hAllowed]), State.setBit_jen, State.setInst_jen]
  obtain ⟨hArmed, hStep⟩ := armStep_arms hAllowed
  generalize r.armStep n a atNs = u at hJen hArmed hStep
  refine ⟨_, rfl, ?_, ?_, ?_⟩
  · rw [State.setInst_jen, hJen]
  · rw [State.setInst_bit, hArmed]
  · rw [setInst_waits, hStep]

theorem timeSet_refuses (h : be b 0 1 = 0 ∨ 8 < be b 0 1 ∨ (stepOf b).instant < s.now + usU ∨ s.now + 10 * secU < (stepOf b).instant) :
    State.timeSet c b s = (.done 2 [], s) := by
  refine timeSet_bad ?_
  unfold StepBad
  tauto

theorem timeSet_arms (hLo : 1 ≤ be b 0 1) (hHi : be b 0 1 ≤ 8) (hAbs : be b 11 1 = 1) (hAt : be b 7 4 ≤ 999999999)
    (hNs : be b 18 4 ≤ 999999999) (hAhead : s.now + usU ≤ (stepOf b).instant) (hSoon : (stepOf b).instant ≤ s.now + 10 * secU)
    (hFree : s.awaits (fun op _ => op == 0x0F) = false) :
    ∃ t, State.timeSet c b s = (.wait, t) ∧ t.jen = s.jen ∧ t.bit (ciR (be b 0 1) 0x30) 0 = true
      ∧ (t.inst (be b 0 1)).step = some (stepOf b) := by
  have hNanos : (stepOf b).ns.toNat = be b 18 4 := stepOf_ns b
  have hGood : ¬ StepBad b s := by
    rintro (h | h | h | h | h | h | h)
    · exact absurd h (Nat.ne_of_gt hLo)
    · exact absurd h (Nat.not_lt.mpr hHi)
    · exact absurd h (Nat.not_lt.mpr hAt)
    · exact absurd h (Nat.not_lt.mpr hAhead)
    · exact absurd h (Nat.not_lt.mpr hSoon)
    · rw [if_pos hAbs, hNanos] at h
      exact absurd (of_decide_eq_true h) (Nat.not_lt.mpr hNs)
    · exact h.1 hAbs
  obtain ⟨r, hJen, hNow, hSet⟩ := timeSet_good (c := c) hGood hFree
  have hAllowed : r.stepRefused (be b 0 1) (stepOf b) (be b 7 4) = false :=
    stepRefused_absolute (decide_eq_true hAbs) hAt (by rw [hNanos]; exact hNs) (by rw [hNow]; exact hAhead)
  obtain ⟨t, hT, hWaitJen, hArmed, hStep⟩ := armStep_waits hAllowed
  rw [if_neg (by simp [hAllowed]), hT] at hSet
  exact ⟨t, hSet, hWaitJen.trans hJen, hArmed, hStep⟩

/-- TIME_ADJUST of KIND INCR commits the increment and answers with what it took. -/
theorem adjustIncr_commits (hLo : 1 ≤ be b 0 1) (hHi : be b 0 1 ≤ 8) :
    ∃ t, State.adjustIncr c b s = (.done 0 (bytesBE 8 (takenIncr (be b 2 8))), t)
    ∧ Committed (be b 0 1) (be b 2 8) s t := by
  have hCommits := commitIncr_commits s (be b 0 1) (be b 2 8)
  unfold State.adjustIncr
  dsimp only
  rw [if_neg (by omega), hCommits.incr]
  exact ⟨_, rfl, hCommits⟩

theorem adjustIncr_refuses (h : be b 0 1 = 0 ∨ 8 < be b 0 1) : State.adjustIncr c b s = (.done 2 [], s) := if_pos h

theorem adjustSlew_starts (hLo : 1 ≤ be b 0 1) (hHi : be b 0 1 ≤ 8) (hMin : -(2 ^ 31) ≤ (BitVec.ofNat 64 (be b 2 8)).toInt)
    (hMax : (BitVec.ofNat 64 (be b 2 8)).toInt < 2 ^ 31) : ∃ t, State.adjustSlew c b s = (.done 0 (bytesBE 8 0), t) ∧ t.jen = s.jen
      ∧ t.bit (ciR (be b 0 1) 0x1C) 10 = true
      ∧ ∃ w, (t.inst (be b 0 1)).slew = some w ∧ w.left = (BitVec.ofNat 64 (be b 2 8)).toInt * 2 ^ 40 := by
  unfold State.adjustSlew
  dsimp only
  rw [if_neg (by omega)]
  have hKeep : ((s.setReg (ciR (be b 0 1) 0x18) (BitVec.ofInt 32 (BitVec.ofNat 64 (be b 2 8)).toInt)).setFld (ciR (be b 0 1) 0x1C) 0 9
    (min 511 (be b 10 2))).jen = s.jen := rfl
  generalize (s.setReg (ciR (be b 0 1) 0x18) (BitVec.ofInt 32 (BitVec.ofNat 64 (be b 2 8)).toInt)).setFld (ciR (be b 0 1) 0x1C) 0 9
    (min 511 (be b 10 2)) = r at hKeep ⊢
  obtain ⟨hBit, w, hSlew, hLeft, -⟩ := startSlew_starts r (be b 0 1) (BitVec.ofNat 64 (be b 2 8)).toInt (be b 10 2)
  exact ⟨_, rfl, (startSlew_jen _ _ _ _).trans hKeep, hBit, w, hSlew, hLeft⟩

theorem adjustSlew_refuses (h : be b 0 1 = 0 ∨ 8 < be b 0 1) : State.adjustSlew c b s = (.done 2 [], s) := by
  unfold State.adjustSlew
  dsimp only
  rw [if_pos (by tauto)]

/-! ### The rewind store (R251–R253) -/

theorem unresume_stays (h : ∀ w v, s.rew.resumed = some (w, v) → w / periU ≠ s.now / periU) : s.unresume = s := by
  unfold State.unresume
  split
  · next w v hResumed => rw [if_neg fun hNow => h w v hResumed hNow.1]
  · rfl

theorem freezeItem_off (hOff : s.fld (rewB + 4) 0 3 = 0) : State.freezeItem c b s = (.done 3 [], s) := if_pos hOff

theorem freezeItem_freezes (hOn : s.fld (rewB + 4) 0 3 = 1) (hIdle : s.rew.freezing = false) (hPost : s.fld (rewB + 8) 0 16 ≠ 0)
    (hResumed : ∀ w v, s.rew.resumed = some (w, v) → w / periU ≠ s.now / periU) :
    ∃ t, State.freezeItem c b s = (.done 0 (bytesBE 1 2), t) ∧ t.jen = s.jen ∧ t.fld (rewB + 4) 0 3 = 2 ∧ t.rew.freezeBy = (1, 0) := by
  have hTrigger : ∃ t, s.rewTrigger 1 0 = t ∧ t.jen = s.jen ∧ t.fld (rewB + 4) 0 3 = 2 ∧ t.rew.freezeBy = (1, 0) := by
    refine ⟨_, rfl, ?_⟩
    unfold State.rewTrigger
    rw [unresume_stays hResumed]
    extract_lets r0 st p1 s1 p2 s2
    have hOpen : st = 1 ∧ (!s1.rew.freezing) = true := ⟨hOn, by rw [show s1.rew.freezing = s.rew.freezing from rfl, hIdle]; rfl⟩
    have hLater : (1 : Nat) ≠ 3 ∧ s2.fld (rewB + 8) 0 16 ≠ 0 := ⟨by decide, hPost⟩
    rw [if_neg (by omega), if_pos hOpen, if_pos hLater]
    exact ⟨rfl, State.fld_setFld _ _ _ _ _ (by decide), rfl⟩
  obtain ⟨t, hT, hJen, hState, hBy⟩ := hTrigger
  refine ⟨t, ?_, hJen, hState, hBy⟩
  unfold State.freezeItem
  rw [if_neg (by rw [State.rewState, hOn]; decide), hT]
  dsimp only
  rw [State.rewState, hState]

theorem resumeItem_refuses (h : s.fld (rewB + 4) 0 3 ≠ 3) : State.resumeItem c b s = (.done 3 [], s) := by
  have hRefused : s.rewResume = (false, s) := if_neg fun hGo => h hGo.1
  rw [State.resumeItem, hRefused]

theorem setNum_jen (s : State) (a n v : Nat) : (s.setNum a n v).jen = s.jen := by
  unfold State.setNum
  generalize bytesLE n v = l
  induction l generalizing s a with
  | nil => rfl
  | cons x l ih => exact ih (s.setByte a x) (a + 1)

theorem setNum_ctl (s : State) (a n v : Nat) : (s.setNum a n v).ctl = s.ctl := by
  unfold State.setNum
  generalize bytesLE n v = l
  induction l generalizing s a with
  | nil => rfl
  | cons x l ih => exact ih (s.setByte a x) (a + 1)

theorem openNext_keeps (s : State) : s.openNext.jen = s.jen ∧ s.openNext.reg (rewB + 4) = s.reg (rewB + 4) := by
  unfold State.openNext
  dsimp only
  refine ⟨(setNum_jen _ _ _ _).trans rfl, ?_⟩
  rw [State.reg, setNum_ctl]
  exact setFld_reg_ne (by decide) _ _ _

theorem setRewState_sets (s : State) {st : Nat} (hSt : st < 8) : (s.setRewState st).jen = s.jen ∧ (s.setRewState st).fld (rewB + 4) 0 3 = st := by
  unfold State.setRewState
  split
  · next hSame => exact ⟨rfl, hSame⟩
  · exact ⟨rfl, (State.fld_setFld s _ _ _ _ (by decide)).trans (Nat.mod_eq_of_lt hSt)⟩

theorem resumeItem_resumes (hFrozen : s.fld (rewB + 4) 0 3 = 3) (hTrig : s.rew.trigAt.all (fun t => t / periU != s.now / periU) = true) :
    ∃ t, State.resumeItem c b s = (.done 0 (bytesBE 1 1), t) ∧ t.jen = s.jen ∧ t.fld (rewB + 4) 0 3 = 1 := by
  have hResume : ∃ t, s.rewResume = (true, t) ∧ t.jen = s.jen ∧ t.fld (rewB + 4) 0 3 = 1 := by
    unfold State.rewResume
    rw [if_pos ⟨hFrozen, hTrig⟩]
    extract_lets g p r
    have hR : r.jen = s.jen := rfl
    obtain ⟨hJen, hState⟩ := setRewState_sets r (st := 1) (by decide)
    obtain ⟨hOpenJen, hOpenReg⟩ := openNext_keeps (r.setRewState 1)
    refine ⟨_, rfl, hOpenJen.trans (hJen.trans hR), ?_⟩
    rw [State.setCause_fld, State.fld, hOpenReg]
    exact hState
  obtain ⟨t, hT, hJen, hState⟩ := hResume
  refine ⟨t, ?_, hJen, hState⟩
  rw [State.resumeItem, hT]
  dsimp only
  rw [State.rewState, hState]

theorem drainItem_refuses (h : s.fld (rewB + 4) 0 3 ≠ 3) : State.drainItem c b s = (.done 3 [], s) := by
  have hRefused : s.drainStart (be b 1 8) (be b 9 8) = (false, s) := if_neg h
  rw [State.drainItem]
  dsimp only
  rw [hRefused]

theorem drainItem_starts (hFrozen : s.fld (rewB + 4) 0 3 = 3) : ∃ t, State.drainItem c b s = (.done 0 [], t) ∧ t.jen = s.jen
    ∧ t.fld (rewB + 4) 0 3 = 4 ∧ t.rew.drain.map (·.segs) = some (s.drainSelect (be b 1 8) (be b 9 8)) := by
  obtain ⟨hJen, hState⟩ := setRewState_sets s (st := 4) (by decide)
  have hStart : ∃ r, s.drainStart (be b 1 8) (be b 9 8) = (true, r) ∧ r.jen = s.jen ∧ r.fld (rewB + 4) 0 3 = 4
      ∧ r.rew.drain.map (·.segs) = some (s.drainSelect (be b 1 8) (be b 9 8)) := by
    unfold State.drainStart
    rw [if_pos (show s.rewState = 3 from hFrozen)]
    refine ⟨_, rfl, hJen, ?_, rfl⟩
    exact (congrArg (fun w => getField w 0 3) (setReg_reg_ne (s := s.setRewState 4) (a := rewB + 0x74) (by decide) 0)).trans hState
  obtain ⟨r, hR, hJenR, hStateR, hSegs⟩ := hStart
  unfold State.drainItem
  dsimp only
  rw [hR]
  refine ⟨_, rfl, hJenR, ?_, hSegs⟩
  rw [State.fld]
  simp (disch := decide) only [setReg_reg_ne]
  exact hStateR

theorem drainAbortItem_aborts {d : Drain} (hDraining : s.fld (rewB + 4) 0 3 = 4) (hDrain : s.rew.drain = some d) :
    ∃ t, State.drainAbortItem c b s = (.done 0 [], t) ∧ t.jen = s.jen ∧ t.rew.drain.map (·.aborted) = some true := by
  have hAbort : ∃ r, s.drainAbort = (true, r) ∧ r.jen = s.jen ∧ r.rew.drain.map (·.aborted) = some true := by
    unfold State.drainAbort
    split
    · rw [if_pos (show s.rewState = 4 from hDraining)]
      exact ⟨_, rfl, rfl, rfl⟩
    · next hNone => cases hNone.symm.trans hDrain
  obtain ⟨r, hR, hJen, hAborted⟩ := hAbort
  refine ⟨r, ?_, hJen, hAborted⟩
  rw [State.drainAbortItem, hR]

theorem drainAbortItem_refuses (h : s.fld (rewB + 4) 0 3 ≠ 4) : State.drainAbortItem c b s = (.done 3 [], s) := by
  have hRefused : s.drainAbort = (false, s) := by
    unfold State.drainAbort
    split
    · exact if_neg h
    · rfl
  rw [State.drainAbortItem, hRefused]

end Sys2Proof.Machine
end

section
/-!
Items of the images (R353): writing a slot, activating an image at the next start, now, or by a warm restart.
-/
namespace Sys2Proof.Machine

variable {s t : State} {c : JenCmd} {b : List Byte} {q o slot : Nat}

/-! ### IMAGE_WRITE -/

theorem imageWriteItem_waits (hSlot : be b 0 1 ≤ 1) (hAligned : be b 1 4 % 256 = 0) (hFits : be b 1 4 + (b.drop 5).length ≤ 2 ^ 26)
    (hOther : ¬ (s.image.valid = true ∧ s.image.slot = be b 0 1)) (hFree : s.jen.imageWrite = none) :
    State.imageWriteItem c b s = (.wait, { s with jen := { s.jen with imageWrite := some (be b 0 1, be b 1 4, b.drop 5) } }) := by
  unfold State.imageWriteItem
  dsimp only
  rw [if_neg (by omega), if_neg hOther, if_neg (by simp [hFree])]

theorem imageWriteItem_refuses (h : 1 < be b 0 1 ∨ be b 1 4 % 256 ≠ 0) : State.imageWriteItem c b s = (.done 2 [], s) := by
  unfold State.imageWriteItem
  dsimp only
  rw [if_pos (by tauto)]

/-- What a table reads without the entries whose keys `p` rejects. -/
theorem aget_filter_key {β : Type} (d : Nat → β) (m : Map β) (p : Nat → Bool) (j : Nat) :
    aget d (m.filter (fun e => p e.1)) j = if p j then aget d m j else d j := by
  induction m with
  | nil => simp [aget]
  | cons e t ih =>
    by_cases hKept : p e.1 = true
    · rw [List.filter_cons, if_pos hKept, aget, aget, ih]
      by_cases hj : j = e.1
      · simp [hj, hKept]
      · simp [hj]
    · rw [List.filter_cons, if_neg hKept, ih, aget]
      by_cases hj : j = e.1
      · simp [hj, hKept]
      · simp [hj]

/-- Erasing a sector leaves 0xFF in it and every other byte as it was. -/
theorem eraseSector_norByte (s : State) (q o i : Nat) :
    (s.eraseSector q o).norByte q i = if o ≤ i ∧ i < o + 65536 then 0xFF#8 else s.norByte q i := by
  have hCut (m : Map Byte) : aget (fun _ => 0xFF#8) (m.filter (fun e => decide (e.1 < o ∨ o + 65536 ≤ e.1))) i
      = if o ≤ i ∧ i < o + 65536 then 0xFF#8 else aget (fun _ => 0xFF#8) m i := by
    rw [aget_filter_key _ m (fun a => decide (a < o ∨ o + 65536 ≤ a))]
    by_cases hIn : o ≤ i ∧ i < o + 65536
    · rw [if_pos hIn, if_neg (by simp; omega)]
    · rw [if_neg hIn, if_pos (by simp; omega)]
  unfold State.eraseSector State.norByte
  by_cases hq : q = 0
  · simp only [hq, if_true, hCut]
  · simp only [hq, if_false, hCut]

/-- The state with one byte of a slot programmed. -/
theorem program_cons (s : State) (q o : Nat) (x : Byte) (l : List Byte) (hErased : s.norByte q o = 0xFF#8) :
    ∃ r : State, s.program q o (x :: l) = r.program q (o + 1) l ∧ r.jen = s.jen
      ∧ ∀ i, r.norByte q i = if i = o then x else s.norByte q i := by
  rw [State.program]
  dsimp only [State.fresh]
  refine ⟨_, rfl, ?_⟩
  have hErased' : ({ s with freeCtr := s.freeCtr + 1 } : State).norByte q o = 0xFF#8 := hErased
  simp only [hErased', if_true]
  unfold State.norByte
  by_cases hq : q = 0
  · simp only [hq, if_true]
    exact ⟨trivial, fun i => aget_aset _ _ _ _ _⟩
  · simp only [hq, if_false]
    exact ⟨trivial, fun i => aget_aset _ _ _ _ _⟩

/-- Programming erased bytes writes them, and leaves every other byte as it was. -/
theorem program_norByte (q : Nat) (l : List Byte) : ∀ (s : State) (o : Nat), (∀ j < l.length, s.norByte q (o + j) = 0xFF#8) →
    (s.program q o l).jen = s.jen
      ∧ ∀ i, (s.program q o l).norByte q i = if o ≤ i ∧ i < o + l.length then l.getD (i - o) 0 else s.norByte q i := by
  induction l with
  | nil =>
    intro s o _
    refine ⟨rfl, fun i => ?_⟩
    rw [if_neg (by simp)]
    rfl
  | cons x l ih =>
    intro s o hErased
    obtain ⟨r, hStep, hJen, hByte⟩ := program_cons s q o x l (hErased 0 (by simp))
    obtain ⟨hRestJen, hRest⟩ := ih r (o + 1) fun j hj => by
      rw [hByte, if_neg (by omega), show o + 1 + j = o + (j + 1) by omega]
      exact hErased (j + 1) (by simpa using hj)
    refine ⟨by rw [hStep, hRestJen, hJen], fun i => ?_⟩
    rw [hStep, hRest, hByte, List.length_cons]
    by_cases hFirst : i = o
    · rw [if_neg (by omega), if_pos hFirst, if_pos (by omega), hFirst, Nat.sub_self, List.getD_cons_zero]
    · rw [if_neg hFirst]
      by_cases hIn : o + 1 ≤ i ∧ i < o + 1 + l.length
      · rw [if_pos hIn, if_pos (by omega), show i - o = i - (o + 1) + 1 by omega, List.getD_cons_succ]
      · rw [if_neg hIn, if_neg (by omega)]

/-- The write of a sector's first bytes ends: the sector is erased, and they stand in it. -/
theorem imageWritten_writes {l : List Byte} (hWrite : s.jen.imageWrite = some (q, o, l)) (hAligned : o % 65536 = 0)
    (hLen : l.length ≤ 1024) (hIdle : s.jen.cmds = []) : s.imageWritten.jen.imageWrite = none
      ∧ (∀ j < l.length, s.imageWritten.norByte q (o + j) = l.getD j 0)
      ∧ ∀ j, l.length ≤ j → j < 65536 → s.imageWritten.norByte q (o + j) = 0xFF := by
  have hEraseJen : (s.eraseSector q o).jen = s.jen := by
    unfold State.eraseSector
    dsimp only
    split <;> rfl
  have hErase := eraseSector_norByte s q o
  obtain ⟨hJen, hByte⟩ := program_norByte q l (s.eraseSector q o) o fun j hj => by rw [hErase, if_pos (by omega)]
  have hWritten : s.imageWritten = { (s.eraseSector q o).program q o l with
      jen := { ((s.eraseSector q o).program q o l).jen with imageWrite := none } } := by
    unfold State.imageWritten
    rw [hWrite]
    dsimp only
    rw [if_pos hAligned]
    refine answer_none ?_
    dsimp only
    rw [hJen, hEraseJen, hIdle]
  rw [hWritten]
  generalize (s.eraseSector q o).program q o l = r at hByte
  have hSame (i : Nat) : ({ r with jen := { r.jen with imageWrite := none } } : State).norByte q i = r.norByte q i := rfl
  refine ⟨rfl, fun j hj => ?_, fun j hLo hHi => ?_⟩
  · rw [hSame, hByte, if_pos (by omega), show o + j - o = j by omega]
  · rw [hSame, hByte, if_neg (by omega), hErase, if_pos (by omega)]
    rfl

/-! ### IMAGE_ACTIVATE -/

/-- The items of IMAGE_ACTIVATE that are not refused before the slot is verified go on to `f`. -/
theorem activateItem_goes {f : Nat → Nat → State → Answer × State} (hNone : s.jen.activate = none)
    (hWriting : s.writingSlot (be b 0 1) = false)
    (hGen : be b 7 2 = (s.unit (unitId 0x10 0)).gen) (hSlot : be b 0 1 ≤ 1)
    (hFree : be b 5 1 = 1 → s.commitBusy = false ∧ s.migrating = false) :
    State.activateItem f c b s = f (be b 0 1) (be b 1 4) s := by
  have hGo : ¬ (s.jen.activate.isSome = true ∨ s.writingSlot (be b 0 1) = true
      ∨ (be b 5 1 = 1 ∧ (s.commitBusy = true ∨ s.migrating = true))) := by
    rintro (h | h | ⟨hMode, h⟩)
    · simp [hNone] at h
    · simp [hWriting] at h
    · simp [hFree hMode] at h
  unfold State.activateItem State.ifGen
  dsimp only
  rw [if_neg (by omega), if_neg (not_not.mpr hGen), if_neg hGo]

theorem activateNow_bad {seq : Nat} (h : s.goodImage slot seq = none) : State.activateNow slot seq s = (.done 3 [], s) := by
  rw [State.activateNow, h]

theorem setBytes_jen (l : List Byte) : ∀ (s : State) (a : Nat), (s.setBytes a l).jen = s.jen := by
  induction l with
  | nil => exact fun _ _ => rfl
  | cons x l ih => exact fun s a => ih (s.setByte a x) (a + 1)

theorem activateNow_loads {seq : Nat} {img : List Byte} (hGood : s.goodImage slot seq = some img) (hMay : s.mayActivate img = true) :
    ∃ t, State.activateNow slot seq s = (.wait, t) ∧ t.jen = { s.jen with activate := some (slot, seq, 1) }
      ∧ t.image.next.map (·.1) = some slot := by
  unfold State.activateNow
  rw [hGood]
  dsimp only
  rw [if_neg (by simp [hMay])]
  generalize ((((sectionOf img 1).bind settingList).map (fun p => timetableOf p.2))).getD {} = tt
  have hLoaded : ((List.range 160).foldl (fun s c =>
      if (s.roleOf c).serves then s.loadCode c (1 - s.path.legHalf) (tt.station (c / 10)) else s) s).jen = s.jen :=
    List.foldlRecOn (motive := fun t : State => t.jen = s.jen) _ _ rfl fun t ht k _ => by
      split
      · exact (setBytes_jen _ _ _).trans ht
      · exact ht
  generalize (List.range 160).foldl (fun s c =>
      if (s.roleOf c).serves then s.loadCode c (1 - s.path.legHalf) (tt.station (c / 10)) else s) s = r at hLoaded
  exact ⟨_, rfl, by rw [hLoaded], rfl⟩

theorem verified_answers {m : Nat} {rest : List (Nat × List Byte)} (hActivate : s.jen.activate = some (q, m, 0)) (hWaiting : c.waiting = true)
    (h : Fronts s c 0x0E b rest) :
    s.verified.jen.activate = none ∧ Answered c rest 0x0E (if (s.goodImage q m).isSome then 0 else 3) [] s s.verified := by
  have hVerified : s.verified = ({ s with jen := { s.jen with activate := none } } : State).answer (fun op _ => op == 0x0E)
      (if (s.goodImage q m).isSome then 0 else 3) [] := by
    unfold State.verified
    split
    · next hEq =>
      cases hEq.symm.trans hActivate
      rfl
    · next hOther => exact absurd hActivate (hOther q m)
  rw [hVerified]
  generalize (if (s.goodImage q m).isSome = true then 0 else 3) = st
  obtain ⟨hAnswered, hReplies⟩ := answer_answers (s := s) (t := { s with jen := { s.jen with activate := none } }) (st := st) (body := [])
    (q := fun op _ => op == 0x0E) h hWaiting rfl rfl rfl
  obtain ⟨k, x, hJen⟩ := hReplies.jen
  exact ⟨by rw [hJen], hAnswered⟩

end Sys2Proof.Machine
end

section
/-!
The warm restart that IMAGE_ACTIVATE with RESTART begins once its answer has gone out (R350, R353).
-/
namespace Sys2Proof.Machine

variable {s t : State} {c : JenCmd} {b : List Byte} {rest : List (Nat × List Byte)}

/-! ### Sessions close (R324) -/

theorem closeSession_isOpen (s : State) (i j : Nat) :
    ((s.closeSession i).session j).isOpen = if j = i then false else (s.session j).isOpen := by
  unfold State.closeSession
  split
  · next hClosed =>
    split
    · next h =>
      rw [h]
      simpa using hClosed
    · rfl
  · show (aget (fun _ => ({} : Session)) (aset (fun _ => {}) s.jen.sessions i { opens := (s.session i).opens }) j).isOpen = _
    rw [aget_aset]
    split <;> rfl

theorem foldl_closeSession_isOpen (l : List Nat) : ∀ (s : State) (j : Nat),
    ((l.foldl (fun s i => s.closeSession i) s).session j).isOpen = if j ∈ l then false else (s.session j).isOpen := by
  induction l with
  | nil => exact fun s j => rfl
  | cons i l ih =>
    intro s j
    rw [List.foldl_cons, ih, closeSession_isOpen]
    by_cases h : j = i <;> simp [h]

/-! ### Image load begins again (R350) -/

theorem clearImage_jen (s : State) : s.clearImage.jen = { s.jen with keys := [] } := by
  unfold State.clearImage
  have hRegs : (s.ctl.foldl (fun s e => s.setReg e.1 (mixBits e.2 (imageMask e.1) (regReset e.1))) s).jen = s.jen :=
    List.foldlRecOn (motive := fun t : State => t.jen = s.jen) _ _ rfl fun t ht _ _ => ht
  generalize s.ctl.foldl (fun s e => s.setReg e.1 (mixBits e.2 (imageMask e.1) (regReset e.1))) s = r at hRegs ⊢
  dsimp only
  rw [hRegs]

/-- What stands after the sequence of R350 has gone back to image load on `slot`. -/
theorem restartLoad_restarts (s : State) (slot : Nat) (kept : List (List Byte)) : (s.restartLoad slot kept).fld bootB 0 4 = 3
    ∧ (s.restartLoad slot kept).boot.loading = some slot ∧ (s.restartLoad slot kept).jen.cmds = []
    ∧ ∀ i : Fin 16, ((s.restartLoad slot kept).session i).isOpen = false := by
  have hPhase : (s.restartLoad slot kept).fld bootB 0 4 = 3 := setPhase_phase (by decide)
  have hClosed (r : State) (i : Fin 16) : (((List.range 16).foldl (fun s i => s.closeSession i) r).session i).isOpen = false := by
    rw [foldl_closeSession_isOpen, if_pos (List.mem_range.mpr i.isLt)]
  generalize hU : s.restartLoad slot kept = u at hPhase ⊢
  unfold State.restartLoad at hU
  extract_lets s1 s2 p3 s3 s4 s5 p6 p7 s6 at hU
  have hClosed2 : ∀ i : Fin 16, (s2.session i).isOpen = false := hClosed s1
  clear_value s2
  have hJen5 : s5.jen = { s4.jen with keys := [] } := clearImage_jen s4
  have hJen4 : s4.jen = { sessions := s2.jen.sessions } := rfl
  clear_value s5
  have hLoading : u.boot.loading = some slot := by rw [← hU]; rfl
  have hJen : u.jen = s5.jen := by rw [← hU]; rfl
  refine ⟨hPhase, hLoading, by rw [hJen, hJen5, hJen4], fun i => ?_⟩
  rw [State.session, hJen, hJen5, hJen4]
  exact hClosed2 i

theorem warmRestart_restarts (slot : Nat) (hPhase : s.fld bootB 0 4 ≠ 8) : (s.warmRestart slot).fld bootB 0 4 = 3
    ∧ (s.warmRestart slot).boot.loading = some slot ∧ (s.warmRestart slot).fld (sysB + 4) 0 3 = 4 ∧ (s.warmRestart slot).jen.cmds = []
    ∧ ∀ i : Fin 16, ((s.warmRestart slot).session i).isOpen = false := by
  unfold State.warmRestart
  rw [if_neg hPhase]
  dsimp only
  obtain ⟨hLoad, hLoading, hCmds, hClosed⟩ := restartLoad_restarts ((s.bumpGen (unitId 0x10 0)).eventNotice 2) slot
    ((s.bumpGen (unitId 0x10 0)).eventNotice 2).image.ports
  generalize ((s.bumpGen (unitId 0x10 0)).eventNotice 2).restartLoad slot ((s.bumpGen (unitId 0x10 0)).eventNotice 2).image.ports = r
    at hLoad hLoading hCmds hClosed ⊢
  refine ⟨?_, hLoading, ?_, hCmds, hClosed⟩
  · rw [fld_setBit_ne _ _ _ _ _ _ (by decide), State.setSysCause, State.fld_setFld_ne _ _ _ _ _ _ _ _ (by decide)]
    exact hLoad
  · rw [fld_setBit_ne _ _ _ _ _ _ (by decide), State.setSysCause]
    exact State.fld_setFld _ _ _ _ _ (by decide)

/-! ### IMAGE_ACTIVATE with RESTART -/

/-- The last answer of a command leaves nothing but a message. -/
theorem finishItem_last (hAlone : s.jen.cmds = [c]) {it : Nat × List Byte} (hItems : c.items = it :: rest) (hOrigin : c.origin = none)
    (hClosing : c.closing = false) (st : Nat) (body : List Byte) : Replies s (s.finishItem 0 st body true) := by
  rw [finishItem_eq (op := it.1) (b := it.2) hAlone hItems, if_pos (.inr (.inr rfl))]
  have hEmptied : Replies s { s with jen := { s.jen with cmds := [] } } := .cmds
  generalize ({ s with jen := { s.jen with cmds := [] } } : State) = e at hEmptied ⊢
  exact hEmptied.trans (respond_replies (c := c.answered rest it.1 st body) hOrigin hClosing).1

theorem sentFirst_reg (s : State) (p a : Nat) : (s.sentFirst p).reg a = s.reg a := by
  unfold State.sentFirst
  split <;> rfl

section Restart
variable (h : Asks s c 0x0E b rest 2 0)
include h

theorem activateRestart_eq (hMode : be b 5 1 = 1) (hRestart : be b 6 1 = 1) :
    s.activateRestart = match State.activateItem (fun slot seq s => (.done (if (s.goodImage slot seq).isSome then 0 else 3) [], s)) c b s with
      | (.done 0 _, s) => ((s.finishItem 0 0 [] true).sentFirst (s.session c.session).port).warmRestart (be b 0 1)
      | (.done st body, s) => (s.finishItem 0 st body).settleItems
      | (.wait, s) => s := by
  unfold State.activateRestart
  rw [front_of_cmds h.alone h.items h.ready]
  have hKnown := h.known
  have hAllowed := h.allowed
  have hFits := h.fits
  dsimp only
  rw [if_neg (by simp [hKnown, hMode, hRestart]), if_neg (by omega), if_neg (by omega)] <;> rfl

theorem activateRestart_answers (hMode : be b 5 1 = 1) (hRestart : be b 6 1 = 1) (hNone : s.jen.activate = none)
    (hWriting : s.writingSlot (be b 0 1) = false) (hGen : be b 7 2 = (s.unit (unitId 0x10 0)).gen) (hSlot : be b 0 1 ≤ 1)
    (hBusy : s.commitBusy = false) (hMigrating : s.migrating = false) (hBad : s.goodImage (be b 0 1) (be b 1 4) = none) :
    Answered c rest 0x0E 3 [] s s.activateRestart := by
  rw [activateRestart_eq h hMode hRestart, activateItem_goes hNone hWriting hGen hSlot fun _ => ⟨hBusy, hMigrating⟩, hBad]
  exact (finishItem_answers h.toFronts rfl rfl).1

theorem activateRestart_restarts (hMode : be b 5 1 = 1) (hRestart : be b 6 1 = 1) (hNone : s.jen.activate = none)
    (hWriting : s.writingSlot (be b 0 1) = false) (hGen : be b 7 2 = (s.unit (unitId 0x10 0)).gen) (hSlot : be b 0 1 ≤ 1)
    (hBusy : s.commitBusy = false) (hMigrating : s.migrating = false) {img : List Byte} (hGood : s.goodImage (be b 0 1) (be b 1 4) = some img) :
    s.activateRestart.fld bootB 0 4 = 3 ∧ s.activateRestart.boot.loading = some (be b 0 1) ∧ s.activateRestart.fld (sysB + 4) 0 3 = 4
      ∧ s.activateRestart.jen.cmds = [] ∧ ∀ i : Fin 16, (s.activateRestart.session i).isOpen = false := by
  rw [activateRestart_eq h hMode hRestart, activateItem_goes hNone hWriting hGen hSlot fun _ => ⟨hBusy, hMigrating⟩, hGood]
  refine warmRestart_restarts _ ?_
  rw [State.fld, sentFirst_reg, (finishItem_last h.alone h.items h.origin h.closing 0 []).heads _ (by decide)]
  exact h.phase

end Restart
end Sys2Proof.Machine
end

section
/-!
The obligation of the items that change the time, the rewind store and the images (O45).
-/
namespace Sys2Proof.Machine

variable {s t u : State} {c : JenCmd} {op st role size : Nat} {b body : List Byte} {rest : List (Nat × List Byte)}

/-! ### What an answer leaves of an item's effect -/

section Replies
variable (h : Replies t u)
include h

theorem Replies.head (a lo len : Nat) (ha : a % 0x100 < 8) : u.fld a lo len = t.fld a lo len := by rw [State.fld, State.fld, h.heads a ha]

theorem Replies.inst (n : Nat) : u.inst n = t.inst n := inst_congr h.time n

theorem Replies.low_bit (a i : Nat) (ha : a < egrB) : u.bit a i = t.bit a i := by rw [State.bit, State.bit, h.reg a ha]

end Replies

section Perform
variable {p : List Byte → Bool} {sz : List Byte → Nat} {f : JenCmd → List Byte → State → Answer × State}

/-- An item that is refused changes nothing besides its answer. -/
theorem perform_refuses (h : Asks s c op b rest role size) (hp : p b = true) (hSize : sz b = size) (hf : f c b s = (.done st body, s)) :
    Answered c rest op st body s (s.perform op role p sz f) ∧ Replies s (s.perform op role p sz f) :=
  perform_answers h hp hSize hf rfl rfl rfl

/-- An item that waits keeps its effect on the Jenitor's operations and on the image. -/
theorem perform_shows (h : Asks s c op b rest role size) (hp : p b = true) (hSize : sz b = size) (hf : f c b s = (.wait, t))
    (hCmds : t.jen.cmds = s.jen.cmds) {u : State} (hU : s.perform op role p sz f = u) :
    Waits c u ∧ u.jen.activate = t.jen.activate ∧ u.jen.imageWrite = t.jen.imageWrite ∧ u.image = t.image := by
  rw [perform_waits h hp hSize hf hCmds] at hU
  subst hU
  exact ⟨rfl, rfl, rfl, rfl⟩

end Perform

/-- Settles O45: each item by what it does to the machine and by how it is answered. -/
theorem changeItemResults : Obligations.ChangeItemResults := by
  unfold Obligations.ChangeItemResults
  intro c b rest s n state x taken v instant slot off gen imgs
  refine ⟨fun h hLo hHi hAbs hAt hNs hAhead hSoon => ⟨_, rfl, ?timeSet⟩, fun h hBad => ⟨_, rfl, ?timeBad⟩,
    fun h hKind hLo hHi => ⟨_, rfl, ?incr⟩, fun h hKind hLo hHi hMin hMax => ⟨_, rfl, ?slew⟩,
    fun h hBad => ⟨
      fun hKind => ⟨_, rfl, (perform_refuses (p := byteIs 1 0) (sz := bodyIs 8) h (beq_iff_eq.mpr hKind) rfl (adjustIncr_refuses hBad)).1⟩,
      fun hKind => ⟨_, rfl, (perform_refuses (p := byteIs 1 1) (sz := bodyIs 8) h (beq_iff_eq.mpr hKind) rfl (adjustSlew_refuses hBad)).1⟩⟩,
    fun h hAct hOff => ⟨_, rfl, (perform_refuses (p := byteIs 0 0) (sz := bodyIs 1) h (beq_iff_eq.mpr hAct) rfl (freezeItem_off hOff)).1⟩,
    fun h hAct hOn hIdle hPost hResumed => ⟨_, rfl, ?freeze⟩,
    fun h hAct hState => ⟨_, rfl, (perform_refuses (p := byteIs 0 1) (sz := bodyIs 1) h (beq_iff_eq.mpr hAct) rfl (resumeItem_refuses hState)).1⟩,
    fun h hAct hState hTrig => ⟨_, rfl, ?resume⟩,
    fun h hAct hState => ⟨_, rfl, (perform_refuses (p := byteIs 0 0) (sz := bodyIs 0) h (beq_iff_eq.mpr hAct) rfl (drainItem_refuses hState)).1⟩,
    fun h hAct hState => ⟨_, rfl, ?drain⟩, fun d h hAct hState hDrain => ⟨_, rfl, ?abort⟩,
    fun h hAct hState => ⟨_, rfl,
      (perform_refuses (p := byteIs 0 1) (sz := bodyIs 0) h (beq_iff_eq.mpr hAct) rfl (drainAbortItem_refuses hState)).1⟩,
    fun h hSlot hAligned hFits hOther hFree => ⟨_, rfl, ?write⟩,
    fun h hBad => ⟨_, rfl, (perform_refuses (p := anyBody) (sz := bodyIs 0) h rfl rfl (imageWriteItem_refuses hBad)).1⟩, fun hNone => ?noWrite,
    fun q o l hWrite hSlot hAligned hLen hIdle => ⟨_, rfl, imageWritten_writes hWrite hAligned hLen hIdle⟩,
    fun h hImgs hMode => ⟨_, rfl, ?next⟩, fun q m hActivate hWaiting h => ⟨_, rfl, verified_answers hActivate hWaiting h⟩,
    fun hNone => ?noVerify, fun img h hImgs hMode hPlain hBusy hMigrating hGood hMay => ⟨_, rfl, ?now⟩,
    fun h hImgs hMode hPlain hBusy hMigrating hGood => ⟨_, rfl, ?nowBad⟩,
    fun img h hImgs hMode hRestart hBusy hMigrating hGood => ⟨_, rfl, ?restart⟩,
    fun h hImgs hMode hRestart hBusy hMigrating hGood => ⟨_, rfl, ?restartBad⟩⟩
  case timeSet =>
    obtain ⟨t, hItem, hJen, hArmed, hStep⟩ := timeSet_arms (c := c) hLo hHi hAbs hAt hNs hAhead hSoon (awaits_of_ready h.toFronts h.ready)
    rw [perform_waits h rfl rfl hItem (congrArg JenSt.cmds hJen)]
    exact ⟨rfl, hArmed, stepOf b, hStep, rfl, decide_eq_true hAbs, stepOf_sec b, stepOf_ns b⟩
  case timeBad =>
    obtain ⟨hAnswered, hReplies⟩ := perform_refuses (p := anyBody) (sz := bodyIs 0) h rfl rfl (timeSet_refuses (c := c) hBad)
    exact ⟨hAnswered, hReplies.time⟩
  case incr =>
    obtain ⟨t, hItem, hCommits⟩ := adjustIncr_commits (s := s) (c := c) hLo hHi
    obtain ⟨hAnswered, hReplies⟩ := perform_answers (p := byteIs 1 0) (sz := bodyIs 8) h (beq_iff_eq.mpr hKind) rfl hItem
      (congrArg JenSt.cmds hCommits.jen) (congrArg JenSt.sessions hCommits.jen) rfl
    refine ⟨hAnswered, (congrArg Inst.incr (hReplies.inst _)).trans hCommits.incr, fun hOut => ?_⟩
    exact (hCommits.alarm hOut).imp fun r hr => ⟨hReplies.raises r hr.1, hr.2⟩
  case slew =>
    obtain ⟨t, hItem, hJen, hBit, w, hSlew, hLeft⟩ := adjustSlew_starts (s := s) (c := c) hLo hHi hMin hMax
    obtain ⟨hAnswered, hReplies⟩ := perform_answers (p := byteIs 1 1) (sz := bodyIs 8) h (beq_iff_eq.mpr hKind) rfl hItem
      (congrArg JenSt.cmds hJen) (congrArg JenSt.sessions hJen) rfl
    refine ⟨hAnswered, ?_, w, (congrArg Inst.slew (hReplies.inst _)).trans hSlew, hLeft⟩
    exact (hReplies.low_bit _ _ ((ciR_lt (by omega) (by decide)).trans (by decide))).trans hBit
  case freeze =>
    obtain ⟨t, hItem, hJen, hState, hBy⟩ := freezeItem_freezes (c := c) (b := b) hOn hIdle hPost hResumed
    obtain ⟨hAnswered, hReplies⟩ := perform_answers (p := byteIs 0 0) (sz := bodyIs 1) h (beq_iff_eq.mpr hAct) rfl hItem
      (congrArg JenSt.cmds hJen) (congrArg JenSt.sessions hJen) rfl
    exact ⟨hAnswered, (hReplies.head _ _ _ (by decide)).trans hState, (congrArg RewSt.freezeBy hReplies.rew).trans hBy⟩
  case resume =>
    obtain ⟨t, hItem, hJen, hRuns⟩ := resumeItem_resumes (c := c) (b := b) hState hTrig
    obtain ⟨hAnswered, hReplies⟩ := perform_answers (p := byteIs 0 1) (sz := bodyIs 1) h (beq_iff_eq.mpr hAct) rfl hItem
      (congrArg JenSt.cmds hJen) (congrArg JenSt.sessions hJen) rfl
    exact ⟨hAnswered, (hReplies.head _ _ _ (by decide)).trans hRuns⟩
  case drain =>
    obtain ⟨t, hItem, hJen, hDrains, hSegs⟩ := drainItem_starts (c := c) (b := b) hState
    obtain ⟨hAnswered, hReplies⟩ := perform_answers (p := byteIs 0 0) (sz := bodyIs 0) h (beq_iff_eq.mpr hAct) rfl hItem
      (congrArg JenSt.cmds hJen) (congrArg JenSt.sessions hJen) rfl
    refine ⟨hAnswered, (hReplies.head _ _ _ (by decide)).trans hDrains, ?_⟩
    rw [← hSegs, ← hReplies.rew]
  case abort =>
    obtain ⟨t, hItem, hJen, hAborted⟩ := drainAbortItem_aborts (c := c) (b := b) hState hDrain
    obtain ⟨hAnswered, hReplies⟩ := perform_answers (p := byteIs 0 1) (sz := bodyIs 0) h (beq_iff_eq.mpr hAct) rfl hItem
      (congrArg JenSt.cmds hJen) (congrArg JenSt.sessions hJen) rfl
    refine ⟨hAnswered, ?_⟩
    rw [← hAborted, ← hReplies.rew]
  case write =>
    obtain ⟨hWaits, -, hShown, -⟩ := perform_shows (p := anyBody) (sz := bodyIs 0) h rfl rfl
      (imageWriteItem_waits (c := c) hSlot hAligned hFits hOther hFree) rfl rfl
    exact ⟨hWaits, hShown⟩
  case noWrite =>
    show Host.Outcome.next s.imageWritten = .next s
    rw [State.imageWritten, hNone]
  case next =>
    obtain ⟨hNone, hWriting, hGen, hSlot⟩ := hImgs
    obtain ⟨hWaits, hShown, -, -⟩ := perform_shows (p := byteIs 5 0) (sz := bodyIs 0) h (beq_iff_eq.mpr hMode) rfl
      (activateItem_goes (f := State.activateNext) hNone hWriting hGen hSlot fun hOne => absurd (hMode.symm.trans hOne) (by decide)) rfl rfl
    exact ⟨hWaits, hShown⟩
  case noVerify =>
    show Host.Outcome.next s.verified = .next s
    rw [State.verified, hNone]
  case now =>
    obtain ⟨hNone, hWriting, hGen, hSlot⟩ := hImgs
    obtain ⟨t, hItem, hJen, hNext⟩ := activateNow_loads hGood hMay
    obtain ⟨hWaits, hShown, -, hImage⟩ := perform_shows (p := fun b => byteIs 5 1 b && byteIs 6 0 b) (sz := bodyIs 0) h
      (Bool.and_eq_true_iff.mpr ⟨beq_iff_eq.mpr hMode, beq_iff_eq.mpr hPlain⟩) rfl
      ((activateItem_goes hNone hWriting hGen hSlot fun _ => ⟨hBusy, hMigrating⟩).trans hItem) (by rw [hJen]) rfl
    refine ⟨hWaits, hShown.trans (congrArg JenSt.activate hJen), ?_⟩
    rw [hImage]
    exact hNext
  case nowBad =>
    obtain ⟨hNone, hWriting, hGen, hSlot⟩ := hImgs
    obtain ⟨hAnswered, hReplies⟩ := perform_refuses (p := fun b => byteIs 5 1 b && byteIs 6 0 b) (sz := bodyIs 0) h
      (Bool.and_eq_true_iff.mpr ⟨beq_iff_eq.mpr hMode, beq_iff_eq.mpr hPlain⟩) rfl
      ((activateItem_goes hNone hWriting hGen hSlot fun _ => ⟨hBusy, hMigrating⟩).trans (activateNow_bad hGood))
    exact ⟨hAnswered, hReplies.image⟩
  case restart =>
    obtain ⟨hNone, hWriting, hGen, hSlot⟩ := hImgs
    exact activateRestart_restarts h hMode hRestart hNone hWriting hGen hSlot hBusy hMigrating hGood
  case restartBad =>
    obtain ⟨hNone, hWriting, hGen, hSlot⟩ := hImgs
    exact activateRestart_answers h hMode hRestart hNone hWriting hGen hSlot hBusy hMigrating hGood

end Sys2Proof.Machine
end

section
/-!
What driving the timing outputs leaves alone (R96–R99, R105, R110, R111). `Placed` speaks of the blocks below and above TIO; here the TIO
block counts too: of its registers the STAT words of the trigger outputs alone are written.
-/
namespace Sys2Proof.Machine

variable {o s : State}

/-! ### One drive of a contact -/

/-- `s` is `o` but for the levels that drivers give their contacts. -/
def Levelled (o s : State) : Prop := ∃ c, s = { o with tio := { o.tio with contacts := c } }

namespace Levelled

theorem refl : Levelled o o := ⟨o.tio.contacts, rfl⟩

theorem driveFn (s : State) (f : Nat) (l : Level) : Levelled s (s.driveFn f l) := by
  unfold State.driveFn
  dsimp only
  split
  · exact ⟨_, rfl⟩
  · exact refl

theorem driveOut (s : State) (i : Nat) (l : Level) : Levelled s (s.driveOut i l) := by
  unfold State.driveOut
  split
  · exact refl
  · exact driveFn s i l

theorem restOut (s : State) (i : Nat) (pulse : Bool) : Levelled s (s.restOut i pulse) := by
  unfold State.restOut
  split
  · exact refl
  · exact driveOut s i _

theorem trig (h : Levelled o s) (n : Nat) : s.trig n = o.trig n := by obtain ⟨_, rfl⟩ := h; rfl
theorem ppso (h : Levelled o s) (k : Nat) : s.ppso k = o.ppso k := by obtain ⟨_, rfl⟩ := h; rfl
theorem now (h : Levelled o s) : s.now = o.now := by obtain ⟨_, rfl⟩ := h; rfl
theorem reg (h : Levelled o s) (a : Nat) : s.reg a = o.reg a := by obtain ⟨_, rfl⟩ := h; rfl
theorem bit (h : Levelled o s) (a j : Nat) : s.bit a j = o.bit a j := by obtain ⟨_, rfl⟩ := h; rfl
theorem fld (h : Levelled o s) (a lo len : Nat) : s.fld a lo len = o.fld a lo len := by obtain ⟨_, rfl⟩ := h; rfl

end Levelled

/-! ### Outputs that go on -/

/-- `s` comes from `o` by changes of the outputs alone: inputs and the event queue are those of `o`, and of control space the STAT
registers of the trigger outputs alone have changed. -/
structure Driven (o s : State) : Prop where
  rest : ∃ c t l f, s = { o with ctl := c, tio := t, latched := l, freeCtr := f }
  inputs : s.tio.inputs = o.tio.inputs
  evtq : s.tio.evtq = o.tio.evtq
  ppsiStamp : s.tio.ppsiStamp = o.tio.ppsiStamp
  reg : ∀ a, (∀ n < 24, a ≠ trigR n 8) → s.reg a = o.reg a

namespace Driven

theorem refl : Driven o o := ⟨⟨_, _, _, _, rfl⟩, rfl, rfl, rfl, fun _ _ => rfl⟩

theorem trans {t : State} (h : Driven o s) (g : Driven s t) : Driven o t := by
  refine ⟨?_, g.inputs.trans h.inputs, g.evtq.trans h.evtq, g.ppsiStamp.trans h.ppsiStamp, fun a ha => (g.reg a ha).trans (h.reg a ha)⟩
  obtain ⟨_, _, _, _, rfl⟩ := h.rest
  obtain ⟨_, _, _, _, rfl⟩ := g.rest
  exact ⟨_, _, _, _, rfl⟩

theorem ite {c : Prop} [Decidable c] {a b : State} (ha : Driven o a) (hb : Driven o b) : Driven o (if c then a else b) := by
  split <;> assumption

theorem foldl {α : Type} {f : State → α → State} {l : List α} (h : Driven o s) (hf : ∀ s, ∀ x ∈ l, Driven o s → Driven o (f s x)) :
    Driven o (l.foldl f s) := List.foldlRecOn (motive := Driven o) l f h fun s hs x hx => hf s x hx hs

theorem now (h : Driven o s) : s.now = o.now := by obtain ⟨_, _, _, _, rfl⟩ := h.rest; rfl
theorem flt (h : Driven o s) : s.flt = o.flt := by obtain ⟨_, _, _, _, rfl⟩ := h.rest; rfl

/-- An update of the outputs' records, their contacts and the clock outputs. -/
theorem upd {t p c k f} (h : Driven o s) :
    Driven o { s with tio := { s.tio with trigs := t, ppsos := p, contacts := c, clko := k }, freeCtr := f } :=
  h.trans ⟨⟨_, _, _, _, rfl⟩, rfl, rfl, rfl, fun _ _ => rfl⟩

theorem setFld {n lo len v} (h : Driven o s) (hn : n < 24) : Driven o (s.setFld (trigR n 8) lo len v) :=
  h.trans ⟨⟨_, _, _, _, rfl⟩, rfl, rfl, rfl, fun _ ha => setFld_reg_ne (ha n hn) _ _ _⟩

theorem setBit {n i b} (h : Driven o s) (hn : n < 24) : Driven o (s.setBit (trigR n 8) i b) := h.setFld hn

theorem latch {n i} (h : Driven o s) (hn : n < 24) : Driven o (s.latch (trigR n 8) i) :=
  (h.setBit (i := i) (b := true) hn).trans ⟨⟨_, _, _, _, rfl⟩, rfl, rfl, rfl, fun b _ => latch_reg _ i b⟩

theorem driveFn {f l} (h : Driven o s) : Driven o (s.driveFn f l) := .ite h.upd h

theorem driveOut {i l} (h : Driven o s) : Driven o (s.driveOut i l) := .ite h h.driveFn

theorem outToSafe {i} (h : Driven o s) : Driven o (s.outToSafe i) := .ite h h.driveFn

theorem restOut {i pulse} (h : Driven o s) : Driven o (s.restOut i pulse) := .ite h h.driveOut

theorem setTrig {i t} (h : Driven o s) : Driven o (s.setTrig i t) := h.upd

theorem setPpso {j p} (h : Driven o s) : Driven o (s.setPpso j p) := h.upd

theorem clkoStart {j} (h : Driven o s) : Driven o (s.clkoStart j) := h.upd

theorem trigAdvance {i t} (h : Driven o s) (hi : i < 24) : Driven o (s.trigAdvance i t) := ((h.setFld hi).setBit hi).setTrig

theorem skipPulses {i t j} (h : Driven o s) (hi : i < 24) : Driven o (s.skipPulses i t j) := by
  unfold State.skipPulses
  extract_lets s1 t1
  have h1 : Driven o s1 := .ite (h.setFld hi) h
  exact .ite (h1.trigAdvance hi) h1.setTrig

theorem forceOut {i} (h : Driven o s) : Driven o (s.forceOut i) := by
  unfold State.forceOut
  split
  · next hi =>
    extract_lets t s1
    have h1 : Driven o s1 := h.setTrig
    exact outToSafe (.ite (h1.latch hi) h1)
  · exact h.setPpso.outToSafe

theorem replaceTrig {ci k i} (h : Driven o s) (hi : i < 24) : Driven o (s.replaceTrig ci k i) := by
  unfold State.replaceTrig
  extract_lets t s1 s2
  have h1 : Driven o s1 := h.restOut
  have h2 : Driven o s2 := by
    unfold s2
    split
    · split
      · exact .ite h1 h1.setTrig
      · exact h1
    · exact h1
  exact .ite (.ite h.forceOut (.ite h2 (h2.skipPulses hi))) h

theorem replacePpso {ci k j} (h : Driven o s) : Driven o (s.replacePpso ci k j) := by
  unfold State.replacePpso
  extract_lets mine s1
  have h1 : Driven o s1 := .ite h.restOut h
  refine .ite h.forceOut ?_
  split
  · split
    · exact .ite h1 h1.setPpso
    · exact h1
  · exact h1

theorem replaceEdges {ci k} (h : Driven o s) : Driven o (s.replaceEdges ci k) :=
  (h.foldl fun _ _ hi h => h.replaceTrig (List.mem_range.mp hi)).foldl fun _ _ _ h => h.replacePpso

end Driven

/-- A RESUME clears the marks of the safe state, and the outputs go on (R111). -/
theorem resumeOutputs_driven (s : State) :
    Driven (((s.setBit (tioB + 4) 0 false).setBit (fltB + 4) 0 false).setBit timeB 3 false) s.resumeOutputs := by
  unfold State.resumeOutputs
  extract_lets s1 s2 s3 s4 s5
  have h2 : Driven s1 s2 := Driven.refl.foldl fun _ _ _ h => h.driveOut
  have h3 : Driven s1 s3 := h2.foldl fun _ _ hn h => .ite (h.skipPulses (List.mem_range.mp hn)) h
  have h4 : Driven s1 s4 := h3.foldl fun _ _ _ h => h.setPpso
  have h5 : Driven s1 s5 := h4.foldl fun _ _ _ h => h.driveFn
  exact h5.foldl fun _ _ _ h => .ite h.clkoStart h

end Sys2Proof.Machine
end

section
/-!
Trigger schedules and PPS outputs (O19).
-/
namespace Sys2Proof.Machine

variable {s t u : State} {n i k : Nat} {v : Word}

/-! ### Reading what a register or a record holds -/

theorem bit_of_reg {a : Nat} (h : t.reg a = s.reg a) (j : Nat) : t.bit a j = s.bit a j := by rw [State.bit, State.bit, h]

theorem fld_of_reg {a : Nat} (h : t.reg a = s.reg a) (lo len : Nat) : t.fld a lo len = s.fld a lo len := by rw [State.fld, State.fld, h]

theorem bit_latch (s : State) (a j : Nat) (h : j < 32) : (s.latch a j).bit a j = true :=
  (bit_of_reg (latch_reg a j a) j).trans (State.bit_setBit _ _ _ _ h)

theorem trig_setTrig (s : State) (n : Nat) (x : Trig) : (s.setTrig n x).trig n = x := (aget_aset _ _ _ _ _).trans (if_pos rfl)

theorem setTrig_reg (s : State) (n : Nat) (x : Trig) (a : Nat) : (s.setTrig n x).reg a = s.reg a := rfl

theorem setTrig_bit (s : State) (n : Nat) (x : Trig) (a j : Nat) : (s.setTrig n x).bit a j = s.bit a j := rfl

theorem setTrig_fld (s : State) (n : Nat) (x : Trig) (a lo len : Nat) : (s.setTrig n x).fld a lo len = s.fld a lo len := rfl

theorem ppso_setPpso (s : State) (k : Nat) (x : Ppso) : (s.setPpso k x).ppso k = x := (aget_aset _ _ _ _ _).trans (if_pos rfl)

/-! ### Registers of the outputs -/

theorem trigR_ne {m q r : Nat} (hq : q < 0x10) (hr : r < 0x10) (h : q ≠ r) : trigR n q ≠ trigR m r := by
  simp only [trigR]
  omega

theorem schedR_ne_trigR {e w m r : Nat} (hm : m < 24) (hr : r < 0x10) : schedR n e w ≠ trigR m r := by
  simp only [schedR, trigR]
  omega

theorem outDiag_ne_trigR {m r : Nat} (hm : m < 24) (hr : r < 0x10) (h : r ≠ 0xC) : outDiag i ≠ trigR m r := by
  unfold outDiag
  split
  · exact trigR_ne (by decide) hr h.symm
  · simp only [ppsoR, trigR]
    omega

theorem tioCtl_ne_trigR {m r : Nat} : tioB + 4 ≠ trigR m r := by
  simp only [trigR]
  omega

theorem pinFunc_ne_trigR {m r : Nat} (hi : i < 28) : pinB + i * 4 ≠ trigR m r := by
  simp only [trigR, pinB, tioB, block]
  omega

/-! ### An output that drives its contact -/

/-- Output i drives its contact: outputs are not forced, its driver is on, its unit is not fenced, and the contact is its own. -/
structure Drives (s : State) (i : Nat) : Prop where
  unforced : s.bit (tioB + 4) 0 = false
  on : s.bit (outDiag i) 4 = false
  unfenced : s.fenced (unitId 0x0C i) = false
  contact : s.contactOf i ≤ 27
  taken : s.pin.changing.contains (s.contactOf i) = false

/-- The level that the driver of the contact of output i gives it. -/
theorem Drives.level (h : Drives s i) (l : Level) : aget (fun _ => Level.z) (s.driveOut i l).tio.contacts (s.contactOf i) = l := by
  unfold State.driveOut State.driveFn
  rw [if_neg (by simp only [h.unforced, h.on, h.unfenced]; decide)]
  dsimp only
  rw [if_pos ⟨h.contact, by rw [h.taken]; rfl⟩]
  exact (aget_aset _ _ _ _ _).trans (if_pos rfl)

/-- A change of the registers of trigger outputs other than DIAG leaves an output driving, at the same contact. -/
theorem Drives.of_trigRegs (h : Drives s i) (hi : i < 28) (hUnits : t.units = s.units) (hPin : t.pin = s.pin)
    (hReg : ∀ a, (∀ m < 24, ∀ r < 0x10, r ≠ 0xC → a ≠ trigR m r) → t.reg a = s.reg a) : Drives t i ∧ t.contactOf i = s.contactOf i := by
  have hContact : t.contactOf i = s.contactOf i := fld_of_reg (hReg _ fun _ _ _ _ _ => pinFunc_ne_trigR hi) 8 5
  refine ⟨⟨?_, ?_, ?_, ?_, ?_⟩, hContact⟩
  · exact (bit_of_reg (hReg _ fun _ _ _ _ _ => tioCtl_ne_trigR) 0).trans h.unforced
  · exact (bit_of_reg (hReg _ fun _ hm _ hr h => outDiag_ne_trigR hm hr h) 4).trans h.on
  · rw [← h.unfenced, State.fenced, State.fenced, State.unit, State.unit, hUnits]
  · rw [hContact]
    exact h.contact
  · rw [hContact, hPin]
    exact h.taken

/-! ### Enabling and disabling (R97, R98) -/

theorem outLow_trig (hn : n < 24) : s.outLow n = s.bit (trigR n 0) 1 := by
  rw [State.outLow, if_pos hn, outCfg, if_pos hn]

/-- The pointer of an output that is enabled stands on START_PTR, and between pulses the contact takes its inactive level. -/
theorem trigCfgWrite_enables (hn : n < 24) (hOff : s.bit (trigR n 0) 0 = false) (hU : s.trigCfgWrite n (v ||| 1) = u) :
    u.bit (trigR n 0) 0 = true ∧ (u.trig n).run = .scanning ∧ u.fld (trigR n 8) 0 6 = getField v 8 6
      ∧ (Drives s n → (s.trig n).edges = [] → (s.trig n).open_ = none →
          aget (fun _ => Level.z) u.tio.contacts (s.contactOf n) = if getField v 1 1 = 1 then .high else .low) := by
  unfold State.trigCfgWrite at hU
  extract_lets was s1 en x s2 busy x2 s3 at hU
  have hGo : en ∧ (!was) = true := ⟨getField_or_of_one v 1 (by decide), by simp only [was, hOff]; rfl⟩
  rw [if_pos hGo] at hU
  have hReg (a : Nat) (ha : ∀ m < 24, ∀ r < 0x10, r ≠ 0xC → a ≠ trigR m r) : s3.reg a = s.reg a := by
    have hStat := ha n hn 8 (by decide) (by decide)
    rw [setTrig_reg, setBit_reg_ne hStat, setFld_reg_ne hStat, setReg_reg_ne (ha n hn 0 (by decide) (by decide))]
  have hCfg : s3.reg (trigR n 0) = (v ||| 1) &&& 0x3F3F#32 := by
    have hStat : trigR n 0 ≠ trigR n 8 := trigR_ne (by decide) (by decide) (by decide)
    rw [setTrig_reg, setBit_reg_ne hStat, setFld_reg_ne hStat, State.reg_setReg, if_pos rfl]
  have hPointer : s3.fld (trigR n 8) 0 6 = getField v 8 6 := by
    rw [setTrig_fld, fld_setBit_ne _ _ _ _ _ _ (.inr (.inl (by decide))), State.fld_setFld _ _ _ _ _ (by decide),
      Nat.mod_eq_of_lt (getField_lt _ _ _), getField_or_of_zero v 1 (by decide)]
  have hRun : (s3.trig n).run = .scanning := congrArg Trig.run (trig_setTrig _ _ _)
  have hLow : s3.outLow n = (getField v 1 1 == 1) := by
    rw [outLow_trig hn, State.bit, hCfg, bit_and _ _ _ (by decide), getField_or_of_zero v 1 (by decide)]
  have hLevel : Levelled s3 u := by
    rw [← hU]
    split
    · exact .refl
    · exact .driveOut _ _ _
  refine ⟨?_, by rw [hLevel.trig]; exact hRun, (hLevel.fld _ _ _).trans hPointer, fun hDrives hEdges hOpen => ?_⟩
  · rw [hLevel.bit, State.bit, hCfg, bit_and _ _ _ (by decide)]
    exact beq_iff_eq.mpr hGo.1
  · have hBusy : busy = false := by
      simp only [busy, show x.open_ = none from hOpen, show x.edges = [] from hEdges]
      rfl
    obtain ⟨hDrives3, hContact⟩ := hDrives.of_trigRegs (t := s3) (by omega) rfl rfl hReg
    rw [← hU, if_neg (by rw [hBusy]; decide), ← hContact, hDrives3.level, State.outLevel, hLow]
    by_cases h : getField v 1 1 = 1 <;> simp [h, levelOf]

/-- An output that is disabled is off at once between pulses; else it stops with the edges it has committed (R98). -/
theorem trigCfgWrite_disables (hOn : s.bit (trigR n 0) 0 = true) (hU : s.trigCfgWrite n (v &&& 0xFFFFFFFE) = u) :
    u.bit (trigR n 0) 0 = false ∧ if (s.trig n).open_ = none ∧ (s.trig n).edges = [] then (u.trig n).run = .off
      else (u.trig n).stopping = true ∧ (u.trig n).edges = (s.trig n).edges := by
  unfold State.trigCfgWrite at hU
  extract_lets was s1 en x _ _ _ _ s2 at hU
  have hEn : getField (v &&& 0xFFFFFFFE) 0 1 = 0 := getField_and_of_zero v _ (by decide)
  have hOff : ¬ en := fun h => absurd (hEn.symm.trans h) (by decide)
  rw [if_neg fun h => hOff h.1, if_pos ⟨by rw [decide_eq_false hOff]; rfl, hOn⟩] at hU
  have hCfg : s2.bit (trigR n 0) 0 = false := by
    rw [State.bit_setBit_ne _ _ _ _ _ _ (.inl (trigR_ne (by decide) (by decide) (by decide))), State.bit, State.reg_setReg, if_pos rfl, getField,
      BitVec.extractLsb'_and]
    rw [getField] at hEn
    rw [BitVec.eq_of_toNat_eq (y := 0) hEn]
    decide
  by_cases hIdle : (s.trig n).open_ = none ∧ (s.trig n).edges = []
  · obtain ⟨hOpen, hEdges⟩ := hIdle
    rw [if_neg (by simp [show x.open_ = none from hOpen, show x.edges = [] from hEdges])] at hU
    have hLevel : Levelled (s2.setTrig n { x with run := .off, entry := [] }) u := by
      rw [← hU]
      exact .driveOut _ _ _
    rw [if_pos ⟨hOpen, hEdges⟩, hLevel.bit, hLevel.trig, trig_setTrig]
    exact ⟨hCfg, rfl⟩
  · have hBusy : x.open_.isSome = true ∨ (!x.edges.isEmpty) = true := by
      by_contra h
      simp only [not_or, Bool.not_eq_true, Option.isSome_eq_false_iff, Option.isNone_iff_eq_none, Bool.not_eq_false', List.isEmpty_iff] at h
      exact hIdle h
    rw [if_pos hBusy] at hU
    subst hU
    rw [if_neg hIdle, trig_setTrig]
    exact ⟨hCfg, rfl, rfl⟩

/-! ### The pointer reads an entry (R95–R97) -/

/-- The eight words of the entry under the pointer of output n (R94). -/
def State.pointedEntry (s : State) (n : Nat) : List Word := (List.range 8).map fun j => s.reg (schedR n (s.fld (trigR n 8) 0 6) j)

/-- Whether an entry is bad is a matter of its words. -/
theorem bad_congr {x y : Trig} (h : x.entry = y.entry) : x.bad = y.bad := by
  obtain ⟨⟩ := x
  obtain ⟨⟩ := y
  cases h
  rfl

theorem lead16_congr {x y : Trig} (hEntry : x.entry = y.entry) (hStart : x.startHi = y.startHi) (j : Nat) : x.lead16 j = y.lead16 j := by
  simp only [Trig.lead16, Trig.start16, Trig.word, Trig.period16, hEntry, hStart]

theorem ci_le_of_not_bad {x : Trig} (h : x.bad = false) : x.ci ≤ 8 := by
  simp only [Trig.bad, Bool.or_eq_false_iff, decide_eq_false_iff_not, not_lt] at h
  exact h.1.1.1

/-- An entry that is not VALID is passed over; the output is idle once it has passed over 64. -/
theorem trigRead_passes (hScan : (s.trig n).run = .scanning) (hInvalid : getField (s.reg (schedR n (s.fld (trigR n 8) 0 6) 0)) 0 1 = 0) :
    (s.trigRead n).fld (trigR n 8) 0 6 =
        (if s.fld (trigR n 8) 0 6 = 63 ∨ getField (s.reg (schedR n (s.fld (trigR n 8) 0 6) 0)) 5 1 = 1 then 0 else s.fld (trigR n 8) 0 6 + 1)
      ∧ ((s.trigRead n).trig n).run = if (s.trig n).passed + 1 = 64 then .idle else .scanning := by
  rw [State.trigRead, if_pos hScan]
  extract_lets s1 e words ci x p s2 s3 late
  rw [if_pos (show getField (x.word 0) 0 1 = 0 from hInvalid)]
  have hNext : s1.afterEntry n e = if s.fld (trigR n 8) 0 6 = 63 ∨ getField (s.reg (schedR n (s.fld (trigR n 8) 0 6) 0)) 5 1 = 1 then 0
      else s.fld (trigR n 8) 0 6 + 1 := by
    simp only [State.afterEntry, State.bit, beq_iff_eq]
    rfl
  have hSmall : s1.afterEntry n e < 2 ^ 6 := by
    have := getField_lt (s.reg (trigR n 8)) 0 6
    rw [hNext, State.fld]
    split <;> omega
  refine ⟨?_, congrArg Trig.run (trig_setTrig s2 n _)⟩
  rw [← hNext, setTrig_fld, State.fld_setFld _ _ _ _ _ (by decide), Nat.mod_eq_of_lt hSmall]

theorem trigAdvance_running (s : State) (n : Nat) (x : Trig) : (s.trigAdvance n x).bit (trigR n 8) 6 = false := by
  rw [State.trigAdvance, setTrig_bit, State.bit_setBit _ _ _ _ (by decide)]

/-- The pointer's move leaves the STAT bits above its own alone. -/
theorem trigAdvance_bit (s : State) (n : Nat) (x : Trig) {j : Nat} (hj : 6 < j) : (s.trigAdvance n x).bit (trigR n 8) j = s.bit (trigR n 8) j := by
  rw [State.trigAdvance, setTrig_bit, State.bit_setBit_ne _ _ _ _ _ _ (.inr (by omega)), bit_setFld_ne _ _ _ _ _ _ (.inr (.inr (by omega)))]

/-- A bad entry is reported and left (R95). -/
theorem trigRead_refuses {y : Trig} (hScan : (s.trig n).run = .scanning)
    (hValid : getField (s.reg (schedR n (s.fld (trigR n 8) 0 6) 0)) 0 1 = 1) (hEntry : y.entry = s.pointedEntry n) (hBad : y.bad = true)
    (hU : s.trigRead n = u) : u.bit (trigR n 8) 9 = true ∧ Raises u (Src.output n) ∧ u.bit (trigR n 8) 6 = false := by
  rw [State.trigRead, if_pos hScan] at hU
  extract_lets s1 e words ci x p s2 s3 late at hU
  have hWord : getField (x.word 0) 0 1 = 1 := hValid
  rw [if_neg (by rw [hWord]; decide), if_pos ((bad_congr (show x.entry = y.entry from hEntry.symm)).trans hBad)] at hU
  subst hU
  exact ⟨(trigAdvance_bit _ _ _ (by decide)).trans (bit_latch s1 _ _ (by decide)), raises_raiseU _ _ _ _, trigAdvance_running _ _ _⟩

/-- An entry whose first leading edge can still be committed is the running one (R96, R97). -/
theorem trigRead_runs {y : Trig} {x : Nat} (hScan : (s.trig n).run = .scanning)
    (hValid : getField (s.reg (schedR n (s.fld (trigR n 8) 0 6) 0)) 0 1 = 1) (hEntry : y.entry = s.pointedEntry n)
    (hStart : y.startHi = sec16 ((s.advance s.nextPeri).instAt y.ci (s.advance s.nextPeri).tick / 2 ^ 32) / 2 ^ 32)
    (hGood : y.bad = false) (hClock : s.instState y.ci ≠ 3) (hPlace : s.place y.ci (y.lead16 0) (s.trigCal n) = some x)
    (hTime : (s.advance s.nextPeri).now + 320 * nsU ≤ x) (hU : s.trigRead n = u) :
    (u.trig n).run = .running ∧ (u.trig n).entry = s.pointedEntry n ∧ u.bit (trigR n 8) 6 = true := by
  rw [State.trigRead, if_pos hScan] at hU
  extract_lets s1 e words ci z p s2 s3 late at hU
  have hWord : getField (z.word 0) 0 1 = 1 := hValid
  have hSame : z.entry = y.entry := hEntry.symm
  have hCi : ci = y.ci := by rw [Trig.ci, Trig.word, hEntry]; rfl
  have hHi : z.startHi = y.startHi := by
    rw [hStart, ← hCi]
    exact if_pos (hCi ▸ ci_le_of_not_bad hGood)
  have hPlace1 : s1.place z.ci (z.lead16 0) (s1.trigCal n) = some x := by
    rw [lead16_congr hSame hHi, show z.ci = y.ci from hCi]
    exact hPlace
  have hLate : late = false := by
    simp only [late, hPlace1, decide_eq_false_iff_not, not_lt]
    exact hTime
  rw [if_neg (by rw [hWord]; decide), if_neg (by rw [bad_congr hSame, hGood]; decide), if_neg (by rw [hCi]; exact hClock),
    if_neg (by rw [hLate]; decide)] at hU
  have hLevel : Levelled ((s1.setBit (trigR n 8) 6 true).setTrig n { z with run := .running, passed := 0 }) u := by
    rw [← hU]
    exact .restOut _ _ _
  rw [hLevel.trig, trig_setTrig, hLevel.bit]
  exact ⟨rfl, rfl, State.bit_setBit s1 (trigR n 8) 6 true (by decide)⟩

/-- A write of a word of an entry: WERR where it is the running one, read before this PERI cycle (R98). -/
theorem schedWrite_writes {e w : Nat} (hn : n < 24) :
    if s.bit (trigR n 8) 6 = true ∧ s.fld (trigR n 8) 0 6 = e ∧ (s.trig n).readAt ≠ some (s.now / periU)
    then (s.schedWrite n e w v).bit (trigR n 8) 8 = true ∧ (s.schedWrite n e w v).reg (schedR n e w) = s.reg (schedR n e w)
    else (s.schedWrite n e w v).reg (schedR n e w) = v &&& schedMask w := by
  unfold State.schedWrite
  split
  · exact ⟨bit_latch _ _ _ (by decide), (latch_reg _ _ _).trans (setBit_reg_ne (schedR_ne_trigR hn (by decide)) _ _)⟩
  · exact (State.reg_setReg _ _ _ _).trans (if_pos rfl)

/-! ### Edges (R96, R98, R105) -/

/-- A pulse still to be committed: its leading edge is placed, 256 TIME cycles before its own. -/
theorem trigCommit_leads {x : Nat} (hRun : (s.trig n).run = .running) (hFree : s.bit (tioB + 4) 0 = false) (hClock : s.instState (s.trig n).ci ≠ 3)
    (hOpen : (s.trig n).open_ = none) (hGoes : (s.trig n).stopping = false) (hLeft : (s.trig n).count = 0 ∨ (s.trig n).pulse < (s.trig n).count)
    (hPlace : s.place (s.trig n).ci ((s.trig n).lead16 (s.trig n).pulse) (s.trigCal n) = some x) (hU : s.trigCommit n = u) :
    (u.trig n).edges = (s.trig n).edges ++ [⟨true, x⟩] ∧ (u.trig n).pulse = (s.trig n).pulse + 1
      ∧ u.now = max s.now ((x / tickU - 256) * tickU) := by
  unfold State.trigCommit at hU
  dsimp only at hU
  rw [if_neg (by rw [hRun, hFree]; simp [hClock]), hOpen] at hU
  dsimp only at hU
  rw [if_neg (by rw [hGoes]; simp; omega), hPlace] at hU
  subst hU
  exact ⟨congrArg Trig.edges (trig_setTrig _ n _), congrArg Trig.pulse (trig_setTrig _ n _), rfl⟩

/-- An output that drives its contact gives it the level of the edge. -/
theorem Drives.edge {b : Bool} (h : Drives s i) (hUnits : t.units = s.units) (hPin : t.pin = s.pin) (hReg : ∀ a, t.reg a = s.reg a)
    (hi : i < 28) : aget (fun _ => Level.z) (t.driveOut i (t.outLevel i b)).tio.contacts (s.contactOf i) = s.outLevel i b := by
  obtain ⟨hDrives, hContact⟩ := h.of_trigRegs hi hUnits hPin fun a _ => hReg a
  rw [← hContact, hDrives.level]
  unfold State.outLevel State.outLow
  simp only [bit_of_reg (hReg _)]

/-- The oldest committed edge of a trigger output crosses its contact. -/
theorem edgeDrive_trig {g : Edge} {rest : List Edge} (hi : i < 24) (hEdges : (s.trig i).edges = g :: rest) (hU : s.edgeDrive i = u) :
    u.now = max s.now g.instant ∧ (u.trig i).edges = rest
      ∧ (Drives s i → aget (fun _ => Level.z) u.tio.contacts (s.contactOf i) = s.outLevel i g.leading) := by
  unfold State.edgeDrive at hU
  rw [if_pos hi] at hU
  extract_lets x at hU
  rw [show x.edges = g :: rest from hEdges] at hU
  dsimp -zeta only at hU
  extract_lets s1 done s2 s3 at hU
  have hLevel : Levelled s3 u := by
    rw [← hU]
    exact .driveOut _ _ _
  have h3 : s3.now = s2.now ∧ s3.trig i = s2.trig i := by
    unfold s3
    split <;> exact ⟨rfl, rfl⟩
  obtain ⟨hNow, hTrig⟩ := h3
  refine ⟨hLevel.now.trans hNow, ?_, fun hDrives => ?_⟩
  · rw [hLevel.trig, hTrig, trig_setTrig]
  · have hTaken : ¬ (g.leading && s2.pin.changing.contains (s2.contactOf i)) = true := by
      rw [show s2.pin.changing.contains (s2.contactOf i) = false from hDrives.taken, Bool.and_false]
      exact Bool.false_ne_true
    rw [← hU, show s3 = s2 from if_neg hTaken]
    exact hDrives.edge rfl rfl (fun _ => rfl) (by omega)

/-- The oldest committed edge of a PPS output crosses its contact. -/
theorem edgeDrive_ppso {g : Edge} {rest : List Edge} (hi : ¬ i < 24) (hOut : i < 28) (hEdges : (s.ppso (i - 24)).edges = g :: rest)
    (hU : s.edgeDrive i = u) :
    u.now = max s.now g.instant ∧ (u.ppso (i - 24)).edges = rest
      ∧ (Drives s i → aget (fun _ => Level.z) u.tio.contacts (s.contactOf i) = s.outLevel i g.leading) := by
  unfold State.edgeDrive at hU
  rw [if_neg hi] at hU
  dsimp only at hU
  rw [hEdges] at hU
  dsimp only at hU
  have hLevel : Levelled ((s.advance g.instant).setPpso (i - 24) { s.ppso (i - 24) with edges := rest }) u := by
    rw [← hU]
    exact .driveOut _ _ _
  refine ⟨hLevel.now, by rw [hLevel.ppso, ppso_setPpso], fun hDrives => ?_⟩
  rw [← hU]
  exact hDrives.edge rfl rfl (fun _ => rfl) hOut

/-- Between pulses a PPS output commits the leading edge of its next one. -/
theorem ppsoPulse_leads {sec a b : Nat} (hEn : s.bit (ppsoR k 0) 0 = true) (hFree : s.bit (tioB + 4) 0 = false)
    (hClock : s.instState (s.fld (ppsoR k 0) 1 4) ≠ 3) (hOpen : (s.ppso k).open_ = none) (hNext : s.ppsoNext k = some (sec, a, b))
    (hU : s.ppsoPulse k = u) :
    (u.ppso k).edges = (s.ppso k).edges ++ [⟨true, a⟩] ∧ (u.ppso k).lastSec = some sec
      ∧ (u.ppso k).open_ = some (s.fld (ppsoR k 0) 1 4, b) := by
  unfold State.ppsoPulse State.ppsoLead at hU
  rw [if_neg (by rw [hFree]; decide), hOpen] at hU
  dsimp only at hU
  rw [if_neg (by simp [hEn, hClock]), hNext] at hU
  subst hU
  rw [ppso_setPpso]
  exact ⟨rfl, rfl, rfl⟩

/-- A pulse begun gets its trailing edge. -/
theorem ppsoPulse_trails {j x e : Nat} (hOpen : (s.ppso k).open_ = some (j, x)) (hFree : s.bit (tioB + 4) 0 = false)
    (hClock : s.instState j ≠ 3) (hPlace : s.place j x 0 = some e) (hU : s.ppsoPulse k = u) :
    (u.ppso k).edges = (s.ppso k).edges ++ [⟨false, e⟩] ∧ (u.ppso k).open_ = none := by
  unfold State.ppsoPulse State.ppsoTrail at hU
  rw [if_neg (by rw [hFree]; decide), hOpen] at hU
  dsimp only at hU
  rw [if_neg hClock, hPlace] at hU
  subst hU
  rw [ppso_setPpso]
  exact ⟨rfl, rfl⟩

/-! ### Resume (R111) -/

/-- After RESUME no output is forced. -/
theorem resumeOutputs_frees (s : State) : s.resumeOutputs.bit (tioB + 4) 0 = false ∧ s.resumeOutputs.bit (fltB + 4) 0 = false := by
  have hReg := (resumeOutputs_driven s).reg
  refine ⟨?_, ?_⟩
  · rw [bit_of_reg (hReg _ fun _ _ => tioCtl_ne_trigR), State.bit_setBit_ne _ _ _ _ _ _ (.inl (by decide)),
      State.bit_setBit_ne _ _ _ _ _ _ (.inl (by decide)), State.bit_setBit _ _ _ _ (by decide)]
  · rw [bit_of_reg (hReg _ fun m hm => by simp only [trigR, fltB, tioB, block]; omega), State.bit_setBit_ne _ _ _ _ _ _ (.inl (by decide)),
      State.bit_setBit _ _ _ _ (by decide)]

/-! ### The obligation -/

/-- Settles O19: each command by its lemma; what the statement calls quiet is `Drives`. -/
theorem outputScheduleResults : Obligations.OutputScheduleResults := by
  unfold Obligations.OutputScheduleResults
  intro n e w i k v s t st p words s1 ci t1 quiet level
  have hDrives {f : Nat} (h : quiet f) : Drives s f := by
    obtain ⟨hFree, hOn, hUnfenced, hContact, hTaken⟩ := h
    exact ⟨hFree, hOn, hUnfenced, hContact, hTaken⟩
  refine ⟨fun hOff => ?enable, fun hOn => ⟨_, rfl, trigCfgWrite_disables hOn rfl⟩, fun hScan hInvalid => ⟨_, rfl, trigRead_passes hScan hInvalid⟩,
    fun hScan hValid hBad => ⟨_, rfl, trigRead_refuses (y := t1) hScan hValid rfl hBad rfl⟩,
    fun x hScan hValid hGood hClock hPlace hTime => ⟨_, rfl, trigRead_runs (y := t1) hScan hValid rfl rfl hGood hClock hPlace hTime rfl⟩,
    ⟨_, rfl, schedWrite_writes n.isLt⟩,
    fun x hRun hFree hClock hOpen hGoes hLeft hPlace => ⟨_, rfl, trigCommit_leads hRun hFree hClock hOpen hGoes hLeft hPlace rfl⟩,
    fun g rest hEdges => ⟨_, rfl, ?drive⟩,
    fun sec a b hEn hFree hClock hOpen hNext => ⟨_, rfl, ppsoPulse_leads hEn hFree hClock hOpen hNext rfl⟩,
    fun j x e hOpen hFree hClock hPlace => ⟨_, rfl, ppsoPulse_trails hOpen hFree hClock hPlace rfl⟩,
    fun hForced hCalm => ⟨_, rfl, ?resume⟩, fun hHeavy => ?refused⟩
  case enable =>
    obtain ⟨hEn, hRun, hPointer, hLevel⟩ := trigCfgWrite_enables (v := v) n.isLt hOff rfl
    exact ⟨_, rfl, hEn, hRun, hPointer, fun h => hLevel (hDrives h)⟩
  case drive =>
    by_cases hi : i.val < 24
    · rw [if_pos hi] at hEdges ⊢
      obtain ⟨hNow, hRest, hLevel⟩ := edgeDrive_trig hi hEdges rfl
      exact ⟨hNow, hRest, fun h => hLevel (hDrives h)⟩
    · rw [if_neg hi] at hEdges ⊢
      obtain ⟨hNow, hRest, hLevel⟩ := edgeDrive_ppso hi i.isLt hEdges rfl
      exact ⟨hNow, hRest, fun h => hLevel (hDrives h)⟩
  case resume =>
    rw [State.tioResume, if_pos ⟨hForced, by rw [hCalm]; rfl⟩]
    exact resumeOutputs_frees s
  case refused =>
    exact congrArg Host.Outcome.next (if_neg fun h => by rw [hHeavy] at h; exact absurd h.2 (by decide))

end Sys2Proof.Machine
end

section
/-!
What an edge at an input, or the loss of a PPS input, sets in motion elsewhere (R70–R72, R99, R251, R252): clocks are adjusted or change their
state with a notice, outputs are placed again, the rewind store freezes. None of it touches the inputs and the event queue.
-/
namespace Sys2Proof.Machine

variable {o s : State} {n : Nat}

/-! ### Frames of the module, notices and cells that go back leave the timing IO alone -/

theorem foldl_tio {α : Type} {f : State → α → State} (hf : ∀ s x, (f s x).tio = s.tio) (l : List α) (s : State) : (l.foldl f s).tio = s.tio :=
  List.foldlRecOn (motive := fun t => t.tio = s.tio) l f rfl fun t ht x _ => (hf t x).trans ht

theorem ite_tio {p : Prop} [Decidable p] {x y : State} {t : TioSt} (hx : x.tio = t) (hy : y.tio = t) : (if p then x else y).tio = t := by
  split <;> assumption

theorem ite_snd_tio {α : Type} {p : Prop} [Decidable p] {x y : α × State} {t : TioSt} (hx : x.2.tio = t) (hy : y.2.tio = t) :
    (if p then x else y).2.tio = t := by
  split <;> assumption

theorem countDrop_tio (s : State) (p set reason : Nat) : (s.countDrop p set reason).tio = s.tio := by
  unfold State.countDrop
  extract_lets s1 _ _ s2 _ _ _ s3
  have h3 : s3.tio = s.tio := rfl
  split
  · split
    · exact h3
    · exact h3
  · rfl

/-- A frame of the module that is refused is counted; no coach stands behind it. -/
theorem countQ_tio (s : State) {cp : Copy} (hModule : cp.coach = none) (reason : Nat) : (s.countQ cp reason).tio = s.tio := by
  unfold State.countQ State.countQuiet
  simp only [hModule, Option.bind_none, countDrop_tio]
  split <;> rfl

theorem enqueueFrame_tio (s : State) (q k : Nat) (frame : List Byte) (cells : List Nat) (owner : Nat) :
    (s.enqueueFrame q k frame cells owner).2.tio = s.tio := by
  have hRefused (reason : Nat) : ((false, s.countQ (s.frameCopy q k frame cells owner) reason) : Bool × State).2.tio = s.tio :=
    countQ_tio s rfl reason
  exact ite_snd_tio (hRefused 15) (ite_snd_tio (hRefused 13) (ite_snd_tio (hRefused 14) (ite_snd_tio (hRefused 6) rfl)))

theorem jenSend_tio (s : State) (port : Nat) (vlan : Option Nat) (dst msg : List Byte) : (s.jenSend port vlan dst msg).tio = s.tio := by
  unfold State.jenSend
  dsimp only
  split
  · rfl
  · exact enqueueFrame_tio _ _ _ _ _ _

theorem sendCopies_tio (p : State → NoticeCopy → Bool) (l : List Notice) :
    ∀ (done : List Notice) (s : State), (s.sendCopies p done l).tio = s.tio := by
  induction l with
  | nil => exact fun _ _ => rfl
  | cons n rest ih =>
    intro done s
    refine (ih _ _).trans ?_
    refine List.foldlRecOn (motive := fun t : List NoticeCopy × State => t.2.tio = s.tio) n.copies _ rfl fun t ht c _ => ?_
    split
    · exact (jenSend_tio _ _ _ _ _).trans ht
    · exact ht

theorem notice_tio (s : State) (kind : Nat) (body : List Byte) : (s.notice kind body).tio = s.tio := by
  unfold State.notice
  extract_lets subs full parked s1 _ s2 n s3
  have h1 : s1.tio = s.tio := by
    unfold s1
    split <;> rfl
  have h2 : s2.tio = s.tio := by
    unfold s2
    clear_value full parked
    split
    · exact h1
    · exact h1
  have h3 : s3.tio = s.tio :=
    (foldl_tio (f := fun (s : State) i => s.setSession i { s.session i with noticeSeq := (s.session i).noticeSeq + 1 })
      (fun _ _ => rfl) subs s2).trans h2
  split
  · rfl
  · split
    · exact h2
    · exact (sendCopies_tio _ _ _ _).trans h3

theorem auditAdd_tio (s : State) (e k : Nat) (up : Bool) : (s.auditAdd e k up).tio = s.tio := by
  unfold State.auditAdd
  extract_lets x m counts
  split <;> rfl

theorem auditLose_tio (s : State) (h : Held) (k : Nat) : (s.auditLose h k).tio = s.tio := by
  unfold State.auditLose
  split
  · split
    · exact auditAdd_tio _ _ _ _
    · rfl
  · rfl

theorem levelSource_tio (s : State) (src : Nat) (on : Bool) : (s.levelSource src on).tio = s.tio :=
  ite_tio ((State.raise_tio _ _ _).trans (State.setCause_tio _ _ _)) (State.setCause_tio _ _ _)

theorem sidingCheck_tio (s : State) : s.sidingCheck.tio = s.tio := by
  unfold State.sidingCheck
  exact ite_tio (ite_tio rfl (levelSource_tio _ _ _)) (State.setCause_tio _ _ _)

theorem release_tio (s : State) (k i : Nat) (h : Held) : (s.release k i h).tio = s.tio := by
  unfold State.release
  extract_lets s1 s2 p s3
  have h2 : s2.tio = s.tio := auditLose_tio s h k
  split
  · exact h2
  · exact (sidingCheck_tio _).trans h2

theorem refuseFree_tio (s : State) (k i req owner : Nat) (foreign : Bool) : (s.refuseFree k i req owner foreign).tio = s.tio := by
  unfold State.refuseFree
  extract_lets a b s1 s2 s3
  have h2 : s2.tio = s.tio := (State.setReg_tio s1 _ _).trans (State.setReg_tio s _ _)
  have h3 : s3.tio = s.tio := ite_tio ((State.count_tio s2 _ _ _ _).trans h2) ((State.count_tio s2 _ _ _ _).trans h2)
  exact (State.raise_tio _ _ _).trans h3

theorem freeCell_tio (s : State) (p i : Nat) : (s.freeCell p i).tio = s.tio := by
  unfold State.freeCell
  split
  · exact release_tio _ _ _ _
  · exact refuseFree_tio _ _ _ _ _ _

theorem unref_tio (s : State) (q : Nat) : (s.unref q).tio = s.tio := by
  unfold State.unref
  split
  · rfl
  · split
    · exact foldl_tio (fun s i => freeCell_tio s _ i) _ s
    · rfl

theorem setNum_rest (s : State) (a n v : Nat) : ∃ m, s.setNum a n v = { s with mem := m } := by
  unfold State.setNum
  generalize bytesLE n v = l
  induction l generalizing s a with
  | nil => exact ⟨s.mem, rfl⟩
  | cons x l ih =>
    obtain ⟨m, hm⟩ := ih (s.setByte a x) (a + 1)
    exact ⟨m, hm⟩

/-! ### The inputs stay as they are -/

/-- `s` comes from `o` with the inputs and the event queue as they were: the instant is the same, the raises of `o` stand, and of the TIO
block only registers before those of the inputs have changed. -/
structure Heard (o s : State) : Prop where
  now : s.now = o.now
  raises : ∀ r ∈ o.flt.raises, r ∈ s.flt.raises
  inputs : s.tio.inputs = o.tio.inputs
  evtq : s.tio.evtq = o.tio.evtq
  ppsiStamp : s.tio.ppsiStamp = o.tio.ppsiStamp
  reg : ∀ a, ppsiR 0 0 ≤ a → a < laneB → s.reg a = o.reg a

namespace Heard

theorem refl : Heard o o := ⟨rfl, fun _ h => h, rfl, rfl, rfl, fun _ _ _ => rfl⟩

theorem trans {t : State} (h : Heard o s) (g : Heard s t) : Heard o t :=
  ⟨g.now.trans h.now, fun r hr => g.raises r (h.raises r hr), g.inputs.trans h.inputs, g.evtq.trans h.evtq, g.ppsiStamp.trans h.ppsiStamp,
    fun a h1 h2 => (g.reg a h1 h2).trans (h.reg a h1 h2)⟩

theorem ite {c : Prop} [Decidable c] {a b : State} (ha : Heard o a) (hb : Heard o b) : Heard o (if c then a else b) := by
  split <;> assumption

theorem foldl {α : Type} {f : State → α → State} {l : List α} (h : Heard o s) (hf : ∀ s, ∀ x ∈ l, Heard o s → Heard o (f s x)) :
    Heard o (l.foldl f s) := List.foldlRecOn (motive := Heard o) l f h fun s hs x hx => hf s x hx hs

/-- A change that leaves the timing IO and the registers of its inputs alone. -/
theorem apart {t : State} (h : Heard o s) (hNow : t.now = s.now) (hRaises : ∀ r ∈ s.flt.raises, r ∈ t.flt.raises) (hTio : t.tio = s.tio)
    (hReg : ∀ a, ppsiR 0 0 ≤ a → a < laneB → t.reg a = s.reg a) : Heard o t :=
  h.trans ⟨hNow, hRaises, by rw [hTio], by rw [hTio], by rw [hTio], hReg⟩

theorem driven {t : State} (h : Heard o s) (g : Driven s t) : Heard o t :=
  h.trans ⟨g.now, fun r hr => by rw [g.flt]; exact hr, g.inputs, g.evtq, g.ppsiStamp,
    fun a ha _ => g.reg a fun m hm => by simp only [ppsiR, trigR] at ha ⊢; omega⟩

theorem setReg {a w} (h : Heard o s) (ha : a < ppsiR 0 0 ∨ laneB ≤ a) : Heard o (s.setReg a w) :=
  h.apart rfl (fun _ hr => hr) rfl fun b h1 h2 => setReg_reg_ne (by omega) w

theorem setFld {a lo len v} (h : Heard o s) (ha : a < ppsiR 0 0 ∨ laneB ≤ a) : Heard o (s.setFld a lo len v) := h.setReg ha

theorem setBit {a i b} (h : Heard o s) (ha : a < ppsiR 0 0 ∨ laneB ≤ a) : Heard o (s.setBit a i b) := h.setFld ha

theorem setInst {m x} (h : Heard o s) : Heard o (s.setInst m x) := h.apart rfl (fun _ hr => hr) rfl fun _ _ _ => rfl

theorem raise {src ctx} (h : Heard o s) : Heard o (s.raise src ctx) :=
  h.apart rfl (fun _ hr => List.mem_append_left _ hr) rfl fun _ _ _ => rfl

theorem setCause {src on} (h : Heard o s) : Heard o (s.setCause src on) := h.apart rfl (fun _ hr => hr) rfl fun _ _ _ => rfl

/-- An update of units, coaches, the rewind store and the free counter. -/
theorem upd {u c r f} (h : Heard o s) : Heard o { s with units := u, coaches := c, rew := r, freeCtr := f } :=
  h.apart rfl (fun _ hr => hr) rfl fun _ _ _ => rfl

theorem notice {kind body} (h : Heard o s) : Heard o (s.notice kind body) :=
  have g : Quiet s (s.notice kind body) := Quiet.refl.notice
  h.apart (congrArg TimeSt.now g.time) g.raises (notice_tio s kind body) fun a _ ha => g.reg a (ha.trans (by decide))

theorem unref {q} (h : Heard o s) : Heard o (s.unref q) :=
  have g : Sheds s (s.unref q) := Sheds.refl.unref
  h.apart (congrArg TimeSt.now g.time) g.raises (unref_tio s q) fun a _ ha => g.reg a (ha.trans (by decide)) (.inl ha)

theorem setNum {a m v} (h : Heard o s) : Heard o (s.setNum a m v) := by
  obtain ⟨_, hm⟩ := setNum_rest s a m v
  rw [hm]
  exact h.apart rfl (fun _ hr => hr) rfl fun _ _ _ => rfl

/-! ### Clocks (R70–R72) -/

/-- The registers of the nine clocks lie before those of the inputs. -/
theorem ciR_before {r : Nat} (hn : n < 9) (hr : r < 0x40) : ciR n r < ppsiR 0 0 ∨ laneB ≤ ciR n r :=
  .inl ((ciR_lt hn hr).trans (by decide))

theorem stampIn {t0} (h : Heard o s) : Heard o (s.stampIn n t0).2.2 := by
  unfold State.stampIn
  split
  · exact h.upd
  · exact h

theorem resegOut {k f} (h : Heard o s) : Heard o (s.resegOut n k f) :=
  (show Heard o (s.reseg n k f) from h.setInst).driven Driven.refl.replaceEdges

theorem setInstState {st} (h : Heard o s) (hn : n < 9) : Heard o (s.setInstState n st) := by
  unfold State.setInstState
  extract_lets old x s1 s2
  have h1 : Heard o s1 := .ite (h.apart rfl (fun _ hr => hr) rfl fun _ _ _ => rfl) (h.setFld (ciR_before hn (by decide)))
  have h2 : Heard o s2 := h1.upd
  exact .ite h h2.notice

theorem enterInst {st} (h : Heard o s) (hn : n < 9) : Heard o (s.enterInst n st) := by
  unfold State.enterInst
  extract_lets s1
  have h1 : Heard o s1 := h.setInstState hn
  exact .ite h (.ite (h1.driven Driven.refl.replaceEdges) h1.resegOut)

theorem offsetUpdate {v} (h : Heard o s) (hn : n < 9) : Heard o (s.offsetUpdate n v) := by
  unfold State.offsetUpdate
  extract_lets sat w s1 bound within i run s2 st ab s3 s4
  have h1 : Heard o s1 := (h.setReg (ciR_before hn (by decide))).setBit (ciR_before hn (by decide))
  have h2 : Heard o s2 := h1.setInst
  have h3 : Heard o s3 := .ite h2.raise h2
  have h4 : Heard o s4 := h3.enterInst hn
  exact .ite h4.setInst h3

theorem loseReference (h : Heard o s) (hn : n < 9) : Heard o (s.loseReference n) := by
  unfold State.loseReference
  extract_lets s1 s2 z7 auto s3
  have h1 : Heard o s1 := (h.setInstState hn).raise
  have h2 : Heard o s2 := (h1.setBit (ciR_before hn (by decide))).setFld (ciR_before hn (by decide))
  have h3 : Heard o s3 := h2.resegOut
  have hShown : Heard o ((s3.setBit (ciR n 0x1C) 10 false).showIncr n) :=
    ((h3.setBit (ciR_before hn (by decide))).setReg (ciR_before hn (by decide))).setReg (ciR_before hn (by decide))
  exact .ite (.ite hShown h3) h

/-- The clocks that follow a PPS input are the instances 1 to 8. -/
theorem feedPps {k t} (h : Heard o s) : Heard o (s.feedPps k t) :=
  h.foldl fun _ _ hj h => .ite (h.stampIn.offsetUpdate (by have := List.mem_range.mp hj; omega)) h

theorem ppsDisagree {k t} (h : Heard o s) : Heard o (s.ppsDisagree k t) := by
  unfold State.ppsDisagree
  extract_lets lim
  split
  · exact .ite h.raise h
  · exact h

/-! ### The rewind store (R251, R252) -/

theorem unresume (h : Heard o s) : Heard o s.unresume := by
  have hRew {a : Nat} (ha : rewB ≤ a) : a < ppsiR 0 0 ∨ laneB ≤ a := .inr (le_trans (by decide) ha)
  unfold State.unresume
  split
  · extract_lets n g l r s1 s2 s3
    have h1 : Heard o s1 := h.upd
    have h2 : Heard o s2 := h1.foldl fun _ _ _ h => h.unref
    have h3 : Heard o s3 := h2.setNum
    exact .ite (setCause (upd ((h3.setFld (hRew (by omega))).setFld (hRew (by omega))))) h
  · exact h

theorem rewTrigger {kind detail} (h : Heard o s) : Heard o (s.rewTrigger kind detail) := by
  have hRew {a : Nat} (ha : rewB ≤ a) : a < ppsiR 0 0 ∨ laneB ≤ a := .inr (le_trans (by decide) ha)
  unfold State.rewTrigger
  extract_lets s1 st p1 s2 p2 s3 p4 s4
  have h1 : Heard o s1 := h.unresume
  have h2 : Heard o s2 := h1.upd
  have h3 : Heard o s3 := h2.upd
  have h4 : Heard o s4 := h2.setFld (hRew (by omega))
  exact .ite h2 (.ite (.ite (upd (h3.setFld (hRew (by omega)))) h3.upd) (.ite h4.upd h4))

end Heard
end Sys2Proof.Machine
end

section
/-!
Event and PPS inputs, drivers and their diagnosis (O20).
-/
namespace Sys2Proof.Machine

variable {s t u : State} {i k c f : Nat} {v : Word}

/-! ### Bits of a register -/

theorem bit_eq_getLsbD (s : State) (a j : Nat) : s.bit a j = (s.reg a).getLsbD j := by
  have hOne : ∀ b : BitVec 1, (b.toNat == 1) = (b == 1#1) := by decide
  rw [State.bit, getField, hOne, BitVec.getLsbD_eq_extractLsb']

/-- A field is 0 where its bits are. -/
theorem fld_eq_zero {a lo len : Nat} (h : ∀ j < len, s.bit a (lo + j) = false) : s.fld a lo len = 0 := by
  have hZero : (s.reg a).extractLsb' lo len = 0#len := by
    apply BitVec.eq_of_getLsbD_eq
    intro j hj
    rw [BitVec.getLsbD_extractLsb', ← bit_eq_getLsbD, h j hj, Bool.and_false, BitVec.getLsbD_zero]
  rw [State.fld, getField, hZero]
  rfl

theorem fld_count {a lo len m : Nat} (h : lo + len ≤ 32) : (s.count a lo len m).fld a lo len = min (2 ^ len - 1) (s.fld a lo len + m) := by
  rw [State.count, State.fld_setFld _ _ _ _ _ h, satur, Nat.min_comm]
  exact Nat.mod_eq_of_lt (by have := Nat.two_pow_pos len; omega)

/-- A write of 1 clears a bit of the mask, unless hardware has set it in this cycle (Table 0.3). -/
theorem w1c_bit (s : State) (a mask : Nat) (v : Word) {j : Nat} (hj : j < 32) :
    (s.w1c a mask v).bit a j = (s.bit a j && !(v.getLsbD j && (BitVec.ofNat 32 mask).getLsbD j && !(s.justSet a).getLsbD j)) := by
  have hCleared (m : Word) : (s.reg a &&& ~~~m).getLsbD j = (s.bit a j && !m.getLsbD j) := by
    rw [BitVec.getLsbD_and, BitVec.getLsbD_not, bit_eq_getLsbD, decide_eq_true hj, Bool.true_and]
  have hMask : (v &&& BitVec.ofNat 32 mask &&& ~~~(s.justSet a)).getLsbD j =
      (v.getLsbD j && (BitVec.ofNat 32 mask).getLsbD j && !(s.justSet a).getLsbD j) := by
    rw [BitVec.getLsbD_and, BitVec.getLsbD_and, BitVec.getLsbD_not, decide_eq_true hj, Bool.true_and]
  rw [← hMask]
  unfold State.w1c
  dsimp only
  split
  · next hNone => rw [hNone, show (0 : Word).getLsbD j = false from BitVec.getLsbD_zero, Bool.not_false, Bool.and_true]
  · rw [bit_eq_getLsbD, State.reg_setReg, if_pos rfl, hCleared]

/-! ### Drivers (R108) -/

theorem setContact_level (s : State) (c : Nat) (l : Level) : aget (fun _ => Level.z) (s.setContact c l).tio.contacts c = l :=
  (aget_aset _ _ _ _ _).trans (if_pos rfl)

theorem fnOf_lt (h : s.fnOf c = some f) : f < 36 := List.mem_range.mp (List.mem_of_find?_eq_some h)

/-- A fault of the driver of a TRIG or PPSO output. -/
theorem driverFault_output {b : Nat} (hFn : s.fnOf c = some f) (hf : f < 28) (hb : b < 4) (hU : s.driverFault c b = u) :
    aget (fun _ => Level.z) u.tio.contacts c = .z ∧ u.bit (outDiag f) b = true ∧ u.bit (outDiag f) 4 = true ∧ Raises u (Src.output f) := by
  unfold State.driverFault at hU
  rw [hFn] at hU
  dsimp only at hU
  rw [if_pos hf] at hU
  subst hU
  refine ⟨setContact_level s c .z, ?_, ?_, raises_raiseU _ _ _ _⟩
  · rw [State.raiseU_bit, State.bit_setBit_ne _ _ _ _ _ _ (.inr (by omega)), bit_latch _ _ _ (by omega)]
  · rw [State.raiseU_bit, State.bit_setBit _ _ _ _ (by decide)]

/-- A fault of the driver of a GPO. -/
theorem driverFault_gpo {b : Nat} (hFn : s.fnOf c = some f) (hf : 28 ≤ f) (hU : s.driverFault c b = u) :
    aget (fun _ => Level.z) u.tio.contacts c = .z ∧ u.bit (pinB + 0x104) (16 + (f - 28)) = true := by
  have hSmall := fnOf_lt hFn
  unfold State.driverFault at hU
  rw [hFn] at hU
  dsimp only at hU
  rw [if_neg (by omega)] at hU
  subst hU
  exact ⟨setContact_level s c .z, bit_latch _ _ _ (by omega)⟩

theorem driverFault_none {b : Nat} (hFn : s.fnOf c = none) : s.driverFault c b = s := by
  unfold State.driverFault
  rw [hFn]

/-- An open test that is due: what the pin shows is latched and raised. -/
theorem openTestAt_tests (hFn : s.fnOf c = some f) (hTrig : f < 24) (hOn : s.bit (trigR f 0) 5 = true) (hHigh : s.outLow f = false)
    (hFree : s.bit (tioB + 4) 0 = false) (hGap : s.openGap f = true) (hFirst : aget (fun _ => none) s.tio.openTest c = none) :
    ((s.openTestAt c true).bit (outDiag f) 3 = true ∧ Raises (s.openTestAt c true) (Src.output f))
      ∧ (s.openTestAt c false).bit (outDiag f) 3 = s.bit (outDiag f) 3 ∧ (s.openTestAt c false).flt = s.flt := by
  unfold State.openTestAt
  rw [hFn]
  dsimp only
  rw [hFirst]
  dsimp only
  rw [if_pos (by simp [hTrig, hOn, hHigh, hFree, hGap]), if_pos rfl, if_pos (by simp [hTrig, hOn, hHigh, hFree, hGap]), if_neg (by decide)]
  exact ⟨⟨(State.raiseU_bit _ _ _ _ _ _).trans (bit_latch _ _ _ (by decide)), raises_raiseU _ _ _ _⟩, rfl, rfl⟩

/-- A clear of DIAG; the driver is on again once no fault bit is left. -/
theorem diagClear_clears {left : Nat → Bool} (hLeft : ∀ b < 4, left b = (s.bit (outDiag i) b && !(v.getLsbD b && !(s.justSet (outDiag i)).getLsbD b)))
    (hU : s.diagClear i v = u) :
    (∀ b < 4, u.bit (outDiag i) b = left b) ∧ ((∀ b < 4, left b = false) → u.bit (outDiag i) 4 = false) := by
  unfold State.diagClear at hU
  extract_lets a s1 d at hU
  have hMask : ∀ b < 4, (BitVec.ofNat 32 0xF).getLsbD b = true := by decide
  have hBits (b : Nat) (hb : b < 4) : s1.bit (outDiag i) b = left b := by
    rw [w1c_bit _ _ _ _ (by omega), hMask b hb, Bool.and_true, hLeft b hb]
  split at hU
  · have hLevel : Levelled (s1.setBit a 4 false) u := by
      rw [← hU]
      exact .driveOut _ _ _
    refine ⟨fun b hb => ?_, fun _ => ?_⟩
    · rw [hLevel.bit, State.bit_setBit_ne _ _ _ _ _ _ (.inr (by omega)), hBits b hb]
    · rw [hLevel.bit, State.bit_setBit _ _ _ _ (by decide)]
  · next hKept =>
    subst hU
    refine ⟨hBits, fun hNone => ?_⟩
    have hZero : s1.fld (outDiag i) 0 4 = 0 := fld_eq_zero fun j hj => by rw [Nat.zero_add, hBits j hj, hNone j hj]
    exact Bool.eq_false_iff.mpr fun hOff => hKept ⟨hZero, beq_iff_eq.mp hOff⟩

/-! ### Inputs and lanes (R93, R107, R109) -/

theorem polarityInvert_inverts {st : Nat} {auto : Bool} (hSt : st = if i < 16 then 0 else 1)
    (hAuto : auto = if i < 16 then s.bit (evtR i 0) 8 && s.bit (evtR i 0) 7 else s.bit (ppsiR (i - 16) 0) 2 && s.bit (ppsiR (i - 16) 0) 1) :
    (s.polarityInvert i).bit (inStat i) st = (s.bit (inStat i) st != auto) ∧ (auto = true → Raises (s.polarityInvert i) (inSource i)) := by
  have hGo : auto = if i < 16 then s.bit (inCfg i) 8 && s.bit (inCfg i) 7 else s.bit (inCfg i) 2 && s.bit (inCfg i) 1 := by
    rw [hAuto, inCfg]
    split <;> rfl
  have hSmall : st < 32 := by
    rw [hSt]
    split <;> decide
  unfold State.polarityInvert
  dsimp only
  rw [← hGo, ← hSt]
  cases auto
  · exact ⟨(Bool.bne_false _).symm, fun h => absurd h Bool.false_ne_true⟩
  · exact ⟨(State.raise_bit _ _ _ _ _).trans ((State.bit_setBit _ _ _ _ hSmall).trans (Bool.bne_true _).symm), fun _ => raises_raise _ _ _⟩

theorem overvoltage_latches (s : State) (i : Nat) :
    (s.overvoltage i).bit (inStat i) (if i < 16 then 1 else 2) = true ∧ Raises (s.overvoltage i) (inSource i) :=
  ⟨(State.raise_bit _ _ _ _ _).trans (bit_latch _ _ _ (by split <;> decide)), raises_raise _ _ _⟩

/-- A replica measurement is shown; beyond the limit the lane's drift is latched (R93). -/
theorem driftMeasure_shows {l : Nat} (s : State) (d : BitVec 16) : (s.driftMeasure l d).fld (lcalR l 8) 0 16 = d.toNat
    ∧ (s.bit (tioB + 8) 16 = true → s.fld (tioB + 8) 0 16 < d.toInt.natAbs → (s.driftMeasure l d).bit (lcalR l 8) 16 = true) := by
  have hLimit : tioB + 8 ≠ lcalR l 8 := by
    simp only [lcalR]
    omega
  unfold State.driftMeasure
  extract_lets a s1
  have hShown : s1.fld (lcalR l 8) 0 16 = d.toNat := (State.fld_setFld _ _ _ _ _ (by decide)).trans (Nat.mod_eq_of_lt d.isLt)
  have hReg : s1.reg (tioB + 8) = s.reg (tioB + 8) := setFld_reg_ne hLimit _ _ _
  split
  · refine ⟨?_, fun _ _ => (State.raise_bit _ _ _ _ _).trans (bit_latch _ _ _ (by decide))⟩
    rw [← hShown, State.raise_fld, fld_of_reg (latch_reg _ _ _), fld_setBit_ne _ _ _ _ _ _ (.inr (.inl (by decide)))]
  · next hQuiet =>
    refine ⟨hShown, fun hOn hFar => ?_⟩
    rw [← bit_of_reg hReg] at hOn
    rw [← fld_of_reg hReg] at hFar
    simpa [hOn, hFar] using hQuiet

/-! ### The event queue (R101) -/

/-- A stamp stands behind those of its instant or before, inputs in their order. -/
theorem insertStamp_splits (e : Stamp) (q : List Stamp) : ∃ l r, q = l ++ r ∧ insertStamp e q = l ++ e :: r
    ∧ (∀ x ∈ l, x.at0 < e.at0 ∨ (x.at0 = e.at0 ∧ x.input ≤ e.input))
    ∧ ∀ x, r.head? = some x → e.at0 < x.at0 ∨ (e.at0 = x.at0 ∧ e.input < x.input) := by
  induction q with
  | nil => exact ⟨[], [], rfl, rfl, fun x hx => absurd hx (List.not_mem_nil), fun x hx => nomatch hx⟩
  | cons y q ih =>
    rw [insertStamp]
    split
    · next hBefore => exact ⟨[], y :: q, rfl, rfl, fun x hx => absurd hx (List.not_mem_nil), fun x hx => Option.some.inj hx ▸ hBefore⟩
    · next hBehind =>
      obtain ⟨l, r, hq, hIns, hl, hr⟩ := ih
      refine ⟨y :: l, r, by rw [hq]; rfl, by rw [hIns]; rfl, fun x hx => ?_, hr⟩
      rcases List.mem_cons.mp hx with rfl | hx
      · omega
      · exact hl x hx

theorem pushStamp_joins {e : Stamp} (h : s.tio.evtq.length < 1024) :
    (s.pushStamp e).tio.evtq = insertStamp e s.tio.evtq ∧ (s.pushStamp e).now = s.now := by
  rw [State.pushStamp, if_neg (by omega)]
  exact ⟨rfl, rfl⟩

/-- The stamp of a PPS input touches no register but that of the queue. -/
theorem pushStamp_reg {e : Stamp} (hPps : 16 ≤ e.input) {a : Nat} (ha : a ≠ tioB + 0x10) : (s.pushStamp e).reg a = s.reg a := by
  unfold State.pushStamp
  dsimp only
  split
  · rw [if_neg (by omega), State.raise_reg, latch_reg, setBit_reg_ne ha]
  · exact setFld_reg_ne ha _ _ _

theorem popStamp_pops {e : Stamp} {rest : List Stamp} (h : s.tio.evtq = e :: rest) (hFits : rest.length < 1024) :
    s.popStamp.tio.evtq = rest ∧ s.popStamp.fld (tioB + 0x10) 0 11 = rest.length
      ∧ s.popStamp.resp = .ok ((e.input + (if e.falling then 32 else 0) + e.ci * 64 + e.status * 1024 + 2 ^ 31) % 2 ^ 32) := by
  unfold State.popStamp
  rw [h]
  dsimp only
  obtain ⟨m, hm⟩ := foldl_setReg_rest { s with tio := { s.tio with evtq := rest } } (fun j => tioB + 0x14 + 4 * j)
    (fun j => BitVec.ofNat 32 ((stampWords e).getD j 0)) (List.range 4)
  rw [hm]
  exact ⟨rfl, (State.fld_setFld _ _ _ _ _ (by decide)).trans (Nat.mod_eq_of_lt (by omega)), rfl⟩

theorem popStamp_empty (h : s.tio.evtq = []) : s.popStamp.tio.evtq = [] ∧ s.popStamp.resp = .ok ((s.reg (tioB + 0x14)).toNat % 2 ^ 31) := by
  have hLow : (s.reg (tioB + 0x14) &&& 0x7FFFFFFF#32).toNat % 2 ^ 32 = (s.reg (tioB + 0x14)).toNat % 2 ^ 31 := by
    rw [BitVec.toNat_and, show (0x7FFFFFFF#32).toNat = 2 ^ 31 - 1 by decide, Nat.and_two_pow_sub_one_eq_mod]
    exact Nat.mod_eq_of_lt ((Nat.mod_lt _ (by decide)).trans (by decide))
  unfold State.popStamp
  rw [h]
  exact ⟨h, congrArg Resp.ok hLow⟩

/-! ### Edges at event inputs (R100–R102) -/

theorem dead_iff {x : EvIn} {t : Nat} : x.dead t = true ↔ ∃ l, x.last = some l ∧ t < l + 5 * nsU := by
  unfold EvIn.dead
  cases x.last with
  | none => simp
  | some l => simp

theorem setEvIn_evIn (s : State) (i : Nat) (x : EvIn) : (s.setEvIn i x).evIn i = x := (aget_aset _ _ _ _ _).trans (if_pos rfl)

theorem evIn_congr (h : t.tio.inputs = s.tio.inputs) (i : Nat) : t.evIn i = s.evIn i := by rw [State.evIn, State.evIn, h]

/-- Event input i takes an edge of direction `f`: it is enabled, the edge is selected, and the input is not isolated (R100, R107). -/
def State.evtTakes (s : State) (i : Nat) (f : Bool) : Prop :=
  (s.reg (evtR i 0)).getLsbD 0 = true ∧ (if f then (s.reg (evtR i 0)).getLsbD 2 else (s.reg (evtR i 0)).getLsbD 1) ∧ s.bit (evtR i 8) 1 = false

/-- EDGE selects rising edges by its low bit and falling ones by its high bit (Table 4.3). -/
theorem selected_iff (s : State) (a : Nat) (f : Bool) : (if f then 2 ≤ s.fld a 1 2 else s.fld a 1 2 % 2 == 1)
    ↔ if f then (s.reg a).getLsbD 2 else (s.reg a).getLsbD 1 := by
  have hHigh : ∀ b : BitVec 2, 2 ≤ b.toNat ↔ b.getLsbD 1 = true := by decide
  have hLow : ∀ b : BitVec 2, (b.toNat % 2 == 1) = b.getLsbD 0 := by decide
  rw [State.fld, getField, hHigh, hLow, BitVec.getLsbD_extractLsb', BitVec.getLsbD_extractLsb']
  cases f <;> simp

theorem evtTakes_iff (s : State) (i : Nat) (f : Bool) : s.evtTakes i f ↔
    ¬ (!s.bit (evtR i 0) 0 || !decide (if f then 2 ≤ s.fld (evtR i 0) 1 2 else s.fld (evtR i 0) 1 2 % 2 == 1) || s.bit (evtR i 8) 1) = true := by
  rw [State.evtTakes, ← bit_eq_getLsbD, ← selected_iff]
  simp only [Bool.or_eq_true, Bool.not_eq_true', not_or, Bool.not_eq_false, Bool.not_eq_true, and_assoc, decide_eq_true_eq]

/-- What event input i does with an edge that it takes outside the dead time, at the instant that its clock shows as `y`. -/
theorem evtEdge_stamps {t y ci at0 : Nat} {falling f : Bool} (hF : f = inputEdge (s.bit (evtR i 0) 9) (s.bit (evtR i 8) 0) falling)
    (hCi : ci = s.fld (evtR i 0) 3 4) (hAt : at0 = ((edgePhase t : Int) - s.sfld (evtR i 4) 0 32 * 2 ^ 40).toNat) (hTakes : s.evtTakes i f)
    (hLive : (s.evIn i).dead t = false) (hRoom : s.tio.evtq.length < 1024) (hConv : s.fromCi0 ci at0 = some y) (hU : s.evtEdge i t falling = u) :
    u.now = max s.now t ∧ u.tio.evtq = insertStamp ⟨i, f, ci, if s.instState ci = 3 then 3 else 0, y, at0⟩ s.tio.evtq := by
  unfold State.evtEdge at hU
  extract_lets s1 cfg f1 sel selected x s2 c0 ci1 at hU
  have hF1 : f1 = f := hF.symm
  have hGoes := (evtTakes_iff s i f).mp hTakes
  rw [← hF1] at hGoes
  rw [if_neg (show ¬ (!s1.bit cfg 0 || !decide selected || s1.bit (evtR i 8) 1) = true from hGoes), if_neg (by rw [show x.dead t = false from hLive]; decide)] at hU
  have hC0 : c0 = at0 := hAt.symm
  have hStamp : s2.stampIn ci1 c0 = (y, if s.instState ci = 3 then .invalid else .ok, s2) := by
    rw [hC0, show ci1 = ci from hCi.symm, State.stampIn, show s2.fromCi0 ci at0 = some y from hConv]
    rfl
  have hCode : (if s.instState ci = 3 then Conv.invalid else Conv.ok).code = if s.instState ci = 3 then 3 else 0 := by split <;> rfl
  rw [hStamp, hC0, hF1, show ci1 = ci from hCi.symm] at hU
  dsimp only at hU
  rw [hCode] at hU
  obtain ⟨hQueue, hNow⟩ := pushStamp_joins (s := s2) (e := ⟨i, f, ci, if s.instState ci = 3 then 3 else 0, y, at0⟩) hRoom
  generalize s2.pushStamp ⟨i, f, ci, if s.instState ci = 3 then 3 else 0, y, at0⟩ = s3 at hU hQueue hNow
  have hEnd : Heard s3 u := by
    rw [← hU]
    exact .ite Heard.refl.rewTrigger .refl
  exact ⟨hEnd.now.trans hNow, hEnd.evtq.trans hQueue⟩

/-- An edge in the dead time is counted DEAD. -/
theorem evtEdge_dead {t : Nat} {falling f : Bool} (hF : f = inputEdge (s.bit (evtR i 0) 9) (s.bit (evtR i 8) 0) falling)
    (hTakes : s.evtTakes i f) (hDead : (s.evIn i).dead t = true) : s.evtEdge i t falling = (s.advance t).count (evtR i 0xC) 0 16 := by
  subst hF
  exact (if_neg ((evtTakes_iff s i _).mp hTakes)).trans (if_pos hDead)

theorem evtEdge_ignored {t : Nat} {falling f : Bool} (hF : f = inputEdge (s.bit (evtR i 0) 9) (s.bit (evtR i 8) 0) falling)
    (hTakes : ¬ s.evtTakes i f) : s.evtEdge i t falling = s.advance t := by
  subst hF
  exact if_pos (not_not.mp (mt (evtTakes_iff s i _).mpr hTakes))

/-! ### PPS inputs (R103, R104) -/

/-- The registers of the PPS inputs are among those that `Heard` keeps. -/
theorem ppsiR_within {r : Nat} (hk : k < 2) (hr : r < 0x20) : ppsiR 0 0 ≤ ppsiR k r ∧ ppsiR k r < laneB := by
  simp only [ppsiR, tioB, laneB, block]
  omega

theorem Heard.ppsiStat (h : Heard s t) (hk : k < 2) (j : Nat) : t.bit (ppsiR k 4) j = s.bit (ppsiR k 4) j :=
  have hWithin := ppsiR_within hk (r := 4) (by decide)
  bit_of_reg (h.reg _ hWithin.1 hWithin.2) j

/-- The stamps of the PPS inputs stand apart from the inputs themselves. -/
theorem ppsiStamp_inputs (s : State) (m : Map Nat) : ({ s with tio := { s.tio with ppsiStamp := m } } : State).tio.inputs = s.tio.inputs := rfl

/-- The conditions under which PPS input k examines an edge at the phase `e`: it is enabled, the edge is of its polarity, it is not isolated,
and the dead time is over. -/
structure Examines (s : State) (k e : Nat) (f : Bool) : Prop where
  enabled : s.bit (ppsiR k 0) 0 = true
  edge : f = s.bit (ppsiR k 0) 5
  free : s.bit (ppsiR k 4) 2 = false
  live : (s.evIn (16 + k)).dead e = false

theorem Examines.goes {e : Nat} {f : Bool} (h : Examines s k e f) :
    ¬ (!s.bit (ppsiR k 0) 0 || f != s.bit (ppsiR k 0) 5 || s.bit (ppsiR k 4) 2 || (s.evIn (16 + k)).dead e) = true := by
  rw [h.enabled, h.edge, h.free, h.live, bne_self_eq_false]
  decide

/-- An edge a second after the last one makes the input VALID (R103). -/
theorem ppsEdge_valid {t l e : Nat} {falling f : Bool} (hF : f = inputEdge (s.bit (ppsiR k 0) 3) (s.bit (ppsiR k 4) 1) falling)
    (hE : e = edgePhase t) (hExamines : Examines s k e f) (hLast : (s.evIn (16 + k)).last = some l)
    (hEarly : secU ≤ e - l + max 1 (s.fld (ppsiR k 0) 8 8) * usU) (hLate : e - l ≤ secU + max 1 (s.fld (ppsiR k 0) 8 8) * usU)
    (hk : k < 2) (hU : s.ppsEdge k t falling = u) :
    (u.evIn (16 + k)).lastValid = some e ∧ u.bit (ppsiR k 4) 0 = true ∧ aget (fun _ => 0) u.tio.ppsiStamp k = e / 2 ^ 32 := by
  subst hF hE
  unfold State.ppsEdge at hU
  extract_lets s1 e cfg stat f x tol valid s2 s3 _ s4 s5 at hU
  have hValid : valid = true := by
    simp only [valid, show x.last = some l from hLast, decide_eq_true_eq]
    exact ⟨hEarly, hLate⟩
  rw [if_neg (show ¬ (!s1.bit cfg 0 || f != s1.bit cfg 5 || s1.bit stat 2 || x.dead e) = true from hExamines.goes), if_pos hValid] at hU
  have hEnd : Heard s5 u := by
    rw [← hU]
    exact Heard.refl.feedPps.ppsDisagree
  have hInput : s5.evIn (16 + k) = { x with last := some e, lastValid := some e } :=
    (evIn_congr (congrArg TioSt.inputs ((State.setCause_tio _ _ _).trans (State.setBit_tio s4 stat 0 true))) _).trans
      ((evIn_congr (ppsiStamp_inputs s3 _) _).trans (setEvIn_evIn s2 (16 + k) { x with last := some e, lastValid := some e }))
  have hShown : s5.bit (ppsiR k 4) 0 = true := (State.setCause_bit _ _ _ _ _).trans (State.bit_setBit _ _ _ _ (by decide))
  have hStamp : aget (fun _ => 0) s5.tio.ppsiStamp k = e / 2 ^ 32 := by
    show aget (fun _ => 0) (aset (fun _ => 0) s3.tio.ppsiStamp k (e / 2 ^ 32)) k = _
    rw [aget_aset, if_pos rfl]
  refine ⟨?_, ?_, ?_⟩
  · rw [evIn_congr hEnd.inputs, hInput]
  · rw [hEnd.ppsiStat hk, hShown]
  · rw [hEnd.ppsiStamp, hStamp]

/-- The first edge after a loss is not valid, and is counted (R103). -/
theorem ppsEdge_first {t e : Nat} {falling f : Bool} (hF : f = inputEdge (s.bit (ppsiR k 0) 3) (s.bit (ppsiR k 4) 1) falling)
    (hE : e = edgePhase t) (hExamines : Examines s k e f) (hLast : (s.evIn (16 + k)).last = none) (hU : s.ppsEdge k t falling = u) :
    (u.evIn (16 + k)).last = some e ∧ u.fld (ppsiR k 4) 16 16 = min 65535 (s.fld (ppsiR k 4) 16 16 + 1) := by
  subst hF hE
  unfold State.ppsEdge at hU
  extract_lets s1 e cfg stat f x tol valid s2 s3 _ s4 s5 at hU
  have hValid : valid = false := by
    simp only [valid, show x.last = none from hLast]
  rw [if_neg (show ¬ (!s1.bit cfg 0 || f != s1.bit cfg 5 || s1.bit stat 2 || x.dead e) = true from hExamines.goes), if_neg (by rw [hValid]; decide)] at hU
  have hReg : s2.reg (ppsiR k 4) = s.reg (ppsiR k 4) := by
    unfold s2
    split
    · exact pushStamp_reg (Nat.le_add_right 16 k) (by simp only [ppsiR]; omega)
    · rfl
  subst hU
  refine ⟨congrArg EvIn.last (setEvIn_evIn s2 _ _), (fld_count (by decide)).trans ?_⟩
  rw [← fld_of_reg hReg 16 16]
  rfl

/-- Without a valid edge for 1.5 s the input is not VALID (R103). -/
theorem ppsLost_ends {l : Nat} (hk : k < 2) (hValid : (s.evIn (16 + k)).lastValid = some l) (hU : s.ppsLost k = u) :
    u.bit (ppsiR k 4) 0 = false ∧ (u.evIn (16 + k)).lastValid = none ∧ Raises u (Src.ppsLost k) ∧ u.now = max s.now (l + 3 * secU / 2) := by
  unfold State.ppsLost at hU
  extract_lets x at hU
  rw [show x.lastValid = some l from hValid] at hU
  dsimp -zeta only at hU
  extract_lets s1 s2 s3 at hU
  have hEnd : Heard s3 u := by
    rw [← hU]
    exact Heard.refl.foldl fun _ _ hj h => .ite (h.loseReference (by have := List.mem_range.mp hj; omega)) h
  have hShown : s3.bit (ppsiR k 4) 0 = false :=
    (State.raise_bit _ _ _ _ _).trans ((State.setCause_bit _ _ _ _ _).trans (State.bit_setBit _ _ _ _ (by decide)))
  have hInput : s3.evIn (16 + k) = { x with last := none, lastValid := none } := setEvIn_evIn s1 _ _
  have hRaised : Raises s3 (Src.ppsLost k) := raises_raise _ _ _
  refine ⟨?_, ?_, hRaised.imp fun r hr => ⟨hEnd.raises r hr.1, hr.2⟩, hEnd.now⟩
  · rw [hEnd.ppsiStat hk, hShown]
  · rw [evIn_congr hEnd.inputs, hInput]

theorem ppsiRead_latches (s : State) (k : Nat) : aget (fun _ => 0) (s.ppsiRead k).tio.ppsiLatch k = aget (fun _ => 0) s.tio.ppsiStamp k
    ∧ (s.ppsiRead k).resp = .ok (sec16 (aget (fun _ => 0) s.tio.ppsiStamp k) / 2 ^ 32) := by
  refine ⟨(aget_aset _ _ _ _ _).trans (if_pos rfl), congrArg Resp.ok (Nat.mod_eq_of_lt ?_)⟩
  have hSec : sec16 (aget (fun _ => 0) s.tio.ppsiStamp k) < 2 ^ 48 := Nat.mod_lt _ (by decide)
  omega

/-! ### The obligation -/

/-- Each kind of driver fault does the same but for its DIAG bit. -/
theorem driverFault_faults (s : State) (c : Fin 28) {cmd : Instr} {b : Nat} (hb : b < 4) (hCmd : exec cmd s = .next (s.driverFault c b)) :
    (∀ f, s.fnOf c = some f → f < 28 → Gives cmd s (fun u => aget (fun _ => Level.z) u.tio.contacts c = .z ∧ u.bit (outDiag f) b = true
        ∧ u.bit (outDiag f) 4 = true ∧ Raises u (Src.output f)))
      ∧ (∀ f, s.fnOf c = some f → 28 ≤ f → Gives cmd s (fun u => aget (fun _ => Level.z) u.tio.contacts c = .z
        ∧ u.bit (pinB + 0x104) (16 + (f - 28)) = true))
      ∧ (s.fnOf c = none → exec cmd s = .next s) :=
  ⟨fun _ hFn hf => ⟨_, hCmd, driverFault_output hFn hf hb rfl⟩, fun _ hFn hf => ⟨_, hCmd, driverFault_gpo hFn hf rfl⟩,
    fun hFn => hCmd.trans (congrArg Host.Outcome.next (driverFault_none hFn))⟩

/-- Settles O20: each command by its lemma. -/
theorem inputAndDriverResults : Obligations.InputAndDriverResults := by
  unfold Obligations.InputAndDriverResults
  refine ⟨fun c i j l d v s => ?outputs, fun i k t falling s => ?inputs⟩
  case outputs =>
    refine ⟨driverFault_faults s c (by decide) rfl, driverFault_faults s c (by decide) rfl, driverFault_faults s c (by decide) rfl,
      fun f hFn hTrig hOn hHigh hFree hGap hFirst => ?tests, ⟨_, rfl, diagClear_clears (fun _ _ => rfl) rfl⟩,
      ⟨_, rfl, polarityInvert_inverts rfl rfl⟩, ⟨_, rfl, overvoltage_latches s j⟩, ⟨_, rfl, driftMeasure_shows s d⟩⟩
    case tests =>
      obtain ⟨hExceeds, hHolds⟩ := openTestAt_tests hFn hTrig hOn hHigh hFree hGap hFirst
      exact ⟨⟨_, rfl, hExceeds⟩, ⟨_, rfl, hHolds⟩⟩
  case inputs =>
    intro cfg f e takes ci dead pf x tol at0
    have hTol : tol = max 1 (s.fld (ppsiR k 0) 8 8) * usU := Nat.mul_assoc _ _ _
    have hTakes : takes ↔ s.evtTakes i f := Iff.rfl
    refine ⟨fun y h hLive hRoom hConv => ⟨_, rfl, ?stamps⟩, fun h hDead => ⟨_, rfl, ?counts⟩, fun h => ⟨_, rfl, evtEdge_ignored rfl h⟩,
      fun e rest hQueue hFits => ⟨_, rfl, popStamp_pops hQueue hFits⟩, fun hEmpty => ⟨_, rfl, popStamp_empty hEmpty⟩,
      fun l hEn hEdge hFree hLast hOver hEarly hLate => ⟨_, rfl, ?valid⟩, fun hEn hEdge hFree hLast => ⟨_, rfl, ?first⟩,
      fun l hValid => ⟨_, rfl, ppsLost_ends k.isLt hValid rfl⟩, ⟨_, rfl, ppsiRead_latches s k⟩⟩
    case stamps =>
      have hNotDead : (s.evIn i).dead t = false := Bool.eq_false_iff.mpr (mt dead_iff.mp hLive)
      obtain ⟨hNow, hQueue⟩ := evtEdge_stamps rfl rfl rfl (hTakes.mp h) hNotDead hRoom hConv rfl
      obtain ⟨l, r, hSplit, hJoined, hBefore, hBehind⟩ :=
        insertStamp_splits ⟨i, f, ci, if s.instState ci = 3 then 3 else 0, y, at0⟩ s.tio.evtq
      exact ⟨hNow, l, r, hSplit, hQueue.trans hJoined, hBefore, hBehind⟩
    case counts =>
      rw [evtEdge_dead rfl (hTakes.mp h) (dead_iff.mpr hDead)]
      exact ⟨rfl, fld_count (by decide)⟩
    case valid =>
      have hLive : x.dead e = false := by
        rw [EvIn.dead, hLast]
        exact decide_eq_false (by omega)
      rw [hTol] at hEarly hLate
      exact ppsEdge_valid rfl rfl ⟨hEn, hEdge, hFree, hLive⟩ hLast hEarly hLate k.isLt rfl
    case first =>
      have hLive : x.dead e = false := by rw [EvIn.dead, hLast]
      exact ppsEdge_first rfl rfl ⟨hEn, hEdge, hFree, hLive⟩ hLast rfl

end Sys2Proof.Machine
end
